-- ==== Sys2Proof/Word.lean ====
section
/-! DEFINITION. The machine's word and byte, the place of a bit field in a register, and a complex number of a slice. -/
namespace Sys2Proof.Machine

/-- A 32-bit register or bus word (R6). -/
abbrev Word := BitVec 32

/-- One byte of a memory. -/
abbrev Byte := BitVec 8

/-- A bit field of a register: the register's address in the engine view (R18, R20), the field's lowest bit and its
width in bits (the field tables of each chapter). -/
structure Loc where
  addr : Nat
  lo : Nat
  w : Nat
  deriving DecidableEq, Repr

/-- A complex number. -/
structure Cx where
  re : Rat
  im : Rat
  deriving DecidableEq, Repr

end Sys2Proof.Machine
end

