-- ==== Sys2Proof/Syntax.lean ====
section
/-! DEFINITION. The commands of the block: one constructor of `Instr` for each row of the table of operations and events
(chapter 95 lists what each step holds), in the table's order, with the operands each row needs. A command that stands
for a write of a register carries the engine that writes; a measured or analog quantity, and what arrives on a wire, is an
operand. -/
namespace Sys2Proof

open Sys2Proof.Machine

/-- The width of an engine's data access (R6, R291). -/
inductive AccSize where
  | byte
  | half
  | word
  deriving DecidableEq, Repr

/-- What a read of an ECC word meets (R30, R31). -/
inductive Upset where
  | clean
  | single
  | double
  deriving DecidableEq, Repr

/-- The phase-locked loops whose loss of lock causes holdover (R15). -/
inductive Pll where
  | cplla
  | cpllb
  | syspll
  deriving DecidableEq, Repr

/-- Where an offset for the servo of TB0 comes from (R263). -/
inductive OfsSource where
  | lnk
  | jjl0
  | jjl1
  deriving DecidableEq, Repr


/-- How a received Jajor frame ends (R218, R219). -/
inductive JjEnd where
  | eof
  | abort
  | codeError
  deriving DecidableEq, Repr

/-- What a slice sees of a preamble (R107): 128 successive samples of Millefeuille short training, or the correlation of a
standard waveform's preamble in sixteenths. -/
inductive RxSync where
  | samples (x : List Cx)
  | sixteenths (c : Nat)
  deriving DecidableEq, Repr

/-- What the modem takes of a frame's header (R101, R115 to R117). Symbols are the values on the 104 used subcarriers in
ascending order, after frequency correction and FFT (R109). -/
inductive RxHeader where
  /-- The two long training symbols of a Millefeuille frame and the 24 bits decoded from its header symbol. -/
  | mf (long1 long2 : List Cx) (word : BitVec 24)
  /-- The PHR of O-QPSK. -/
  | oqpsk (phr : BitVec 8)
  /-- The SFD and PHR of SUN-FSK: a coded SFD; mode switch, 4-byte FCS, whitening, length. -/
  | fsk (coded modeSwitch fcs4 white : Bool) (len : BitVec 11)
  /-- The PHR of SUN-OFDM: its check passed, MCS, length. -/
  | ofdm (ok : Bool) (mcs : BitVec 5) (len : BitVec 11)
  deriving DecidableEq, Repr

/-- What the end of a frame brings beside the decoder pool (R113, R114): of a Millefeuille frame nothing; of a standard
waveform its PSDU as decoded, and the sums of the squared errors and references. -/
inductive RxBody where
  | millefeuille
  | standard (psdu : List (BitVec 8)) (err ref : Nat)
  deriving DecidableEq, Repr

/-- What a debugger reaches in an open engine (R325). -/
inductive DbgReg where
  /-- g1 to g31. -/
  | gpr (r : Fin 32)
  /-- A special register by its number (R299). -/
  | special (r : BitVec 8)
  /-- The word of its local memories at a local address. -/
  | mem (a : BitVec 17)
  deriving DecidableEq, Repr

/-- One command. -/
inductive Instr where
  /-- REGISTER_WRITE (R4). Engine `e` writes `value` at an address of a register that has no row of its own; any address and size may be given -/
  | registerWrite (e : Fin 16) (size : AccSize) (addr value : Word)
  /-- LOW_WORD_READ (R7). Engine `e` reads the lower word of a two-register value -/
  | lowWordRead (e : Fin 16) (addr : Word)
  /-- LOW_WORD_WRITE (R7). Engine `e` writes the lower word of a two-register value -/
  | lowWordWrite (e : Fin 16) (addr value : Word)
  /-- UPPER_WORD_WRITE (R7). Engine `e` writes the upper word of a two-register value -/
  | upperWordWrite (e : Fin 16) (addr value : Word)
  /-- FAULTREC_CLEAR (R24). Engine `e` writes 1 to SYS_FAULTREC.VALID -/
  | faultrecClear (e : Fin 16)
  /-- IRQMAP_WRITE (R25). Engine `e` writes SYS_IRQMAPn -/
  | irqmapWrite (e : Fin 16) (n : Fin 26) (value : Word)
  /-- SW_WARM_RESET_REQUEST (R36). Engine `e` writes SYS_RSTCTL with the key and ACTION 0x1 -/
  | swWarmResetRequest (e : Fin 16)
  /-- SW_COLD_RESET_REQUEST (R36). Engine `e` writes SYS_RSTCTL with the key and ACTION 0x2 -/
  | swColdResetRequest (e : Fin 16)
  /-- SW_ENGINE_RESET (R36). Engine `e` writes SYS_RSTCTL with the key, ENGINE n and ACTION 0x3 -/
  | swEngineReset (e n : Fin 16)
  /-- SCRUB_READ (R33). The scrubber of a memory of R29 reads its next ECC word and meets `upset` -/
  | scrubRead (mem : Fin 13) (inst : Fin 16) (upset : Upset)
  /-- REF_EDGE_TIMEOUT (R14). No REF edge for 1 us -/
  | refEdgeTimeout
  /-- REFMON_WINDOW_END (R14). A monitor window ends with measured error `ppm`; `gap`: 1 us without an edge occurred in it -/
  | refmonWindowEnd (ppm : Int) (gap : Bool)
  /-- PLL_UNLOCK (R15). One of the three loops loses lock -/
  | pllUnlock (p : Pll)
  /-- SERPLL_UNLOCK (R17). SERPLL loses lock -/
  | serpllUnlock
  /-- SERPLL_RELOCK (R17). SERPLL regains lock -/
  | serpllRelock
  /-- BEAT_BOUNDARY (R43). TB0 reaches a multiple of the beat period; `tj`: the junction temperature in degrees C -/
  | beatBoundary (tj : Int)
  /-- PLL_RELOCK (R55). One of the three loops is locked again -/
  | pllRelock (p : Pll)
  /-- RAIL_VOLTAGE_SETTLED (R43). The voltage of the engine cluster rail, or of the channelizer rail (`chan`), has settled after a raise -/
  | railVoltageSettled (chan : Bool)
  /-- PERF_LEVEL_REQUEST (R44). Engine `e` writes BEAT_PLREQ -/
  | perfLevelRequest (e : Fin 16) (value : Word)
  /-- BEAT_PERIOD_WRITE (R39). Engine `e` writes BEAT_CTRL -/
  | beatPeriodWrite (e : Fin 16) (value : Word)
  /-- BEAT_DONE (R48). Engine `e` writes BEAT_DONE -/
  | beatDone (e : Fin 16) (value : Word)
  /-- QUEUE_FLUSH (R252). Engine `e` writes QSC_QCFGq with FLUSH 1 -/
  | queueFlush (e : Fin 16) (q : Fin 64) (value : Word)
  /-- TAKEOVER_COPY_DONE (R324). The copy of the failed engine's memories to the spare has ended -/
  | takeoverCopyDone
  /-- CHAIN_AGC_WINDOW (R63). A 1 us window ends; its peak lay `below` hundredths of a dB below full scale (0: saturation) -/
  | chainAgcWindow (x : Fin 2) (below : Nat)
  /-- MANUAL_GAIN_WRITE (R65). Engine `e` writes RXF_CTRLx, meant to set the manual gain -/
  | manualGainWrite (e : Fin 16) (x : Fin 2) (value : Word)
  /-- SLICE_VALID_AGAIN (R68). A deafened slice delivers samples again -/
  | sliceValidAgain (n : Fin 16)
  /-- SLICE_RETUNE (R72). Engine `e` writes SLC_CFGn (`cfg`) or SLC_TUNEn -/
  | sliceRetune (e : Fin 16) (n : Fin 16) (cfg : Bool) (value : Word)
  /-- SLICE_SETTLED (R72). The settle time of slice n ends -/
  | sliceSettled (n : Fin 16)
  /-- SLICE_ASSIGN_WRITE (R73). Engine `e` writes SLC_CFGn, meant to change MODE or CHAIN -/
  | sliceAssignWrite (e : Fin 16) (n : Fin 16) (value : Word)
  /-- RSSI_WINDOW (R76). An RSSI window ends: the mean power at the ball, and the digital gain that would hold the target, both in 0.5 dB -/
  | rssiWindow (n : Fin 16) (power : Int) (gain : Nat)
  /-- TASTE_START (R77). Engine `e` writes RXF_TASTEx with START -/
  | tasteStart (e : Fin 16) (x : Fin 2) (value : Word)
  /-- TASTE_DECISION (R78). A taste window ends with this mean power in 0.5 dB and preamble correlation in sixteenths -/
  | tasteDecision (x : Fin 2) (power : Int) (corr : Nat)
  /-- TASTE_INTERVAL_TICK (R185). A SLOW tick of the interval logic of chain x -/
  | tasteIntervalTick (x : Fin 2)
  /-- AWAKE_RELEASE (R187). LINGER has passed on the awake slice of chain x -/
  | awakeRelease (x : Fin 2)
  /-- CONTINUATION_CHECK (R192). The mean power at the ball, in 0.5 dB, 8 to 16 us after the last frame of slice n -/
  | continuationCheck (n : Fin 16) (power : Int)
  /-- FRAME_SYNC (R107). A slice detects a preamble; the modem stamps the frame's timing marker `marker` of 2^-16 ns after this instant -/
  | frameSync (n : Fin 16) (marker : Int) (seen : RxSync)
  /-- HEADER_RECEIVED (R108). The header is decoded; `head` are the first bytes of the MPDU, `rssi` the power at the ball in 0.5 dB -/
  | headerReceived (n : Fin 16) (h : RxHeader) (head : List (BitVec 8)) (rssi : Int)
  /-- CODEWORD_READY (R111). The body symbols since the last codeword bring the last soft bit of the next one of slice n -/
  | codewordReady (n : Fin 16) (symbols : List (List Cx))
  /-- CODEWORD_DECODED (R111). Decoder d finishes -/
  | codewordDecoded (d : Fin 4)
  /-- FRAME_VERDICT (R113). The frame of slice n has ended -/
  | frameVerdict (n : Fin 16) (body : RxBody)
  /-- FRAME_ACCEPTANCE (R166). The oldest undecided OK frame of slice n is decided -/
  | frameAcceptance (n : Fin 16)
  /-- ACK_LAUNCH (R169). The oldest acknowledgement owed on slice n is handed to its carrier for launch at its gap -/
  | ackLaunch (n : Fin 16)
  /-- TX_CELL_START (R158). The cell start of a loaded transmit action -/
  | txCellStart (cell : Fin 4096)
  /-- CCA_START (R161). The clear-channel assessment of the cell's transmit action starts -/
  | ccaStart (cell : Fin 4096)
  /-- CCA_END (R161). It ends with this mean power at the ball, in 0.5 dB -/
  | ccaEnd (cell : Fin 4096) (power : Int)
  /-- TX_GATE (R141). The gate of carrier c, with the level of the COEX_GNT ball -/
  | txGate (c : Fin 8) (grant : Bool)
  /-- TX_LATE_EXPIRY (R132). The latest ramp-up start of a frame that waits for lock on carrier c has passed -/
  | txLateExpiry (c : Fin 8)
  /-- RAMP_UP_START (R129). The ramp-up of carrier c starts -/
  | rampUpStart (c : Fin 8)
  /-- FRAME_LAUNCH (R129). The first sample of carrier c leaves the ball -/
  | frameLaunch (c : Fin 8)
  /-- LAST_SAMPLE (R129). The last sample of carrier c is sent -/
  | lastSample (c : Fin 8)
  /-- RAMP_DOWN_END (R129). The ramp-down of carrier c ends -/
  | rampDownEnd (c : Fin 8)
  /-- ACK_WAIT_TIMEOUT (R158). The latest SYNC of the cell's acknowledgement has passed -/
  | ackWaitTimeout (cell : Fin 4096)
  /-- RX_WINDOW_OPEN (R159). The window of the cell's receive action opens -/
  | rxWindowOpen (cell : Fin 4096)
  /-- RX_WINDOW_CLOSE (R159). It closes -/
  | rxWindowClose (cell : Fin 4096)
  /-- MASK_CHECK_END (R137). The monitor has measured the frame: for each bin its offset from the carrier centre in 100 kHz and its level in hundredths of a dB relative to the carrier -/
  | maskCheckEnd (c : Fin 8) (bins : List (Int × Int))
  /-- GLAZE_CUT (R143). Over 4 us carrier c measured `level` hundredths of a dBm -/
  | glazeCut (c : Fin 8) (level : Int)
  /-- LO_WRITE (R123). Engine `e` writes TXF_LOx -/
  | loWrite (e : Fin 16) (x : Fin 2) (value : Word)
  /-- RETUNE_HELD_START (R123). The held retune of chain x may start -/
  | retuneHeldStart (x : Fin 2)
  /-- SYNTH_CALIBRATION_END (R131). The calibration of SYA or SYB ends -/
  | synthCalibrationEnd (x : Fin 2)
  /-- SYNTH_LOCK (R131). SYA or SYB locks -/
  | synthLock (x : Fin 2)
  /-- SYNTH_UNLOCK (R131). SYA or SYB loses lock unrequested -/
  | synthUnlock (x : Fin 2)
  /-- COEX_REQUEST_ASSERT (R144). REQLEAD before the ramp-up of carrier c -/
  | coexRequestAssert (c : Fin 8)
  /-- COEX_GRANT_DROP (R144). The COEX_GNT ball goes to its inactive level -/
  | coexGrantDrop
  /-- GLAZE_SEAL (R139). Engine `e` writes GLZ_SEAL -/
  | glazeSeal (e : Fin 16) (value : Word)
  /-- GLAZE_PROGRAM_DONE (R139). The glaze has been programmed, its valid marker last -/
  | glazeProgramDone
  /-- DUTY_BUCKET_ROLL (R142). A second of duty accounting ends -/
  | dutyBucketRoll
  /-- NBR_TABLE_WRITE (R180). Engine `e` writes word 0 or 1 (`word`) of neighbour entry n -/
  | nbrTableWrite (e : Fin 16) (n : Fin 256) (word : Bool) (value : Word)
  /-- SCAN_RUN_WRITE (R201). Engine `e` writes LNK_SCAN -/
  | scanRunWrite (e : Fin 16) (value : Word)
  /-- MSH_DECISION (R209). MSH decides the next packet of its ports, in the order of R207 -/
  | mshDecision
  /-- MSH_DOWN_CLEAR (R212). Engine `e` writes MSH_DOWNn -/
  | mshDownClear (e : Fin 16) (n : Fin 8) (value : Word)
  /-- NOBUF_REOFFER (R242). Cells were freed and the packet waiting under NOBUF at this port of MSH is offered again (1 Ethernet, 4 host, 5 engines) -/
  | nobufReoffer (port : Fin 6)
  /-- OUTLET_SELECT (R248). A ready outlet of O2 to O7 selects -/
  | outletSelect (o : Fin 8)
  /-- OUTLET_SEND_DONE (R248). The outlet has finished the packet it was sending -/
  | outletSendDone (o : Fin 8)
  /-- POLICER_TICK (R251). One microsecond of policer n -/
  | policerTick (n : Fin 32)
  /-- RESERVATION_WRITE (R240). Engine `e` writes QSC_RSVo -/
  | reservationWrite (e : Fin 16) (o : Fin 8) (value : Word)
  /-- JAJOR_ALIGN (R221). Commas are seen on Jajor port p -/
  | jajorAlign (p : Fin 2)
  /-- JAJOR_UP (R221). 1,024 good characters and the first CRD; its two data bytes, the first in [7:0] -/
  | jajorUp (p : Fin 2) (crd : BitVec 16)
  /-- JAJOR_DOWN (R221). 16 errors within 1,024 characters, or no comma for 10 us -/
  | jajorDown (p : Fin 2)
  /-- JAJOR_FRAME_RECEIVED (R219). The characters between SOF and the ending: LEN, packet, CRC -/
  | jajorFrameReceived (p : Fin 2) (body : List (BitVec 8)) (ending : JjEnd)
  /-- JAJOR_CREDIT_RETURN (R220). A CRD set arrives; its two data bytes, the first in [7:0] -/
  | jajorCreditReturn (p : Fin 2) (crd : BitVec 16)
  /-- JAJOR_BAS_RECEIVED (R222). A BAS arrives, `arr` after the own boundary of that ABN in 1/16 ns; its six data bytes, the first in [7:0] -/
  | jajorBasReceived (p : Fin 2) (bas : BitVec 48) (arr : Int)
  /-- JAJOR_BFU_RECEIVED (R222). A BFU arrives; its six data bytes, the first in [7:0] -/
  | jajorBfuReceived (p : Fin 2) (bfu : BitVec 48)
  /-- ETH_LINK_UP (R223). The link comes up; `speed` as signalled by SGMII: 0 10, 1 100, 2 1000 Mbit/s -/
  | ethLinkUp (speed : Fin 3)
  /-- ETH_LINK_DOWN (R223). The link goes down -/
  | ethLinkDown
  /-- ETH_FRAME_RECEIVED (R224). A frame from destination address to FCS; its stamp point was `ago` of 2^-16 ns before -/
  | ethFrameReceived (frame : List (BitVec 8)) (ago : Nat)
  /-- ETH_PAUSE_RECEIVED (R224). A PAUSE frame arrives -/
  | ethPauseReceived (quanta : BitVec 16)
  /-- MDIO_START (R226). Engine `e` writes ETH_MDIO -/
  | mdioStart (e : Fin 16) (value : Word)
  /-- MDIO_DONE (R226). The MDIO frame ends; `data` is what a read returned -/
  | mdioDone (data : BitVec 16)
  /-- TB_SNAPSHOT (R259). Engine `e` writes TSU_SNAP -/
  | tbSnapshot (e : Fin 16) (value : Word)
  /-- TB_FRAC_READ (R259). Engine `e` reads TSU_TBnFRAC -/
  | tbFracRead (e : Fin 16) (n : Fin 4)
  /-- TB_STEP (R261). Engine `e` writes TSU_STEPnCMD, meant to step base n -/
  | tbStep (e : Fin 16) (n : Fin 4) (value : Word)
  /-- TB_ARM (R261). Engine `e` writes TSU_STEPnCMD, meant to re-arm base n -/
  | tbArm (e : Fin 16) (n : Fin 4) (value : Word)
  /-- TB_CAPTURE (R259). Engine `e` writes TSU_STEPnCMD, meant to capture base n -/
  | tbCapture (e : Fin 16) (n : Fin 4) (value : Word)
  /-- TB_SECOND_ROLLOVER (R452). Base n rolls over a second -/
  | tbSecondRollover (n : Fin 4)
  /-- SERVO_OFFSET (R263). An offset arrives, in 0.1 us from LNK or in 1/16 ns from a Jajor port; `before`: it was measured before the latest step of TB0 -/
  | servoOffset (src : OfsSource) (o : Int) (before : Bool)
  /-- SLEW_COMPLETE (R264). The pending phase reaches zero -/
  | slewComplete
  /-- LAUNCH_TIME_REACHED (R270). The launch time of the head packet of queue q is reached -/
  | launchTimeReached (q : Fin 64)
  /-- SLOW_CAL_WINDOW (R271). A calibration window ends with this mean tick period in 2^-16 ns -/
  | slowCalWindow (meanPeriod : Word)
  /-- SLEEP_ENTRY_LATCH (R272). Edge E0; `slow`: SLOW is running -/
  | sleepEntryLatch (slow : Bool)
  /-- SLEEP_EXIT_ADVANCE (R272). Edge E1; `slow`: SLOW ran throughout -/
  | sleepExitAdvance (slow : Bool)
  /-- BUNDLE_ISSUE (R281). Engine n issues the bundle at its program counter -/
  | bundleIssue (n : Fin 16)
  /-- INTERRUPT_ENTRY (R303). Engine n takes the interrupt that R303 allows -/
  | interruptEntry (n : Fin 16)
  /-- WFI_WAKE (R308). Engine n resumes after WFI -/
  | wfiWake (n : Fin 16)
  /-- ENGINE_RUN_WRITE (R310). Engine `e` writes ENG_RUN -/
  | engineRunWrite (e : Fin 16) (value : Word)
  /-- WATCHDOG_KICK (R314). Engine `e` writes ENG_KICKn -/
  | watchdogKick (e n : Fin 16) (value : Word)
  /-- WATCHDOG_WARN (R315). BEAT_PHASE has reached half the beat period -/
  | watchdogWarn
  /-- MAILBOX_OPEN (R317). Engine `e` writes ENG_TXDESTn -/
  | mailboxOpen (e n : Fin 16) (value : Word)
  /-- MAILBOX_WRITE (R317). Engine `e` writes ENG_TXDATAn -/
  | mailboxWrite (e n : Fin 16) (value : Word)
  /-- MAILBOX_READ (R318). Engine `e` reads ENG_RXDATAn -/
  | mailboxRead (e n : Fin 16)
  /-- MAILBOX_FLUSH (R319). Engine `e` writes ENG_RXSTATn, meant with FLUSH -/
  | mailboxFlush (e n : Fin 16) (value : Word)
  /-- PACKET_GET (R321). Engine `e` reads ENG_PKTGETn -/
  | packetGet (e n : Fin 16)
  /-- PACKET_DONE (R322). Engine `e` writes ENG_PKTDONEn -/
  | packetDone (e n : Fin 16) (value : Word)
  /-- CELL_ALLOC (R323). Engine `e` reads ENG_ALLOCn -/
  | cellAlloc (e n : Fin 16)
  /-- CELL_LINK (R323). Engine `e` writes ENG_LINKn, meant with SET 1 -/
  | cellLink (e n : Fin 16) (value : Word)
  /-- CELL_SELECT (R323). Engine `e` writes ENG_LINKn, meant with SET 0 -/
  | cellSelect (e n : Fin 16) (value : Word)
  /-- CELL_FREE (R323). Engine `e` writes ENG_FREEn -/
  | cellFree (e n : Fin 16) (value : Word)
  /-- PACKET_SUBMIT (R323). Engine `e` writes ENG_SUBMITn -/
  | packetSubmit (e n : Fin 16) (value : Word)
  /-- DEBUG_HALT (R325). A debugger halts engine n -/
  | debugHalt (n : Fin 16)
  /-- DEBUG_STEP (R325). A debugger steps engine n by one bundle -/
  | debugStep (n : Fin 16)
  /-- DEBUG_ACCESS (R325). A debugger reads or writes a register or a memory word of engine n -/
  | debugAccess (n : Fin 16) (what : DbgReg) (write : Bool) (value : Word)
  /-- DEBUG_RELEASE (R325). A debugger releases engine n -/
  | debugRelease (n : Fin 16)
  /-- AES_INIT (R331). Engine `e` writes AES_CMDn, meant with OP INIT -/
  | aesInit (e : Fin 16) (n : Fin 64) (value : Word)
  /-- AES_CONT (R331). Engine `e` writes AES_CMDn, meant with OP CONT -/
  | aesCont (e : Fin 16) (n : Fin 64) (value : Word)
  /-- AES_SAVEW (R333). Engine `e` writes AES_CMDn, meant with OP SAVEW -/
  | aesSavew (e : Fin 16) (n : Fin 64) (value : Word)
  /-- AES_RESTW (R333). Engine `e` writes AES_CMDn, meant with OP RESTW -/
  | aesRestw (e : Fin 16) (n : Fin 64) (value : Word)
  /-- AES_CLEAR (R331). Engine `e` writes AES_CMDn, meant with OP CLEAR -/
  | aesClear (e : Fin 16) (n : Fin 64) (value : Word)
  /-- AES_JOB_END (R331). The running job of pipeline G ends -/
  | aesJobEnd
  /-- KEY_GEN (R336). Engine `e` writes KEY_CMD, meant with OP GEN -/
  | keyGen (e : Fin 16) (value : Word)
  /-- KEY_IMPORT (R336). Engine `e` writes KEY_CMD, meant with OP IMPORT -/
  | keyImport (e : Fin 16) (value : Word)
  /-- KEY_UNWRAP (R336). Engine `e` writes KEY_CMD, meant with OP UNWRAP -/
  | keyUnwrap (e : Fin 16) (value : Word)
  /-- KEY_WRAP (R336). Engine `e` writes KEY_CMD, meant with OP WRAP -/
  | keyWrap (e : Fin 16) (value : Word)
  /-- KEY_DERIVE (R336). Engine `e` writes KEY_CMD, meant with OP DERIVE -/
  | keyDerive (e : Fin 16) (value : Word)
  /-- KEY_ECDH (R336). Engine `e` writes KEY_CMD, meant with OP ECDH -/
  | keyEcdh (e : Fin 16) (value : Word)
  /-- KEY_ERASE (R338). Engine `e` writes KEY_CMD, meant with OP ERASE -/
  | keyErase (e : Fin 16) (value : Word)
  /-- KEY_SETLIMIT (R337). Engine `e` writes KEY_CMD, meant with OP SETLIMIT -/
  | keySetlimit (e : Fin 16) (value : Word)
  /-- KEY_COMMAND_DONE (R336). The running key command ends -/
  | keyCommandDone
  /-- RNG_HEALTH_FAIL (R340). The health tests look at the samples since they began -/
  | rngHealthFail (samples : List Bool)
  /-- RNG_STARTUP_DONE (R340). The 1,024 start-up samples have passed -/
  | rngStartupDone (samples : List Bool)
  /-- RNG_READ (R341). Engine `e` reads KEY_RNG -/
  | rngRead (e : Fin 16)
  /-- RNG_RESTART (R341). Engine `e` writes KEY_RNGCTL -/
  | rngRestart (e : Fin 16) (value : Word)
  /-- HASH256 (R342). Engine `e` writes PKA_OPc, meant with OP HASH256 -/
  | pkaHash256 (e : Fin 16) (c : Fin 2) (value : Word)
  /-- HASH384 (R342). Engine `e` writes PKA_OPc, meant with OP HASH384 -/
  | pkaHash384 (e : Fin 16) (c : Fin 2) (value : Word)
  /-- ECVERIFY (R343). Engine `e` writes PKA_OPc, meant with OP ECVERIFY -/
  | pkaEcverify (e : Fin 16) (c : Fin 2) (value : Word)
  /-- HSSVERIFY (R343). Engine `e` writes PKA_OPc, meant with OP HSSVERIFY -/
  | pkaHssverify (e : Fin 16) (c : Fin 2) (value : Word)
  /-- VERIFY2 (R343). Engine `e` writes PKA_OPc, meant with OP VERIFY2 -/
  | pkaVerify2 (e : Fin 16) (c : Fin 2) (value : Word)
  /-- ECSIGN (R342). Engine `e` writes PKA_OPc, meant with OP ECSIGN -/
  | pkaEcsign (e : Fin 16) (c : Fin 2) (value : Word)
  /-- ATTEST (R345). Engine `e` writes PKA_OPc, meant with OP ATTEST -/
  | pkaAttest (e : Fin 16) (c : Fin 2) (value : Word)
  /-- IDPUB (R344). Engine `e` writes PKA_OPc, meant with OP IDPUB -/
  | pkaIdpub (e : Fin 16) (c : Fin 2) (value : Word)
  /-- PKA_JOB_END (R342). The running PKA job ends -/
  | pkaJobEnd
  /-- LC_TO_PROVISIONED (R348). Engine `e` writes KEY_LCCMD, meant with TARGET 1 -/
  | lcToProvisioned (e : Fin 16) (value : Word)
  /-- LC_TO_SEALED (R348). Engine `e` writes KEY_LCCMD, meant with TARGET 2 -/
  | lcToSealed (e : Fin 16) (value : Word)
  /-- LC_TO_RETIRED (R348). Engine `e` writes KEY_LCCMD, meant with TARGET 3 -/
  | lcToRetired (e : Fin 16) (value : Word)
  /-- LIFECYCLE_MOVE_DONE (R348). The state marker of the running move is programmed -/
  | lifecycleMoveDone
  /-- DBGTOKEN (R349). A token is written through JTAG -/
  | keyDbgtoken (bytes : List (BitVec 8))
  /-- DEBUG_TOKEN_VERDICT (R349). KEY reaches its verdict on the token -/
  | debugTokenVerdict
  /-- BOOT_ROM_START (R364). E0 runs the boot ROM to its end; `flash`: the flash gives SFDP tables and its reads succeed; `time`: what it took, in 10 us -/
  | bootRomStart (flash : Bool) (time : BitVec 16)
  /-- RECIPE_COMMIT (R366). Engine `e`, as the boot ROM does, writes UPD_COMMIT -/
  | recipeCommit (e : Fin 16) (value : Word)
  /-- BEGIN (R370). Engine `e` writes UPD_CMD, meant with OP BEGIN -/
  | updBegin (e : Fin 16) (value : Word)
  /-- MORSEL (R371). Engine `e` writes UPD_CMD, meant with OP MORSEL -/
  | updMorsel (e : Fin 16) (value : Word)
  /-- VERIFY (R372). Engine `e` writes UPD_CMD, meant with OP VERIFY -/
  | updVerify (e : Fin 16) (value : Word)
  /-- ACTIVATE (R373). Engine `e` writes UPD_CMD, meant with OP ACTIVATE -/
  | updActivate (e : Fin 16) (value : Word)
  /-- CANCEL (R373). Engine `e` writes UPD_CMD, meant with OP CANCEL -/
  | updCancel (e : Fin 16) (value : Word)
  /-- CONFIRM (R375). Engine `e` writes UPD_CMD, meant with OP CONFIRM -/
  | updConfirm (e : Fin 16) (value : Word)
  /-- SAVESET (R379). Engine `e` writes UPD_CMD, meant with OP SAVESET -/
  | updSaveset (e : Fin 16) (value : Word)
  /-- UPD_COMMAND_DONE (R370). The running UPD command ends; `flash`: what it programmed read back as written -/
  | updCommandDone (flash : Bool)
  /-- SPI_WRITE (R385). The bytes clocked in between the operation byte and the rise of SPI_CS_N -/
  | spiWrite (bytes : List (BitVec 8))
  /-- SPI_READ (R385). The number of bytes clocked out after the operation byte -/
  | spiRead (clocked : Nat)
  /-- UART_FRAME_RECEIVED (R386). The bytes that have arrived since the last of these -/
  | uartFrameReceived (bytes : List (BitVec 8))
  /-- UART_RX_TIMEOUT (R386). The next byte of a frame has not arrived within RXTO byte times: HIF_CTRL.RXTO -/
  | uartRxTimeout
  /-- HOST_OUTPUT_FRAME (R388). The interface takes up the next output frame -/
  | hostOutputFrame
  /-- PING (R392). The management engine, or the boot ROM in RESCUE, carries out the PING at the head of the inbound FIFO -/
  | hostPing
  /-- JRNSTAT (R392). It carries out the JRNSTAT at the head of the inbound FIFO -/
  | hostJrnstat
  /-- JRNREAD (R398). It carries out the JRNREAD at the head of the inbound FIFO -/
  | hostJrnread
  /-- HOST_BEGIN (R392). It carries out command 0x0010 at the head of the inbound FIFO -/
  | hostBegin
  /-- HOST_MORSEL (R392). It carries out command 0x0011 -/
  | hostMorsel
  /-- HOST_VERIFY (R392). It carries out command 0x0012 -/
  | hostVerify
  /-- HOST_ACTIVATE (R392). It carries out command 0x0013 -/
  | hostActivate
  /-- HOST_CANCEL (R392). It carries out command 0x0014 -/
  | hostCancel
  /-- HOST_CONFIRM (R392). It carries out command 0x0015 -/
  | hostConfirm
  /-- HOST_SAVESET (R392). It carries out command 0x0016 -/
  | hostSaveset
  /-- HIF_INBOUND_READ (R390). Engine `e` reads HIF_RXDATA -/
  | hifInboundRead (e : Fin 16)
  /-- HIF_OUTBOUND_WRITE (R390). Engine `e` writes HIF_TXDATA -/
  | hifOutboundWrite (e : Fin 16) (value : Word)
  /-- HIF_INBOUND_FLUSH (R390). Engine `e` writes HIF_RXSTAT with FLUSH -/
  | hifInboundFlush (e : Fin 16) (value : Word)
  /-- HIF_OUTBOUND_FLUSH (R390). Engine `e` writes HIF_TXSTAT with FLUSH -/
  | hifOutboundFlush (e : Fin 16) (value : Word)
  /-- JOURNAL_APPEND (R394). Engine `e` writes JRN_GOn -/
  | journalAppend (e n : Fin 16) (value : Word)
  /-- JOURNAL_MIRROR_COPY (R396). JRN copies the entry with SEQ JRN_MIRHEAD -/
  | journalMirrorCopy
  /-- POWER_FAIL_WARNING (R407). VMAIN falls through the warning threshold -/
  | powerFailWarning
  /-- POWER_FAIL_CLEAR (R409). VMAIN rises through VMAIN valid while the warning is active -/
  | powerFailClear
  /-- POWER_FAIL (R411). VMAIN falls through the power-fail threshold -/
  | powerFail
  /-- SUPPLY_RETURN (R412). VMAIN rises through VMAIN valid after a power fail, with AO still powered -/
  | supplyReturn
  /-- VBAK_LOW (R413). VBAK falls through its threshold -/
  | vbakLow
  /-- VBAK_HOLD_EXPIRY (R413). The 100 us hold timer ends -/
  | vbakHoldExpiry
  /-- VBAK_COLD_START (R413). VBAK alone rises with AO unpowered -/
  | vbakColdStart
  /-- POWER_ON (R413). VMAIN rises through VMAIN valid with AO unpowered -/
  | powerOn
  /-- DOMAIN_REQUEST (R417). Engine `e` writes PWR_REQd -/
  | domainRequest (e : Fin 16) (d : Fin 40) (value : Word)
  /-- DOMAIN_RESET (R419). Engine `e` writes PWR_DRST -/
  | domainReset (e : Fin 16) (value : Word)
  /-- REGULATOR_READY (R420). The regulator stage of waking domain d is ready -/
  | regulatorReady (d : Fin 40)
  /-- OSCILLATOR_READY (R420). The oscillator stage of waking domain d is ready -/
  | oscillatorReady (d : Fin 40)
  /-- MEMORY_READY (R420). The memory stage of waking domain d is ready -/
  | memoryReady (d : Fin 40)
  /-- LOGIC_READY (R420). The logic stage of waking domain d is ready -/
  | logicReady (d : Fin 40)
  /-- GPIO_WAKE (R422). A SLOW tick samples the wake level of GPIO k -/
  | gpioWake (k : Fin 32)
  /-- PAD_RELEASE (R427). Engine `e` writes 1 to PWR_PADREL.GPIO -/
  | padRelease (e : Fin 16)
  /-- VIO_DETECT (R467). The VIO_A detector changes -/
  | vioDetect (ok : Bool)
  /-- RTC_TICK (R432). A rising edge of SLOW -/
  | rtcTick
  /-- RTC_SET (R435). Engine `e` writes RTC_CMD -/
  | rtcSet (e : Fin 16) (value : Word)
  /-- RTC_SHIFT (R436). Engine `e` writes RTC_SHIFT -/
  | rtcShift (e : Fin 16) (value : Word)
  /-- RTC_SUBSEC_READ (R435). Engine `e` reads RTC_SUBSEC -/
  | rtcSubsecRead (e : Fin 16)
  /-- SLOW_LOSS (R439). The SLOW clock stops -/
  | slowLoss
  /-- TIMER_TICK (R443). One source period of unit n's clock source elapses -/
  | timerTick (n : Fin 8)
  /-- TIMER_START (R444). Engine `e` writes TMR_CTRLn with RUN 1 -/
  | timerStart (e : Fin 16) (n : Fin 8) (value : Word)
  /-- TIMER_STOP (R444). Engine `e` writes TMR_CTRLn with RUN 0 -/
  | timerStop (e : Fin 16) (n : Fin 8) (value : Word)
  /-- TIMER_CLEAR (R444). Engine `e` writes TMR_CTRLn with CLR 1 -/
  | timerClear (e : Fin 16) (n : Fin 8) (value : Word)
  /-- TIMER_SNAP (R444). Engine `e` writes TMR_CTRLn with SNAP 1 -/
  | timerSnap (e : Fin 16) (n : Fin 8) (value : Word)
  /-- TIMER_COUNT_WRITE (R444). Engine `e` writes TMR_CNTn -/
  | timerCountWrite (e : Fin 16) (n : Fin 8) (value : Word)
  /-- TIMER_CAPTURE (R448). An edge of unit n's capture source -/
  | timerCapture (n : Fin 8) (rising : Bool)
  /-- TIMER_CAPTURE_READ (R448). Engine `e` reads TMR_CAPRn or TMR_CAPFn -/
  | timerCaptureRead (e : Fin 16) (n : Fin 8) (rising : Bool)
  /-- GPIO_EDGE (R452). The level of GPIO ball k changes to `level` -/
  | gpioEdge (k : Fin 32) (level : Bool)
  /-- EVENT_DELIVERY (R451). The event in transit on channel k reaches its consumer -/
  | eventDelivery (k : Fin 64)
  /-- EVENT_FIRE (R454). Engine `e` writes EVR_CHCTLk with FIRE 1 -/
  | eventFire (e : Fin 16) (k : Fin 64) (value : Word)
  /-- PRALINE_OUTPUT_CHANGE (R457). The look-up result of cell c, past its filter, is taken by its output -/
  | pralineOutputChange (c : Fin 16)
  /-- RESET_N_PULSE (R466). A low on RESET_N of this width -/
  | resetNPulse (widthNs : Nat)
  /-- FLASH_RESET_PULSE (R469). The FL_RESET_N pulse of a warm reset, once flash commands have ended -/
  | flashResetPulse
  /-- PAUSE_QUANTA_EXPIRY (R224). The pause time of a received PAUSE frame runs out -/
  | pauseQuantaExpiry
  /-- VBAK_LOW_CLEAR (R406). VBAK rises back through the clearing level -/
  | vbakLowClear
  /-- SLOW_CLOCK_RETURN (R38). The SLOW clock starts or returns -/
  | slowClockReturn
  deriving DecidableEq, Repr

end Sys2Proof
end

