-- ==== Sys2Proof/Config.lean ====
section
/-! DEFINITION. What an implementation fixes and the spec does not print, and the values the spec leaves open: constants
without a body, so that nothing can be proved of what they are. -/
namespace Sys2Proof.Machine

/-- R15, R274: the error of the holdover clock in ppm, which changes with time; held within 5,000 either way where it is
used. -/
opaque Config.holdError : Nat → Int

/-- R2: the unique identifier of the device, less one: never zero and never all ones. -/
opaque Config.uidLess : Fin (0xFFFFFFFFFFFFFFFFFFFFFFFFFFFFFFFD + 1)

/-- R2: words 0 to 3 of the unique identifier of the device. -/
def Config.uid (n : Nat) : BitVec 32 := BitVec.ofNat 32 ((Config.uidLess.val + 1) / 2 ^ (32 * n))

/-- R2: the JTAG IDCODE of stepping A1: version 0x1, part 0x6416, manufacturer 0x4E7. -/
def Config.idcode : BitVec 32 := 0x164169CF#32

/-- R178: a backoff drawn in the start-up test, before output of the DRBG may be used (R340), by number of draw. -/
opaque Config.random : Nat → Nat

/-- R340, R341: the binary samples of the entropy source that a seeding takes: seeding, then sample. -/
opaque Config.sample : Nat → Nat → Bool

/-- R387: the CODE of the hardware notices CMDBUSY (0) and PKTREFUSED (1), which the spec names and does not number. -/
opaque Config.noticeCode : Nat → BitVec 16

/-- R387: the RESULT of a CMDBUSY notice, which the spec does not give. -/
opaque Config.cmdBusyResult : BitVec 16

/-- R222: which way the half of an odd number of 1/16 ns rounds. -/
opaque Config.halfRound : Int → BitVec 1

/-- R384, R388: the TAG of a mesh packet frame to the host, which the spec does not give. -/
opaque Config.meshTag : BitVec 8

/-- R349: word i of the n-th challenge drawn. -/
opaque Config.challenge : Nat → Nat → BitVec 32

/-- R336, R344: the private scalar that 512 bits of the DRBG give, as a number; and R343: the number a signature takes, by
number of draw. Each is less one, so that it lies in 1 to n - 1 (n as `ecN` has it). -/
opaque Config.scalarLess : Nat →
  Fin (0xFFFFFFFFFFFFFFFFFFFFFFFFFFFFFFFFFFFFFFFFFFFFFFFFC7634D81F4372DDF581A0DB248B0A77AECEC196ACCC52971 + 1)
opaque Config.nonceLess : Nat →
  Fin (0xFFFFFFFFFFFFFFFFFFFFFFFFFFFFFFFFFFFFFFFFFFFFFFFFC7634D81F4372DDF581A0DB248B0A77AECEC196ACCC52971 + 1)

/-- The 48 bytes of such a scalar, most significant first. -/
def Config.scalarBytes (k : Nat) : List (BitVec 8) := (List.range 48).map (fun i => BitVec.ofNat 8 ((k + 1) / 256 ^ (47 - i)))

/-- R345: what the private HSS seed and the identifier I (one number) make of an upper index: bytes 0 to 31 the seed of the
lower tree, 32 to 47 its identifier. RFC 8554 leaves it to the signer. -/
opaque Config.lowerTree : Nat → Nat → Nat → BitVec 8

/-- R345: the randomizer of a one-time key: seed and identifier of its tree (one number), leaf, byte 0 to 31. -/
opaque Config.randomizer : Nat → Nat → Nat → BitVec 8

/-- R333, R339: device keys that never leave KEY, 32 bytes: 0 and 1 wrap contexts of the stack and the application
partition, 2 wraps the parked key store. -/
opaque Config.deviceKey : Nat → Nat → BitVec 8

/-- R349: the SHA-384 of the two parts of the Uzoten root in the boot ROM, words 0 to 23. -/
opaque Config.romRoot : Nat → BitVec 32

/-- R283: the words of the boot ROM, which the spec does not print. -/
opaque Config.romWord : Nat → BitVec 32

/-! What IEEE 802.15.4 fixes for the SUN waveforms and the spec does not print (R116, R117). -/

/-- The SFD of 4-FSK, bit by bit: SFD set, and whether it is the coded value. -/
opaque Config.fskSfd4 : Nat → Bool → Nat → Bool

/-- The coded bits of NRNSC (1) and RSC (2) for the bits of PHR, PSDU, tail and pad. -/
opaque Config.fskCode : Nat → List Bool → Nat → Bool

/-- The seed of the SUN-OFDM scrambler for a value of SOSEED, newest bit first, and for the PHR (4). -/
opaque Config.ofdmSeed : Nat → Nat → Bool

/-- The eight check bits of a SUN-OFDM PHR. -/
opaque Config.ofdmCheck : List Bool → Nat → Bool

/-- The subcarriers of a SUN-OFDM option's training fields, and those that carry coded bits: waveform code, MCS,
interleaving, coded bits; symbol, then subcarrier, then I or Q in units of 2^-15. -/
opaque Config.ofdmTraining : Nat → Nat → Nat → Nat → Int
opaque Config.ofdmSymbol : Nat → Nat → Bool → List Bool → Nat → Nat → Nat → Int

/-! What the modem's own arithmetic holds of numbers that no finite word holds (R99, R107, R110, R111): their precision is
not given. -/

/-- The argument of a complex number, in radians. -/
opaque Config.arg : Rat → Rat → Rat

/-- The cosine and the sine of an angle in radians. -/
opaque Config.cis : Rat → Rat × Rat

/-- The square root of a number. -/
opaque Config.root : Nat → Rat

/-- The number a decoder takes for a soft value. -/
opaque Config.softStep : Rat → Int

/-- R104: whether a transmit descriptor requests MIDAMBLE: waveform code, MCS and LENGTH. No chapter says. -/
opaque Config.midRequest : Nat → Nat → Nat → Bool

/-- R114: of a frame abandoned in its data field, the error and the reference power of what its slice measured last, and of
one abandoned after its RSSI span the power at the ball in 0.5 dB; by number of draw. -/
opaque Config.partEvm : Nat → Nat × Nat
opaque Config.partPower : Nat → Int

/-- R201: what LNK_SCANABN shows after a match on a beacon that carries no ABN: not given. -/
opaque Config.noBeaconAbn : Nat → BitVec 32

/-- R135: coefficients 0 to 15 of the shaping sets 0 to 3 in ROM, before they are held to a set the rule allows. -/
opaque Config.shapeSide : Nat → Nat → BitVec 16

/-- R135: the 17 coefficients of a ROM set: symmetric by use, the centre tap positive, the sum of the 33 taps 16,384. -/
def Config.shapeTaps (n : Nat) : List Int :=
  let l := (List.range 16).map (fun i => (Config.shapeSide n i).toInt)
  let c := 16384 - 2 * l.sum
  if 0 < c ∧ c < 32768 then l ++ [c] else List.replicate 16 0 ++ [16384]

/-- R135: the coefficient words of the ROM sets, two coefficients each, nine words a set. -/
def Config.shapeRom (i : Nat) : BitVec 32 :=
  let l := Config.shapeTaps (i / 9)
  let w (j : Nat) : Nat := ((l.getD (2 * (i % 9) + j) 0) % 65536).toNat
  BitVec.ofNat 32 (w 1 * 65536 + w 0)

/-- R466: whether a low on RESET_N between 0.2 us and 1 us makes a cold reset: open. -/
opaque Config.resetTaken : Nat → Bool

/-- R370, R371, R379: the result code of a command whose source address the stack partition cannot read: not given. -/
opaque Config.updUnreadable : Nat → BitVec 4

/-- R222: how far after a beat boundary port `p` sends its BAS, in 1/16 ns: at the next character boundary. At most 4 ns of it
counts (log entry 216). -/
opaque Config.basDelay : Nat → Nat → Nat

end Sys2Proof.Machine
end

