-- ==== Sys2Proof/Machine/Bits.lean ====
section
/-! DEFINITION. Bit fields, signed readings, byte order and the CRC-32 that the chapters share. -/
namespace Sys2Proof.Machine

/-- Bits lo to lo + w - 1 of a word, as a number. -/
def fieldOf (x : Word) (lo w : Nat) : Nat := (x >>> lo).toNat % 2 ^ w

/-- The mask of bits lo to lo + w - 1. -/
def fmask (lo w : Nat) : Word := BitVec.ofNat 32 (2 ^ w - 1) <<< lo

/-- The word with bits lo to lo + w - 1 replaced by the low w bits of v. -/
def putField (x : Word) (lo w v : Nat) : Word :=
  (x &&& ~~~ fmask lo w) ||| (BitVec.ofNat 32 (v % 2 ^ w) <<< lo)

/-- A w-bit number read as two's complement (R11). -/
def signed (w v : Nat) : Int := if v < 2 ^ (w - 1) then (v : Int) else (v : Int) - 2 ^ w

/-- A signed number as its w-bit two's complement pattern. -/
def unsign (w : Nat) (i : Int) : Nat := (i % (2 ^ w : Int)).toNat

/-- A signed number held within w bits. -/
def clampS (w : Nat) (i : Int) : Int := max (-(2 ^ (w - 1) : Int)) (min i (2 ^ (w - 1) - 1 : Int))

/-- R262: the signed difference (a - b) of two k-bit wrapping values. -/
def wrapDiff (k a b : Nat) : Int := signed k ((a + 2 ^ k - b % 2 ^ k) % 2 ^ k)

/-- R262: a lies after b, for k-bit wrapping values. -/
def isAfter (k a b : Nat) : Bool := decide (0 < wrapDiff k a b)

/-- R262: the age of a k-bit stamp. -/
def ageOf (k now stamp : Nat) : Nat := (now + 2 ^ k - stamp % 2 ^ k) % 2 ^ k

/-- Rounding of n / d to the nearest integer, half away from zero (R264). -/
def roundDiv (n : Int) (d : Nat) : Int :=
  if 0 ≤ n then (2 * n + d) / (2 * d) else -((2 * -n + d) / (2 * d))

/-- Rounding of n / d up. -/
def ceilDiv (n d : Nat) : Nat := (n + d - 1) / d

/-- The k low bytes of a number, least significant first (R11). -/
def leBytes : Nat → Nat → List Byte
  | 0, _ => []
  | k + 1, v => BitVec.ofNat 8 v :: leBytes k (v / 256)

/-- The k low bytes of a number, most significant first. -/
def beBytes (k v : Nat) : List Byte := (leBytes k v).reverse

/-- A little-endian byte list as a number (R11). -/
def leNat : List Byte → Nat
  | [] => 0
  | b :: t => b.toNat + 256 * leNat t

/-- A big-endian byte list as a number. -/
def beNat (l : List Byte) : Nat := leNat l.reverse

/-- One shift of the reflected CRC-32 register. The polynomial is that of IEEE 802.3, which the spec names and does not
print (PRESUMED, log entry 3). -/
def crcShift (c : Nat) : Nat := if c % 2 = 1 then (c / 2) ^^^ 0xEDB88320 else c / 2

/-- The CRC-32 register after one more byte. -/
def crcByte (c : Nat) (b : Byte) : Nat :=
  let x := c ^^^ b.toNat
  crcShift (crcShift (crcShift (crcShift (crcShift (crcShift (crcShift (crcShift x)))))))

/-- CRC-32 (IEEE 802.3) over a byte list. -/
def crc32 (l : List Byte) : Nat := (l.foldl crcByte 0xFFFFFFFF) ^^^ 0xFFFFFFFF

/-- One shift of a left-shifting CRC-16 with the given polynomial. -/
def crc16Shift (poly c : Nat) : Nat := if c ≥ 0x8000 then ((c * 2) % 0x10000) ^^^ poly else c * 2

/-- A CRC-16, most significant bit first, over a byte list. -/
def crc16 (poly init : Nat) (l : List Byte) : Nat :=
  l.foldl (fun c b =>
    let x := c ^^^ (b.toNat * 256)
    crc16Shift poly (crc16Shift poly (crc16Shift poly (crc16Shift poly
      (crc16Shift poly (crc16Shift poly (crc16Shift poly (crc16Shift poly x)))))))) init

/-- Set membership of a number in a bit map. -/
def bitOf (v i : Nat) : Bool := v.testBit i

/-- A Bool as the bit it is. -/
def b2n (b : Bool) : Nat := if b then 1 else 0

/-- The element of a vector at index i; the default beyond its end. -/
def vget {α : Type} {n : Nat} [Inhabited α] (v : Vector α n) (i : Nat) : α := v[i]?.getD default

/-- The vector with its element at index i replaced. -/
def vset {α : Type} {n : Nat} (v : Vector α n) (i : Nat) (x : α) : Vector α n := v.setIfInBounds i x

/-- The vector with its element at index i changed by f. -/
def vmod {α : Type} {n : Nat} [Inhabited α] (v : Vector α n) (i : Nat) (f : α → α) : Vector α n :=
  vset v i (f (vget v i))

/-- The value listed for a key of a small association list. -/
def aget {α : Type} (l : List (Nat × α)) (k : Nat) : Option α := (l.find? (fun p => p.1 = k)).map (·.2)

/-- The association list with a key given a value, in place of any earlier one. -/
def aput {α : Type} (l : List (Nat × α)) (k : Nat) (v : α) : List (Nat × α) :=
  (l.filter (fun p => p.1 ≠ k)) ++ [(k, v)]

/-- The association list without a key. -/
def adel {α : Type} (l : List (Nat × α)) (k : Nat) : List (Nat × α) := l.filter (fun p => p.1 ≠ k)

end Sys2Proof.Machine
end

