-- ==== Sys2Proof/Machine/RegMap.lean ====
section
/-! DEFINITION. Where each field of each register of the register maps lies: the name `BLOCK_REG.FIELD` of the spec as
a `Loc` (the register's address in the engine view of R18 and R20, the field's lowest bit and its width), and
`BLOCK_REG.addr` as the register's address. Register instances are arguments; a register named for chains A and B takes
the chain's number, 0 for A and 1 for B. The docstring of each name is the rule of the register table it stands in.
Bits that a table calls reserved have no name here. -/
namespace Sys2Proof.Machine

/-- Chapter 01 R34. -/
def SYS_PARTID.addr : Nat := 0x20000000
/-- Access RO. -/ def SYS_PARTID.VALUE : Loc := ⟨SYS_PARTID.addr, 0, 32⟩

/-- Chapter 01 R34. -/
def SYS_STEPID.addr : Nat := 0x20000004
/-- Access RO. -/ def SYS_STEPID.VALUE : Loc := ⟨SYS_STEPID.addr, 0, 32⟩

/-- Chapter 01 R34. -/
def SYS_UID.addr (n : Nat) : Nat := 0x20000010 + 0x4 * n
/-- Access RO. -/ def SYS_UID.VALUE (n : Nat) : Loc := ⟨SYS_UID.addr n, 0, 32⟩

/-- Chapter 01 R34. -/
def SYS_RSTCAUSE.addr : Nat := 0x20000020
/-- Access W1C. -/ def SYS_RSTCAUSE.UPDATE : Loc := ⟨SYS_RSTCAUSE.addr, 5, 1⟩
/-- Access W1C. -/ def SYS_RSTCAUSE.SWENG : Loc := ⟨SYS_RSTCAUSE.addr, 4, 1⟩
/-- Access W1C. -/ def SYS_RSTCAUSE.SWWARM : Loc := ⟨SYS_RSTCAUSE.addr, 3, 1⟩
/-- Access W1C. -/ def SYS_RSTCAUSE.SWCOLD : Loc := ⟨SYS_RSTCAUSE.addr, 2, 1⟩
/-- Access W1C. -/ def SYS_RSTCAUSE.PIN : Loc := ⟨SYS_RSTCAUSE.addr, 1, 1⟩
/-- Access W1C. -/ def SYS_RSTCAUSE.POR : Loc := ⟨SYS_RSTCAUSE.addr, 0, 1⟩

/-- Chapter 01 R34. -/
def SYS_RSTCTL.addr : Nat := 0x20000024
/-- Access WO. -/ def SYS_RSTCTL.KEY : Loc := ⟨SYS_RSTCTL.addr, 16, 16⟩
/-- Access WO. -/ def SYS_RSTCTL.ENGINE : Loc := ⟨SYS_RSTCTL.addr, 4, 4⟩
/-- Access WO. -/ def SYS_RSTCTL.ACTION : Loc := ⟨SYS_RSTCTL.addr, 0, 4⟩

/-- Chapter 01 R34. -/
def SYS_FAULTREC.addr : Nat := 0x20000030
/-- Access W1C. -/ def SYS_FAULTREC.VALID : Loc := ⟨SYS_FAULTREC.addr, 31, 1⟩
/-- Access RO. -/ def SYS_FAULTREC.HW : Loc := ⟨SYS_FAULTREC.addr, 24, 1⟩
/-- Access RO. -/ def SYS_FAULTREC.ENGINE : Loc := ⟨SYS_FAULTREC.addr, 20, 4⟩
/-- Access RO. -/ def SYS_FAULTREC.CLASS : Loc := ⟨SYS_FAULTREC.addr, 16, 4⟩
/-- Access RO. -/ def SYS_FAULTREC.BLOCK : Loc := ⟨SYS_FAULTREC.addr, 8, 8⟩
/-- Access RO. -/ def SYS_FAULTREC.DETAIL : Loc := ⟨SYS_FAULTREC.addr, 0, 8⟩

/-- Chapter 01 R34. -/
def SYS_FAULTADDR.addr : Nat := 0x20000034
/-- Access RO. -/ def SYS_FAULTADDR.ADDR : Loc := ⟨SYS_FAULTADDR.addr, 0, 32⟩

/-- Chapter 01 R34. -/
def SYS_FAULTCNT.addr : Nat := 0x20000038
/-- Access RW. -/ def SYS_FAULTCNT.COUNT : Loc := ⟨SYS_FAULTCNT.addr, 0, 16⟩

/-- Chapter 01 R34. -/
def SYS_FAULTENG.addr : Nat := 0x2000003C
/-- Access RWL/PS. -/ def SYS_FAULTENG.ENGINE : Loc := ⟨SYS_FAULTENG.addr, 0, 4⟩

/-- Chapter 01 R34. -/
def SYS_CLKSTAT.addr : Nat := 0x20000040
/-- Access RO. -/ def SYS_CLKSTAT.HOLDOVER : Loc := ⟨SYS_CLKSTAT.addr, 8, 1⟩
/-- Access RO. -/ def SYS_CLKSTAT.SLOWOK : Loc := ⟨SYS_CLKSTAT.addr, 7, 1⟩
/-- Access RO. -/ def SYS_CLKSTAT.REFOK : Loc := ⟨SYS_CLKSTAT.addr, 6, 1⟩
/-- Access RO. -/ def SYS_CLKSTAT.SYSPLL_LOCK : Loc := ⟨SYS_CLKSTAT.addr, 5, 1⟩
/-- Access RO. -/ def SYS_CLKSTAT.CPLLA_LOCK : Loc := ⟨SYS_CLKSTAT.addr, 4, 1⟩
/-- Access RO. -/ def SYS_CLKSTAT.CPLLB_LOCK : Loc := ⟨SYS_CLKSTAT.addr, 3, 1⟩
/-- Access RO. -/ def SYS_CLKSTAT.SYA_LOCK : Loc := ⟨SYS_CLKSTAT.addr, 2, 1⟩
/-- Access RO. -/ def SYS_CLKSTAT.SYB_LOCK : Loc := ⟨SYS_CLKSTAT.addr, 1, 1⟩
/-- Access RO. -/ def SYS_CLKSTAT.SERPLL_LOCK : Loc := ⟨SYS_CLKSTAT.addr, 0, 1⟩

/-- Chapter 01 R34. -/
def SYS_REFMON.addr : Nat := 0x20000044
/-- Access RW/PS. -/ def SYS_REFMON.DEVPPM : Loc := ⟨SYS_REFMON.addr, 0, 10⟩

/-- Chapter 01 R34. -/
def SYS_ECCCORR.addr : Nat := 0x20000050
/-- Access RW. -/ def SYS_ECCCORR.COUNT : Loc := ⟨SYS_ECCCORR.addr, 0, 32⟩

/-- Chapter 01 R34. -/
def SYS_ECCUNC.addr : Nat := 0x20000054
/-- Access RW. -/ def SYS_ECCUNC.COUNT : Loc := ⟨SYS_ECCUNC.addr, 0, 16⟩

/-- Chapter 01 R34. -/
def SYS_ECCADDR.addr : Nat := 0x20000058
/-- Access RO. -/ def SYS_ECCADDR.MEM : Loc := ⟨SYS_ECCADDR.addr, 28, 4⟩
/-- Access RO. -/ def SYS_ECCADDR.INST : Loc := ⟨SYS_ECCADDR.addr, 24, 4⟩
/-- Access RO. -/ def SYS_ECCADDR.WORD : Loc := ⟨SYS_ECCADDR.addr, 0, 24⟩

/-- Chapter 01 R34. -/
def SYS_SCRUB.addr : Nat := 0x2000005C
/-- Access RW/PS. -/ def SYS_SCRUB.EN : Loc := ⟨SYS_SCRUB.addr, 31, 1⟩
/-- Access RW/PS. -/ def SYS_SCRUB.JAREN : Loc := ⟨SYS_SCRUB.addr, 30, 1⟩
/-- Access RW/PS. -/ def SYS_SCRUB.INTERVAL : Loc := ⟨SYS_SCRUB.addr, 0, 16⟩

/-- Chapter 01 R34. -/
def SYS_IRQMAP.addr (n : Nat) : Nat := 0x20000100 + 0x4 * n
/-- Access RW/PS. -/ def SYS_IRQMAP.EN (n : Nat) : Loc := ⟨SYS_IRQMAP.addr n, 31, 1⟩
/-- Access RW/PS. -/ def SYS_IRQMAP.TARGET (n : Nat) : Loc := ⟨SYS_IRQMAP.addr n, 0, 4⟩

/-- Chapter 02 R57. -/
def BEAT_CTRL.addr : Nat := 0x20020000
/-- Access RWL/PS. -/ def BEAT_CTRL.PERIOD : Loc := ⟨BEAT_CTRL.addr, 0, 3⟩

/-- Chapter 02 R57. -/
def BEAT_ABNLO.addr : Nat := 0x20020004
/-- Access RO. -/ def BEAT_ABNLO.ABN : Loc := ⟨BEAT_ABNLO.addr, 0, 32⟩

/-- Chapter 02 R57. -/
def BEAT_ABNHI.addr : Nat := 0x20020008
/-- Access RO. -/ def BEAT_ABNHI.ABN : Loc := ⟨BEAT_ABNHI.addr, 0, 8⟩

/-- Chapter 02 R57. -/
def BEAT_PHASE.addr : Nat := 0x2002000C
/-- Access RO. -/ def BEAT_PHASE.NS : Loc := ⟨BEAT_PHASE.addr, 0, 25⟩

/-- Chapter 02 R57. -/
def BEAT_DONE.addr : Nat := 0x20020010
/-- Access W1S. -/ def BEAT_DONE.DONE : Loc := ⟨BEAT_DONE.addr, 0, 16⟩

/-- Chapter 02 R57. -/
def BEAT_TASKEN.addr : Nat := 0x20020014
/-- Access RWL/PS. -/ def BEAT_TASKEN.EN : Loc := ⟨BEAT_TASKEN.addr, 0, 16⟩

/-- Chapter 02 R57. -/
def BEAT_OVRSTAT.addr : Nat := 0x20020018
/-- Access W1C. -/ def BEAT_OVRSTAT.OVR : Loc := ⟨BEAT_OVRSTAT.addr, 0, 16⟩

/-- Chapter 02 R57. -/
def BEAT_STAT.addr : Nat := 0x2002001C
/-- Access W1C. -/ def BEAT_STAT.HOLDEXIT : Loc := ⟨BEAT_STAT.addr, 3, 1⟩
/-- Access W1C. -/ def BEAT_STAT.LVLREF : Loc := ⟨BEAT_STAT.addr, 2, 1⟩
/-- Access W1C. -/ def BEAT_STAT.STEP : Loc := ⟨BEAT_STAT.addr, 1, 1⟩
/-- Access W1C. -/ def BEAT_STAT.BOUNDARY : Loc := ⟨BEAT_STAT.addr, 0, 1⟩

/-- Chapter 02 R57. -/
def BEAT_IEN.addr : Nat := 0x20020020
/-- Access RW/PS. -/ def BEAT_IEN.IEN : Loc := ⟨BEAT_IEN.addr, 0, 4⟩

/-- Chapter 02 R57. -/
def BEAT_PLREQ.addr : Nat := 0x20020024
/-- Access RW/PS. -/ def BEAT_PLREQ.ENGPEND : Loc := ⟨BEAT_PLREQ.addr, 31, 1⟩
/-- Access RW/PS. -/ def BEAT_PLREQ.CHNPEND : Loc := ⟨BEAT_PLREQ.addr, 30, 1⟩
/-- Access RW/PS. -/ def BEAT_PLREQ.ENGPL : Loc := ⟨BEAT_PLREQ.addr, 2, 2⟩
/-- Access RW/PS. -/ def BEAT_PLREQ.CHNPL : Loc := ⟨BEAT_PLREQ.addr, 0, 2⟩

/-- Chapter 02 R57. -/
def BEAT_PLCUR.addr : Nat := 0x20020028
/-- Access RO. -/ def BEAT_PLCUR.ENGPL : Loc := ⟨BEAT_PLCUR.addr, 2, 2⟩
/-- Access RO. -/ def BEAT_PLCUR.CHNPL : Loc := ⟨BEAT_PLCUR.addr, 0, 2⟩

/-- Chapter 02 R57. -/
def BEAT_RESLIM.addr : Nat := 0x2002002C
/-- Access RWL/PS. -/ def BEAT_RESLIM.BEATS : Loc := ⟨BEAT_RESLIM.addr, 0, 16⟩

/-- Chapter 02 R57. -/
def BEAT_RESDROP.addr : Nat := 0x20020030
/-- Access RW. -/ def BEAT_RESDROP.COUNT : Loc := ⟨BEAT_RESDROP.addr, 0, 32⟩

/-- Chapter 02 R57. -/
def BEAT_OUTAGE.addr : Nat := 0x20020034
/-- Access RW. -/ def BEAT_OUTAGE.COUNT : Loc := ⟨BEAT_OUTAGE.addr, 0, 32⟩

/-- Chapter 02 R57. -/
def BEAT_BOOTCHK.addr : Nat := 0x20020038
/-- Access RO. -/ def BEAT_BOOTCHK.RESULT : Loc := ⟨BEAT_BOOTCHK.addr, 30, 2⟩
/-- Access RO. -/ def BEAT_BOOTCHK.ENGINE : Loc := ⟨BEAT_BOOTCHK.addr, 20, 4⟩
/-- Access RO. -/ def BEAT_BOOTCHK.SLOT : Loc := ⟨BEAT_BOOTCHK.addr, 0, 20⟩

/-- Chapter 02 R57. -/
def BEAT_BUDGET.addr (n : Nat) : Nat := 0x20020040 + 0x4 * n
/-- Access RWL/PS. -/ def BEAT_BUDGET.CYCLES (n : Nat) : Loc := ⟨BEAT_BUDGET.addr n, 0, 32⟩

/-- Chapter 02 R57. -/
def BEAT_OVR.addr (n : Nat) : Nat := 0x20020080 + 0x4 * n
/-- Access RW. -/ def BEAT_OVR.COUNT (n : Nat) : Loc := ⟨BEAT_OVR.addr n, 0, 16⟩

/-- Chapter 03 R81. -/
def RXF_CTRL.addr (x : Nat) : Nat := 0x20030000 + 0x4 * x
/-- Access RW/PS. -/ def RXF_CTRL.GAINIDX (x : Nat) : Loc := ⟨RXF_CTRL.addr x, 8, 4⟩
/-- Access RW/PS. -/ def RXF_CTRL.AUTOFULL (x : Nat) : Loc := ⟨RXF_CTRL.addr x, 4, 1⟩
/-- Access RW/PS. -/ def RXF_CTRL.AGCMAN (x : Nat) : Loc := ⟨RXF_CTRL.addr x, 3, 1⟩
/-- Access RW/PS. -/ def RXF_CTRL.MODE (x : Nat) : Loc := ⟨RXF_CTRL.addr x, 0, 2⟩

/-- Chapter 03 R81. -/
def RXF_STAT.addr (x : Nat) : Nat := 0x20030008 + 0x4 * x
/-- Access RO. -/ def RXF_STAT.GAINIDX (x : Nat) : Loc := ⟨RXF_STAT.addr x, 8, 4⟩
/-- Access RO. -/ def RXF_STAT.LNA (x : Nat) : Loc := ⟨RXF_STAT.addr x, 7, 1⟩
/-- Access RO. -/ def RXF_STAT.DEAF (x : Nat) : Loc := ⟨RXF_STAT.addr x, 6, 1⟩
/-- Access RO. -/ def RXF_STAT.CLIP (x : Nat) : Loc := ⟨RXF_STAT.addr x, 5, 1⟩
/-- Access RO. -/ def RXF_STAT.TBUSY (x : Nat) : Loc := ⟨RXF_STAT.addr x, 4, 1⟩
/-- Access RO. -/ def RXF_STAT.MODE (x : Nat) : Loc := ⟨RXF_STAT.addr x, 0, 2⟩

/-- Chapter 03 R81. -/
def RXF_AGC.addr (x : Nat) : Nat := 0x20030010 + 0x4 * x
/-- Access RW/PS. -/ def RXF_AGC.HOLD (x : Nat) : Loc := ⟨RXF_AGC.addr x, 16, 8⟩
/-- Access RW/PS. -/ def RXF_AGC.LOW (x : Nat) : Loc := ⟨RXF_AGC.addr x, 8, 8⟩
/-- Access RW/PS. -/ def RXF_AGC.HIGH (x : Nat) : Loc := ⟨RXF_AGC.addr x, 0, 8⟩

/-- Chapter 03 R81. -/
def RXF_CAL.addr (x : Nat) : Nat := 0x20030018 + 0x4 * x
/-- Access RW/PS. -/ def RXF_CAL.EXTGAIN (x : Nat) : Loc := ⟨RXF_CAL.addr x, 8, 8⟩
/-- Access RW/PS. -/ def RXF_CAL.RSSIOFS (x : Nat) : Loc := ⟨RXF_CAL.addr x, 0, 8⟩

/-- Chapter 03 R81. -/
def RXF_TASTE.addr (x : Nat) : Nat := 0x20030020 + 0x4 * x
/-- Access RW/PS. -/ def RXF_TASTE.ETHR (x : Nat) : Loc := ⟨RXF_TASTE.addr x, 24, 8⟩
/-- Access RW/PS. -/ def RXF_TASTE.SLICE (x : Nat) : Loc := ⟨RXF_TASTE.addr x, 20, 4⟩
/-- Access RW/PS. -/ def RXF_TASTE.GAINIDX (x : Nat) : Loc := ⟨RXF_TASTE.addr x, 16, 4⟩
/-- Access RW/PS. -/ def RXF_TASTE.PTHR (x : Nat) : Loc := ⟨RXF_TASTE.addr x, 12, 4⟩
/-- Access RW/PS. -/ def RXF_TASTE.WAVE (x : Nat) : Loc := ⟨RXF_TASTE.addr x, 8, 4⟩
/-- Access RW/PS. -/ def RXF_TASTE.DETMODE (x : Nat) : Loc := ⟨RXF_TASTE.addr x, 4, 2⟩
/-- Access WO. -/ def RXF_TASTE.START (x : Nat) : Loc := ⟨RXF_TASTE.addr x, 0, 1⟩

/-- Chapter 03 R81. -/
def RXF_TFREQ.addr (x : Nat) : Nat := 0x20030028 + 0x4 * x
/-- Access RW/PS. -/ def RXF_TFREQ.FREQ (x : Nat) : Loc := ⟨RXF_TFREQ.addr x, 0, 32⟩

/-- Chapter 03 R81. -/
def RXF_EVT.addr : Nat := 0x20030030
/-- Access W1C. -/ def RXF_EVT.TNOSLB : Loc := ⟨RXF_EVT.addr, 9, 1⟩
/-- Access W1C. -/ def RXF_EVT.TNOSLA : Loc := ⟨RXF_EVT.addr, 8, 1⟩
/-- Access W1C. -/ def RXF_EVT.TSKIPB : Loc := ⟨RXF_EVT.addr, 7, 1⟩
/-- Access W1C. -/ def RXF_EVT.TSKIPA : Loc := ⟨RXF_EVT.addr, 6, 1⟩
/-- Access W1C. -/ def RXF_EVT.TDETB : Loc := ⟨RXF_EVT.addr, 5, 1⟩
/-- Access W1C. -/ def RXF_EVT.TDETA : Loc := ⟨RXF_EVT.addr, 4, 1⟩
/-- Access W1C. -/ def RXF_EVT.GSTEPB : Loc := ⟨RXF_EVT.addr, 3, 1⟩
/-- Access W1C. -/ def RXF_EVT.GSTEPA : Loc := ⟨RXF_EVT.addr, 2, 1⟩
/-- Access W1C. -/ def RXF_EVT.CLIPB : Loc := ⟨RXF_EVT.addr, 1, 1⟩
/-- Access W1C. -/ def RXF_EVT.CLIPA : Loc := ⟨RXF_EVT.addr, 0, 1⟩

/-- Chapter 03 R81. -/
def RXF_IEN.addr : Nat := 0x20030034
/-- Access RW/PS. -/ def RXF_IEN.IEN : Loc := ⟨RXF_IEN.addr, 0, 10⟩

/-- Chapter 03 R81. -/
def RXF_CLIPCNT.addr (x : Nat) : Nat := 0x20030038 + 0x4 * x
/-- Access RW. -/ def RXF_CLIPCNT.COUNT (x : Nat) : Loc := ⟨RXF_CLIPCNT.addr x, 0, 16⟩

/-- Chapter 03 R81. -/
def RXF_TCNT.addr (x : Nat) : Nat := 0x20030040 + 0x4 * x
/-- Access RW. -/ def RXF_TCNT.SKIP (x : Nat) : Loc := ⟨RXF_TCNT.addr x, 16, 16⟩
/-- Access RW. -/ def RXF_TCNT.DET (x : Nat) : Loc := ⟨RXF_TCNT.addr x, 0, 16⟩

/-- Chapter 03 R83. -/
def SLC_CTRL.addr : Nat := 0x20040000
/-- Access RW/PS. -/ def SLC_CTRL.RSSIWIN : Loc := ⟨SLC_CTRL.addr, 2, 2⟩

/-- Chapter 03 R83. -/
def SLC_ACTIVE.addr : Nat := 0x20040004
/-- Access RO. -/ def SLC_ACTIVE.COUNT : Loc := ⟨SLC_ACTIVE.addr, 16, 5⟩
/-- Access RO. -/ def SLC_ACTIVE.ACT : Loc := ⟨SLC_ACTIVE.addr, 0, 16⟩

/-- Chapter 03 R83. -/
def SLC_DEAF.addr : Nat := 0x20040008
/-- Access RO. -/ def SLC_DEAF.DEAF : Loc := ⟨SLC_DEAF.addr, 0, 16⟩

/-- Chapter 03 R83. -/
def SLC_EVT.addr : Nat := 0x2004000C
/-- Access W1C. -/ def SLC_EVT.LIMIT : Loc := ⟨SLC_EVT.addr, 2, 1⟩
/-- Access W1C. -/ def SLC_EVT.WIGN : Loc := ⟨SLC_EVT.addr, 1, 1⟩
/-- Access W1C. -/ def SLC_EVT.RANGE : Loc := ⟨SLC_EVT.addr, 0, 1⟩

/-- Chapter 03 R83. -/
def SLC_IEN.addr : Nat := 0x20040010
/-- Access RW/PS. -/ def SLC_IEN.IEN : Loc := ⟨SLC_IEN.addr, 0, 3⟩

/-- Chapter 03 R83. -/
def SLC_CFG.addr (n : Nat) : Nat := 0x20040100 + 0x20 * n
/-- Access RW/PS. -/ def SLC_CFG.WAVE (n : Nat) : Loc := ⟨SLC_CFG.addr n, 12, 4⟩
/-- Access RW/PS. -/ def SLC_CFG.MODE (n : Nat) : Loc := ⟨SLC_CFG.addr n, 8, 2⟩
/-- Access RW/PS. -/ def SLC_CFG.CHAIN (n : Nat) : Loc := ⟨SLC_CFG.addr n, 4, 1⟩

/-- Chapter 03 R83. -/
def SLC_TUNE.addr (n : Nat) : Nat := 0x20040104 + 0x20 * n
/-- Access RW/PS. -/ def SLC_TUNE.FREQ (n : Nat) : Loc := ⟨SLC_TUNE.addr n, 0, 32⟩

/-- Chapter 03 R83. -/
def SLC_STAT.addr (n : Nat) : Nat := 0x20040108 + 0x20 * n
/-- Access RO. -/ def SLC_STAT.TPEND (n : Nat) : Loc := ⟨SLC_STAT.addr n, 15, 1⟩
/-- Access RO. -/ def SLC_STAT.NOSIG (n : Nat) : Loc := ⟨SLC_STAT.addr n, 14, 1⟩
/-- Access RO. -/ def SLC_STAT.DEAF (n : Nat) : Loc := ⟨SLC_STAT.addr n, 13, 1⟩
/-- Access RO. -/ def SLC_STAT.SYNC (n : Nat) : Loc := ⟨SLC_STAT.addr n, 12, 1⟩
/-- Access RO. -/ def SLC_STAT.TASTE (n : Nat) : Loc := ⟨SLC_STAT.addr n, 11, 1⟩
/-- Access RO. -/ def SLC_STAT.ACT (n : Nat) : Loc := ⟨SLC_STAT.addr n, 10, 1⟩
/-- Access RO. -/ def SLC_STAT.MODE (n : Nat) : Loc := ⟨SLC_STAT.addr n, 8, 2⟩
/-- Access RO. -/ def SLC_STAT.CHAIN (n : Nat) : Loc := ⟨SLC_STAT.addr n, 7, 1⟩

/-- Chapter 03 R83. -/
def SLC_RSSI.addr (n : Nat) : Nat := 0x2004010C + 0x20 * n
/-- Access RO. -/ def SLC_RSSI.RSSI (n : Nat) : Loc := ⟨SLC_RSSI.addr n, 0, 16⟩

/-- Chapter 03 R83. -/
def SLC_AGC.addr (n : Nat) : Nat := 0x20040110 + 0x20 * n
/-- Access RO. -/ def SLC_AGC.DGAIN (n : Nat) : Loc := ⟨SLC_AGC.addr n, 16, 8⟩
/-- Access RW/PS. -/ def SLC_AGC.FREEZE (n : Nat) : Loc := ⟨SLC_AGC.addr n, 7, 1⟩
/-- Access RW/PS. -/ def SLC_AGC.TARGET (n : Nat) : Loc := ⟨SLC_AGC.addr n, 0, 5⟩

/-- Chapter 03 R83. -/
def SLC_DEAFCNT.addr (n : Nat) : Nat := 0x20040114 + 0x20 * n
/-- Access RW. -/ def SLC_DEAFCNT.COUNT (n : Nat) : Loc := ⟨SLC_DEAFCNT.addr n, 0, 16⟩

/-- Chapter 03 R83. -/
def SLC_NCO.addr (n : Nat) : Nat := 0x20040118 + 0x20 * n
/-- Access RO. -/ def SLC_NCO.WORD (n : Nat) : Loc := ⟨SLC_NCO.addr n, 0, 32⟩

/-- Chapter 04 R119. -/
def PHY_CTRL.addr : Nat := 0x20050000
/-- Access RW/PS. -/ def PHY_CTRL.EARLY : Loc := ⟨PHY_CTRL.addr, 8, 1⟩
/-- Access RW/PS. -/ def PHY_CTRL.MAXIT : Loc := ⟨PHY_CTRL.addr, 0, 4⟩

/-- Chapter 04 R119. -/
def PHY_POOL.addr : Nat := 0x20050004
/-- Access RW. -/ def PHY_POOL.PEAK : Loc := ⟨PHY_POOL.addr, 16, 8⟩
/-- Access RO. -/ def PHY_POOL.DEPTH : Loc := ⟨PHY_POOL.addr, 8, 6⟩
/-- Access RO. -/ def PHY_POOL.BUSY : Loc := ⟨PHY_POOL.addr, 0, 4⟩

/-- Chapter 04 R119. -/
def PHY_EVT.addr : Nat := 0x20050008
/-- Access W1C. -/ def PHY_EVT.POOLFULL : Loc := ⟨PHY_EVT.addr, 1, 1⟩
/-- Access W1C. -/ def PHY_EVT.CWFAIL : Loc := ⟨PHY_EVT.addr, 0, 1⟩

/-- Chapter 04 R119. -/
def PHY_IEN.addr : Nat := 0x2005000C
/-- Access RW/PS. -/ def PHY_IEN.IEN : Loc := ⟨PHY_IEN.addr, 0, 2⟩

/-- Chapter 04 R119. -/
def PHY_TXCFG.addr : Nat := 0x20050010
/-- Access RW/PS. -/ def PHY_TXCFG.SOSEED : Loc := ⟨PHY_TXCFG.addr, 11, 2⟩
/-- Access RW/PS. -/ def PHY_TXCFG.SOINTLV : Loc := ⟨PHY_TXCFG.addr, 10, 1⟩
/-- Access RW/PS. -/ def PHY_TXCFG.SOFCS4 : Loc := ⟨PHY_TXCFG.addr, 9, 1⟩
/-- Access RW/PS. -/ def PHY_TXCFG.OQFCS4 : Loc := ⟨PHY_TXCFG.addr, 8, 1⟩
/-- Access RW/PS. -/ def PHY_TXCFG.MFMIDAUTO : Loc := ⟨PHY_TXCFG.addr, 0, 1⟩

/-- Chapter 04 R119. -/
def PHY_TXFSK.addr (x : Nat) : Nat := 0x20050014 + 0x4 * x
/-- Access RW/PS. -/ def PHY_TXFSK.INTLV (x : Nat) : Loc := ⟨PHY_TXFSK.addr x, 29, 1⟩
/-- Access RW/PS. -/ def PHY_TXFSK.FEC (x : Nat) : Loc := ⟨PHY_TXFSK.addr x, 27, 2⟩
/-- Access RW/PS. -/ def PHY_TXFSK.FCS4 (x : Nat) : Loc := ⟨PHY_TXFSK.addr x, 26, 1⟩
/-- Access RW/PS. -/ def PHY_TXFSK.WHITE (x : Nat) : Loc := ⟨PHY_TXFSK.addr x, 25, 1⟩
/-- Access RW/PS. -/ def PHY_TXFSK.SFDSEL (x : Nat) : Loc := ⟨PHY_TXFSK.addr x, 24, 1⟩
/-- Access RW/PS. -/ def PHY_TXFSK.BT (x : Nat) : Loc := ⟨PHY_TXFSK.addr x, 23, 1⟩
/-- Access RW/PS. -/ def PHY_TXFSK.LEVELS (x : Nat) : Loc := ⟨PHY_TXFSK.addr x, 22, 1⟩
/-- Access RW/PS. -/ def PHY_TXFSK.INDEX (x : Nat) : Loc := ⟨PHY_TXFSK.addr x, 16, 6⟩
/-- Access RW/PS. -/ def PHY_TXFSK.RATE (x : Nat) : Loc := ⟨PHY_TXFSK.addr x, 0, 14⟩

/-- Chapter 04 R119. -/
def PHY_CWCNT.addr : Nat := 0x20050020
/-- Access RW. -/ def PHY_CWCNT.COUNT : Loc := ⟨PHY_CWCNT.addr, 0, 32⟩

/-- Chapter 04 R119. -/
def PHY_CWFAIL.addr : Nat := 0x20050024
/-- Access RW. -/ def PHY_CWFAIL.COUNT : Loc := ⟨PHY_CWFAIL.addr, 0, 16⟩

/-- Chapter 04 R119. -/
def PHY_CWDROP.addr : Nat := 0x20050028
/-- Access RW. -/ def PHY_CWDROP.COUNT : Loc := ⟨PHY_CWDROP.addr, 0, 16⟩

/-- Chapter 04 R119. -/
def PHY_RXCFG.addr (n : Nat) : Nat := 0x20050100 + 0x20 * n
/-- Access RW/PS. -/ def PHY_RXCFG.MCSMASK (n : Nat) : Loc := ⟨PHY_RXCFG.addr n, 16, 10⟩
/-- Access RW/PS. -/ def PHY_RXCFG.SOINTLV (n : Nat) : Loc := ⟨PHY_RXCFG.addr n, 10, 1⟩
/-- Access RW/PS. -/ def PHY_RXCFG.SOFCS4 (n : Nat) : Loc := ⟨PHY_RXCFG.addr n, 9, 1⟩
/-- Access RW/PS. -/ def PHY_RXCFG.OQFCS4 (n : Nat) : Loc := ⟨PHY_RXCFG.addr n, 8, 1⟩

/-- Chapter 04 R119. -/
def PHY_FSK.addr (n : Nat) : Nat := 0x20050104 + 0x20 * n
/-- Access RW/PS. -/ def PHY_FSK.INTLV (n : Nat) : Loc := ⟨PHY_FSK.addr n, 29, 1⟩
/-- Access RW/PS. -/ def PHY_FSK.FEC (n : Nat) : Loc := ⟨PHY_FSK.addr n, 27, 2⟩
/-- Access RW/PS. -/ def PHY_FSK.FCS4 (n : Nat) : Loc := ⟨PHY_FSK.addr n, 26, 1⟩
/-- Access RW/PS. -/ def PHY_FSK.WHITE (n : Nat) : Loc := ⟨PHY_FSK.addr n, 25, 1⟩
/-- Access RW/PS. -/ def PHY_FSK.SFDSEL (n : Nat) : Loc := ⟨PHY_FSK.addr n, 24, 1⟩
/-- Access RW/PS. -/ def PHY_FSK.BT (n : Nat) : Loc := ⟨PHY_FSK.addr n, 23, 1⟩
/-- Access RW/PS. -/ def PHY_FSK.LEVELS (n : Nat) : Loc := ⟨PHY_FSK.addr n, 22, 1⟩
/-- Access RW/PS. -/ def PHY_FSK.INDEX (n : Nat) : Loc := ⟨PHY_FSK.addr n, 16, 6⟩
/-- Access RW/PS. -/ def PHY_FSK.RATE (n : Nat) : Loc := ⟨PHY_FSK.addr n, 0, 14⟩

/-- Chapter 04 R119. -/
def PHY_SYNC.addr (n : Nat) : Nat := 0x20050108 + 0x20 * n
/-- Access RW/PS. -/ def PHY_SYNC.SOTHR (n : Nat) : Loc := ⟨PHY_SYNC.addr n, 12, 4⟩
/-- Access RW/PS. -/ def PHY_SYNC.FSKTHR (n : Nat) : Loc := ⟨PHY_SYNC.addr n, 8, 4⟩
/-- Access RW/PS. -/ def PHY_SYNC.OQTHR (n : Nat) : Loc := ⟨PHY_SYNC.addr n, 4, 4⟩
/-- Access RW/PS. -/ def PHY_SYNC.MFTHR (n : Nat) : Loc := ⟨PHY_SYNC.addr n, 0, 4⟩

/-- Chapter 04 R119. -/
def PHY_STAT.addr (n : Nat) : Nat := 0x2005010C + 0x20 * n
/-- Access RO. -/ def PHY_STAT.CODE (n : Nat) : Loc := ⟨PHY_STAT.addr n, 28, 4⟩
/-- Access RO. -/ def PHY_STAT.MCS (n : Nat) : Loc := ⟨PHY_STAT.addr n, 24, 4⟩
/-- Access RO. -/ def PHY_STAT.FLAGS (n : Nat) : Loc := ⟨PHY_STAT.addr n, 21, 3⟩
/-- Access RO. -/ def PHY_STAT.GSTEP (n : Nat) : Loc := ⟨PHY_STAT.addr n, 20, 1⟩
/-- Access RO. -/ def PHY_STAT.LENGTH (n : Nat) : Loc := ⟨PHY_STAT.addr n, 0, 11⟩

/-- Chapter 04 R119. -/
def PHY_QUAL.addr (n : Nat) : Nat := 0x20050110 + 0x20 * n
/-- Access RO. -/ def PHY_QUAL.RSSI (n : Nat) : Loc := ⟨PHY_QUAL.addr n, 16, 16⟩
/-- Access RO. -/ def PHY_QUAL.LQ (n : Nat) : Loc := ⟨PHY_QUAL.addr n, 8, 8⟩
/-- Access RO. -/ def PHY_QUAL.EVM (n : Nat) : Loc := ⟨PHY_QUAL.addr n, 0, 8⟩

/-- Chapter 04 R119. -/
def PHY_OKCNT.addr (n : Nat) : Nat := 0x20050114 + 0x20 * n
/-- Access RW. -/ def PHY_OKCNT.COUNT (n : Nat) : Loc := ⟨PHY_OKCNT.addr n, 0, 32⟩

/-- Chapter 04 R119. -/
def PHY_ERRCNT.addr (n : Nat) : Nat := 0x20050118 + 0x20 * n
/-- Access RW. -/ def PHY_ERRCNT.HDR (n : Nat) : Loc := ⟨PHY_ERRCNT.addr n, 16, 16⟩
/-- Access RW. -/ def PHY_ERRCNT.BODY (n : Nat) : Loc := ⟨PHY_ERRCNT.addr n, 0, 16⟩

/-- Chapter 05 R145. -/
def TXF_CTRL.addr (x : Nat) : Nat := 0x20060000 + 0x4 * x
/-- Access RW/PS. -/ def TXF_CTRL.AUTOOFS (x : Nat) : Loc := ⟨TXF_CTRL.addr x, 24, 8⟩
/-- Access RW/PS. -/ def TXF_CTRL.LATETOL (x : Nat) : Loc := ⟨TXF_CTRL.addr x, 16, 4⟩
/-- Access RW/PS. -/ def TXF_CTRL.MAXN (x : Nat) : Loc := ⟨TXF_CTRL.addr x, 9, 3⟩
/-- Access RW/PS. -/ def TXF_CTRL.MASKCUT (x : Nat) : Loc := ⟨TXF_CTRL.addr x, 8, 1⟩
/-- Access RW/PS. -/ def TXF_CTRL.EXTFE (x : Nat) : Loc := ⟨TXF_CTRL.addr x, 7, 1⟩
/-- Access RW/PS. -/ def TXF_CTRL.LOMODE (x : Nat) : Loc := ⟨TXF_CTRL.addr x, 1, 1⟩
/-- Access RW/PS. -/ def TXF_CTRL.EN (x : Nat) : Loc := ⟨TXF_CTRL.addr x, 0, 1⟩

/-- Chapter 05 R145. -/
def TXF_LO.addr (x : Nat) : Nat := 0x20060008 + 0x4 * x
/-- Access RW/PS. -/ def TXF_LO.FREQ (x : Nat) : Loc := ⟨TXF_LO.addr x, 0, 32⟩

/-- Chapter 05 R145. -/
def TXF_STAT.addr (x : Nat) : Nat := 0x20060010 + 0x4 * x
/-- Access RO. -/ def TXF_STAT.RES (x : Nat) : Loc := ⟨TXF_STAT.addr x, 8, 4⟩
/-- Access RO. -/ def TXF_STAT.ACT (x : Nat) : Loc := ⟨TXF_STAT.addr x, 4, 4⟩
/-- Access RO. -/ def TXF_STAT.RETPEND (x : Nat) : Loc := ⟨TXF_STAT.addr x, 3, 1⟩
/-- Access RO. -/ def TXF_STAT.CAL (x : Nat) : Loc := ⟨TXF_STAT.addr x, 2, 1⟩
/-- Access RO. -/ def TXF_STAT.LOCK (x : Nat) : Loc := ⟨TXF_STAT.addr x, 1, 1⟩
/-- Access RO. -/ def TXF_STAT.PAON (x : Nat) : Loc := ⟨TXF_STAT.addr x, 0, 1⟩

/-- Chapter 05 R145. -/
def TXF_FE.addr (x : Nat) : Nat := 0x20060018 + 0x4 * x
/-- Access RW/PS. -/ def TXF_FE.PALEAD (x : Nat) : Loc := ⟨TXF_FE.addr x, 12, 4⟩
/-- Access RW/PS. -/ def TXF_FE.SWLAG (x : Nat) : Loc := ⟨TXF_FE.addr x, 8, 4⟩
/-- Access RW/PS. -/ def TXF_FE.SWPOL (x : Nat) : Loc := ⟨TXF_FE.addr x, 2, 1⟩
/-- Access RW/PS. -/ def TXF_FE.LNAPOL (x : Nat) : Loc := ⟨TXF_FE.addr x, 1, 1⟩
/-- Access RW/PS. -/ def TXF_FE.PAPOL (x : Nat) : Loc := ⟨TXF_FE.addr x, 0, 1⟩

/-- Chapter 05 R145. -/
def TXF_SHAPE.addr : Nat := 0x20060020
/-- Access RW/PS. -/ def TXF_SHAPE.SET : Loc := ⟨TXF_SHAPE.addr, 0, 32⟩

/-- Chapter 05 R145. -/
def TXF_MASKSEL.addr : Nat := 0x20060024
/-- Access RW/PS. -/ def TXF_MASKSEL.SEL : Loc := ⟨TXF_MASKSEL.addr, 0, 32⟩

/-- Chapter 05 R145. -/
def TXF_EVT.addr : Nat := 0x20060028
/-- Access W1C. -/ def TXF_EVT.NOCAR : Loc := ⟨TXF_EVT.addr, 8, 1⟩
/-- Access W1C. -/ def TXF_EVT.MASKBAD : Loc := ⟨TXF_EVT.addr, 7, 1⟩
/-- Access W1C. -/ def TXF_EVT.MASKB : Loc := ⟨TXF_EVT.addr, 6, 1⟩
/-- Access W1C. -/ def TXF_EVT.MASKA : Loc := ⟨TXF_EVT.addr, 5, 1⟩
/-- Access W1C. -/ def TXF_EVT.CLAMP : Loc := ⟨TXF_EVT.addr, 4, 1⟩
/-- Access W1C. -/ def TXF_EVT.LATEB : Loc := ⟨TXF_EVT.addr, 3, 1⟩
/-- Access W1C. -/ def TXF_EVT.LATEA : Loc := ⟨TXF_EVT.addr, 2, 1⟩
/-- Access W1C. -/ def TXF_EVT.UNLOCKB : Loc := ⟨TXF_EVT.addr, 1, 1⟩
/-- Access W1C. -/ def TXF_EVT.UNLOCKA : Loc := ⟨TXF_EVT.addr, 0, 1⟩

/-- Chapter 05 R145. -/
def TXF_IEN.addr : Nat := 0x2006002C
/-- Access RW/PS. -/ def TXF_IEN.IEN : Loc := ⟨TXF_IEN.addr, 0, 9⟩

/-- Chapter 05 R145. -/
def TXF_CALCNT.addr : Nat := 0x20060030
/-- Access RW. -/ def TXF_CALCNT.B : Loc := ⟨TXF_CALCNT.addr, 16, 16⟩
/-- Access RW. -/ def TXF_CALCNT.A : Loc := ⟨TXF_CALCNT.addr, 0, 16⟩

/-- Chapter 05 R145. -/
def TXF_LATECNT.addr : Nat := 0x20060034
/-- Access RW. -/ def TXF_LATECNT.B : Loc := ⟨TXF_LATECNT.addr, 16, 16⟩
/-- Access RW. -/ def TXF_LATECNT.A : Loc := ⟨TXF_LATECNT.addr, 0, 16⟩

/-- Chapter 05 R145. -/
def TXF_MASKCNT.addr : Nat := 0x20060038
/-- Access RW. -/ def TXF_MASKCNT.B : Loc := ⟨TXF_MASKCNT.addr, 16, 16⟩
/-- Access RW. -/ def TXF_MASKCNT.A : Loc := ⟨TXF_MASKCNT.addr, 0, 16⟩

/-- Chapter 05 R145. -/
def TXF_CARSTAT.addr (c : Nat) : Nat := 0x20060100 + 0x10 * c
/-- Access RO. -/ def TXF_CARSTAT.STATUS (c : Nat) : Loc := ⟨TXF_CARSTAT.addr c, 28, 4⟩
/-- Access RO. -/ def TXF_CARSTAT.WAVE (c : Nat) : Loc := ⟨TXF_CARSTAT.addr c, 24, 4⟩
/-- Access RO. -/ def TXF_CARSTAT.ACK (c : Nat) : Loc := ⟨TXF_CARSTAT.addr c, 2, 1⟩
/-- Access RO. -/ def TXF_CARSTAT.RES (c : Nat) : Loc := ⟨TXF_CARSTAT.addr c, 1, 1⟩
/-- Access RO. -/ def TXF_CARSTAT.SEND (c : Nat) : Loc := ⟨TXF_CARSTAT.addr c, 0, 1⟩

/-- Chapter 05 R145. -/
def TXF_CARFREQ.addr (c : Nat) : Nat := 0x20060104 + 0x10 * c
/-- Access RO. -/ def TXF_CARFREQ.FREQ (c : Nat) : Loc := ⟨TXF_CARFREQ.addr c, 0, 32⟩

/-- Chapter 05 R145. -/
def TXF_CARLVL.addr (c : Nat) : Nat := 0x20060108 + 0x10 * c
/-- Access RO. -/ def TXF_CARLVL.LEVEL (c : Nat) : Loc := ⟨TXF_CARLVL.addr c, 0, 8⟩

/-- Chapter 05 R145. -/
def TXF_COEF.addr (n : Nat) : Nat := 0x20060400 + 0x4 * n
/-- Access RW/PS. -/ def TXF_COEF.ODD (n : Nat) : Loc := ⟨TXF_COEF.addr n, 16, 16⟩
/-- Access RW/PS. -/ def TXF_COEF.EVEN (n : Nat) : Loc := ⟨TXF_COEF.addr n, 0, 16⟩

/-- Chapter 05 R145. -/
def TXF_MASK.addr (n : Nat) : Nat := 0x20060600 + 0x4 * n
/-- Access RW/PS. -/ def TXF_MASK.OFS1 (n : Nat) : Loc := ⟨TXF_MASK.addr n, 24, 8⟩
/-- Access RW/PS. -/ def TXF_MASK.LIM1 (n : Nat) : Loc := ⟨TXF_MASK.addr n, 16, 8⟩
/-- Access RW/PS. -/ def TXF_MASK.OFS0 (n : Nat) : Loc := ⟨TXF_MASK.addr n, 8, 8⟩
/-- Access RW/PS. -/ def TXF_MASK.LIM0 (n : Nat) : Loc := ⟨TXF_MASK.addr n, 0, 8⟩

/-- Chapter 05 R147. -/
def GLZ_STAT.addr : Nat := 0x20070000
/-- Access RO. -/ def GLZ_STAT.BUSY : Loc := ⟨GLZ_STAT.addr, 2, 1⟩
/-- Access RO. -/ def GLZ_STAT.BAD : Loc := ⟨GLZ_STAT.addr, 1, 1⟩
/-- Access RO. -/ def GLZ_STAT.SEALED : Loc := ⟨GLZ_STAT.addr, 0, 1⟩

/-- Chapter 05 R147. -/
def GLZ_SEAL.addr : Nat := 0x20070004
/-- Access WO/PS. -/ def GLZ_SEAL.KEY : Loc := ⟨GLZ_SEAL.addr, 16, 16⟩
/-- Access WO/PS. -/ def GLZ_SEAL.SEAL : Loc := ⟨GLZ_SEAL.addr, 0, 1⟩

/-- Chapter 05 R147. -/
def GLZ_PATH.addr (x : Nat) : Nat := 0x20070008 + 0x4 * x
/-- Access RW/PS. -/ def GLZ_PATH.EXTPA (x : Nat) : Loc := ⟨GLZ_PATH.addr x, 31, 1⟩
/-- Access RW/PS. -/ def GLZ_PATH.COMP (x : Nat) : Loc := ⟨GLZ_PATH.addr x, 16, 8⟩
/-- Access RW/PS. -/ def GLZ_PATH.GAIN (x : Nat) : Loc := ⟨GLZ_PATH.addr x, 0, 8⟩

/-- Chapter 05 R147. -/
def GLZ_CRC.addr : Nat := 0x20070010
/-- Access RO. -/ def GLZ_CRC.CRC : Loc := ⟨GLZ_CRC.addr, 0, 32⟩

/-- Chapter 05 R147. -/
def GLZ_EVT.addr : Nat := 0x20070014
/-- Access W1C. -/ def GLZ_EVT.SEALERR : Loc := ⟨GLZ_EVT.addr, 2, 1⟩
/-- Access W1C. -/ def GLZ_EVT.CUT : Loc := ⟨GLZ_EVT.addr, 1, 1⟩
/-- Access W1C. -/ def GLZ_EVT.REFUSE : Loc := ⟨GLZ_EVT.addr, 0, 1⟩

/-- Chapter 05 R147. -/
def GLZ_IEN.addr : Nat := 0x20070018
/-- Access RW/PS. -/ def GLZ_IEN.IEN : Loc := ⟨GLZ_IEN.addr, 0, 3⟩

/-- Chapter 05 R147. -/
def GLZ_REFCNT.addr (i : Nat) : Nat := 0x20070040 + 0x4 * i
/-- Access RW. -/ def GLZ_REFCNT.COUNT (i : Nat) : Loc := ⟨GLZ_REFCNT.addr i, 0, 32⟩

/-- Chapter 05 R147. -/
def GLZ_SBLO.addr (n : Nat) : Nat := 0x20070100 + 0x20 * n
/-- Access RW/PS. -/ def GLZ_SBLO.FREQ (n : Nat) : Loc := ⟨GLZ_SBLO.addr n, 0, 32⟩

/-- Chapter 05 R147. -/
def GLZ_SBHI.addr (n : Nat) : Nat := 0x20070104 + 0x20 * n
/-- Access RW/PS. -/ def GLZ_SBHI.FREQ (n : Nat) : Loc := ⟨GLZ_SBHI.addr n, 0, 32⟩

/-- Chapter 05 R147. -/
def GLZ_SBGRID.addr (n : Nat) : Nat := 0x20070108 + 0x20 * n
/-- Access RW/PS. -/ def GLZ_SBGRID.SPACING (n : Nat) : Loc := ⟨GLZ_SBGRID.addr n, 16, 16⟩
/-- Access RW/PS. -/ def GLZ_SBGRID.FIRST (n : Nat) : Loc := ⟨GLZ_SBGRID.addr n, 0, 16⟩

/-- Chapter 05 R147. -/
def GLZ_SBMAPL.addr (n : Nat) : Nat := 0x2007010C + 0x20 * n
/-- Access RW/PS. -/ def GLZ_SBMAPL.MAP (n : Nat) : Loc := ⟨GLZ_SBMAPL.addr n, 0, 32⟩

/-- Chapter 05 R147. -/
def GLZ_SBMAPH.addr (n : Nat) : Nat := 0x20070110 + 0x20 * n
/-- Access RW/PS. -/ def GLZ_SBMAPH.MAP (n : Nat) : Loc := ⟨GLZ_SBMAPH.addr n, 0, 32⟩

/-- Chapter 05 R147. -/
def GLZ_SBLIM.addr (n : Nat) : Nat := 0x20070114 + 0x20 * n
/-- Access RW/PS. -/ def GLZ_SBLIM.WAVES (n : Nat) : Loc := ⟨GLZ_SBLIM.addr n, 16, 8⟩
/-- Access RW/PS. -/ def GLZ_SBLIM.EIRP (n : Nat) : Loc := ⟨GLZ_SBLIM.addr n, 8, 8⟩
/-- Access RW/PS. -/ def GLZ_SBLIM.DWELL (n : Nat) : Loc := ⟨GLZ_SBLIM.addr n, 0, 8⟩

/-- Chapter 05 R147. -/
def GLZ_SBDUTY.addr (n : Nat) : Nat := 0x20070118 + 0x20 * n
/-- Access RW/PS. -/ def GLZ_SBDUTY.WIN (n : Nat) : Loc := ⟨GLZ_SBDUTY.addr n, 20, 12⟩
/-- Access RW/PS. -/ def GLZ_SBDUTY.MAXON (n : Nat) : Loc := ⟨GLZ_SBDUTY.addr n, 0, 20⟩

/-- Chapter 05 R147. -/
def GLZ_SBLBT.addr (n : Nat) : Nat := 0x2007011C + 0x20 * n
/-- Access RW/PS. -/ def GLZ_SBLBT.REQ (n : Nat) : Loc := ⟨GLZ_SBLBT.addr n, 31, 1⟩
/-- Access RW/PS. -/ def GLZ_SBLBT.ACKEXEMPT (n : Nat) : Loc := ⟨GLZ_SBLBT.addr n, 30, 1⟩
/-- Access RW/PS. -/ def GLZ_SBLBT.AGE (n : Nat) : Loc := ⟨GLZ_SBLBT.addr n, 10, 10⟩
/-- Access RW/PS. -/ def GLZ_SBLBT.THR (n : Nat) : Loc := ⟨GLZ_SBLBT.addr n, 0, 8⟩

/-- Chapter 05 R147. -/
def GLZ_SBUSE.addr (n : Nat) : Nat := 0x20070400 + 0x4 * n
/-- Access RO. -/ def GLZ_SBUSE.USED (n : Nat) : Loc := ⟨GLZ_SBUSE.addr n, 0, 20⟩

/-- Chapter 05 R149. -/
def COEX_CTRL.addr : Nat := 0x20180000
/-- Access RW/PS. -/ def COEX_CTRL.REQLEAD : Loc := ⟨COEX_CTRL.addr, 24, 8⟩
/-- Access RW/PS. -/ def COEX_CTRL.PRITC : Loc := ⟨COEX_CTRL.addr, 10, 6⟩
/-- Access RW/PS. -/ def COEX_CTRL.RXREQ : Loc := ⟨COEX_CTRL.addr, 9, 1⟩
/-- Access RW/PS. -/ def COEX_CTRL.GNTCUT : Loc := ⟨COEX_CTRL.addr, 8, 1⟩
/-- Access RW/PS. -/ def COEX_CTRL.ACKPRI : Loc := ⟨COEX_CTRL.addr, 7, 1⟩
/-- Access RW/PS. -/ def COEX_CTRL.BANDB : Loc := ⟨COEX_CTRL.addr, 5, 1⟩
/-- Access RW/PS. -/ def COEX_CTRL.BANDA : Loc := ⟨COEX_CTRL.addr, 4, 1⟩
/-- Access RW/PS. -/ def COEX_CTRL.GNTPOL : Loc := ⟨COEX_CTRL.addr, 3, 1⟩
/-- Access RW/PS. -/ def COEX_CTRL.PRIPOL : Loc := ⟨COEX_CTRL.addr, 2, 1⟩
/-- Access RW/PS. -/ def COEX_CTRL.REQPOL : Loc := ⟨COEX_CTRL.addr, 1, 1⟩
/-- Access RW/PS. -/ def COEX_CTRL.EN : Loc := ⟨COEX_CTRL.addr, 0, 1⟩

/-- Chapter 05 R149. -/
def COEX_STAT.addr : Nat := 0x20180004
/-- Access RO. -/ def COEX_STAT.GNT : Loc := ⟨COEX_STAT.addr, 2, 1⟩
/-- Access RO. -/ def COEX_STAT.PRI : Loc := ⟨COEX_STAT.addr, 1, 1⟩
/-- Access RO. -/ def COEX_STAT.REQ : Loc := ⟨COEX_STAT.addr, 0, 1⟩

/-- Chapter 05 R149. -/
def COEX_EVT.addr : Nat := 0x20180008
/-- Access W1C. -/ def COEX_EVT.CUT : Loc := ⟨COEX_EVT.addr, 1, 1⟩
/-- Access W1C. -/ def COEX_EVT.DENY : Loc := ⟨COEX_EVT.addr, 0, 1⟩

/-- Chapter 05 R149. -/
def COEX_IEN.addr : Nat := 0x2018000C
/-- Access RW/PS. -/ def COEX_IEN.IEN : Loc := ⟨COEX_IEN.addr, 0, 2⟩

/-- Chapter 05 R149. -/
def COEX_DENYCNT.addr : Nat := 0x20180010
/-- Access RW. -/ def COEX_DENYCNT.ACK : Loc := ⟨COEX_DENYCNT.addr, 16, 16⟩
/-- Access RW. -/ def COEX_DENYCNT.FRAME : Loc := ⟨COEX_DENYCNT.addr, 0, 16⟩

/-- Chapter 05 R149. -/
def COEX_CUTCNT.addr : Nat := 0x20180014
/-- Access RW. -/ def COEX_CUTCNT.COUNT : Loc := ⟨COEX_CUTCNT.addr, 0, 16⟩

/-- Chapter 06 R183. -/
def LNK_CTRL.addr : Nat := 0x20080000
/-- Access RW/PS. -/ def LNK_CTRL.EN : Loc := ⟨LNK_CTRL.addr, 31, 1⟩
/-- Access RW/PS. -/ def LNK_CTRL.RETRIES : Loc := ⟨LNK_CTRL.addr, 24, 4⟩
/-- Access RW/PS. -/ def LNK_CTRL.ACKMCS : Loc := ⟨LNK_CTRL.addr, 16, 4⟩
/-- Access RW/PS. -/ def LNK_CTRL.MAXBE : Loc := ⟨LNK_CTRL.addr, 12, 3⟩
/-- Access RW/PS. -/ def LNK_CTRL.MINBE : Loc := ⟨LNK_CTRL.addr, 8, 3⟩
/-- Access RW/PS. -/ def LNK_CTRL.SKIM : Loc := ⟨LNK_CTRL.addr, 4, 4⟩
/-- Access RW/PS. -/ def LNK_CTRL.SECREQ : Loc := ⟨LNK_CTRL.addr, 3, 1⟩
/-- Access RW/PS. -/ def LNK_CTRL.ACKUNK : Loc := ⟨LNK_CTRL.addr, 2, 1⟩

/-- Chapter 06 R183. -/
def LNK_ADDR.addr : Nat := 0x20080004
/-- Access RW/PS. -/ def LNK_ADDR.NETID : Loc := ⟨LNK_ADDR.addr, 16, 16⟩
/-- Access RW/PS. -/ def LNK_ADDR.ADDR : Loc := ⟨LNK_ADDR.addr, 0, 16⟩

/-- Chapter 06 R183. -/
def LNK_TXOFS.addr : Nat := 0x20080008
/-- Access RWL/PS. -/ def LNK_TXOFS.TXOFS : Loc := ⟨LNK_TXOFS.addr, 0, 14⟩

/-- Chapter 06 R183. -/
def LNK_AIRMAX.addr : Nat := 0x2008000C
/-- Access RWL/PS. -/ def LNK_AIRMAX.AIRMAX : Loc := ⟨LNK_AIRMAX.addr, 0, 15⟩

/-- Chapter 06 R183. -/
def LNK_CCA.addr : Nat := 0x20080010
/-- Access RW/PS. -/ def LNK_CCA.THR : Loc := ⟨LNK_CCA.addr, 8, 8⟩
/-- Access RW/PS. -/ def LNK_CCA.MODE : Loc := ⟨LNK_CCA.addr, 0, 1⟩

/-- Chapter 06 R183. -/
def LNK_BEACON.addr : Nat := 0x20080014
/-- Access RW/PS. -/ def LNK_BEACON.QUEUE : Loc := ⟨LNK_BEACON.addr, 16, 6⟩
/-- Access RW/PS. -/ def LNK_BEACON.ABNOFS : Loc := ⟨LNK_BEACON.addr, 0, 11⟩

/-- Chapter 06 R183. -/
def LNK_BCAST.addr : Nat := 0x20080018
/-- Access RW/PS. -/ def LNK_BCAST.MCS : Loc := ⟨LNK_BCAST.addr, 28, 4⟩
/-- Access RW/PS. -/ def LNK_BCAST.LEVEL : Loc := ⟨LNK_BCAST.addr, 20, 8⟩
/-- Access RW/PS. -/ def LNK_BCAST.SEC : Loc := ⟨LNK_BCAST.addr, 8, 1⟩
/-- Access RW/PS. -/ def LNK_BCAST.KEYSLOT : Loc := ⟨LNK_BCAST.addr, 0, 8⟩

/-- Chapter 06 R183. -/
def LNK_SEQ.addr : Nat := 0x2008001C
/-- Access RW/PS. -/ def LNK_SEQ.NEXT : Loc := ⟨LNK_SEQ.addr, 0, 8⟩

/-- Chapter 06 R183. -/
def LNK_BCBO.addr : Nat := 0x20080020
/-- Access RW. -/ def LNK_BCBO.BE : Loc := ⟨LNK_BCBO.addr, 7, 3⟩
/-- Access RW. -/ def LNK_BCBO.BOCNT : Loc := ⟨LNK_BCBO.addr, 0, 7⟩

/-- Chapter 06 R183. -/
def LNK_EVT.addr : Nat := 0x20080024
/-- Access W1C. -/ def LNK_EVT.NOFIT : Loc := ⟨LNK_EVT.addr, 7, 1⟩
/-- Access W1C. -/ def LNK_EVT.WPEND : Loc := ⟨LNK_EVT.addr, 6, 1⟩
/-- Access W1C. -/ def LNK_EVT.OVERBOOK : Loc := ⟨LNK_EVT.addr, 5, 1⟩
/-- Access W1C. -/ def LNK_EVT.SKIP : Loc := ⟨LNK_EVT.addr, 4, 1⟩
/-- Access W1C. -/ def LNK_EVT.DROP : Loc := ⟨LNK_EVT.addr, 3, 1⟩
/-- Access W1C. -/ def LNK_EVT.SEC : Loc := ⟨LNK_EVT.addr, 2, 1⟩
/-- Access W1C. -/ def LNK_EVT.NOROOM : Loc := ⟨LNK_EVT.addr, 1, 1⟩
/-- Access W1C. -/ def LNK_EVT.LONG : Loc := ⟨LNK_EVT.addr, 0, 1⟩

/-- Chapter 06 R183. -/
def LNK_IEN.addr : Nat := 0x20080028
/-- Access RW/PS. -/ def LNK_IEN.IEN : Loc := ⟨LNK_IEN.addr, 0, 8⟩

/-- Chapter 06 R183. -/
def LNK_TXSTAT.addr : Nat := 0x2008002C
/-- Access RO. -/ def LNK_TXSTAT.STATUS : Loc := ⟨LNK_TXSTAT.addr, 26, 6⟩
/-- Access RO. -/ def LNK_TXSTAT.NBR : Loc := ⟨LNK_TXSTAT.addr, 16, 8⟩
/-- Access RO. -/ def LNK_TXSTAT.FAILS : Loc := ⟨LNK_TXSTAT.addr, 12, 4⟩
/-- Access RO. -/ def LNK_TXSTAT.CELL : Loc := ⟨LNK_TXSTAT.addr, 0, 12⟩

/-- Chapter 06 R183. -/
def LNK_RXSTAT.addr : Nat := 0x20080030
/-- Access RO. -/ def LNK_RXSTAT.STATUS : Loc := ⟨LNK_RXSTAT.addr, 26, 6⟩
/-- Access RO. -/ def LNK_RXSTAT.UNSCHED : Loc := ⟨LNK_RXSTAT.addr, 25, 1⟩
/-- Access RO. -/ def LNK_RXSTAT.NBR : Loc := ⟨LNK_RXSTAT.addr, 16, 8⟩
/-- Access RO. -/ def LNK_RXSTAT.SLICE : Loc := ⟨LNK_RXSTAT.addr, 12, 4⟩
/-- Access RO. -/ def LNK_RXSTAT.CELL : Loc := ⟨LNK_RXSTAT.addr, 0, 12⟩

/-- Chapter 06 R183. -/
def LNK_TXOKCNT.addr : Nat := 0x20080034
/-- Access RW. -/ def LNK_TXOKCNT.COUNT : Loc := ⟨LNK_TXOKCNT.addr, 0, 32⟩

/-- Chapter 06 R183. -/
def LNK_RETRYCNT.addr : Nat := 0x20080038
/-- Access RW. -/ def LNK_RETRYCNT.COUNT : Loc := ⟨LNK_RETRYCNT.addr, 0, 32⟩

/-- Chapter 06 R183. -/
def LNK_DROPCNT.addr : Nat := 0x2008003C
/-- Access RW. -/ def LNK_DROPCNT.LONG : Loc := ⟨LNK_DROPCNT.addr, 16, 16⟩
/-- Access RW. -/ def LNK_DROPCNT.RETRY : Loc := ⟨LNK_DROPCNT.addr, 0, 16⟩

/-- Chapter 06 R183. -/
def LNK_RXOKCNT.addr : Nat := 0x20080040
/-- Access RW. -/ def LNK_RXOKCNT.COUNT : Loc := ⟨LNK_RXOKCNT.addr, 0, 32⟩

/-- Chapter 06 R183. -/
def LNK_RXERRCNT.addr : Nat := 0x20080044
/-- Access RW. -/ def LNK_RXERRCNT.SEC : Loc := ⟨LNK_RXERRCNT.addr, 16, 16⟩
/-- Access RW. -/ def LNK_RXERRCNT.DUP : Loc := ⟨LNK_RXERRCNT.addr, 0, 16⟩

/-- Chapter 06 R183. -/
def LNK_NACKCNT.addr : Nat := 0x20080048
/-- Access RW. -/ def LNK_NACKCNT.SENT : Loc := ⟨LNK_NACKCNT.addr, 16, 16⟩
/-- Access RW. -/ def LNK_NACKCNT.RCVD : Loc := ⟨LNK_NACKCNT.addr, 0, 16⟩

/-- Chapter 06 R183. -/
def LNK_SKIPCNT.addr : Nat := 0x2008004C
/-- Access RW. -/ def LNK_SKIPCNT.TX : Loc := ⟨LNK_SKIPCNT.addr, 16, 16⟩
/-- Access RW. -/ def LNK_SKIPCNT.RX : Loc := ⟨LNK_SKIPCNT.addr, 0, 16⟩

/-- Chapter 06 R183. -/
def LNK_CCACNT.addr : Nat := 0x20080050
/-- Access RW. -/ def LNK_CCACNT.BUSY : Loc := ⟨LNK_CCACNT.addr, 0, 16⟩

/-- Chapter 06 R183. -/
def LNK_SF.addr (n : Nat) : Nat := 0x20080080 + 0x4 * n
/-- Access RW/PS. -/ def LNK_SF.EN (n : Nat) : Loc := ⟨LNK_SF.addr n, 31, 1⟩
/-- Access RW/PS. -/ def LNK_SF.LENGTH (n : Nat) : Loc := ⟨LNK_SF.addr n, 0, 13⟩

/-- Chapter 06 R183. -/
def LNK_HOPLEN.addr : Nat := 0x200800A0
/-- Access RW/PS. -/ def LNK_HOPLEN.LEN0 : Loc := ⟨LNK_HOPLEN.addr, 0, 8⟩
/-- Access RW/PS. -/ def LNK_HOPLEN.LEN1 : Loc := ⟨LNK_HOPLEN.addr, 8, 8⟩
/-- Access RW/PS. -/ def LNK_HOPLEN.LEN2 : Loc := ⟨LNK_HOPLEN.addr, 16, 8⟩
/-- Access RW/PS. -/ def LNK_HOPLEN.LEN3 : Loc := ⟨LNK_HOPLEN.addr, 24, 8⟩

/-- Chapter 06 R183. -/
def LNK_HOP.addr (n : Nat) : Nat := 0x20081000 + 0x4 * n
/-- Access RW/PS. -/ def LNK_HOP.IDX0 (n : Nat) : Loc := ⟨LNK_HOP.addr n, 0, 6⟩
/-- Access RW/PS. -/ def LNK_HOP.IDX1 (n : Nat) : Loc := ⟨LNK_HOP.addr n, 8, 6⟩
/-- Access RW/PS. -/ def LNK_HOP.IDX2 (n : Nat) : Loc := ⟨LNK_HOP.addr n, 16, 6⟩
/-- Access RW/PS. -/ def LNK_HOP.IDX3 (n : Nat) : Loc := ⟨LNK_HOP.addr n, 24, 6⟩

/-- Chapter 06 R183. -/
def LNK_CHAN.addr (i : Nat) : Nat := 0x20081400 + 0x4 * i
/-- Access RW/PS. -/ def LNK_CHAN.FREQ (i : Nat) : Loc := ⟨LNK_CHAN.addr i, 0, 32⟩

/-- Chapter 06 R183. -/
def LNK_NBR0.addr (n : Nat) : Nat := 0x20084000 + 0x40 * n
/-- Access RW/PS. -/ def LNK_NBR0.VALUE (n : Nat) : Loc := ⟨LNK_NBR0.addr n, 0, 32⟩

/-- Chapter 06 R183. -/
def LNK_NBR1.addr (n : Nat) : Nat := 0x20084004 + 0x40 * n
/-- Access RW/PS. -/ def LNK_NBR1.VALUE (n : Nat) : Loc := ⟨LNK_NBR1.addr n, 0, 32⟩

/-- Chapter 06 R183. -/
def LNK_NBR2.addr (n : Nat) : Nat := 0x20084008 + 0x40 * n
/-- Access RW. -/ def LNK_NBR2.VALUE (n : Nat) : Loc := ⟨LNK_NBR2.addr n, 0, 32⟩

/-- Chapter 06 R183. -/
def LNK_NBR3.addr (n : Nat) : Nat := 0x2008400C + 0x40 * n
/-- Access RW. -/ def LNK_NBR3.VALUE (n : Nat) : Loc := ⟨LNK_NBR3.addr n, 0, 32⟩

/-- Chapter 06 R183. -/
def LNK_NBR4.addr (n : Nat) : Nat := 0x20084010 + 0x40 * n
/-- Access RW. -/ def LNK_NBR4.VALUE (n : Nat) : Loc := ⟨LNK_NBR4.addr n, 0, 32⟩

/-- Chapter 06 R183. -/
def LNK_NBR5.addr (n : Nat) : Nat := 0x20084014 + 0x40 * n
/-- Access RW. -/ def LNK_NBR5.VALUE (n : Nat) : Loc := ⟨LNK_NBR5.addr n, 0, 32⟩

/-- Chapter 06 R183. -/
def LNK_NBR6.addr (n : Nat) : Nat := 0x20084018 + 0x40 * n
/-- Access RW. -/ def LNK_NBR6.VALUE (n : Nat) : Loc := ⟨LNK_NBR6.addr n, 0, 32⟩

/-- Chapter 06 R183. -/
def LNK_NBR7.addr (n : Nat) : Nat := 0x2008401C + 0x40 * n
/-- Access RW. -/ def LNK_NBR7.VALUE (n : Nat) : Loc := ⟨LNK_NBR7.addr n, 0, 32⟩

/-- Chapter 06 R183. -/
def LNK_NBR8.addr (n : Nat) : Nat := 0x20084020 + 0x40 * n
/-- Access RW. -/ def LNK_NBR8.VALUE (n : Nat) : Loc := ⟨LNK_NBR8.addr n, 0, 32⟩

/-- Chapter 06 R183. -/
def LNK_NBR9.addr (n : Nat) : Nat := 0x20084024 + 0x40 * n
/-- Access RW. -/ def LNK_NBR9.VALUE (n : Nat) : Loc := ⟨LNK_NBR9.addr n, 0, 32⟩

/-- Chapter 06 R183. -/
def LNK_NBR10.addr (n : Nat) : Nat := 0x20084028 + 0x40 * n
/-- Access RW. -/ def LNK_NBR10.VALUE (n : Nat) : Loc := ⟨LNK_NBR10.addr n, 0, 32⟩

/-- Chapter 06 R183. -/
def LNK_NBR11.addr (n : Nat) : Nat := 0x2008402C + 0x40 * n
/-- Access RW. -/ def LNK_NBR11.VALUE (n : Nat) : Loc := ⟨LNK_NBR11.addr n, 0, 32⟩

/-- Chapter 06 R183. -/
def LNK_NBR12.addr (n : Nat) : Nat := 0x20084030 + 0x40 * n
/-- Access RW. -/ def LNK_NBR12.VALUE (n : Nat) : Loc := ⟨LNK_NBR12.addr n, 0, 32⟩

/-- Chapter 06 R183. -/
def LNK_NBR13.addr (n : Nat) : Nat := 0x20084034 + 0x40 * n
/-- Access RW. -/ def LNK_NBR13.VALUE (n : Nat) : Loc := ⟨LNK_NBR13.addr n, 0, 32⟩

/-- Chapter 06 R183. -/
def LNK_NBR14.addr (n : Nat) : Nat := 0x20084038 + 0x40 * n
/-- Access RW. -/ def LNK_NBR14.VALUE (n : Nat) : Loc := ⟨LNK_NBR14.addr n, 0, 32⟩

/-- Chapter 06 R183. -/
def LNK_NBR15.addr (n : Nat) : Nat := 0x2008403C + 0x40 * n
/-- Access RW. -/ def LNK_NBR15.VALUE (n : Nat) : Loc := ⟨LNK_NBR15.addr n, 0, 32⟩

/-- Chapter 06 R183. -/
def LNK_CELL0.addr (c : Nat) : Nat := 0x20088000 + 0x8 * c
/-- Access RW/PS. -/ def LNK_CELL0.VALUE (c : Nat) : Loc := ⟨LNK_CELL0.addr c, 0, 32⟩

/-- Chapter 06 R183. -/
def LNK_CELL1.addr (c : Nat) : Nat := 0x20088004 + 0x8 * c
/-- Access RW/PS. -/ def LNK_CELL1.VALUE (c : Nat) : Loc := ⟨LNK_CELL1.addr c, 0, 32⟩

/-- Chapter 07 R203. -/
def LNK_GUARD.addr : Nat := 0x20080100
/-- Access RW/PS. -/ def LNK_GUARD.DLOCAL : Loc := ⟨LNK_GUARD.addr, 24, 8⟩
/-- Access RW/PS. -/ def LNK_GUARD.DNBR : Loc := ⟨LNK_GUARD.addr, 16, 8⟩
/-- Access RW/PS. -/ def LNK_GUARD.ESTEN : Loc := ⟨LNK_GUARD.addr, 15, 1⟩
/-- Access RW/PS. -/ def LNK_GUARD.ALPHA : Loc := ⟨LNK_GUARD.addr, 12, 3⟩
/-- Access RW/PS. -/ def LNK_GUARD.DMARGIN : Loc := ⟨LNK_GUARD.addr, 0, 8⟩

/-- Chapter 07 R203. -/
def LNK_GLIM.addr : Nat := 0x20080104
/-- Access RW/PS. -/ def LNK_GLIM.GMAX : Loc := ⟨LNK_GLIM.addr, 16, 12⟩
/-- Access RW/PS. -/ def LNK_GLIM.GMIN : Loc := ⟨LNK_GLIM.addr, 0, 12⟩

/-- Chapter 07 R203. -/
def LNK_TRACK.addr : Nat := 0x20080108
/-- Access RW/PS. -/ def LNK_TRACK.AUTOSCAN : Loc := ⟨LNK_TRACK.addr, 17, 1⟩
/-- Access RW/PS. -/ def LNK_TRACK.ADJ : Loc := ⟨LNK_TRACK.addr, 16, 1⟩
/-- Access RW/PS. -/ def LNK_TRACK.LOSTN : Loc := ⟨LNK_TRACK.addr, 8, 4⟩
/-- Access RW/PS. -/ def LNK_TRACK.PARENT : Loc := ⟨LNK_TRACK.addr, 0, 8⟩

/-- Chapter 07 R203. -/
def LNK_TSEND.addr : Nat := 0x2008010C
/-- Access RW/PS. -/ def LNK_TSEND.SLACK : Loc := ⟨LNK_TSEND.addr, 0, 16⟩

/-- Chapter 07 R203. -/
def LNK_TRX.addr : Nat := 0x20080110
/-- Access RW/PS. -/ def LNK_TRX.LINGER : Loc := ⟨LNK_TRX.addr, 8, 12⟩
/-- Access RW/PS. -/ def LNK_TRX.CTHR : Loc := ⟨LNK_TRX.addr, 0, 8⟩

/-- Chapter 07 R203. -/
def LNK_SCAN.addr : Nat := 0x20080114
/-- Access RW/PS. -/ def LNK_SCAN.RUN : Loc := ⟨LNK_SCAN.addr, 31, 1⟩
/-- Access RW/PS. -/ def LNK_SCAN.ANY : Loc := ⟨LNK_SCAN.addr, 30, 1⟩
/-- Access RW/PS. -/ def LNK_SCAN.SLICE : Loc := ⟨LNK_SCAN.addr, 20, 4⟩
/-- Access RW/PS. -/ def LNK_SCAN.WAVE : Loc := ⟨LNK_SCAN.addr, 16, 4⟩
/-- Access RW/PS. -/ def LNK_SCAN.DWELL : Loc := ⟨LNK_SCAN.addr, 8, 8⟩
/-- Access RW/PS. -/ def LNK_SCAN.ROUNDS : Loc := ⟨LNK_SCAN.addr, 0, 8⟩

/-- Chapter 07 R203. -/
def LNK_SCANMAPL.addr : Nat := 0x20080118
/-- Access RW/PS. -/ def LNK_SCANMAPL.MAP : Loc := ⟨LNK_SCANMAPL.addr, 0, 32⟩

/-- Chapter 07 R203. -/
def LNK_SCANMAPH.addr : Nat := 0x2008011C
/-- Access RW/PS. -/ def LNK_SCANMAPH.MAP : Loc := ⟨LNK_SCANMAPH.addr, 0, 32⟩

/-- Chapter 07 R203. -/
def LNK_SCANRES.addr : Nat := 0x20080120
/-- Access RO. -/ def LNK_SCANRES.FOUND : Loc := ⟨LNK_SCANRES.addr, 31, 1⟩
/-- Access RO. -/ def LNK_SCANRES.CHAN : Loc := ⟨LNK_SCANRES.addr, 24, 6⟩
/-- Access RO. -/ def LNK_SCANRES.SRC : Loc := ⟨LNK_SCANRES.addr, 0, 16⟩

/-- Chapter 07 R203. -/
def LNK_SCANABN.addr : Nat := 0x20080124
/-- Access RO. -/ def LNK_SCANABN.ABN : Loc := ⟨LNK_SCANABN.addr, 0, 32⟩

/-- Chapter 07 R203. -/
def LNK_TEVT.addr : Nat := 0x20080128
/-- Access W1C. -/ def LNK_TEVT.TDEFER : Loc := ⟨LNK_TEVT.addr, 7, 1⟩
/-- Access W1C. -/ def LNK_TEVT.TRELEASE : Loc := ⟨LNK_TEVT.addr, 6, 1⟩
/-- Access W1C. -/ def LNK_TEVT.ABNMIS : Loc := ⟨LNK_TEVT.addr, 5, 1⟩
/-- Access W1C. -/ def LNK_TEVT.SCERR : Loc := ⟨LNK_TEVT.addr, 4, 1⟩
/-- Access W1C. -/ def LNK_TEVT.SCEND : Loc := ⟨LNK_TEVT.addr, 3, 1⟩
/-- Access W1C. -/ def LNK_TEVT.SCFOUND : Loc := ⟨LNK_TEVT.addr, 2, 1⟩
/-- Access W1C. -/ def LNK_TEVT.PRECOV : Loc := ⟨LNK_TEVT.addr, 1, 1⟩
/-- Access W1C. -/ def LNK_TEVT.PLOST : Loc := ⟨LNK_TEVT.addr, 0, 1⟩

/-- Chapter 07 R203. -/
def LNK_TIEN.addr : Nat := 0x2008012C
/-- Access RW/PS. -/ def LNK_TIEN.IEN : Loc := ⟨LNK_TIEN.addr, 0, 8⟩

/-- Chapter 07 R203. -/
def LNK_TAWAKE.addr : Nat := 0x20080130
/-- Access RO. -/ def LNK_TAWAKE.B : Loc := ⟨LNK_TAWAKE.addr, 1, 1⟩
/-- Access RO. -/ def LNK_TAWAKE.A : Loc := ⟨LNK_TAWAKE.addr, 0, 1⟩

/-- Chapter 07 R203. -/
def LNK_TINT.addr (x : Nat) : Nat := 0x20080200 + 0x4 * x
/-- Access RW/PS. -/ def LNK_TINT.EN (x : Nat) : Loc := ⟨LNK_TINT.addr x, 31, 1⟩
/-- Access RW/PS. -/ def LNK_TINT.INTERVAL (x : Nat) : Loc := ⟨LNK_TINT.addr x, 0, 11⟩

/-- Chapter 08 R230. -/
def MSH_CTRL.addr : Nat := 0x20090000
/-- Access RW/PS. -/ def MSH_CTRL.EN : Loc := ⟨MSH_CTRL.addr, 31, 1⟩
/-- Access RW/PS. -/ def MSH_CTRL.BCLOCAL : Loc := ⟨MSH_CTRL.addr, 30, 1⟩
/-- Access RW/PS. -/ def MSH_CTRL.MAXHOP : Loc := ⟨MSH_CTRL.addr, 24, 6⟩
/-- Access RW/PS. -/ def MSH_CTRL.FLOODAGE : Loc := ⟨MSH_CTRL.addr, 16, 8⟩
/-- Access RW/PS. -/ def MSH_CTRL.DOWNLIM : Loc := ⟨MSH_CTRL.addr, 12, 4⟩

/-- Chapter 08 R230. -/
def MSH_DFLT.addr : Nat := 0x20090004
/-- Access RW/PS. -/ def MSH_DFLT.EN : Loc := ⟨MSH_DFLT.addr, 31, 1⟩
/-- Access RW/PS. -/ def MSH_DFLT.OUTLET : Loc := ⟨MSH_DFLT.addr, 28, 3⟩
/-- Access RW/PS. -/ def MSH_DFLT.NBR : Loc := ⟨MSH_DFLT.addr, 20, 8⟩

/-- Chapter 08 R230. -/
def MSH_BCOUT.addr : Nat := 0x20090008
/-- Access RW/PS. -/ def MSH_BCOUT.MASK : Loc := ⟨MSH_BCOUT.addr, 0, 6⟩

/-- Chapter 08 R230. -/
def MSH_FRAG.addr : Nat := 0x2009000C
/-- Access RW/PS. -/ def MSH_FRAG.MAXB : Loc := ⟨MSH_FRAG.addr, 16, 12⟩
/-- Access RW/PS. -/ def MSH_FRAG.MAXA : Loc := ⟨MSH_FRAG.addr, 0, 12⟩

/-- Chapter 08 R230. -/
def MSH_REASM.addr : Nat := 0x20090010
/-- Access RW/PS. -/ def MSH_REASM.CELLS : Loc := ⟨MSH_REASM.addr, 16, 16⟩
/-- Access RW/PS. -/ def MSH_REASM.TO : Loc := ⟨MSH_REASM.addr, 0, 8⟩

/-- Chapter 08 R230. -/
def MSH_REASMSTAT.addr : Nat := 0x20090014
/-- Access RO. -/ def MSH_REASMSTAT.CELLS : Loc := ⟨MSH_REASMSTAT.addr, 16, 16⟩
/-- Access RO. -/ def MSH_REASMSTAT.CTX : Loc := ⟨MSH_REASMSTAT.addr, 0, 6⟩

/-- Chapter 08 R230. -/
def MSH_EVT.addr : Nat := 0x20090018
/-- Access W1C. -/ def MSH_EVT.DOWN : Loc := ⟨MSH_EVT.addr, 5, 1⟩
/-- Access W1C. -/ def MSH_EVT.FRAGDROP : Loc := ⟨MSH_EVT.addr, 4, 1⟩
/-- Access W1C. -/ def MSH_EVT.REASM : Loc := ⟨MSH_EVT.addr, 3, 1⟩
/-- Access W1C. -/ def MSH_EVT.HOPEXP : Loc := ⟨MSH_EVT.addr, 2, 1⟩
/-- Access W1C. -/ def MSH_EVT.LOOP : Loc := ⟨MSH_EVT.addr, 1, 1⟩
/-- Access W1C. -/ def MSH_EVT.NOROUTE : Loc := ⟨MSH_EVT.addr, 0, 1⟩

/-- Chapter 08 R230. -/
def MSH_IEN.addr : Nat := 0x2009001C
/-- Access RW/PS. -/ def MSH_IEN.IEN : Loc := ⟨MSH_IEN.addr, 0, 6⟩

/-- Chapter 08 R230. -/
def MSH_FWDCNT.addr : Nat := 0x20090020
/-- Access RW. -/ def MSH_FWDCNT.COUNT : Loc := ⟨MSH_FWDCNT.addr, 0, 32⟩

/-- Chapter 08 R230. -/
def MSH_LOCALCNT.addr : Nat := 0x20090024
/-- Access RW. -/ def MSH_LOCALCNT.COUNT : Loc := ⟨MSH_LOCALCNT.addr, 0, 32⟩

/-- Chapter 08 R230. -/
def MSH_DROPCNT0.addr : Nat := 0x20090028
/-- Access RW. -/ def MSH_DROPCNT0.NOROUTE : Loc := ⟨MSH_DROPCNT0.addr, 16, 16⟩
/-- Access RW. -/ def MSH_DROPCNT0.HOPEXP : Loc := ⟨MSH_DROPCNT0.addr, 0, 16⟩

/-- Chapter 08 R230. -/
def MSH_DROPCNT1.addr : Nat := 0x2009002C
/-- Access RW. -/ def MSH_DROPCNT1.LOOP : Loc := ⟨MSH_DROPCNT1.addr, 16, 16⟩
/-- Access RW. -/ def MSH_DROPCNT1.BADHDR : Loc := ⟨MSH_DROPCNT1.addr, 0, 16⟩

/-- Chapter 08 R230. -/
def MSH_DROPCNT2.addr : Nat := 0x20090030
/-- Access RW. -/ def MSH_DROPCNT2.QDROP : Loc := ⟨MSH_DROPCNT2.addr, 16, 16⟩
/-- Access RW. -/ def MSH_DROPCNT2.REASM : Loc := ⟨MSH_DROPCNT2.addr, 0, 16⟩

/-- Chapter 08 R230. -/
def MSH_DROPCNT3.addr : Nat := 0x20090034
/-- Access RW. -/ def MSH_DROPCNT3.NBRDOWN : Loc := ⟨MSH_DROPCNT3.addr, 16, 16⟩
/-- Access RW. -/ def MSH_DROPCNT3.FLOODDUP : Loc := ⟨MSH_DROPCNT3.addr, 0, 16⟩

/-- Chapter 08 R230. -/
def MSH_TCMAP.addr (i : Nat) : Nat := 0x20090040 + 0x4 * i
/-- Access RW/PS. -/ def MSH_TCMAP.PRIO0 (i : Nat) : Loc := ⟨MSH_TCMAP.addr i, 0, 3⟩
/-- Access RW/PS. -/ def MSH_TCMAP.PRIO1 (i : Nat) : Loc := ⟨MSH_TCMAP.addr i, 4, 3⟩
/-- Access RW/PS. -/ def MSH_TCMAP.PRIO2 (i : Nat) : Loc := ⟨MSH_TCMAP.addr i, 8, 3⟩
/-- Access RW/PS. -/ def MSH_TCMAP.PRIO3 (i : Nat) : Loc := ⟨MSH_TCMAP.addr i, 12, 3⟩
/-- Access RW/PS. -/ def MSH_TCMAP.PRIO4 (i : Nat) : Loc := ⟨MSH_TCMAP.addr i, 16, 3⟩
/-- Access RW/PS. -/ def MSH_TCMAP.PRIO5 (i : Nat) : Loc := ⟨MSH_TCMAP.addr i, 20, 3⟩
/-- Access RW/PS. -/ def MSH_TCMAP.PRIO6 (i : Nat) : Loc := ⟨MSH_TCMAP.addr i, 24, 3⟩
/-- Access RW/PS. -/ def MSH_TCMAP.PRIO7 (i : Nat) : Loc := ⟨MSH_TCMAP.addr i, 28, 3⟩

/-- Chapter 08 R230. -/
def MSH_OQL.addr (o : Nat) : Nat := 0x20090080 + 0x8 * o
/-- Access RW/PS. -/ def MSH_OQL.Q0 (o : Nat) : Loc := ⟨MSH_OQL.addr o, 0, 6⟩
/-- Access RW/PS. -/ def MSH_OQL.Q1 (o : Nat) : Loc := ⟨MSH_OQL.addr o, 8, 6⟩
/-- Access RW/PS. -/ def MSH_OQL.Q2 (o : Nat) : Loc := ⟨MSH_OQL.addr o, 16, 6⟩
/-- Access RW/PS. -/ def MSH_OQL.Q3 (o : Nat) : Loc := ⟨MSH_OQL.addr o, 24, 6⟩

/-- Chapter 08 R230. -/
def MSH_OQH.addr (o : Nat) : Nat := 0x20090084 + 0x8 * o
/-- Access RW/PS. -/ def MSH_OQH.Q0 (o : Nat) : Loc := ⟨MSH_OQH.addr o, 0, 6⟩
/-- Access RW/PS. -/ def MSH_OQH.Q1 (o : Nat) : Loc := ⟨MSH_OQH.addr o, 8, 6⟩
/-- Access RW/PS. -/ def MSH_OQH.Q2 (o : Nat) : Loc := ⟨MSH_OQH.addr o, 16, 6⟩
/-- Access RW/PS. -/ def MSH_OQH.Q3 (o : Nat) : Loc := ⟨MSH_OQH.addr o, 24, 6⟩

/-- Chapter 08 R230. -/
def MSH_DOWN.addr (i : Nat) : Nat := 0x20090100 + 0x4 * i
/-- Access W1C. -/ def MSH_DOWN.DOWN (i : Nat) : Loc := ⟨MSH_DOWN.addr i, 0, 32⟩

/-- Chapter 08 R230. -/
def MSH_MCAST.addr (g : Nat) : Nat := 0x20090400 + 0x4 * g
/-- Access RW/PS. -/ def MSH_MCAST.VALID (g : Nat) : Loc := ⟨MSH_MCAST.addr g, 31, 1⟩
/-- Access RW/PS. -/ def MSH_MCAST.OUT (g : Nat) : Loc := ⟨MSH_MCAST.addr g, 0, 7⟩

/-- Chapter 08 R232. -/
def JJL_CTRL.addr (n : Nat) : Nat := 0x20160000 + 0x40 * n
/-- Access RW/PS. -/ def JJL_CTRL.EN (n : Nat) : Loc := ⟨JJL_CTRL.addr n, 31, 1⟩
/-- Access RW/PS. -/ def JJL_CTRL.ROLE (n : Nat) : Loc := ⟨JJL_CTRL.addr n, 29, 2⟩
/-- Access RW/PS. -/ def JJL_CTRL.ADJ (n : Nat) : Loc := ⟨JJL_CTRL.addr n, 28, 1⟩
/-- Access RW/PS. -/ def JJL_CTRL.ADOPT (n : Nat) : Loc := ⟨JJL_CTRL.addr n, 27, 1⟩
/-- Access RW/PS. -/ def JJL_CTRL.MCRED (n : Nat) : Loc := ⟨JJL_CTRL.addr n, 16, 8⟩
/-- Access RW/PS. -/ def JJL_CTRL.DCRED (n : Nat) : Loc := ⟨JJL_CTRL.addr n, 0, 12⟩

/-- Chapter 08 R232. -/
def JJL_STAT.addr (n : Nat) : Nat := 0x20160004 + 0x40 * n
/-- Access RO. -/ def JJL_STAT.STATE (n : Nat) : Loc := ⟨JJL_STAT.addr n, 30, 2⟩
/-- Access RO. -/ def JJL_STAT.SYNC (n : Nat) : Loc := ⟨JJL_STAT.addr n, 29, 1⟩
/-- Access RO. -/ def JJL_STAT.ROLEERR (n : Nat) : Loc := ⟨JJL_STAT.addr n, 28, 1⟩
/-- Access RO. -/ def JJL_STAT.RMCRED (n : Nat) : Loc := ⟨JJL_STAT.addr n, 20, 8⟩
/-- Access RO. -/ def JJL_STAT.RDCRED (n : Nat) : Loc := ⟨JJL_STAT.addr n, 8, 12⟩

/-- Chapter 08 R232. -/
def JJL_OFS.addr (n : Nat) : Nat := 0x20160008 + 0x40 * n
/-- Access RO. -/ def JJL_OFS.OFS (n : Nat) : Loc := ⟨JJL_OFS.addr n, 0, 32⟩

/-- Chapter 08 R232. -/
def JJL_DELAY.addr (n : Nat) : Nat := 0x2016000C + 0x40 * n
/-- Access RO. -/ def JJL_DELAY.DELAY (n : Nat) : Loc := ⟨JJL_DELAY.addr n, 0, 16⟩

/-- Chapter 08 R232. -/
def JJL_EVT.addr (n : Nat) : Nat := 0x20160010 + 0x40 * n
/-- Access W1C. -/ def JJL_EVT.ROLEERR (n : Nat) : Loc := ⟨JJL_EVT.addr n, 5, 1⟩
/-- Access W1C. -/ def JJL_EVT.ABNMIS (n : Nat) : Loc := ⟨JJL_EVT.addr n, 4, 1⟩
/-- Access W1C. -/ def JJL_EVT.SYNC (n : Nat) : Loc := ⟨JJL_EVT.addr n, 3, 1⟩
/-- Access W1C. -/ def JJL_EVT.CRCERR (n : Nat) : Loc := ⟨JJL_EVT.addr n, 2, 1⟩
/-- Access W1C. -/ def JJL_EVT.DOWN (n : Nat) : Loc := ⟨JJL_EVT.addr n, 1, 1⟩
/-- Access W1C. -/ def JJL_EVT.UP (n : Nat) : Loc := ⟨JJL_EVT.addr n, 0, 1⟩

/-- Chapter 08 R232. -/
def JJL_IEN.addr (n : Nat) : Nat := 0x20160014 + 0x40 * n
/-- Access RW/PS. -/ def JJL_IEN.IEN (n : Nat) : Loc := ⟨JJL_IEN.addr n, 0, 6⟩

/-- Chapter 08 R232. -/
def JJL_RXCNT.addr (n : Nat) : Nat := 0x20160018 + 0x40 * n
/-- Access RW. -/ def JJL_RXCNT.COUNT (n : Nat) : Loc := ⟨JJL_RXCNT.addr n, 0, 32⟩

/-- Chapter 08 R232. -/
def JJL_TXCNT.addr (n : Nat) : Nat := 0x2016001C + 0x40 * n
/-- Access RW. -/ def JJL_TXCNT.COUNT (n : Nat) : Loc := ⟨JJL_TXCNT.addr n, 0, 32⟩

/-- Chapter 08 R232. -/
def JJL_ERRCNT.addr (n : Nat) : Nat := 0x20160020 + 0x40 * n
/-- Access RW. -/ def JJL_ERRCNT.CODE (n : Nat) : Loc := ⟨JJL_ERRCNT.addr n, 16, 16⟩
/-- Access RW. -/ def JJL_ERRCNT.CRC (n : Nat) : Loc := ⟨JJL_ERRCNT.addr n, 0, 16⟩

/-- Chapter 08 R234. -/
def ETH_CTRL.addr : Nat := 0x20150000
/-- Access RW/PS. -/ def ETH_CTRL.EN : Loc := ⟨ETH_CTRL.addr, 31, 1⟩
/-- Access RW/PS. -/ def ETH_CTRL.MODE : Loc := ⟨ETH_CTRL.addr, 30, 1⟩
/-- Access RW/PS. -/ def ETH_CTRL.ANEN : Loc := ⟨ETH_CTRL.addr, 29, 1⟩
/-- Access RW/PS. -/ def ETH_CTRL.PAUSEEN : Loc := ⟨ETH_CTRL.addr, 28, 1⟩
/-- Access RW/PS. -/ def ETH_CTRL.OTHER : Loc := ⟨ETH_CTRL.addr, 27, 1⟩

/-- Chapter 08 R234. -/
def ETH_STAT.addr : Nat := 0x20150004
/-- Access RO. -/ def ETH_STAT.LINK : Loc := ⟨ETH_STAT.addr, 31, 1⟩
/-- Access RO. -/ def ETH_STAT.SPEED : Loc := ⟨ETH_STAT.addr, 29, 2⟩
/-- Access RO. -/ def ETH_STAT.ANDONE : Loc := ⟨ETH_STAT.addr, 28, 1⟩
/-- Access RO. -/ def ETH_STAT.RPAUSED : Loc := ⟨ETH_STAT.addr, 27, 1⟩
/-- Access RO. -/ def ETH_STAT.LPAUSED : Loc := ⟨ETH_STAT.addr, 26, 1⟩

/-- Chapter 08 R234. -/
def ETH_MACLO.addr : Nat := 0x20150008
/-- Access RW/PS. -/ def ETH_MACLO.MAC : Loc := ⟨ETH_MACLO.addr, 0, 32⟩

/-- Chapter 08 R234. -/
def ETH_MACHI.addr : Nat := 0x2015000C
/-- Access RW/PS. -/ def ETH_MACHI.MAC : Loc := ⟨ETH_MACHI.addr, 0, 16⟩

/-- Chapter 08 R234. -/
def ETH_ETYPE.addr : Nat := 0x20150010
/-- Access RW/PS. -/ def ETH_ETYPE.TYPE : Loc := ⟨ETH_ETYPE.addr, 0, 16⟩

/-- Chapter 08 R234. -/
def ETH_PAUSE.addr : Nat := 0x20150014
/-- Access RW/PS. -/ def ETH_PAUSE.QUANTA : Loc := ⟨ETH_PAUSE.addr, 16, 16⟩
/-- Access RW/PS. -/ def ETH_PAUSE.THR : Loc := ⟨ETH_PAUSE.addr, 0, 16⟩

/-- Chapter 08 R234. -/
def ETH_MDIO.addr : Nat := 0x20150018
/-- Access RW/PS. -/ def ETH_MDIO.GO : Loc := ⟨ETH_MDIO.addr, 31, 1⟩
/-- Access RW/PS. -/ def ETH_MDIO.CL45 : Loc := ⟨ETH_MDIO.addr, 30, 1⟩
/-- Access RW/PS. -/ def ETH_MDIO.OP : Loc := ⟨ETH_MDIO.addr, 28, 2⟩
/-- Access RW/PS. -/ def ETH_MDIO.PHYAD : Loc := ⟨ETH_MDIO.addr, 23, 5⟩
/-- Access RW/PS. -/ def ETH_MDIO.REGAD : Loc := ⟨ETH_MDIO.addr, 18, 5⟩
/-- Access RW/PS. -/ def ETH_MDIO.DATA : Loc := ⟨ETH_MDIO.addr, 0, 16⟩

/-- Chapter 08 R234. -/
def ETH_MDIOCFG.addr : Nat := 0x2015001C
/-- Access RW/PS. -/ def ETH_MDIOCFG.DIV : Loc := ⟨ETH_MDIOCFG.addr, 0, 8⟩

/-- Chapter 08 R234. -/
def ETH_EVT.addr : Nat := 0x20150020
/-- Access W1C. -/ def ETH_EVT.RXDROP : Loc := ⟨ETH_EVT.addr, 3, 1⟩
/-- Access W1C. -/ def ETH_EVT.MDIODONE : Loc := ⟨ETH_EVT.addr, 2, 1⟩
/-- Access W1C. -/ def ETH_EVT.LINKDOWN : Loc := ⟨ETH_EVT.addr, 1, 1⟩
/-- Access W1C. -/ def ETH_EVT.LINKUP : Loc := ⟨ETH_EVT.addr, 0, 1⟩

/-- Chapter 08 R234. -/
def ETH_IEN.addr : Nat := 0x20150024
/-- Access RW/PS. -/ def ETH_IEN.IEN : Loc := ⟨ETH_IEN.addr, 0, 4⟩

/-- Chapter 08 R234. -/
def ETH_RXCNT.addr : Nat := 0x20150028
/-- Access RW. -/ def ETH_RXCNT.COUNT : Loc := ⟨ETH_RXCNT.addr, 0, 32⟩

/-- Chapter 08 R234. -/
def ETH_TXCNT.addr : Nat := 0x2015002C
/-- Access RW. -/ def ETH_TXCNT.COUNT : Loc := ⟨ETH_TXCNT.addr, 0, 32⟩

/-- Chapter 08 R234. -/
def ETH_ERRCNT.addr : Nat := 0x20150030
/-- Access RW. -/ def ETH_ERRCNT.FCS : Loc := ⟨ETH_ERRCNT.addr, 16, 16⟩
/-- Access RW. -/ def ETH_ERRCNT.DROP : Loc := ⟨ETH_ERRCNT.addr, 0, 16⟩

/-- Chapter 08 R234. -/
def ETH_PAUSECNT.addr : Nat := 0x20150034
/-- Access RW. -/ def ETH_PAUSECNT.SENT : Loc := ⟨ETH_PAUSECNT.addr, 16, 16⟩
/-- Access RW. -/ def ETH_PAUSECNT.RCVD : Loc := ⟨ETH_PAUSECNT.addr, 0, 16⟩

/-- Chapter 08 R234. -/
def ETH_PEERLO.addr (n : Nat) : Nat := 0x20150100 + 0x8 * n
/-- Access RW/PS. -/ def ETH_PEERLO.MAC (n : Nat) : Loc := ⟨ETH_PEERLO.addr n, 0, 32⟩

/-- Chapter 08 R234. -/
def ETH_PEERHI.addr (n : Nat) : Nat := 0x20150104 + 0x8 * n
/-- Access RW/PS. -/ def ETH_PEERHI.MAC (n : Nat) : Loc := ⟨ETH_PEERHI.addr n, 0, 16⟩

/-- Chapter 09 R255. -/
def QSC_CTRL.addr : Nat := 0x200A0000
/-- Access RW/PS. -/ def QSC_CTRL.EN : Loc := ⟨QSC_CTRL.addr, 31, 1⟩

/-- Chapter 09 R255. -/
def QSC_FREE.addr : Nat := 0x200A0004
/-- Access RO. -/ def QSC_FREE.URSV : Loc := ⟨QSC_FREE.addr, 16, 15⟩
/-- Access RO. -/ def QSC_FREE.FREE : Loc := ⟨QSC_FREE.addr, 0, 15⟩

/-- Chapter 09 R255. -/
def QSC_PBEN.addr : Nat := 0x200A0008
/-- Access RW/PS. -/ def QSC_PBEN.EN : Loc := ⟨QSC_PBEN.addr, 0, 8⟩

/-- Chapter 09 R255. -/
def QSC_PBUSE.addr : Nat := 0x200A000C
/-- Access RO. -/ def QSC_PBUSE.USE : Loc := ⟨QSC_PBUSE.addr, 0, 8⟩

/-- Chapter 09 R255. -/
def QSC_EVT.addr : Nat := 0x200A0010
/-- Access W1C. -/ def QSC_EVT.RSVBAD : Loc := ⟨QSC_EVT.addr, 5, 1⟩
/-- Access W1C. -/ def QSC_EVT.STRICTX : Loc := ⟨QSC_EVT.addr, 4, 1⟩
/-- Access W1C. -/ def QSC_EVT.ECC : Loc := ⟨QSC_EVT.addr, 3, 1⟩
/-- Access W1C. -/ def QSC_EVT.POLICED : Loc := ⟨QSC_EVT.addr, 2, 1⟩
/-- Access W1C. -/ def QSC_EVT.QUOTA : Loc := ⟨QSC_EVT.addr, 1, 1⟩
/-- Access W1C. -/ def QSC_EVT.NOBUF : Loc := ⟨QSC_EVT.addr, 0, 1⟩

/-- Chapter 09 R255. -/
def QSC_IEN.addr : Nat := 0x200A0014
/-- Access RW/PS. -/ def QSC_IEN.IEN : Loc := ⟨QSC_IEN.addr, 0, 6⟩

/-- Chapter 09 R255. -/
def QSC_OWNL.addr : Nat := 0x200A0018
/-- Access RWL/PS. -/ def QSC_OWNL.OWN : Loc := ⟨QSC_OWNL.addr, 0, 32⟩

/-- Chapter 09 R255. -/
def QSC_OWNH.addr : Nat := 0x200A001C
/-- Access RWL/PS. -/ def QSC_OWNH.OWN : Loc := ⟨QSC_OWNH.addr, 0, 32⟩

/-- Chapter 09 R255. -/
def QSC_POLOWN.addr : Nat := 0x200A0020
/-- Access RWL/PS. -/ def QSC_POLOWN.OWN : Loc := ⟨QSC_POLOWN.addr, 0, 32⟩

/-- Chapter 09 R255. -/
def QSC_SAMPABN.addr : Nat := 0x200A0024
/-- Access RO. -/ def QSC_SAMPABN.ABN : Loc := ⟨QSC_SAMPABN.addr, 0, 32⟩

/-- Chapter 09 R255. -/
def QSC_DROPCNT0.addr : Nat := 0x200A0030
/-- Access RW. -/ def QSC_DROPCNT0.QUOTA : Loc := ⟨QSC_DROPCNT0.addr, 16, 16⟩
/-- Access RW. -/ def QSC_DROPCNT0.NOBUF : Loc := ⟨QSC_DROPCNT0.addr, 0, 16⟩

/-- Chapter 09 R255. -/
def QSC_DROPCNT1.addr : Nat := 0x200A0034
/-- Access RW. -/ def QSC_DROPCNT1.POLICED : Loc := ⟨QSC_DROPCNT1.addr, 16, 16⟩
/-- Access RW. -/ def QSC_DROPCNT1.DISABLED : Loc := ⟨QSC_DROPCNT1.addr, 0, 16⟩

/-- Chapter 09 R255. -/
def QSC_DROPCNT2.addr : Nat := 0x200A0038
/-- Access RW. -/ def QSC_DROPCNT2.ECC : Loc := ⟨QSC_DROPCNT2.addr, 16, 16⟩
/-- Access RW. -/ def QSC_DROPCNT2.FLUSH : Loc := ⟨QSC_DROPCNT2.addr, 0, 16⟩

/-- Chapter 09 R255. -/
def QSC_DROPCNT3.addr : Nat := 0x200A003C
/-- Access RW. -/ def QSC_DROPCNT3.WAIT : Loc := ⟨QSC_DROPCNT3.addr, 0, 16⟩

/-- Chapter 09 R255. -/
def QSC_RSV.addr (o : Nat) : Nat := 0x200A0040 + 0x4 * o
/-- Access RO. -/ def QSC_RSV.USED (o : Nat) : Loc := ⟨QSC_RSV.addr o, 16, 15⟩
/-- Access RW/PS. -/ def QSC_RSV.CELLS (o : Nat) : Loc := ⟨QSC_RSV.addr o, 0, 15⟩

/-- Chapter 09 R255. -/
def QSC_VTIME.addr (o : Nat) : Nat := 0x200A0060 + 0x4 * o
/-- Access RO. -/ def QSC_VTIME.V (o : Nat) : Loc := ⟨QSC_VTIME.addr o, 0, 32⟩

/-- Chapter 09 R255. -/
def QSC_QCFG.addr (q : Nat) : Nat := 0x200A1000 + 0x40 * q
/-- Access RW. -/ def QSC_QCFG.EN (q : Nat) : Loc := ⟨QSC_QCFG.addr q, 31, 1⟩
/-- Access WO. -/ def QSC_QCFG.FLUSH (q : Nat) : Loc := ⟨QSC_QCFG.addr q, 30, 1⟩
/-- Access RW/PS. -/ def QSC_QCFG.STRICT (q : Nat) : Loc := ⟨QSC_QCFG.addr q, 29, 1⟩
/-- Access RW/PS. -/ def QSC_QCFG.OUTLET (q : Nat) : Loc := ⟨QSC_QCFG.addr q, 24, 3⟩
/-- Access RW. -/ def QSC_QCFG.POLEN (q : Nat) : Loc := ⟨QSC_QCFG.addr q, 6, 1⟩
/-- Access RW. -/ def QSC_QCFG.POL (q : Nat) : Loc := ⟨QSC_QCFG.addr q, 0, 5⟩

/-- Chapter 09 R255. -/
def QSC_WEIGHT.addr (q : Nat) : Nat := 0x200A1004 + 0x40 * q
/-- Access RW. -/ def QSC_WEIGHT.WEIGHT (q : Nat) : Loc := ⟨QSC_WEIGHT.addr q, 0, 16⟩

/-- Chapter 09 R255. -/
def QSC_RATE.addr (q : Nat) : Nat := 0x200A1008 + 0x40 * q
/-- Access RW. -/ def QSC_RATE.RATE (q : Nat) : Loc := ⟨QSC_RATE.addr q, 0, 22⟩

/-- Chapter 09 R255. -/
def QSC_BURST.addr (q : Nat) : Nat := 0x200A100C + 0x40 * q
/-- Access RW. -/ def QSC_BURST.BURST (q : Nat) : Loc := ⟨QSC_BURST.addr q, 0, 21⟩

/-- Chapter 09 R255. -/
def QSC_QBYTES.addr (q : Nat) : Nat := 0x200A1010 + 0x40 * q
/-- Access RW. -/ def QSC_QBYTES.QUOTA (q : Nat) : Loc := ⟨QSC_QBYTES.addr q, 0, 23⟩

/-- Chapter 09 R255. -/
def QSC_QPKTS.addr (q : Nat) : Nat := 0x200A1014 + 0x40 * q
/-- Access RW. -/ def QSC_QPKTS.QUOTA (q : Nat) : Loc := ⟨QSC_QPKTS.addr q, 0, 15⟩

/-- Chapter 09 R255. -/
def QSC_DEPTH.addr (q : Nat) : Nat := 0x200A1018 + 0x40 * q
/-- Access RO. -/ def QSC_DEPTH.BYTES (q : Nat) : Loc := ⟨QSC_DEPTH.addr q, 0, 23⟩

/-- Chapter 09 R255. -/
def QSC_QSTAT.addr (q : Nat) : Nat := 0x200A101C + 0x40 * q
/-- Access RO. -/ def QSC_QSTAT.ACTIVE (q : Nat) : Loc := ⟨QSC_QSTAT.addr q, 31, 1⟩
/-- Access RO. -/ def QSC_QSTAT.SHAPED (q : Nat) : Loc := ⟨QSC_QSTAT.addr q, 30, 1⟩
/-- Access RO. -/ def QSC_QSTAT.MOVEPEND (q : Nat) : Loc := ⟨QSC_QSTAT.addr q, 29, 1⟩
/-- Access RO. -/ def QSC_QSTAT.STRICTACT (q : Nat) : Loc := ⟨QSC_QSTAT.addr q, 28, 1⟩
/-- Access RO. -/ def QSC_QSTAT.INFLIGHT (q : Nat) : Loc := ⟨QSC_QSTAT.addr q, 24, 4⟩
/-- Access RO. -/ def QSC_QSTAT.PKTS (q : Nat) : Loc := ⟨QSC_QSTAT.addr q, 0, 15⟩

/-- Chapter 09 R255. -/
def QSC_TOKEN.addr (q : Nat) : Nat := 0x200A1020 + 0x40 * q
/-- Access RO. -/ def QSC_TOKEN.TOKEN (q : Nat) : Loc := ⟨QSC_TOKEN.addr q, 0, 32⟩

/-- Chapter 09 R255. -/
def QSC_SAMPB.addr (q : Nat) : Nat := 0x200A1024 + 0x40 * q
/-- Access RO. -/ def QSC_SAMPB.BYTES (q : Nat) : Loc := ⟨QSC_SAMPB.addr q, 0, 23⟩

/-- Chapter 09 R255. -/
def QSC_SAMPP.addr (q : Nat) : Nat := 0x200A1028 + 0x40 * q
/-- Access RO. -/ def QSC_SAMPP.PKTS (q : Nat) : Loc := ⟨QSC_SAMPP.addr q, 0, 15⟩

/-- Chapter 09 R255. -/
def QSC_SOJ.addr (q : Nat) : Nat := 0x200A102C + 0x40 * q
/-- Access RO. -/ def QSC_SOJ.US (q : Nat) : Loc := ⟨QSC_SOJ.addr q, 0, 32⟩

/-- Chapter 09 R255. -/
def QSC_PEAK.addr (q : Nat) : Nat := 0x200A1030 + 0x40 * q
/-- Access RW. -/ def QSC_PEAK.BYTES (q : Nat) : Loc := ⟨QSC_PEAK.addr q, 0, 23⟩

/-- Chapter 09 R255. -/
def QSC_ENQCNT.addr (q : Nat) : Nat := 0x200A1034 + 0x40 * q
/-- Access RW. -/ def QSC_ENQCNT.COUNT (q : Nat) : Loc := ⟨QSC_ENQCNT.addr q, 0, 32⟩

/-- Chapter 09 R255. -/
def QSC_DEQCNT.addr (q : Nat) : Nat := 0x200A1038 + 0x40 * q
/-- Access RW. -/ def QSC_DEQCNT.COUNT (q : Nat) : Loc := ⟨QSC_DEQCNT.addr q, 0, 32⟩

/-- Chapter 09 R255. -/
def QSC_DROP.addr (q : Nat) : Nat := 0x200A103C + 0x40 * q
/-- Access RW. -/ def QSC_DROP.COUNT (q : Nat) : Loc := ⟨QSC_DROP.addr q, 0, 32⟩

/-- Chapter 09 R255. -/
def QSC_POLCFG.addr (n : Nat) : Nat := 0x200A2000 + 0x20 * n
/-- Access RW. -/ def QSC_POLCFG.EN (n : Nat) : Loc := ⟨QSC_POLCFG.addr n, 31, 1⟩
/-- Access RW. -/ def QSC_POLCFG.YACT (n : Nat) : Loc := ⟨QSC_POLCFG.addr n, 30, 1⟩

/-- Chapter 09 R255. -/
def QSC_POLCIR.addr (n : Nat) : Nat := 0x200A2004 + 0x20 * n
/-- Access RW. -/ def QSC_POLCIR.CIR (n : Nat) : Loc := ⟨QSC_POLCIR.addr n, 0, 22⟩

/-- Chapter 09 R255. -/
def QSC_POLCBS.addr (n : Nat) : Nat := 0x200A2008 + 0x20 * n
/-- Access RW. -/ def QSC_POLCBS.CBS (n : Nat) : Loc := ⟨QSC_POLCBS.addr n, 0, 21⟩

/-- Chapter 09 R255. -/
def QSC_POLEBS.addr (n : Nat) : Nat := 0x200A200C + 0x20 * n
/-- Access RW. -/ def QSC_POLEBS.EBS (n : Nat) : Loc := ⟨QSC_POLEBS.addr n, 0, 21⟩

/-- Chapter 09 R255. -/
def QSC_POLGRN.addr (n : Nat) : Nat := 0x200A2010 + 0x20 * n
/-- Access RW. -/ def QSC_POLGRN.COUNT (n : Nat) : Loc := ⟨QSC_POLGRN.addr n, 0, 32⟩

/-- Chapter 09 R255. -/
def QSC_POLYEL.addr (n : Nat) : Nat := 0x200A2014 + 0x20 * n
/-- Access RW. -/ def QSC_POLYEL.COUNT (n : Nat) : Loc := ⟨QSC_POLYEL.addr n, 0, 32⟩

/-- Chapter 09 R255. -/
def QSC_POLRED.addr (n : Nat) : Nat := 0x200A2018 + 0x20 * n
/-- Access RW. -/ def QSC_POLRED.COUNT (n : Nat) : Loc := ⟨QSC_POLRED.addr n, 0, 32⟩

/-- Chapter 10 R275. -/
def TSU_CTRL.addr : Nat := 0x200B0000
/-- Access RW/PS. -/ def TSU_CTRL.TB2FOLLOW : Loc := ⟨TSU_CTRL.addr, 0, 1⟩

/-- Chapter 10 R275. -/
def TSU_STAT.addr : Nat := 0x200B0004
/-- Access RO. -/ def TSU_STAT.SLPOVF : Loc := ⟨TSU_STAT.addr, 11, 1⟩
/-- Access RO. -/ def TSU_STAT.HOLD : Loc := ⟨TSU_STAT.addr, 10, 1⟩
/-- Access RO. -/ def TSU_STAT.SLEWING : Loc := ⟨TSU_STAT.addr, 9, 1⟩
/-- Access RO. -/ def TSU_STAT.VALID : Loc := ⟨TSU_STAT.addr, 4, 4⟩
/-- Access RO. -/ def TSU_STAT.ARM : Loc := ⟨TSU_STAT.addr, 0, 3⟩

/-- Chapter 10 R275. -/
def TSU_EVT.addr : Nat := 0x200B0008
/-- Access W1C. -/ def TSU_EVT.NOSLOW : Loc := ⟨TSU_EVT.addr, 6, 1⟩
/-- Access W1C. -/ def TSU_EVT.SLPOVF : Loc := ⟨TSU_EVT.addr, 5, 1⟩
/-- Access W1C. -/ def TSU_EVT.CALDONE : Loc := ⟨TSU_EVT.addr, 4, 1⟩
/-- Access W1C. -/ def TSU_EVT.LATE : Loc := ⟨TSU_EVT.addr, 3, 1⟩
/-- Access W1C. -/ def TSU_EVT.OFSREJ : Loc := ⟨TSU_EVT.addr, 2, 1⟩
/-- Access W1C. -/ def TSU_EVT.STEPREF : Loc := ⟨TSU_EVT.addr, 1, 1⟩
/-- Access W1C. -/ def TSU_EVT.STEP : Loc := ⟨TSU_EVT.addr, 0, 1⟩

/-- Chapter 10 R275. -/
def TSU_IEN.addr : Nat := 0x200B000C
/-- Access RW/PS. -/ def TSU_IEN.IEN : Loc := ⟨TSU_IEN.addr, 0, 7⟩

/-- Chapter 10 R275. -/
def TSU_SNAP.addr : Nat := 0x200B0010
/-- Access WO/PS. -/ def TSU_SNAP.CAP : Loc := ⟨TSU_SNAP.addr, 0, 4⟩

/-- Chapter 10 R275. -/
def TSU_SERVO.addr : Nat := 0x200B0014
/-- Access RW/PS. -/ def TSU_SERVO.FREQEN : Loc := ⟨TSU_SERVO.addr, 31, 1⟩
/-- Access RW/PS. -/ def TSU_SERVO.ISH : Loc := ⟨TSU_SERVO.addr, 28, 3⟩
/-- Access RW/PS. -/ def TSU_SERVO.SRCEN : Loc := ⟨TSU_SERVO.addr, 24, 3⟩
/-- Access RW/PS. -/ def TSU_SERVO.OFSMAX : Loc := ⟨TSU_SERVO.addr, 12, 12⟩
/-- Access RW/PS. -/ def TSU_SERVO.SLEW : Loc := ⟨TSU_SERVO.addr, 0, 8⟩

/-- Chapter 10 R275. -/
def TSU_PHASE.addr : Nat := 0x200B0018
/-- Access RO. -/ def TSU_PHASE.P : Loc := ⟨TSU_PHASE.addr, 0, 32⟩

/-- Chapter 10 R275. -/
def TSU_LASTOFS.addr : Nat := 0x200B001C
/-- Access RO. -/ def TSU_LASTOFS.O : Loc := ⟨TSU_LASTOFS.addr, 0, 32⟩

/-- Chapter 10 R275. -/
def TSU_OFSCNT.addr : Nat := 0x200B0020
/-- Access RW. -/ def TSU_OFSCNT.REJ : Loc := ⟨TSU_OFSCNT.addr, 16, 16⟩
/-- Access RW. -/ def TSU_OFSCNT.TAKEN : Loc := ⟨TSU_OFSCNT.addr, 0, 16⟩

/-- Chapter 10 R275. -/
def TSU_SLPCFG.addr : Nat := 0x200B0024
/-- Access RW/PS. -/ def TSU_SLPCFG.CALWIN : Loc := ⟨TSU_SLPCFG.addr, 16, 2⟩
/-- Access RW/PS. -/ def TSU_SLPCFG.DRIFT : Loc := ⟨TSU_SLPCFG.addr, 0, 16⟩

/-- Chapter 10 R275. -/
def TSU_SLCAL.addr : Nat := 0x200B0028
/-- Access RO. -/ def TSU_SLCAL.PERIOD : Loc := ⟨TSU_SLCAL.addr, 0, 32⟩

/-- Chapter 10 R275. -/
def TSU_SLUNC.addr : Nat := 0x200B002C
/-- Access RO. -/ def TSU_SLUNC.CALOK : Loc := ⟨TSU_SLUNC.addr, 31, 1⟩
/-- Access RO. -/ def TSU_SLUNC.UNC : Loc := ⟨TSU_SLUNC.addr, 0, 16⟩

/-- Chapter 10 R275. -/
def TSU_SLPTICKLO.addr : Nat := 0x200B0030
/-- Access RO. -/ def TSU_SLPTICKLO.N : Loc := ⟨TSU_SLPTICKLO.addr, 0, 32⟩

/-- Chapter 10 R275. -/
def TSU_SLPTICKHI.addr : Nat := 0x200B0034
/-- Access RO. -/ def TSU_SLPTICKHI.N : Loc := ⟨TSU_SLPTICKHI.addr, 0, 8⟩

/-- Chapter 10 R275. -/
def TSU_SLPERR.addr : Nat := 0x200B0038
/-- Access RO. -/ def TSU_SLPERR.NS : Loc := ⟨TSU_SLPERR.addr, 0, 32⟩

/-- Chapter 10 R275. -/
def TSU_HOLDERR.addr : Nat := 0x200B003C
/-- Access RO. -/ def TSU_HOLDERR.NS : Loc := ⟨TSU_HOLDERR.addr, 0, 32⟩

/-- Chapter 10 R275. -/
def TSU_LTOL.addr : Nat := 0x200B0040
/-- Access RW/PS. -/ def TSU_LTOL.NS : Loc := ⟨TSU_LTOL.addr, 0, 16⟩

/-- Chapter 10 R275. -/
def TSU_LATECNT.addr : Nat := 0x200B0044
/-- Access RW. -/ def TSU_LATECNT.COUNT : Loc := ⟨TSU_LATECNT.addr, 0, 16⟩

/-- Chapter 10 R275. -/
def TSU_RFDLY.addr (x : Nat) : Nat := 0x200B0048 + 0x4 * x
/-- Access RW/PS. -/ def TSU_RFDLY.TX (x : Nat) : Loc := ⟨TSU_RFDLY.addr x, 16, 16⟩
/-- Access RW/PS. -/ def TSU_RFDLY.RX (x : Nat) : Loc := ⟨TSU_RFDLY.addr x, 0, 16⟩

/-- Chapter 10 R275. -/
def TSU_ETHDLY.addr : Nat := 0x200B0050
/-- Access RW/PS. -/ def TSU_ETHDLY.TX : Loc := ⟨TSU_ETHDLY.addr, 16, 16⟩
/-- Access RW/PS. -/ def TSU_ETHDLY.RX : Loc := ⟨TSU_ETHDLY.addr, 0, 16⟩

/-- Chapter 10 R275. -/
def TSU_TBFRAC.addr (n : Nat) : Nat := 0x200B0100 + 0x40 * n
/-- Access RO. -/ def TSU_TBFRAC.FRAC (n : Nat) : Loc := ⟨TSU_TBFRAC.addr n, 0, 16⟩

/-- Chapter 10 R275. -/
def TSU_TBNS.addr (n : Nat) : Nat := 0x200B0104 + 0x40 * n
/-- Access RO. -/ def TSU_TBNS.NS (n : Nat) : Loc := ⟨TSU_TBNS.addr n, 0, 32⟩

/-- Chapter 10 R275. -/
def TSU_TBSECLO.addr (n : Nat) : Nat := 0x200B0108 + 0x40 * n
/-- Access RO. -/ def TSU_TBSECLO.SEC (n : Nat) : Loc := ⟨TSU_TBSECLO.addr n, 0, 32⟩

/-- Chapter 10 R275. -/
def TSU_TBSECHI.addr (n : Nat) : Nat := 0x200B010C + 0x40 * n
/-- Access RO. -/ def TSU_TBSECHI.SEC (n : Nat) : Loc := ⟨TSU_TBSECHI.addr n, 0, 16⟩

/-- Chapter 10 R275. -/
def TSU_RATE.addr (n : Nat) : Nat := 0x200B0110 + 0x40 * n
/-- Access RW/PS. -/ def TSU_RATE.RATE (n : Nat) : Loc := ⟨TSU_RATE.addr n, 0, 32⟩

/-- Chapter 10 R275. -/
def TSU_SNAPNS.addr (n : Nat) : Nat := 0x200B0114 + 0x40 * n
/-- Access RO. -/ def TSU_SNAPNS.NS (n : Nat) : Loc := ⟨TSU_SNAPNS.addr n, 0, 32⟩

/-- Chapter 10 R275. -/
def TSU_SNAPSECLO.addr (n : Nat) : Nat := 0x200B0118 + 0x40 * n
/-- Access RO. -/ def TSU_SNAPSECLO.SEC (n : Nat) : Loc := ⟨TSU_SNAPSECLO.addr n, 0, 32⟩

/-- Chapter 10 R275. -/
def TSU_SNAPX.addr (n : Nat) : Nat := 0x200B011C + 0x40 * n
/-- Access RO. -/ def TSU_SNAPX.SECHI (n : Nat) : Loc := ⟨TSU_SNAPX.addr n, 16, 16⟩
/-- Access RO. -/ def TSU_SNAPX.FRAC (n : Nat) : Loc := ⟨TSU_SNAPX.addr n, 0, 16⟩

/-- Chapter 10 R275. -/
def TSU_STEPNS.addr (n : Nat) : Nat := 0x200B0120 + 0x40 * n
/-- Access RW/PS. -/ def TSU_STEPNS.NS (n : Nat) : Loc := ⟨TSU_STEPNS.addr n, 0, 32⟩

/-- Chapter 10 R275. -/
def TSU_STEPSECLO.addr (n : Nat) : Nat := 0x200B0124 + 0x40 * n
/-- Access RW/PS. -/ def TSU_STEPSECLO.SEC (n : Nat) : Loc := ⟨TSU_STEPSECLO.addr n, 0, 32⟩

/-- Chapter 10 R275. -/
def TSU_STEPX.addr (n : Nat) : Nat := 0x200B0128 + 0x40 * n
/-- Access RW/PS. -/ def TSU_STEPX.SECHI (n : Nat) : Loc := ⟨TSU_STEPX.addr n, 16, 16⟩
/-- Access RW/PS. -/ def TSU_STEPX.FRAC (n : Nat) : Loc := ⟨TSU_STEPX.addr n, 0, 16⟩

/-- Chapter 10 R275. -/
def TSU_STEPCMD.addr (n : Nat) : Nat := 0x200B012C + 0x40 * n
/-- Access WO/PS. -/ def TSU_STEPCMD.KEY (n : Nat) : Loc := ⟨TSU_STEPCMD.addr n, 16, 16⟩
/-- Access WO/PS. -/ def TSU_STEPCMD.SNAP (n : Nat) : Loc := ⟨TSU_STEPCMD.addr n, 3, 1⟩
/-- Access WO/PS. -/ def TSU_STEPCMD.ARM (n : Nat) : Loc := ⟨TSU_STEPCMD.addr n, 2, 1⟩
/-- Access WO/PS. -/ def TSU_STEPCMD.REL (n : Nat) : Loc := ⟨TSU_STEPCMD.addr n, 1, 1⟩
/-- Access WO/PS. -/ def TSU_STEPCMD.GO (n : Nat) : Loc := ⟨TSU_STEPCMD.addr n, 0, 1⟩

/-- Chapter 10 R275. -/
def TSU_RXST0.addr (s : Nat) : Nat := 0x200B0400 + 0x8 * s
/-- Access RO. -/ def TSU_RXST0.NS (s : Nat) : Loc := ⟨TSU_RXST0.addr s, 0, 32⟩

/-- Chapter 10 R275. -/
def TSU_RXST1.addr (s : Nat) : Nat := 0x200B0404 + 0x8 * s
/-- Access RO. -/ def TSU_RXST1.SEC (s : Nat) : Loc := ⟨TSU_RXST1.addr s, 16, 16⟩
/-- Access RO. -/ def TSU_RXST1.FRAC (s : Nat) : Loc := ⟨TSU_RXST1.addr s, 0, 16⟩

/-- Chapter 10 R275. -/
def TSU_TXST0.addr (c : Nat) : Nat := 0x200B0480 + 0x8 * c
/-- Access RO. -/ def TSU_TXST0.NS (c : Nat) : Loc := ⟨TSU_TXST0.addr c, 0, 32⟩

/-- Chapter 10 R275. -/
def TSU_TXST1.addr (c : Nat) : Nat := 0x200B0484 + 0x8 * c
/-- Access RO. -/ def TSU_TXST1.SEC (c : Nat) : Loc := ⟨TSU_TXST1.addr c, 16, 16⟩
/-- Access RO. -/ def TSU_TXST1.FRAC (c : Nat) : Loc := ⟨TSU_TXST1.addr c, 0, 16⟩

/-- Chapter 10 R275. -/
def TSU_ETHRXST0.addr : Nat := 0x200B04C0
/-- Access RO. -/ def TSU_ETHRXST0.NS : Loc := ⟨TSU_ETHRXST0.addr, 0, 32⟩

/-- Chapter 10 R275. -/
def TSU_ETHRXST1.addr : Nat := 0x200B04C4
/-- Access RO. -/ def TSU_ETHRXST1.SEC : Loc := ⟨TSU_ETHRXST1.addr, 16, 16⟩
/-- Access RO. -/ def TSU_ETHRXST1.FRAC : Loc := ⟨TSU_ETHRXST1.addr, 0, 16⟩

/-- Chapter 10 R275. -/
def TSU_ETHTXST0.addr : Nat := 0x200B04C8
/-- Access RO. -/ def TSU_ETHTXST0.NS : Loc := ⟨TSU_ETHTXST0.addr, 0, 32⟩

/-- Chapter 10 R275. -/
def TSU_ETHTXST1.addr : Nat := 0x200B04CC
/-- Access RO. -/ def TSU_ETHTXST1.SEC : Loc := ⟨TSU_ETHTXST1.addr, 16, 16⟩
/-- Access RO. -/ def TSU_ETHTXST1.FRAC : Loc := ⟨TSU_ETHTXST1.addr, 0, 16⟩

/-- Chapter 12 R326. -/
def ENG_PART.addr : Nat := 0x20190000
/-- Access RWL/PS. -/ def ENG_PART.EN : Loc := ⟨ENG_PART.addr, 0, 16⟩

/-- Chapter 12 R326. -/
def ENG_SPARE.addr : Nat := 0x20190004
/-- Access RWL/PS. -/ def ENG_SPARE.EN : Loc := ⟨ENG_SPARE.addr, 31, 1⟩
/-- Access RO. -/ def ENG_SPARE.USED : Loc := ⟨ENG_SPARE.addr, 30, 1⟩
/-- Access RWL/PS. -/ def ENG_SPARE.ENGINE : Loc := ⟨ENG_SPARE.addr, 0, 4⟩

/-- Chapter 12 R326. -/
def ENG_RUN.addr : Nat := 0x20190008
/-- Access RW/PS. -/ def ENG_RUN.EN : Loc := ⟨ENG_RUN.addr, 0, 16⟩

/-- Chapter 12 R326. -/
def ENG_WDEN.addr : Nat := 0x2019000C
/-- Access RWL/PS. -/ def ENG_WDEN.EN : Loc := ⟨ENG_WDEN.addr, 0, 16⟩

/-- Chapter 12 R326. -/
def ENG_EVT.addr : Nat := 0x20190010
/-- Access W1C. -/ def ENG_EVT.STOP : Loc := ⟨ENG_EVT.addr, 16, 16⟩
/-- Access W1C. -/ def ENG_EVT.WD : Loc := ⟨ENG_EVT.addr, 0, 16⟩

/-- Chapter 12 R326. -/
def ENG_IEN.addr : Nat := 0x20190014
/-- Access RW/PS. -/ def ENG_IEN.TK : Loc := ⟨ENG_IEN.addr, 2, 1⟩
/-- Access RW/PS. -/ def ENG_IEN.STOP : Loc := ⟨ENG_IEN.addr, 1, 1⟩
/-- Access RW/PS. -/ def ENG_IEN.WD : Loc := ⟨ENG_IEN.addr, 0, 1⟩

/-- Chapter 12 R326. -/
def ENG_TKSTAT.addr : Nat := 0x20190018
/-- Access W1C. -/ def ENG_TKSTAT.DONE : Loc := ⟨ENG_TKSTAT.addr, 31, 1⟩
/-- Access W1C. -/ def ENG_TKSTAT.FAIL : Loc := ⟨ENG_TKSTAT.addr, 30, 1⟩
/-- Access RO. -/ def ENG_TKSTAT.FAILED : Loc := ⟨ENG_TKSTAT.addr, 20, 4⟩
/-- Access RO. -/ def ENG_TKSTAT.SPARE : Loc := ⟨ENG_TKSTAT.addr, 16, 4⟩
/-- Access RO. -/ def ENG_TKSTAT.ECCW : Loc := ⟨ENG_TKSTAT.addr, 0, 16⟩

/-- Chapter 12 R326. -/
def ENG_MBALLOW.addr : Nat := 0x2019001C
/-- Access RWL/PS. -/ def ENG_MBALLOW.EN : Loc := ⟨ENG_MBALLOW.addr, 0, 16⟩

/-- Chapter 12 R326. -/
def ENG_DBGSTAT.addr : Nat := 0x20190020
/-- Access RO. -/ def ENG_DBGSTAT.HALT : Loc := ⟨ENG_DBGSTAT.addr, 16, 16⟩
/-- Access RO. -/ def ENG_DBGSTAT.OPEN : Loc := ⟨ENG_DBGSTAT.addr, 0, 16⟩

/-- Chapter 12 R326. -/
def ENG_ESTAT.addr (n : Nat) : Nat := 0x20190040 + 0x4 * n
/-- Access RO. -/ def ENG_ESTAT.STATE (n : Nat) : Loc := ⟨ENG_ESTAT.addr n, 28, 4⟩
/-- Access RO. -/ def ENG_ESTAT.WDCNT (n : Nat) : Loc := ⟨ENG_ESTAT.addr n, 26, 2⟩

/-- Chapter 12 R326. -/
def ENG_KICK.addr (n : Nat) : Nat := 0x20190080 + 0x4 * n

/-- Chapter 12 R326. -/
def ENG_O6MAP.addr (i : Nat) : Nat := 0x20190C00 + 0x4 * i
/-- Access RWL/PS. -/ def ENG_O6MAP.EN0 (i : Nat) : Loc := ⟨ENG_O6MAP.addr i, 7, 1⟩
/-- Access RWL/PS. -/ def ENG_O6MAP.ENGINE0 (i : Nat) : Loc := ⟨ENG_O6MAP.addr i, 0, 4⟩
/-- Access RWL/PS. -/ def ENG_O6MAP.EN1 (i : Nat) : Loc := ⟨ENG_O6MAP.addr i, 15, 1⟩
/-- Access RWL/PS. -/ def ENG_O6MAP.ENGINE1 (i : Nat) : Loc := ⟨ENG_O6MAP.addr i, 8, 4⟩
/-- Access RWL/PS. -/ def ENG_O6MAP.EN2 (i : Nat) : Loc := ⟨ENG_O6MAP.addr i, 23, 1⟩
/-- Access RWL/PS. -/ def ENG_O6MAP.ENGINE2 (i : Nat) : Loc := ⟨ENG_O6MAP.addr i, 16, 4⟩
/-- Access RWL/PS. -/ def ENG_O6MAP.EN3 (i : Nat) : Loc := ⟨ENG_O6MAP.addr i, 31, 1⟩
/-- Access RWL/PS. -/ def ENG_O6MAP.ENGINE3 (i : Nat) : Loc := ⟨ENG_O6MAP.addr i, 24, 4⟩

/-- Chapter 12 R326. -/
def ENG_TXDEST.addr (n : Nat) : Nat := 0x20190100 + 0x40 * n
/-- Access WO. -/ def ENG_TXDEST.DEST (n : Nat) : Loc := ⟨ENG_TXDEST.addr n, 16, 4⟩
/-- Access WO. -/ def ENG_TXDEST.LEN (n : Nat) : Loc := ⟨ENG_TXDEST.addr n, 0, 7⟩

/-- Chapter 12 R326. -/
def ENG_TXDATA.addr (n : Nat) : Nat := 0x20190104 + 0x40 * n
/-- Access WO. -/ def ENG_TXDATA.DATA (n : Nat) : Loc := ⟨ENG_TXDATA.addr n, 0, 32⟩

/-- Chapter 12 R326. -/
def ENG_TXSTAT.addr (n : Nat) : Nat := 0x20190108 + 0x40 * n
/-- Access RO. -/ def ENG_TXSTAT.OPEN (n : Nat) : Loc := ⟨ENG_TXSTAT.addr n, 31, 1⟩
/-- Access RO. -/ def ENG_TXSTAT.LEFT (n : Nat) : Loc := ⟨ENG_TXSTAT.addr n, 4, 7⟩
/-- Access W1C. -/ def ENG_TXSTAT.BADCELL (n : Nat) : Loc := ⟨ENG_TXSTAT.addr n, 3, 1⟩
/-- Access W1C. -/ def ENG_TXSTAT.FLUSHED (n : Nat) : Loc := ⟨ENG_TXSTAT.addr n, 2, 1⟩
/-- Access W1C. -/ def ENG_TXSTAT.NOOPEN (n : Nat) : Loc := ⟨ENG_TXSTAT.addr n, 1, 1⟩
/-- Access W1C. -/ def ENG_TXSTAT.NOSPACE (n : Nat) : Loc := ⟨ENG_TXSTAT.addr n, 0, 1⟩

/-- Chapter 12 R326. -/
def ENG_RXDATA.addr (n : Nat) : Nat := 0x2019010C + 0x40 * n
/-- Access RO. -/ def ENG_RXDATA.DATA (n : Nat) : Loc := ⟨ENG_RXDATA.addr n, 0, 32⟩

/-- Chapter 12 R326. -/
def ENG_RXSTAT.addr (n : Nat) : Nat := 0x20190110 + 0x40 * n
/-- Access WO. -/ def ENG_RXSTAT.FLUSH (n : Nat) : Loc := ⟨ENG_RXSTAT.addr n, 31, 1⟩
/-- Access RO. -/ def ENG_RXSTAT.NOTICES (n : Nat) : Loc := ⟨ENG_RXSTAT.addr n, 16, 8⟩
/-- Access RO. -/ def ENG_RXSTAT.LEVEL (n : Nat) : Loc := ⟨ENG_RXSTAT.addr n, 8, 7⟩
/-- Access W1C. -/ def ENG_RXSTAT.UNDERRUN (n : Nat) : Loc := ⟨ENG_RXSTAT.addr n, 1, 1⟩
/-- Access RO. -/ def ENG_RXSTAT.EMPTY (n : Nat) : Loc := ⟨ENG_RXSTAT.addr n, 0, 1⟩

/-- Chapter 12 R326. -/
def ENG_IRQSTAT.addr (n : Nat) : Nat := 0x20190114 + 0x40 * n
/-- Access W1C. -/ def ENG_IRQSTAT.WDWARN (n : Nat) : Loc := ⟨ENG_IRQSTAT.addr n, 4, 1⟩
/-- Access W1C. -/ def ENG_IRQSTAT.SUBDONE (n : Nat) : Loc := ⟨ENG_IRQSTAT.addr n, 3, 1⟩
/-- Access RO. -/ def ENG_IRQSTAT.O6 (n : Nat) : Loc := ⟨ENG_IRQSTAT.addr n, 2, 1⟩
/-- Access RO. -/ def ENG_IRQSTAT.MBOX (n : Nat) : Loc := ⟨ENG_IRQSTAT.addr n, 1, 1⟩
/-- Access W1C. -/ def ENG_IRQSTAT.BEAT (n : Nat) : Loc := ⟨ENG_IRQSTAT.addr n, 0, 1⟩

/-- Chapter 12 R326. -/
def ENG_PKTGET.addr (n : Nat) : Nat := 0x20190118 + 0x40 * n
/-- Access RO. -/ def ENG_PKTGET.VALID (n : Nat) : Loc := ⟨ENG_PKTGET.addr n, 31, 1⟩
/-- Access RO. -/ def ENG_PKTGET.CELL (n : Nat) : Loc := ⟨ENG_PKTGET.addr n, 16, 14⟩
/-- Access RO. -/ def ENG_PKTGET.LENGTH (n : Nat) : Loc := ⟨ENG_PKTGET.addr n, 0, 12⟩

/-- Chapter 12 R326. -/
def ENG_PKTST0.addr (n : Nat) : Nat := 0x2019011C + 0x40 * n
/-- Access RO. -/ def ENG_PKTST0.VALUE (n : Nat) : Loc := ⟨ENG_PKTST0.addr n, 0, 32⟩

/-- Chapter 12 R326. -/
def ENG_PKTST1.addr (n : Nat) : Nat := 0x20190120 + 0x40 * n
/-- Access RO. -/ def ENG_PKTST1.VALUE (n : Nat) : Loc := ⟨ENG_PKTST1.addr n, 0, 32⟩

/-- Chapter 12 R326. -/
def ENG_PKTDONE.addr (n : Nat) : Nat := 0x20190124 + 0x40 * n
/-- Access WO. -/ def ENG_PKTDONE.VALID (n : Nat) : Loc := ⟨ENG_PKTDONE.addr n, 31, 1⟩
/-- Access WO. -/ def ENG_PKTDONE.CELL (n : Nat) : Loc := ⟨ENG_PKTDONE.addr n, 16, 14⟩
/-- Access WO. -/ def ENG_PKTDONE.LENGTH (n : Nat) : Loc := ⟨ENG_PKTDONE.addr n, 0, 12⟩

/-- Chapter 12 R326. -/
def ENG_ALLOC.addr (n : Nat) : Nat := 0x20190128 + 0x40 * n
/-- Access RO. -/ def ENG_ALLOC.VALID (n : Nat) : Loc := ⟨ENG_ALLOC.addr n, 31, 1⟩
/-- Access RO. -/ def ENG_ALLOC.CELL (n : Nat) : Loc := ⟨ENG_ALLOC.addr n, 16, 14⟩
/-- Access RO. -/ def ENG_ALLOC.LENGTH (n : Nat) : Loc := ⟨ENG_ALLOC.addr n, 0, 12⟩

/-- Chapter 12 R326. -/
def ENG_FREE.addr (n : Nat) : Nat := 0x2019012C + 0x40 * n
/-- Access WO. -/ def ENG_FREE.VALID (n : Nat) : Loc := ⟨ENG_FREE.addr n, 31, 1⟩
/-- Access WO. -/ def ENG_FREE.CELL (n : Nat) : Loc := ⟨ENG_FREE.addr n, 16, 14⟩
/-- Access WO. -/ def ENG_FREE.LENGTH (n : Nat) : Loc := ⟨ENG_FREE.addr n, 0, 12⟩

/-- Chapter 12 R326. -/
def ENG_LINK.addr (n : Nat) : Nat := 0x20190130 + 0x40 * n
/-- Access RW. -/ def ENG_LINK.SET (n : Nat) : Loc := ⟨ENG_LINK.addr n, 31, 1⟩
/-- Access RW. -/ def ENG_LINK.NEXT (n : Nat) : Loc := ⟨ENG_LINK.addr n, 16, 14⟩
/-- Access RW. -/ def ENG_LINK.CELL (n : Nat) : Loc := ⟨ENG_LINK.addr n, 0, 14⟩

/-- Chapter 12 R326. -/
def ENG_SUBMIT.addr (n : Nat) : Nat := 0x20190134 + 0x40 * n
/-- Access WO. -/ def ENG_SUBMIT.FIRST (n : Nat) : Loc := ⟨ENG_SUBMIT.addr n, 16, 14⟩
/-- Access WO. -/ def ENG_SUBMIT.LENGTH (n : Nat) : Loc := ⟨ENG_SUBMIT.addr n, 0, 12⟩

/-- Chapter 12 R326. -/
def ENG_SUBSTAT.addr (n : Nat) : Nat := 0x20190138 + 0x40 * n
/-- Access RO. -/ def ENG_SUBSTAT.BUSY (n : Nat) : Loc := ⟨ENG_SUBSTAT.addr n, 31, 1⟩
/-- Access RO. -/ def ENG_SUBSTAT.RESULT (n : Nat) : Loc := ⟨ENG_SUBSTAT.addr n, 0, 3⟩

/-- Chapter 13 R350. -/
def AES_STAT.addr : Nat := 0x200C0000
/-- Access RO. -/ def AES_STAT.QUEUE : Loc := ⟨AES_STAT.addr, 8, 8⟩
/-- Access RO. -/ def AES_STAT.MASKOLD : Loc := ⟨AES_STAT.addr, 2, 1⟩
/-- Access RO. -/ def AES_STAT.GBUSY : Loc := ⟨AES_STAT.addr, 1, 1⟩
/-- Access RO. -/ def AES_STAT.FBUSY : Loc := ⟨AES_STAT.addr, 0, 1⟩

/-- Chapter 13 R350. -/
def AES_EVT.addr : Nat := 0x200C0004
/-- Access W1C. -/ def AES_EVT.RNGFAIL : Loc := ⟨AES_EVT.addr, 2, 1⟩
/-- Access W1C. -/ def AES_EVT.TAGFAIL : Loc := ⟨AES_EVT.addr, 1, 1⟩
/-- Access W1C. -/ def AES_EVT.BUSYW : Loc := ⟨AES_EVT.addr, 0, 1⟩

/-- Chapter 13 R350. -/
def AES_IEN.addr : Nat := 0x200C0008
/-- Access RW/PS. -/ def AES_IEN.DONE : Loc := ⟨AES_IEN.addr, 3, 1⟩
/-- Access RW/PS. -/ def AES_IEN.IEN : Loc := ⟨AES_IEN.addr, 0, 3⟩

/-- Chapter 13 R350. -/
def AES_OWNL.addr : Nat := 0x200C000C
/-- Access RWL/PS. -/ def AES_OWNL.OWN : Loc := ⟨AES_OWNL.addr, 0, 32⟩

/-- Chapter 13 R350. -/
def AES_OWNH.addr : Nat := 0x200C0010
/-- Access RWL/PS. -/ def AES_OWNH.OWN : Loc := ⟨AES_OWNH.addr, 0, 32⟩

/-- Chapter 13 R350. -/
def AES_DONEL.addr : Nat := 0x200C0014
/-- Access W1C. -/ def AES_DONEL.DONE : Loc := ⟨AES_DONEL.addr, 0, 32⟩

/-- Chapter 13 R350. -/
def AES_DONEH.addr : Nat := 0x200C0018
/-- Access W1C. -/ def AES_DONEH.DONE : Loc := ⟨AES_DONEH.addr, 0, 32⟩

/-- Chapter 13 R350. -/
def AES_CFG.addr (n : Nat) : Nat := 0x200C0100 + 0x20 * n
/-- Access RW. -/ def AES_CFG.KEYSLOT (n : Nat) : Loc := ⟨AES_CFG.addr n, 24, 8⟩
/-- Access RW. -/ def AES_CFG.MODE (n : Nat) : Loc := ⟨AES_CFG.addr n, 20, 4⟩
/-- Access RW. -/ def AES_CFG.DIR (n : Nat) : Loc := ⟨AES_CFG.addr n, 19, 1⟩
/-- Access RW. -/ def AES_CFG.TAGLEN (n : Nat) : Loc := ⟨AES_CFG.addr n, 14, 5⟩
/-- Access RW. -/ def AES_CFG.NONCELEN (n : Nat) : Loc := ⟨AES_CFG.addr n, 10, 4⟩

/-- Chapter 13 R350. -/
def AES_SRC.addr (n : Nat) : Nat := 0x200C0104 + 0x20 * n
/-- Access RW. -/ def AES_SRC.ADDR (n : Nat) : Loc := ⟨AES_SRC.addr n, 0, 32⟩

/-- Chapter 13 R350. -/
def AES_DST.addr (n : Nat) : Nat := 0x200C0108 + 0x20 * n
/-- Access RW. -/ def AES_DST.ADDR (n : Nat) : Loc := ⟨AES_DST.addr n, 0, 32⟩

/-- Chapter 13 R350. -/
def AES_LEN.addr (n : Nat) : Nat := 0x200C010C + 0x20 * n
/-- Access RW. -/ def AES_LEN.AADLEN (n : Nat) : Loc := ⟨AES_LEN.addr n, 16, 16⟩
/-- Access RW. -/ def AES_LEN.LEN (n : Nat) : Loc := ⟨AES_LEN.addr n, 0, 16⟩

/-- Chapter 13 R350. -/
def AES_CMD.addr (n : Nat) : Nat := 0x200C0110 + 0x20 * n
/-- Access WO. -/ def AES_CMD.OP (n : Nat) : Loc := ⟨AES_CMD.addr n, 4, 4⟩
/-- Access WO. -/ def AES_CMD.LAST (n : Nat) : Loc := ⟨AES_CMD.addr n, 0, 1⟩

/-- Chapter 13 R350. -/
def AES_STATn.addr (n : Nat) : Nat := 0x200C0114 + 0x20 * n
/-- Access RO. -/ def AES_STATn.BUSY (n : Nat) : Loc := ⟨AES_STATn.addr n, 31, 1⟩
/-- Access RO. -/ def AES_STATn.RESULT (n : Nat) : Loc := ⟨AES_STATn.addr n, 0, 4⟩

/-- Chapter 13 R350. -/
def AES_CTX.addr (i : Nat) : Nat := 0x200C1000 + 0x4 * i
/-- Access RW. -/ def AES_CTX.DATA (i : Nat) : Loc := ⟨AES_CTX.addr i, 0, 32⟩

/-- Chapter 13 R352. -/
def PKA_EVT.addr : Nat := 0x200D0000
/-- Access W1C. -/ def PKA_EVT.DONE : Loc := ⟨PKA_EVT.addr, 0, 2⟩

/-- Chapter 13 R352. -/
def PKA_IEN.addr : Nat := 0x200D0004
/-- Access RW/PS. -/ def PKA_IEN.IEN : Loc := ⟨PKA_IEN.addr, 0, 2⟩

/-- Chapter 13 R352. -/
def PKA_ATTLEFT.addr : Nat := 0x200D0008
/-- Access RO. -/ def PKA_ATTLEFT.LEFT : Loc := ⟨PKA_ATTLEFT.addr, 0, 21⟩

/-- Chapter 13 R352. -/
def PKA_OP.addr (c : Nat) : Nat := 0x200D0100 + 0x40 * c
/-- Access WO. -/ def PKA_OP.LAST (c : Nat) : Loc := ⟨PKA_OP.addr c, 7, 1⟩
/-- Access WO. -/ def PKA_OP.FIRST (c : Nat) : Loc := ⟨PKA_OP.addr c, 6, 1⟩
/-- Access WO. -/ def PKA_OP.OP (c : Nat) : Loc := ⟨PKA_OP.addr c, 0, 4⟩

/-- Chapter 13 R352. -/
def PKA_SRC.addr (c : Nat) : Nat := 0x200D0104 + 0x40 * c
/-- Access RW. -/ def PKA_SRC.ADDR (c : Nat) : Loc := ⟨PKA_SRC.addr c, 0, 32⟩

/-- Chapter 13 R352. -/
def PKA_LEN.addr (c : Nat) : Nat := 0x200D0108 + 0x40 * c
/-- Access RW. -/ def PKA_LEN.LEN (c : Nat) : Loc := ⟨PKA_LEN.addr c, 0, 24⟩

/-- Chapter 13 R352. -/
def PKA_KEY.addr (c : Nat) : Nat := 0x200D010C + 0x40 * c
/-- Access RW. -/ def PKA_KEY.ADDR (c : Nat) : Loc := ⟨PKA_KEY.addr c, 0, 32⟩

/-- Chapter 13 R352. -/
def PKA_SIG.addr (c : Nat) : Nat := 0x200D0110 + 0x40 * c
/-- Access RW. -/ def PKA_SIG.ADDR (c : Nat) : Loc := ⟨PKA_SIG.addr c, 0, 32⟩

/-- Chapter 13 R352. -/
def PKA_DST.addr (c : Nat) : Nat := 0x200D0114 + 0x40 * c
/-- Access RW. -/ def PKA_DST.ADDR (c : Nat) : Loc := ⟨PKA_DST.addr c, 0, 32⟩

/-- Chapter 13 R352. -/
def PKA_STAT.addr (c : Nat) : Nat := 0x200D0118 + 0x40 * c
/-- Access RO. -/ def PKA_STAT.BUSY (c : Nat) : Loc := ⟨PKA_STAT.addr c, 31, 1⟩
/-- Access RO. -/ def PKA_STAT.ECFAIL (c : Nat) : Loc := ⟨PKA_STAT.addr c, 9, 1⟩
/-- Access RO. -/ def PKA_STAT.HSSFAIL (c : Nat) : Loc := ⟨PKA_STAT.addr c, 8, 1⟩
/-- Access RO. -/ def PKA_STAT.RESULT (c : Nat) : Loc := ⟨PKA_STAT.addr c, 0, 4⟩

/-- Chapter 13 R354. -/
def KEY_LC.addr : Nat := 0x200E0000
/-- Access RO. -/ def KEY_LC.STATE : Loc := ⟨KEY_LC.addr, 0, 2⟩

/-- Chapter 13 R354. -/
def KEY_LCCMD.addr : Nat := 0x200E0004
/-- Access WO/PS. -/ def KEY_LCCMD.KEY : Loc := ⟨KEY_LCCMD.addr, 16, 16⟩
/-- Access WO/PS. -/ def KEY_LCCMD.TARGET : Loc := ⟨KEY_LCCMD.addr, 0, 2⟩

/-- Chapter 13 R354. -/
def KEY_CMD.addr : Nat := 0x200E0008
/-- Access WO/PS. -/ def KEY_CMD.OP : Loc := ⟨KEY_CMD.addr, 24, 4⟩
/-- Access WO/PS. -/ def KEY_CMD.WSLOT : Loc := ⟨KEY_CMD.addr, 8, 8⟩
/-- Access WO/PS. -/ def KEY_CMD.SLOT : Loc := ⟨KEY_CMD.addr, 0, 8⟩

/-- Chapter 13 R354. -/
def KEY_STAT.addr : Nat := 0x200E000C
/-- Access RO. -/ def KEY_STAT.BUSY : Loc := ⟨KEY_STAT.addr, 31, 1⟩
/-- Access RO. -/ def KEY_STAT.LCBUSY : Loc := ⟨KEY_STAT.addr, 30, 1⟩
/-- Access RO. -/ def KEY_STAT.RESULT : Loc := ⟨KEY_STAT.addr, 0, 4⟩

/-- Chapter 13 R354. -/
def KEY_ATTRIN.addr : Nat := 0x200E0010
/-- Access RO. -/ def KEY_ATTRIN.VALID : Loc := ⟨KEY_ATTRIN.addr, 31, 1⟩
/-- Access RO. -/ def KEY_ATTRIN.SPENT : Loc := ⟨KEY_ATTRIN.addr, 30, 1⟩
/-- Access RW/PS. -/ def KEY_ATTRIN.OWNER : Loc := ⟨KEY_ATTRIN.addr, 29, 1⟩
/-- Access RW/PS. -/ def KEY_ATTRIN.TYPE : Loc := ⟨KEY_ATTRIN.addr, 24, 4⟩
/-- Access RO. -/ def KEY_ATTRIN.GEN : Loc := ⟨KEY_ATTRIN.addr, 16, 8⟩
/-- Access RW/PS. -/ def KEY_ATTRIN.USAGE : Loc := ⟨KEY_ATTRIN.addr, 0, 9⟩

/-- Chapter 13 R354. -/
def KEY_LIMITIN.addr : Nat := 0x200E0014
/-- Access RW/PS. -/ def KEY_LIMITIN.LIMIT : Loc := ⟨KEY_LIMITIN.addr, 0, 32⟩

/-- Chapter 13 R354. -/
def KEY_ADDR.addr : Nat := 0x200E0018
/-- Access RW/PS. -/ def KEY_ADDR.ADDR : Loc := ⟨KEY_ADDR.addr, 0, 32⟩

/-- Chapter 13 R354. -/
def KEY_EVT.addr : Nat := 0x200E001C
/-- Access W1C. -/ def KEY_EVT.RNGERR : Loc := ⟨KEY_EVT.addr, 5, 1⟩
/-- Access W1C. -/ def KEY_EVT.PARKBAD : Loc := ⟨KEY_EVT.addr, 4, 1⟩
/-- Access W1C. -/ def KEY_EVT.LCDONE : Loc := ⟨KEY_EVT.addr, 3, 1⟩
/-- Access W1C. -/ def KEY_EVT.LCERR : Loc := ⟨KEY_EVT.addr, 2, 1⟩
/-- Access W1C. -/ def KEY_EVT.FRAMEKEY : Loc := ⟨KEY_EVT.addr, 1, 1⟩
/-- Access W1C. -/ def KEY_EVT.SPENT : Loc := ⟨KEY_EVT.addr, 0, 1⟩

/-- Chapter 13 R354. -/
def KEY_IEN.addr : Nat := 0x200E0020
/-- Access RW/PS. -/ def KEY_IEN.IEN : Loc := ⟨KEY_IEN.addr, 0, 6⟩

/-- Chapter 13 R354. -/
def KEY_RNG.addr : Nat := 0x200E0024
/-- Access RO. -/ def KEY_RNG.DATA : Loc := ⟨KEY_RNG.addr, 0, 32⟩

/-- Chapter 13 R354. -/
def KEY_RNGSTAT.addr : Nat := 0x200E0028
/-- Access RO. -/ def KEY_RNGSTAT.APTF : Loc := ⟨KEY_RNGSTAT.addr, 3, 1⟩
/-- Access RO. -/ def KEY_RNGSTAT.RCTF : Loc := ⟨KEY_RNGSTAT.addr, 2, 1⟩
/-- Access RO. -/ def KEY_RNGSTAT.STATE : Loc := ⟨KEY_RNGSTAT.addr, 0, 2⟩

/-- Chapter 13 R354. -/
def KEY_RNGCTL.addr : Nat := 0x200E002C
/-- Access WO/PS. -/ def KEY_RNGCTL.RESTART : Loc := ⟨KEY_RNGCTL.addr, 0, 1⟩

/-- Chapter 13 R354. -/
def KEY_CTRL.addr : Nat := 0x200E0030
/-- Access RW/PS. -/ def KEY_CTRL.PARKEN : Loc := ⟨KEY_CTRL.addr, 31, 1⟩
/-- Access RW/PS. -/ def KEY_CTRL.PARKBASE : Loc := ⟨KEY_CTRL.addr, 0, 15⟩

/-- Chapter 13 R354. -/
def KEY_PARKCNT.addr : Nat := 0x200E0034
/-- Access RO. -/ def KEY_PARKCNT.COUNT : Loc := ⟨KEY_PARKCNT.addr, 0, 32⟩

/-- Chapter 13 R354. -/
def KEY_ATTNEXT.addr : Nat := 0x200E0038
/-- Access RO. -/ def KEY_ATTNEXT.VALID : Loc := ⟨KEY_ATTNEXT.addr, 31, 1⟩
/-- Access RO. -/ def KEY_ATTNEXT.Q : Loc := ⟨KEY_ATTNEXT.addr, 0, 20⟩

/-- Chapter 13 R354. -/
def KEY_DATA.addr (i : Nat) : Nat := 0x200E0040 + 0x4 * i
/-- Access WO/PS. -/ def KEY_DATA.DATA (i : Nat) : Loc := ⟨KEY_DATA.addr i, 0, 32⟩

/-- Chapter 13 R354. -/
def KEY_ROOT.addr (i : Nat) : Nat := 0x200E0080 + 0x4 * i
/-- Access RW/PS in BLANK; RO otherwise. -/ def KEY_ROOT.HASH (i : Nat) : Loc := ⟨KEY_ROOT.addr i, 0, 32⟩

/-- Chapter 13 R354. -/
def KEY_DBGCHAL.addr (i : Nat) : Nat := 0x200E00E0 + 0x4 * i
/-- Access RO. -/ def KEY_DBGCHAL.CHAL (i : Nat) : Loc := ⟨KEY_DBGCHAL.addr i, 0, 32⟩

/-- Chapter 13 R354. -/
def KEY_SATTR.addr (k : Nat) : Nat := 0x200E1000 + 0x10 * k
/-- Access RO. -/ def KEY_SATTR.VALID (k : Nat) : Loc := ⟨KEY_SATTR.addr k, 31, 1⟩
/-- Access RO. -/ def KEY_SATTR.SPENT (k : Nat) : Loc := ⟨KEY_SATTR.addr k, 30, 1⟩
/-- Access RO. -/ def KEY_SATTR.OWNER (k : Nat) : Loc := ⟨KEY_SATTR.addr k, 29, 1⟩
/-- Access RO. -/ def KEY_SATTR.TYPE (k : Nat) : Loc := ⟨KEY_SATTR.addr k, 24, 4⟩
/-- Access RO. -/ def KEY_SATTR.GEN (k : Nat) : Loc := ⟨KEY_SATTR.addr k, 16, 8⟩
/-- Access RO. -/ def KEY_SATTR.USAGE (k : Nat) : Loc := ⟨KEY_SATTR.addr k, 0, 9⟩

/-- Chapter 13 R354. -/
def KEY_SUSE.addr (k : Nat) : Nat := 0x200E1004 + 0x10 * k
/-- Access RO. -/ def KEY_SUSE.USE (k : Nat) : Loc := ⟨KEY_SUSE.addr k, 0, 32⟩

/-- Chapter 13 R354. -/
def KEY_SLIMIT.addr (k : Nat) : Nat := 0x200E1008 + 0x10 * k
/-- Access RO. -/ def KEY_SLIMIT.LIMIT (k : Nat) : Loc := ⟨KEY_SLIMIT.addr k, 0, 32⟩

/-- Chapter 14 R381. -/
def UPD_STAT.addr : Nat := 0x200F0000
/-- Access RO. -/ def UPD_STAT.BUSY : Loc := ⟨UPD_STAT.addr, 31, 1⟩
/-- Access RO. -/ def UPD_STAT.STATE : Loc := ⟨UPD_STAT.addr, 28, 3⟩
/-- Access RO. -/ def UPD_STAT.ACTIVE : Loc := ⟨UPD_STAT.addr, 27, 1⟩
/-- Access RO. -/ def UPD_STAT.FALLBACK : Loc := ⟨UPD_STAT.addr, 26, 1⟩
/-- Access RO. -/ def UPD_STAT.ABANDONED : Loc := ⟨UPD_STAT.addr, 25, 1⟩
/-- Access RO. -/ def UPD_STAT.UNROOTED : Loc := ⟨UPD_STAT.addr, 24, 1⟩
/-- Access RO. -/ def UPD_STAT.COMMITTED : Loc := ⟨UPD_STAT.addr, 23, 1⟩
/-- Access RO. -/ def UPD_STAT.RUNVER : Loc := ⟨UPD_STAT.addr, 8, 7⟩
/-- Access RO. -/ def UPD_STAT.WINDOW : Loc := ⟨UPD_STAT.addr, 0, 7⟩

/-- Chapter 14 R381. -/
def UPD_CMD.addr : Nat := 0x200F0004
/-- Access WO/PS. -/ def UPD_CMD.KEY : Loc := ⟨UPD_CMD.addr, 16, 16⟩
/-- Access WO/PS. -/ def UPD_CMD.OP : Loc := ⟨UPD_CMD.addr, 0, 4⟩

/-- Chapter 14 R381. -/
def UPD_RESULT.addr : Nat := 0x200F0008
/-- Access RO. -/ def UPD_RESULT.OP : Loc := ⟨UPD_RESULT.addr, 28, 4⟩
/-- Access RO. -/ def UPD_RESULT.CODE : Loc := ⟨UPD_RESULT.addr, 0, 4⟩

/-- Chapter 14 R381. -/
def UPD_EVT.addr : Nat := 0x200F000C
/-- Access W1C. -/ def UPD_EVT.CANCELLED : Loc := ⟨UPD_EVT.addr, 6, 1⟩
/-- Access W1C. -/ def UPD_EVT.ABANDONED : Loc := ⟨UPD_EVT.addr, 5, 1⟩
/-- Access W1C. -/ def UPD_EVT.CONFIRMED : Loc := ⟨UPD_EVT.addr, 4, 1⟩
/-- Access W1C. -/ def UPD_EVT.DEFERRED : Loc := ⟨UPD_EVT.addr, 3, 1⟩
/-- Access W1C. -/ def UPD_EVT.ACTIVATED : Loc := ⟨UPD_EVT.addr, 2, 1⟩
/-- Access W1C. -/ def UPD_EVT.FLASHERR : Loc := ⟨UPD_EVT.addr, 1, 1⟩
/-- Access W1C. -/ def UPD_EVT.DONE : Loc := ⟨UPD_EVT.addr, 0, 1⟩

/-- Chapter 14 R381. -/
def UPD_IEN.addr : Nat := 0x200F0010
/-- Access RW/PS. -/ def UPD_IEN.IEN : Loc := ⟨UPD_IEN.addr, 0, 7⟩

/-- Chapter 14 R381. -/
def UPD_SECVER.addr : Nat := 0x200F0014
/-- Access RO. -/ def UPD_SECVER.RUNVER7 : Loc := ⟨UPD_SECVER.addr, 16, 1⟩
/-- Access RO. -/ def UPD_SECVER.STAGED : Loc := ⟨UPD_SECVER.addr, 8, 8⟩
/-- Access RO. -/ def UPD_SECVER.COUNTER : Loc := ⟨UPD_SECVER.addr, 0, 8⟩

/-- Chapter 14 R381. -/
def UPD_BUNDLE.addr : Nat := 0x200F0018
/-- Access RW/PS. -/ def UPD_BUNDLE.ID : Loc := ⟨UPD_BUNDLE.addr, 0, 32⟩

/-- Chapter 14 R381. -/
def UPD_MTOTAL.addr : Nat := 0x200F001C
/-- Access RW/PS. -/ def UPD_MTOTAL.N : Loc := ⟨UPD_MTOTAL.addr, 0, 14⟩

/-- Chapter 14 R381. -/
def UPD_MORSEL.addr : Nat := 0x200F0020
/-- Access RW/PS. -/ def UPD_MORSEL.N : Loc := ⟨UPD_MORSEL.addr, 0, 14⟩

/-- Chapter 14 R381. -/
def UPD_MADDR.addr : Nat := 0x200F0024
/-- Access RW/PS. -/ def UPD_MADDR.ADDR : Loc := ⟨UPD_MADDR.addr, 0, 32⟩

/-- Chapter 14 R381. -/
def UPD_MCOUNT.addr : Nat := 0x200F0028
/-- Access RO. -/ def UPD_MCOUNT.N : Loc := ⟨UPD_MCOUNT.addr, 0, 14⟩

/-- Chapter 14 R381. -/
def UPD_ACTLO.addr : Nat := 0x200F002C
/-- Access RW/PS. -/ def UPD_ACTLO.ABN : Loc := ⟨UPD_ACTLO.addr, 0, 32⟩

/-- Chapter 14 R381. -/
def UPD_ACTHI.addr : Nat := 0x200F0030
/-- Access RW/PS. -/ def UPD_ACTHI.ABN : Loc := ⟨UPD_ACTHI.addr, 0, 8⟩

/-- Chapter 14 R381. -/
def UPD_SETCTL.addr : Nat := 0x200F0034
/-- Access RW/PS. -/ def UPD_SETCTL.GROUP : Loc := ⟨UPD_SETCTL.addr, 24, 8⟩
/-- Access RW/PS. -/ def UPD_SETCTL.LENGTH : Loc := ⟨UPD_SETCTL.addr, 0, 13⟩

/-- Chapter 14 R381. -/
def UPD_BOOT.addr : Nat := 0x200F0038
/-- Access RO. -/ def UPD_BOOT.FIRST : Loc := ⟨UPD_BOOT.addr, 30, 2⟩
/-- Access RO. -/ def UPD_BOOT.SECOND : Loc := ⟨UPD_BOOT.addr, 28, 2⟩
/-- Access RO. -/ def UPD_BOOT.CHECK : Loc := ⟨UPD_BOOT.addr, 24, 4⟩
/-- Access RO. -/ def UPD_BOOT.TIME : Loc := ⟨UPD_BOOT.addr, 0, 16⟩

/-- Chapter 14 R381. -/
def UPD_COMMIT.addr : Nat := 0x200F003C
/-- Access WO/PS. -/ def UPD_COMMIT.KEY : Loc := ⟨UPD_COMMIT.addr, 16, 16⟩
/-- Access WO/PS. -/ def UPD_COMMIT.GO : Loc := ⟨UPD_COMMIT.addr, 0, 1⟩

/-- Chapter 14 R381. -/
def UPD_ENTRY.addr (n : Nat) : Nat := 0x200F0080 + 0x4 * n
/-- Access RWL/PS. -/ def UPD_ENTRY.ENTRY (n : Nat) : Loc := ⟨UPD_ENTRY.addr n, 2, 30⟩

/-- Chapter 15 R399. -/
def HIF_CTRL.addr : Nat := 0x20140000
/-- Access RW/PS. -/ def HIF_CTRL.EN : Loc := ⟨HIF_CTRL.addr, 31, 1⟩
/-- Access RW/PS. -/ def HIF_CTRL.IF : Loc := ⟨HIF_CTRL.addr, 29, 2⟩
/-- Access RW/PS. -/ def HIF_CTRL.ATTNEN : Loc := ⟨HIF_CTRL.addr, 25, 1⟩
/-- Access RW/PS. -/ def HIF_CTRL.ATTNGPIO : Loc := ⟨HIF_CTRL.addr, 20, 5⟩
/-- Access RW/PS. -/ def HIF_CTRL.RXTO : Loc := ⟨HIF_CTRL.addr, 8, 8⟩
/-- Access RWL/PS. -/ def HIF_CTRL.MGMTENG : Loc := ⟨HIF_CTRL.addr, 0, 4⟩

/-- Chapter 15 R399. -/
def HIF_STAT.addr : Nat := 0x20140004
/-- Access RO. -/ def HIF_STAT.LOCK : Loc := ⟨HIF_STAT.addr, 31, 1⟩
/-- Access RO. -/ def HIF_STAT.IFSEL : Loc := ⟨HIF_STAT.addr, 29, 2⟩
/-- Access RO. -/ def HIF_STAT.STATUS : Loc := ⟨HIF_STAT.addr, 0, 8⟩

/-- Chapter 15 R399. -/
def HIF_BAUD.addr : Nat := 0x20140008
/-- Access RW/PS. -/ def HIF_BAUD.DIV : Loc := ⟨HIF_BAUD.addr, 0, 16⟩

/-- Chapter 15 R399. -/
def HIF_EVT.addr : Nat := 0x2014000C
/-- Access W1C. -/ def HIF_EVT.LOCK : Loc := ⟨HIF_EVT.addr, 4, 1⟩
/-- Access W1C. -/ def HIF_EVT.PKTREF : Loc := ⟨HIF_EVT.addr, 3, 1⟩
/-- Access W1C. -/ def HIF_EVT.CMDBUSY : Loc := ⟨HIF_EVT.addr, 2, 1⟩
/-- Access W1C. -/ def HIF_EVT.FRAMEERR : Loc := ⟨HIF_EVT.addr, 1, 1⟩
/-- Access W1C. -/ def HIF_EVT.ITEM : Loc := ⟨HIF_EVT.addr, 0, 1⟩

/-- Chapter 15 R399. -/
def HIF_IEN.addr : Nat := 0x20140010
/-- Access RW/PS. -/ def HIF_IEN.IEN : Loc := ⟨HIF_IEN.addr, 0, 5⟩

/-- Chapter 15 R399. -/
def HIF_RXDATA.addr : Nat := 0x20140014
/-- Access RO. -/ def HIF_RXDATA.DATA : Loc := ⟨HIF_RXDATA.addr, 0, 32⟩

/-- Chapter 15 R399. -/
def HIF_RXSTAT.addr : Nat := 0x20140018
/-- Access WO/PS. -/ def HIF_RXSTAT.FLUSH : Loc := ⟨HIF_RXSTAT.addr, 31, 1⟩
/-- Access RO. -/ def HIF_RXSTAT.NOTICES : Loc := ⟨HIF_RXSTAT.addr, 16, 10⟩
/-- Access RO. -/ def HIF_RXSTAT.LEVEL : Loc := ⟨HIF_RXSTAT.addr, 2, 10⟩
/-- Access W1C. -/ def HIF_RXSTAT.UNDERRUN : Loc := ⟨HIF_RXSTAT.addr, 1, 1⟩
/-- Access RO. -/ def HIF_RXSTAT.EMPTY : Loc := ⟨HIF_RXSTAT.addr, 0, 1⟩

/-- Chapter 15 R399. -/
def HIF_TXDATA.addr : Nat := 0x2014001C
/-- Access WO. -/ def HIF_TXDATA.DATA : Loc := ⟨HIF_TXDATA.addr, 0, 32⟩

/-- Chapter 15 R399. -/
def HIF_TXSTAT.addr : Nat := 0x20140020
/-- Access WO/PS. -/ def HIF_TXSTAT.FLUSH : Loc := ⟨HIF_TXSTAT.addr, 31, 1⟩
/-- Access RO. -/ def HIF_TXSTAT.OPEN : Loc := ⟨HIF_TXSTAT.addr, 30, 1⟩
/-- Access RO. -/ def HIF_TXSTAT.LEFT : Loc := ⟨HIF_TXSTAT.addr, 10, 10⟩
/-- Access W1C. -/ def HIF_TXSTAT.NOSPACE : Loc := ⟨HIF_TXSTAT.addr, 0, 1⟩

/-- Chapter 15 R399. -/
def HIF_ERRCNT.addr : Nat := 0x20140024
/-- Access RW. -/ def HIF_ERRCNT.CRCERR : Loc := ⟨HIF_ERRCNT.addr, 16, 16⟩
/-- Access RW. -/ def HIF_ERRCNT.TRUNC : Loc := ⟨HIF_ERRCNT.addr, 0, 16⟩

/-- Chapter 15 R399. -/
def HIF_DROPCNT.addr : Nat := 0x20140028
/-- Access RW. -/ def HIF_DROPCNT.NOTICE : Loc := ⟨HIF_DROPCNT.addr, 16, 16⟩
/-- Access RW. -/ def HIF_DROPCNT.REFUSED : Loc := ⟨HIF_DROPCNT.addr, 0, 16⟩

/-- Chapter 15 R399. -/
def HIF_FRAMECNT.addr : Nat := 0x2014002C
/-- Access RW. -/ def HIF_FRAMECNT.OUT : Loc := ⟨HIF_FRAMECNT.addr, 16, 16⟩
/-- Access RW. -/ def HIF_FRAMECNT.IN : Loc := ⟨HIF_FRAMECNT.addr, 0, 16⟩

/-- Chapter 15 R401. -/
def JRN_STAT.addr : Nat := 0x20100000
/-- Access RO. -/ def JRN_STAT.MIRBUSY : Loc := ⟨JRN_STAT.addr, 1, 1⟩
/-- Access RO. -/ def JRN_STAT.JARLOST : Loc := ⟨JRN_STAT.addr, 0, 1⟩

/-- Chapter 15 R401. -/
def JRN_HEAD.addr : Nat := 0x20100004
/-- Access RWL/PS. -/ def JRN_HEAD.SEQ : Loc := ⟨JRN_HEAD.addr, 0, 32⟩

/-- Chapter 15 R401. -/
def JRN_MIRHEAD.addr : Nat := 0x20100008
/-- Access RWL/PS. -/ def JRN_MIRHEAD.SEQ : Loc := ⟨JRN_MIRHEAD.addr, 0, 32⟩

/-- Chapter 15 R401. -/
def JRN_CTRL.addr : Nat := 0x2010000C
/-- Access RW/PS. -/ def JRN_CTRL.MIREN : Loc := ⟨JRN_CTRL.addr, 31, 1⟩

/-- Chapter 15 R401. -/
def JRN_EVT.addr : Nat := 0x20100010
/-- Access W1C. -/ def JRN_EVT.MIRLOST : Loc := ⟨JRN_EVT.addr, 1, 1⟩
/-- Access W1C. -/ def JRN_EVT.APPENDED : Loc := ⟨JRN_EVT.addr, 0, 1⟩

/-- Chapter 15 R401. -/
def JRN_IEN.addr : Nat := 0x20100014
/-- Access RW/PS. -/ def JRN_IEN.IEN : Loc := ⟨JRN_IEN.addr, 0, 2⟩

/-- Chapter 15 R401. -/
def JRN_WCODE.addr (n : Nat) : Nat := 0x20100100 + 0x20 * n
/-- Access RW/PS. -/ def JRN_WCODE.SOURCE (n : Nat) : Loc := ⟨JRN_WCODE.addr n, 16, 8⟩
/-- Access RW/PS. -/ def JRN_WCODE.CODE (n : Nat) : Loc := ⟨JRN_WCODE.addr n, 0, 16⟩

/-- Chapter 15 R401. -/
def JRN_WRES.addr (n : Nat) : Nat := 0x20100104 + 0x20 * n
/-- Access RW/PS. -/ def JRN_WRES.ORIGIN (n : Nat) : Loc := ⟨JRN_WRES.addr n, 16, 16⟩
/-- Access RW/PS. -/ def JRN_WRES.RESULT (n : Nat) : Loc := ⟨JRN_WRES.addr n, 0, 16⟩

/-- Chapter 15 R401. -/
def JRN_WDIG0.addr (n : Nat) : Nat := 0x20100108 + 0x20 * n
/-- Access RW/PS. -/ def JRN_WDIG0.DIGEST (n : Nat) : Loc := ⟨JRN_WDIG0.addr n, 0, 32⟩

/-- Chapter 15 R401. -/
def JRN_WDIG1.addr (n : Nat) : Nat := 0x2010010C + 0x20 * n
/-- Access RW/PS. -/ def JRN_WDIG1.DIGEST (n : Nat) : Loc := ⟨JRN_WDIG1.addr n, 0, 32⟩

/-- Chapter 15 R401. -/
def JRN_WDIG2.addr (n : Nat) : Nat := 0x20100110 + 0x20 * n
/-- Access RW/PS. -/ def JRN_WDIG2.DIGEST (n : Nat) : Loc := ⟨JRN_WDIG2.addr n, 0, 32⟩

/-- Chapter 15 R401. -/
def JRN_GO.addr (n : Nat) : Nat := 0x20100114 + 0x20 * n

/-- Chapter 15 R401. -/
def JRN_LAST.addr (n : Nat) : Nat := 0x20100118 + 0x20 * n
/-- Access RO. -/ def JRN_LAST.SEQ (n : Nat) : Loc := ⟨JRN_LAST.addr n, 0, 32⟩

/-- Chapter 16 R430. -/
def PWR_CTRL.addr : Nat := 0x20010000
/-- Access RW/PS. -/ def PWR_CTRL.TDETSET : Loc := ⟨PWR_CTRL.addr, 3, 1⟩
/-- Access RW/PS. -/ def PWR_CTRL.SHEDEN : Loc := ⟨PWR_CTRL.addr, 2, 1⟩
/-- Access RW/PS. -/ def PWR_CTRL.GPIOAUTO : Loc := ⟨PWR_CTRL.addr, 1, 1⟩
/-- Access RW/PS. -/ def PWR_CTRL.VTCXOAUTO : Loc := ⟨PWR_CTRL.addr, 0, 1⟩

/-- Chapter 16 R430. -/
def PWR_STAT.addr : Nat := 0x20010004
/-- Access RO. -/ def PWR_STAT.VTCXO : Loc := ⟨PWR_STAT.addr, 5, 1⟩
/-- Access RO. -/ def PWR_STAT.GPIOHELD : Loc := ⟨PWR_STAT.addr, 4, 1⟩
/-- Access RO. -/ def PWR_STAT.JARLOST : Loc := ⟨PWR_STAT.addr, 3, 1⟩
/-- Access RO. -/ def PWR_STAT.VBAKLOW : Loc := ⟨PWR_STAT.addr, 2, 1⟩
/-- Access RO. -/ def PWR_STAT.PFW : Loc := ⟨PWR_STAT.addr, 1, 1⟩
/-- Access RO. -/ def PWR_STAT.VMAINOK : Loc := ⟨PWR_STAT.addr, 0, 1⟩

/-- Chapter 16 R430. -/
def PWR_EVT.addr : Nat := 0x20010008
/-- Access W1C. -/ def PWR_EVT.SAVEBAD : Loc := ⟨PWR_EVT.addr, 5, 1⟩
/-- Access W1C. -/ def PWR_EVT.REFUSED : Loc := ⟨PWR_EVT.addr, 4, 1⟩
/-- Access W1C. -/ def PWR_EVT.WAKE : Loc := ⟨PWR_EVT.addr, 3, 1⟩
/-- Access W1C. -/ def PWR_EVT.VBAKLOW : Loc := ⟨PWR_EVT.addr, 2, 1⟩
/-- Access W1C. -/ def PWR_EVT.PFWCLR : Loc := ⟨PWR_EVT.addr, 1, 1⟩
/-- Access W1C. -/ def PWR_EVT.PFW : Loc := ⟨PWR_EVT.addr, 0, 1⟩

/-- Chapter 16 R430. -/
def PWR_IEN.addr : Nat := 0x2001000C
/-- Access RW/PS. -/ def PWR_IEN.IEN : Loc := ⟨PWR_IEN.addr, 0, 6⟩

/-- Chapter 16 R430. -/
def PWR_WAKEEN.addr : Nat := 0x20010010
/-- Access RW/PS. -/ def PWR_WAKEEN.GPIO : Loc := ⟨PWR_WAKEEN.addr, 2, 1⟩
/-- Access RW/PS. -/ def PWR_WAKEEN.ALARM1 : Loc := ⟨PWR_WAKEEN.addr, 1, 1⟩
/-- Access RW/PS. -/ def PWR_WAKEEN.ALARM0 : Loc := ⟨PWR_WAKEEN.addr, 0, 1⟩

/-- Chapter 16 R430. -/
def PWR_GPIOWAKE.addr : Nat := 0x20010014
/-- Access RW/PS. -/ def PWR_GPIOWAKE.EN : Loc := ⟨PWR_GPIOWAKE.addr, 0, 32⟩

/-- Chapter 16 R430. -/
def PWR_GPIOPOL.addr : Nat := 0x20010018
/-- Access RW/PS. -/ def PWR_GPIOPOL.LOW : Loc := ⟨PWR_GPIOPOL.addr, 0, 32⟩

/-- Chapter 16 R430. -/
def PWR_WAKESETL.addr : Nat := 0x2001001C
/-- Access RW/PS. -/ def PWR_WAKESETL.DOM : Loc := ⟨PWR_WAKESETL.addr, 0, 29⟩

/-- Chapter 16 R430. -/
def PWR_WAKESETH.addr : Nat := 0x20010020
/-- Access RW/PS. -/ def PWR_WAKESETH.PB : Loc := ⟨PWR_WAKESETH.addr, 0, 8⟩

/-- Chapter 16 R430. -/
def PWR_SHEDL.addr : Nat := 0x20010024
/-- Access RW/PS. -/ def PWR_SHEDL.DOM : Loc := ⟨PWR_SHEDL.addr, 0, 29⟩

/-- Chapter 16 R430. -/
def PWR_SHEDH.addr : Nat := 0x20010028
/-- Access RW/PS. -/ def PWR_SHEDH.PB : Loc := ⟨PWR_SHEDH.addr, 0, 8⟩

/-- Chapter 16 R430. -/
def PWR_LASTWAKE.addr : Nat := 0x2001002C
/-- Access RO. -/ def PWR_LASTWAKE.COUNT : Loc := ⟨PWR_LASTWAKE.addr, 16, 16⟩
/-- Access RO. -/ def PWR_LASTWAKE.DETAIL : Loc := ⟨PWR_LASTWAKE.addr, 8, 8⟩
/-- Access RO. -/ def PWR_LASTWAKE.CAUSE : Loc := ⟨PWR_LASTWAKE.addr, 0, 4⟩

/-- Chapter 16 R430. -/
def PWR_SAVEBASE.addr : Nat := 0x20010030
/-- Access RW/PS. -/ def PWR_SAVEBASE.BASE : Loc := ⟨PWR_SAVEBASE.addr, 0, 15⟩

/-- Chapter 16 R430. -/
def PWR_SAVESTAT.addr : Nat := 0x20010034
/-- Access RO. -/ def PWR_SAVESTAT.ERR : Loc := ⟨PWR_SAVESTAT.addr, 16, 9⟩
/-- Access RO. -/ def PWR_SAVESTAT.VALID : Loc := ⟨PWR_SAVESTAT.addr, 0, 9⟩

/-- Chapter 16 R430. -/
def PWR_PADREL.addr : Nat := 0x20010038
/-- Access WO/PS. -/ def PWR_PADREL.GPIO : Loc := ⟨PWR_PADREL.addr, 0, 1⟩

/-- Chapter 16 R430. -/
def PWR_DRST.addr : Nat := 0x2001003C
/-- Access WO/PS. -/ def PWR_DRST.KEY : Loc := ⟨PWR_DRST.addr, 16, 16⟩
/-- Access WO/PS. -/ def PWR_DRST.DOMAIN : Loc := ⟨PWR_DRST.addr, 0, 6⟩

/-- Chapter 16 R430. -/
def PWR_BUCK.addr : Nat := 0x20010040
/-- Access RO. -/ def PWR_BUCK.RUN : Loc := ⟨PWR_BUCK.addr, 0, 4⟩

/-- Chapter 16 R430. -/
def PWR_REQ.addr (d : Nat) : Nat := 0x20010100 + 0x4 * d
/-- Access RO. -/ def PWR_REQ.PEND (d : Nat) : Loc := ⟨PWR_REQ.addr d, 31, 1⟩
/-- Access RO. -/ def PWR_REQ.WAIT (d : Nat) : Loc := ⟨PWR_REQ.addr d, 30, 1⟩
/-- Access RW/PS. -/ def PWR_REQ.TARGET (d : Nat) : Loc := ⟨PWR_REQ.addr d, 0, 2⟩

/-- Chapter 16 R430. -/
def PWR_DSTAT.addr (d : Nat) : Nat := 0x20010200 + 0x4 * d
/-- Access RO. -/ def PWR_DSTAT.LOGRDY (d : Nat) : Loc := ⟨PWR_DSTAT.addr d, 7, 1⟩
/-- Access RO. -/ def PWR_DSTAT.MEMRDY (d : Nat) : Loc := ⟨PWR_DSTAT.addr d, 6, 1⟩
/-- Access RO. -/ def PWR_DSTAT.OSCRDY (d : Nat) : Loc := ⟨PWR_DSTAT.addr d, 5, 1⟩
/-- Access RO. -/ def PWR_DSTAT.REGRDY (d : Nat) : Loc := ⟨PWR_DSTAT.addr d, 4, 1⟩
/-- Access RO. -/ def PWR_DSTAT.TRANS (d : Nat) : Loc := ⟨PWR_DSTAT.addr d, 3, 1⟩
/-- Access RO. -/ def PWR_DSTAT.STATE (d : Nat) : Loc := ⟨PWR_DSTAT.addr d, 0, 2⟩

/-- Chapter 17 R440. -/
def RTC_STAT.addr : Nat := 0x20110000
/-- Access RO. -/ def RTC_STAT.SHPEND : Loc := ⟨RTC_STAT.addr, 5, 1⟩
/-- Access RO. -/ def RTC_STAT.SETPEND : Loc := ⟨RTC_STAT.addr, 4, 1⟩
/-- Access RO. -/ def RTC_STAT.BORROW : Loc := ⟨RTC_STAT.addr, 3, 1⟩
/-- Access W1C. -/ def RTC_STAT.CENTURY_WRAP : Loc := ⟨RTC_STAT.addr, 2, 1⟩
/-- Access W1C. -/ def RTC_STAT.BADDATE : Loc := ⟨RTC_STAT.addr, 1, 1⟩
/-- Access RO. -/ def RTC_STAT.INVALID : Loc := ⟨RTC_STAT.addr, 0, 1⟩

/-- Chapter 17 R440. -/
def RTC_EVT.addr : Nat := 0x20110004
/-- Access W1C. -/ def RTC_EVT.SECOND : Loc := ⟨RTC_EVT.addr, 2, 1⟩
/-- Access W1C. -/ def RTC_EVT.ALM1 : Loc := ⟨RTC_EVT.addr, 1, 1⟩
/-- Access W1C. -/ def RTC_EVT.ALM0 : Loc := ⟨RTC_EVT.addr, 0, 1⟩

/-- Chapter 17 R440. -/
def RTC_IEN.addr : Nat := 0x20110008
/-- Access RW/PS. -/ def RTC_IEN.IEN : Loc := ⟨RTC_IEN.addr, 0, 5⟩

/-- Chapter 17 R440. -/
def RTC_SUBSEC.addr : Nat := 0x2011000C
/-- Access RO. -/ def RTC_SUBSEC.PRE : Loc := ⟨RTC_SUBSEC.addr, 0, 15⟩

/-- Chapter 17 R440. -/
def RTC_TIME.addr : Nat := 0x20110010
/-- Access RO. -/ def RTC_TIME.HOUR : Loc := ⟨RTC_TIME.addr, 16, 8⟩
/-- Access RO. -/ def RTC_TIME.MIN : Loc := ⟨RTC_TIME.addr, 8, 8⟩
/-- Access RO. -/ def RTC_TIME.SEC : Loc := ⟨RTC_TIME.addr, 0, 8⟩

/-- Chapter 17 R440. -/
def RTC_DATE.addr : Nat := 0x20110014
/-- Access RO. -/ def RTC_DATE.WDAY : Loc := ⟨RTC_DATE.addr, 29, 3⟩
/-- Access RO. -/ def RTC_DATE.YEAR : Loc := ⟨RTC_DATE.addr, 20, 9⟩
/-- Access RO. -/ def RTC_DATE.MONTH : Loc := ⟨RTC_DATE.addr, 8, 4⟩
/-- Access RO. -/ def RTC_DATE.DAY : Loc := ⟨RTC_DATE.addr, 0, 5⟩

/-- Chapter 17 R440. -/
def RTC_SETTIME.addr : Nat := 0x20110018
/-- Access RW/PS. -/ def RTC_SETTIME.HOUR : Loc := ⟨RTC_SETTIME.addr, 16, 8⟩
/-- Access RW/PS. -/ def RTC_SETTIME.MIN : Loc := ⟨RTC_SETTIME.addr, 8, 8⟩
/-- Access RW/PS. -/ def RTC_SETTIME.SEC : Loc := ⟨RTC_SETTIME.addr, 0, 8⟩

/-- Chapter 17 R440. -/
def RTC_SETDATE.addr : Nat := 0x2011001C
/-- Access RO. -/ def RTC_SETDATE.WDAY : Loc := ⟨RTC_SETDATE.addr, 29, 3⟩
/-- Access RW/PS. -/ def RTC_SETDATE.YEAR : Loc := ⟨RTC_SETDATE.addr, 20, 9⟩
/-- Access RW/PS. -/ def RTC_SETDATE.MONTH : Loc := ⟨RTC_SETDATE.addr, 8, 4⟩
/-- Access RW/PS. -/ def RTC_SETDATE.DAY : Loc := ⟨RTC_SETDATE.addr, 0, 5⟩

/-- Chapter 17 R440. -/
def RTC_CMD.addr : Nat := 0x20110020
/-- Access WO/PS. -/ def RTC_CMD.KEY : Loc := ⟨RTC_CMD.addr, 16, 16⟩
/-- Access WO/PS. -/ def RTC_CMD.SET : Loc := ⟨RTC_CMD.addr, 0, 1⟩

/-- Chapter 17 R440. -/
def RTC_SHIFT.addr : Nat := 0x20110024
/-- Access WO/PS. -/ def RTC_SHIFT.S : Loc := ⟨RTC_SHIFT.addr, 0, 16⟩

/-- Chapter 17 R440. -/
def RTC_TRIM.addr : Nat := 0x20110028
/-- Access RW/PS. -/ def RTC_TRIM.T : Loc := ⟨RTC_TRIM.addr, 0, 10⟩

/-- Chapter 17 R440. -/
def RTC_ALM0T.addr : Nat := 0x20110030
/-- Access RW/PS. -/ def RTC_ALM0T.EN : Loc := ⟨RTC_ALM0T.addr, 31, 1⟩
/-- Access RW/PS. -/ def RTC_ALM0T.MHOUR : Loc := ⟨RTC_ALM0T.addr, 26, 1⟩
/-- Access RW/PS. -/ def RTC_ALM0T.MMIN : Loc := ⟨RTC_ALM0T.addr, 25, 1⟩
/-- Access RW/PS. -/ def RTC_ALM0T.MSEC : Loc := ⟨RTC_ALM0T.addr, 24, 1⟩
/-- Access RW/PS. -/ def RTC_ALM0T.HOUR : Loc := ⟨RTC_ALM0T.addr, 16, 8⟩
/-- Access RW/PS. -/ def RTC_ALM0T.MIN : Loc := ⟨RTC_ALM0T.addr, 8, 8⟩
/-- Access RW/PS. -/ def RTC_ALM0T.SEC : Loc := ⟨RTC_ALM0T.addr, 0, 8⟩

/-- Chapter 17 R440. -/
def RTC_ALM0D.addr : Nat := 0x20110034
/-- Access RW/PS. -/ def RTC_ALM0D.WDAY : Loc := ⟨RTC_ALM0D.addr, 29, 3⟩
/-- Access RW/PS. -/ def RTC_ALM0D.YEAR : Loc := ⟨RTC_ALM0D.addr, 20, 9⟩
/-- Access RW/PS. -/ def RTC_ALM0D.MYEAR : Loc := ⟨RTC_ALM0D.addr, 19, 1⟩
/-- Access RW/PS. -/ def RTC_ALM0D.MMONTH : Loc := ⟨RTC_ALM0D.addr, 18, 1⟩
/-- Access RW/PS. -/ def RTC_ALM0D.MDAY : Loc := ⟨RTC_ALM0D.addr, 17, 1⟩
/-- Access RW/PS. -/ def RTC_ALM0D.MWDAY : Loc := ⟨RTC_ALM0D.addr, 16, 1⟩
/-- Access RW/PS. -/ def RTC_ALM0D.MONTH : Loc := ⟨RTC_ALM0D.addr, 8, 4⟩
/-- Access RW/PS. -/ def RTC_ALM0D.DAY : Loc := ⟨RTC_ALM0D.addr, 0, 5⟩

/-- Chapter 17 R440. -/
def RTC_ALM1T.addr : Nat := 0x20110038
/-- Access RW. -/ def RTC_ALM1T.EN : Loc := ⟨RTC_ALM1T.addr, 31, 1⟩
/-- Access RW. -/ def RTC_ALM1T.MHOUR : Loc := ⟨RTC_ALM1T.addr, 26, 1⟩
/-- Access RW. -/ def RTC_ALM1T.MMIN : Loc := ⟨RTC_ALM1T.addr, 25, 1⟩
/-- Access RW. -/ def RTC_ALM1T.MSEC : Loc := ⟨RTC_ALM1T.addr, 24, 1⟩
/-- Access RW. -/ def RTC_ALM1T.HOUR : Loc := ⟨RTC_ALM1T.addr, 16, 8⟩
/-- Access RW. -/ def RTC_ALM1T.MIN : Loc := ⟨RTC_ALM1T.addr, 8, 8⟩
/-- Access RW. -/ def RTC_ALM1T.SEC : Loc := ⟨RTC_ALM1T.addr, 0, 8⟩

/-- Chapter 17 R440. -/
def RTC_ALM1D.addr : Nat := 0x2011003C
/-- Access RW. -/ def RTC_ALM1D.WDAY : Loc := ⟨RTC_ALM1D.addr, 29, 3⟩
/-- Access RW. -/ def RTC_ALM1D.YEAR : Loc := ⟨RTC_ALM1D.addr, 20, 9⟩
/-- Access RW. -/ def RTC_ALM1D.MYEAR : Loc := ⟨RTC_ALM1D.addr, 19, 1⟩
/-- Access RW. -/ def RTC_ALM1D.MMONTH : Loc := ⟨RTC_ALM1D.addr, 18, 1⟩
/-- Access RW. -/ def RTC_ALM1D.MDAY : Loc := ⟨RTC_ALM1D.addr, 17, 1⟩
/-- Access RW. -/ def RTC_ALM1D.MWDAY : Loc := ⟨RTC_ALM1D.addr, 16, 1⟩
/-- Access RW. -/ def RTC_ALM1D.MONTH : Loc := ⟨RTC_ALM1D.addr, 8, 4⟩
/-- Access RW. -/ def RTC_ALM1D.DAY : Loc := ⟨RTC_ALM1D.addr, 0, 5⟩

/-- Chapter 18 R459. -/
def TMR_OWN.addr : Nat := 0x20120000
/-- Access RWL/PS. -/ def TMR_OWN.OWN : Loc := ⟨TMR_OWN.addr, 0, 8⟩

/-- Chapter 18 R459. -/
def TMR_EVT.addr : Nat := 0x20120004
/-- Access W1C. -/ def TMR_EVT.CAP : Loc := ⟨TMR_EVT.addr, 16, 8⟩
/-- Access W1C. -/ def TMR_EVT.WRAP : Loc := ⟨TMR_EVT.addr, 8, 8⟩
/-- Access W1C. -/ def TMR_EVT.CMP : Loc := ⟨TMR_EVT.addr, 0, 8⟩

/-- Chapter 18 R459. -/
def TMR_IEN.addr : Nat := 0x20120008
/-- Access RW/PS. -/ def TMR_IEN.IEN : Loc := ⟨TMR_IEN.addr, 0, 24⟩

/-- Chapter 18 R459. -/
def TMR_CFG.addr (n : Nat) : Nat := 0x20120100 + 0x40 * n
/-- Access RWL/PS. -/ def TMR_CFG.CLKSRC (n : Nat) : Loc := ⟨TMR_CFG.addr n, 29, 3⟩
/-- Access RWL/PS. -/ def TMR_CFG.CHAIN (n : Nat) : Loc := ⟨TMR_CFG.addr n, 28, 1⟩
/-- Access RWL/PS. -/ def TMR_CFG.ELAPSED (n : Nat) : Loc := ⟨TMR_CFG.addr n, 27, 1⟩
/-- Access RWL/PS. -/ def TMR_CFG.PRE (n : Nat) : Loc := ⟨TMR_CFG.addr n, 16, 8⟩
/-- Access RWL/PS. -/ def TMR_CFG.GATESRC (n : Nat) : Loc := ⟨TMR_CFG.addr n, 14, 2⟩
/-- Access RWL/PS. -/ def TMR_CFG.GATEINV (n : Nat) : Loc := ⟨TMR_CFG.addr n, 13, 1⟩
/-- Access RWL/PS. -/ def TMR_CFG.GATESEL (n : Nat) : Loc := ⟨TMR_CFG.addr n, 8, 5⟩
/-- Access RWL/PS. -/ def TMR_CFG.CAPSRC (n : Nat) : Loc := ⟨TMR_CFG.addr n, 6, 2⟩
/-- Access RWL/PS. -/ def TMR_CFG.CAPSEL (n : Nat) : Loc := ⟨TMR_CFG.addr n, 0, 5⟩

/-- Chapter 18 R459. -/
def TMR_CTRL.addr (n : Nat) : Nat := 0x20120104 + 0x40 * n
/-- Access RW. -/ def TMR_CTRL.RUN (n : Nat) : Loc := ⟨TMR_CTRL.addr n, 31, 1⟩
/-- Access RW. -/ def TMR_CTRL.ONESHOT (n : Nat) : Loc := ⟨TMR_CTRL.addr n, 30, 1⟩
/-- Access WO. -/ def TMR_CTRL.SNAP (n : Nat) : Loc := ⟨TMR_CTRL.addr n, 2, 1⟩
/-- Access WO. -/ def TMR_CTRL.CLR (n : Nat) : Loc := ⟨TMR_CTRL.addr n, 1, 1⟩

/-- Chapter 18 R459. -/
def TMR_STAT.addr (n : Nat) : Nat := 0x20120108 + 0x40 * n
/-- Access RO. -/ def TMR_STAT.SLPWRAP (n : Nat) : Loc := ⟨TMR_STAT.addr n, 8, 8⟩
/-- Access W1C. -/ def TMR_STAT.SLPCROSS (n : Nat) : Loc := ⟨TMR_STAT.addr n, 6, 1⟩
/-- Access W1C. -/ def TMR_STAT.CAPOVR (n : Nat) : Loc := ⟨TMR_STAT.addr n, 5, 1⟩
/-- Access RO. -/ def TMR_STAT.FVALID (n : Nat) : Loc := ⟨TMR_STAT.addr n, 4, 1⟩
/-- Access RO. -/ def TMR_STAT.RVALID (n : Nat) : Loc := ⟨TMR_STAT.addr n, 3, 1⟩
/-- Access RO. -/ def TMR_STAT.STALE (n : Nat) : Loc := ⟨TMR_STAT.addr n, 2, 1⟩
/-- Access RO. -/ def TMR_STAT.GATED (n : Nat) : Loc := ⟨TMR_STAT.addr n, 1, 1⟩
/-- Access RO. -/ def TMR_STAT.RUNNING (n : Nat) : Loc := ⟨TMR_STAT.addr n, 0, 1⟩

/-- Chapter 18 R459. -/
def TMR_CNT.addr (n : Nat) : Nat := 0x2012010C + 0x40 * n
/-- Access RW. -/ def TMR_CNT.VALUE (n : Nat) : Loc := ⟨TMR_CNT.addr n, 0, 32⟩

/-- Chapter 18 R459. -/
def TMR_PERIOD.addr (n : Nat) : Nat := 0x20120110 + 0x40 * n
/-- Access RW. -/ def TMR_PERIOD.VALUE (n : Nat) : Loc := ⟨TMR_PERIOD.addr n, 0, 32⟩

/-- Chapter 18 R459. -/
def TMR_CMP.addr (n : Nat) : Nat := 0x20120114 + 0x40 * n
/-- Access RW. -/ def TMR_CMP.VALUE (n : Nat) : Loc := ⟨TMR_CMP.addr n, 0, 32⟩

/-- Chapter 18 R459. -/
def TMR_CAPR.addr (n : Nat) : Nat := 0x20120118 + 0x40 * n
/-- Access RO. -/ def TMR_CAPR.VALUE (n : Nat) : Loc := ⟨TMR_CAPR.addr n, 0, 32⟩

/-- Chapter 18 R459. -/
def TMR_CAPF.addr (n : Nat) : Nat := 0x2012011C + 0x40 * n
/-- Access RO. -/ def TMR_CAPF.VALUE (n : Nat) : Loc := ⟨TMR_CAPF.addr n, 0, 32⟩

/-- Chapter 18 R459. -/
def TMR_WIDTH.addr (n : Nat) : Nat := 0x20120120 + 0x40 * n
/-- Access RO. -/ def TMR_WIDTH.VALUE (n : Nat) : Loc := ⟨TMR_WIDTH.addr n, 0, 32⟩

/-- Chapter 18 R461. -/
def EVR_EVT.addr : Nat := 0x20130000
/-- Access W1C. -/ def EVR_EVT.OVERRUN : Loc := ⟨EVR_EVT.addr, 2, 1⟩
/-- Access W1C. -/ def EVR_EVT.DROP : Loc := ⟨EVR_EVT.addr, 1, 1⟩
/-- Access W1C. -/ def EVR_EVT.COALESCED : Loc := ⟨EVR_EVT.addr, 0, 1⟩

/-- Chapter 18 R461. -/
def EVR_IEN.addr : Nat := 0x20130004
/-- Access RW/PS. -/ def EVR_IEN.FLAGS : Loc := ⟨EVR_IEN.addr, 3, 1⟩
/-- Access RW/PS. -/ def EVR_IEN.IEN : Loc := ⟨EVR_IEN.addr, 0, 3⟩

/-- Chapter 18 R461. -/
def EVR_CHECK.addr : Nat := 0x20130008
/-- Access RO. -/ def EVR_CHECK.RESULT : Loc := ⟨EVR_CHECK.addr, 29, 3⟩
/-- Access RO. -/ def EVR_CHECK.INDEX : Loc := ⟨EVR_CHECK.addr, 0, 8⟩

/-- Chapter 18 R461. -/
def EVR_DROPCNT.addr : Nat := 0x2013000C
/-- Access RW. -/ def EVR_DROPCNT.COUNT : Loc := ⟨EVR_DROPCNT.addr, 0, 16⟩

/-- Chapter 18 R461. -/
def EVR_COALCNT.addr : Nat := 0x20130010
/-- Access RW. -/ def EVR_COALCNT.COUNT : Loc := ⟨EVR_COALCNT.addr, 0, 16⟩

/-- Chapter 18 R461. -/
def EVR_FLAGL.addr : Nat := 0x20130020
/-- Access W1C. -/ def EVR_FLAGL.FLAG : Loc := ⟨EVR_FLAGL.addr, 0, 32⟩

/-- Chapter 18 R461. -/
def EVR_FLAGH.addr : Nat := 0x20130024
/-- Access W1C. -/ def EVR_FLAGH.FLAG : Loc := ⟨EVR_FLAGH.addr, 0, 32⟩

/-- Chapter 18 R461. -/
def EVR_FLAGENL.addr : Nat := 0x20130028
/-- Access RW. -/ def EVR_FLAGENL.EN : Loc := ⟨EVR_FLAGENL.addr, 0, 32⟩

/-- Chapter 18 R461. -/
def EVR_FLAGENH.addr : Nat := 0x2013002C
/-- Access RW. -/ def EVR_FLAGENH.EN : Loc := ⟨EVR_FLAGENH.addr, 0, 32⟩

/-- Chapter 18 R461. -/
def EVR_HELDL.addr : Nat := 0x20130030
/-- Access RO. -/ def EVR_HELDL.HELD : Loc := ⟨EVR_HELDL.addr, 0, 32⟩

/-- Chapter 18 R461. -/
def EVR_HELDH.addr : Nat := 0x20130034
/-- Access RO. -/ def EVR_HELDH.HELD : Loc := ⟨EVR_HELDH.addr, 0, 32⟩

/-- Chapter 18 R461. -/
def EVR_OVR.addr (i : Nat) : Nat := 0x20130040 + 0x4 * i
/-- Access W1C. -/ def EVR_OVR.OVR (i : Nat) : Loc := ⟨EVR_OVR.addr i, 0, 32⟩

/-- Chapter 18 R461. -/
def EVR_CHCFG.addr (k : Nat) : Nat := 0x20130100 + 0x8 * k
/-- Access RWL/PS. -/ def EVR_CHCFG.WAKE (k : Nat) : Loc := ⟨EVR_CHCFG.addr k, 31, 1⟩
/-- Access RWL/PS. -/ def EVR_CHCFG.SEC (k : Nat) : Loc := ⟨EVR_CHCFG.addr k, 30, 1⟩
/-- Access RWL/PS. -/ def EVR_CHCFG.OWNER (k : Nat) : Loc := ⟨EVR_CHCFG.addr k, 29, 1⟩
/-- Access RWL/PS. -/ def EVR_CHCFG.PRODUCER (k : Nat) : Loc := ⟨EVR_CHCFG.addr k, 16, 8⟩
/-- Access RWL/PS. -/ def EVR_CHCFG.CONSUMER (k : Nat) : Loc := ⟨EVR_CHCFG.addr k, 0, 8⟩

/-- Chapter 18 R461. -/
def EVR_CHCTL.addr (k : Nat) : Nat := 0x20130104 + 0x8 * k
/-- Access RW. -/ def EVR_CHCTL.EN (k : Nat) : Loc := ⟨EVR_CHCTL.addr k, 31, 1⟩
/-- Access WO. -/ def EVR_CHCTL.FIRE (k : Nat) : Loc := ⟨EVR_CHCTL.addr k, 0, 1⟩

/-- Chapter 18 R461. -/
def EVR_PCIN.addr (c : Nat) : Nat := 0x20130400 + 0x10 * c
/-- Access RWL/PS. -/ def EVR_PCIN.IN0 (c : Nat) : Loc := ⟨EVR_PCIN.addr c, 0, 7⟩
/-- Access RWL/PS. -/ def EVR_PCIN.IN1 (c : Nat) : Loc := ⟨EVR_PCIN.addr c, 8, 7⟩
/-- Access RWL/PS. -/ def EVR_PCIN.IN2 (c : Nat) : Loc := ⟨EVR_PCIN.addr c, 16, 7⟩
/-- Access RWL/PS. -/ def EVR_PCIN.IN3 (c : Nat) : Loc := ⟨EVR_PCIN.addr c, 24, 7⟩

/-- Chapter 18 R461. -/
def EVR_PCCFG.addr (c : Nat) : Nat := 0x20130404 + 0x10 * c
/-- Access RWL/PS. -/ def EVR_PCCFG.OWNER (c : Nat) : Loc := ⟨EVR_PCCFG.addr c, 31, 1⟩
/-- Access RWL/PS. -/ def EVR_PCCFG.REG (c : Nat) : Loc := ⟨EVR_PCCFG.addr c, 30, 1⟩
/-- Access RWL/PS. -/ def EVR_PCCFG.FILT (c : Nat) : Loc := ⟨EVR_PCCFG.addr c, 24, 3⟩

/-- Chapter 18 R461. -/
def EVR_PCTAB.addr (c : Nat) : Nat := 0x20130408 + 0x10 * c
/-- Access RW. -/ def EVR_PCTAB.TABLE (c : Nat) : Loc := ⟨EVR_PCTAB.addr c, 0, 16⟩

/-- Chapter 18 R461. -/
def EVR_PCSTAT.addr (c : Nat) : Nat := 0x2013040C + 0x10 * c
/-- Access RO. -/ def EVR_PCSTAT.OUT (c : Nat) : Loc := ⟨EVR_PCSTAT.addr c, 4, 1⟩
/-- Access RO. -/ def EVR_PCSTAT.IDX (c : Nat) : Loc := ⟨EVR_PCSTAT.addr c, 0, 4⟩

/-- Chapter 19 R482. -/
def PAD_OWN.addr : Nat := 0x20170000
/-- Access RWL/PS. -/ def PAD_OWN.OWN : Loc := ⟨PAD_OWN.addr, 0, 32⟩

/-- Chapter 19 R482. -/
def PAD_IN.addr : Nat := 0x20170004
/-- Access RO. -/ def PAD_IN.IN : Loc := ⟨PAD_IN.addr, 0, 32⟩

/-- Chapter 19 R482. -/
def PAD_OUT.addr : Nat := 0x20170008
/-- Access RW. -/ def PAD_OUT.OUT : Loc := ⟨PAD_OUT.addr, 0, 32⟩

/-- Chapter 19 R482. -/
def PAD_OUTSET.addr : Nat := 0x2017000C
/-- Access W1S. -/ def PAD_OUTSET.OUT : Loc := ⟨PAD_OUTSET.addr, 0, 32⟩

/-- Chapter 19 R482. -/
def PAD_OUTCLR.addr : Nat := 0x20170010
/-- Access W1C. -/ def PAD_OUTCLR.OUT : Loc := ⟨PAD_OUTCLR.addr, 0, 32⟩

/-- Chapter 19 R482. -/
def PAD_STAT.addr : Nat := 0x20170014
/-- Access RO. -/ def PAD_STAT.VIOOK : Loc := ⟨PAD_STAT.addr, 2, 1⟩
/-- Access RO. -/ def PAD_STAT.VIOSEL : Loc := ⟨PAD_STAT.addr, 1, 1⟩
/-- Access RO. -/ def PAD_STAT.ATTN : Loc := ⟨PAD_STAT.addr, 0, 1⟩

/-- Chapter 19 R482. -/
def PAD_CFG.addr (k : Nat) : Nat := 0x20170100 + 0x4 * k
/-- Access RW. -/ def PAD_CFG.FUNC (k : Nat) : Loc := ⟨PAD_CFG.addr k, 8, 3⟩
/-- Access RW. -/ def PAD_CFG.PULL (k : Nat) : Loc := ⟨PAD_CFG.addr k, 4, 2⟩
/-- Access RW. -/ def PAD_CFG.DRIVE (k : Nat) : Loc := ⟨PAD_CFG.addr k, 2, 2⟩
/-- Access RW. -/ def PAD_CFG.SLOW (k : Nat) : Loc := ⟨PAD_CFG.addr k, 1, 1⟩
/-- Access RW. -/ def PAD_CFG.ODRAIN (k : Nat) : Loc := ⟨PAD_CFG.addr k, 0, 1⟩

end Sys2Proof.Machine
end

