-- ==== Sys2Proof/Machine/RegTable.lean ====
section
/-! DEFINITION. The register tables of the spec's chapters as data: one row per register or register array, with its
offset in its block (R18, R20), the reset value (R10), the access code of its bits (R3: masks RW, W1C, W1S, RWL, WO and
the PS mask; every other bit is RO or reserved), the bits that the always-on domain keeps through a warm or domain reset,
and the power domain it lies in (R414). Domain numbers: 0 to 39 as R414; 40 the cluster part ENG (R415); 41 both RXA and
RXB; 42 both TXA and TXB; 62 the RTC (AO, and untouched by cold reset, R440); 63 AO. -/
namespace Sys2Proof.Machine

/-- One register or array of registers of a block's map. -/
structure RegRow where
  off : Nat
  stride : Nat
  count : Nat
  reset : Nat
  rw : Nat
  w1c : Nat
  w1s : Nat
  rwl : Nat
  wo : Nat
  ps : Nat
  keep : Nat
  dom : Nat
  deriving DecidableEq, Repr

/-- Registers of SYS. -/
def regRowsSYS : List RegRow := [
  ⟨0x0, 0x4, 1, 0xC6A06416, 0x0, 0x0, 0x0, 0x0, 0x0, 0x0, 0x0, 28⟩, -- SYS_PARTID
  ⟨0x4, 0x4, 1, 0x11, 0x0, 0x0, 0x0, 0x0, 0x0, 0x0, 0x0, 28⟩, -- SYS_STEPID
  ⟨0x10, 0x4, 4, 0x0, 0x0, 0x0, 0x0, 0x0, 0x0, 0x0, 0x0, 28⟩, -- SYS_UID
  ⟨0x20, 0x4, 1, 0x1, 0x0, 0x3F, 0x0, 0x0, 0x0, 0x0, 0x3F, 28⟩, -- SYS_RSTCAUSE
  ⟨0x24, 0x4, 1, 0x0, 0x0, 0x0, 0x0, 0x0, 0xFFFF00FF, 0x0, 0x0, 28⟩, -- SYS_RSTCTL
  ⟨0x30, 0x4, 1, 0x0, 0x0, 0x80000000, 0x0, 0x0, 0x0, 0x0, 0x0, 28⟩, -- SYS_FAULTREC
  ⟨0x34, 0x4, 1, 0x0, 0x0, 0x0, 0x0, 0x0, 0x0, 0x0, 0x0, 28⟩, -- SYS_FAULTADDR
  ⟨0x38, 0x4, 1, 0x0, 0xFFFF, 0x0, 0x0, 0x0, 0x0, 0x0, 0x0, 28⟩, -- SYS_FAULTCNT
  ⟨0x3C, 0x4, 1, 0x0, 0x0, 0x0, 0x0, 0xF, 0x0, 0xF, 0x0, 28⟩, -- SYS_FAULTENG
  ⟨0x40, 0x4, 1, 0x0, 0x0, 0x0, 0x0, 0x0, 0x0, 0x0, 0x0, 28⟩, -- SYS_CLKSTAT
  ⟨0x44, 0x4, 1, 0x1F4, 0x3FF, 0x0, 0x0, 0x0, 0x0, 0x3FF, 0x0, 28⟩, -- SYS_REFMON
  ⟨0x50, 0x4, 1, 0x0, 0xFFFFFFFF, 0x0, 0x0, 0x0, 0x0, 0x0, 0x0, 28⟩, -- SYS_ECCCORR
  ⟨0x54, 0x4, 1, 0x0, 0xFFFF, 0x0, 0x0, 0x0, 0x0, 0x0, 0x0, 28⟩, -- SYS_ECCUNC
  ⟨0x58, 0x4, 1, 0x0, 0x0, 0x0, 0x0, 0x0, 0x0, 0x0, 0x0, 28⟩, -- SYS_ECCADDR
  ⟨0x5C, 0x4, 1, 0xC0000400, 0xC000FFFF, 0x0, 0x0, 0x0, 0x0, 0xC000FFFF, 0x40000000, 28⟩, -- SYS_SCRUB
  ⟨0x100, 0x4, 1, 0x0, 0x0, 0x0, 0x0, 0x0, 0x0, 0x0, 0x0, 28⟩, -- SYS_IRQMAP0
  ⟨0x104, 0x4, 25, 0x0, 0x8000000F, 0x0, 0x0, 0x0, 0x0, 0x8000000F, 0x0, 28⟩ -- SYS_IRQMAP
  ]

/-- Registers of PWR. -/
def regRowsPWR : List RegRow := [
  ⟨0x0, 0x4, 1, 0x2, 0xF, 0x0, 0x0, 0x0, 0x0, 0xF, 0xFFFFFFFF, 63⟩, -- PWR_CTRL
  ⟨0x4, 0x4, 1, 0x29, 0x0, 0x0, 0x0, 0x0, 0x0, 0x0, 0xFFFFFFFF, 63⟩, -- PWR_STAT
  ⟨0x8, 0x4, 1, 0x0, 0x0, 0x3F, 0x0, 0x0, 0x0, 0x0, 0xFFFFFFFF, 63⟩, -- PWR_EVT
  ⟨0xC, 0x4, 1, 0x0, 0x3F, 0x0, 0x0, 0x0, 0x0, 0x3F, 0xFFFFFFFF, 63⟩, -- PWR_IEN
  ⟨0x10, 0x4, 1, 0x0, 0x7, 0x0, 0x0, 0x0, 0x0, 0x7, 0xFFFFFFFF, 63⟩, -- PWR_WAKEEN
  ⟨0x14, 0x4, 1, 0x0, 0xFFFFFFFF, 0x0, 0x0, 0x0, 0x0, 0xFFFFFFFF, 0xFFFFFFFF, 63⟩, -- PWR_GPIOWAKE
  ⟨0x18, 0x4, 1, 0x0, 0xFFFFFFFF, 0x0, 0x0, 0x0, 0x0, 0xFFFFFFFF, 0xFFFFFFFF, 63⟩, -- PWR_GPIOPOL
  ⟨0x1C, 0x4, 1, 0x10000001, 0x1FFFFFFF, 0x0, 0x0, 0x0, 0x0, 0x1FFFFFFF, 0xFFFFFFFF, 63⟩, -- PWR_WAKESETL
  ⟨0x20, 0x4, 1, 0x1, 0xFF, 0x0, 0x0, 0x0, 0x0, 0xFF, 0xFFFFFFFF, 63⟩, -- PWR_WAKESETH
  ⟨0x24, 0x4, 1, 0x0, 0x1FFFFFFF, 0x0, 0x0, 0x0, 0x0, 0x1FFFFFFF, 0xFFFFFFFF, 63⟩, -- PWR_SHEDL
  ⟨0x28, 0x4, 1, 0x0, 0xFF, 0x0, 0x0, 0x0, 0x0, 0xFF, 0xFFFFFFFF, 63⟩, -- PWR_SHEDH
  ⟨0x2C, 0x4, 1, 0x10001, 0x0, 0x0, 0x0, 0x0, 0x0, 0x0, 0xFFFFFFFF, 63⟩, -- PWR_LASTWAKE
  ⟨0x30, 0x4, 1, 0x7AD0, 0x7FFF, 0x0, 0x0, 0x0, 0x0, 0x7FFF, 0xFFFFFFFF, 63⟩, -- PWR_SAVEBASE
  ⟨0x34, 0x4, 1, 0x0, 0x0, 0x0, 0x0, 0x0, 0x0, 0x0, 0x0, 63⟩, -- PWR_SAVESTAT
  ⟨0x38, 0x4, 1, 0x0, 0x0, 0x0, 0x0, 0x0, 0x1, 0x1, 0xFFFFFFFF, 63⟩, -- PWR_PADREL
  ⟨0x3C, 0x4, 1, 0x0, 0x0, 0x0, 0x0, 0x0, 0xFFFF003F, 0xFFFF003F, 0xFFFFFFFF, 63⟩, -- PWR_DRST
  ⟨0x40, 0x4, 1, 0xF, 0x0, 0x0, 0x0, 0x0, 0x0, 0x0, 0xFFFFFFFF, 63⟩, -- PWR_BUCK
  ⟨0x100, 0x4, 40, 0x0, 0x3, 0x0, 0x0, 0x0, 0x0, 0x3, 0x0, 63⟩, -- PWR_REQ
  ⟨0x200, 0x4, 40, 0xF0, 0x0, 0x0, 0x0, 0x0, 0x0, 0x0, 0x0, 63⟩ -- PWR_DSTAT
  ]

/-- Registers of BEAT. -/
def regRowsBEAT : List RegRow := [
  ⟨0x0, 0x4, 1, 0x3, 0x0, 0x0, 0x0, 0x7, 0x0, 0x7, 0x0, 28⟩, -- BEAT_CTRL
  ⟨0x4, 0x4, 1, 0x0, 0x0, 0x0, 0x0, 0x0, 0x0, 0x0, 0x0, 28⟩, -- BEAT_ABNLO
  ⟨0x8, 0x4, 1, 0x0, 0x0, 0x0, 0x0, 0x0, 0x0, 0x0, 0x0, 28⟩, -- BEAT_ABNHI
  ⟨0xC, 0x4, 1, 0x0, 0x0, 0x0, 0x0, 0x0, 0x0, 0x0, 0x0, 28⟩, -- BEAT_PHASE
  ⟨0x10, 0x4, 1, 0x0, 0x0, 0x0, 0xFFFF, 0x0, 0x0, 0x0, 0x0, 28⟩, -- BEAT_DONE
  ⟨0x14, 0x4, 1, 0x0, 0x0, 0x0, 0x0, 0xFFFF, 0x0, 0xFFFF, 0x0, 28⟩, -- BEAT_TASKEN
  ⟨0x18, 0x4, 1, 0x0, 0x0, 0xFFFF, 0x0, 0x0, 0x0, 0x0, 0x0, 28⟩, -- BEAT_OVRSTAT
  ⟨0x1C, 0x4, 1, 0x0, 0x0, 0xF, 0x0, 0x0, 0x0, 0x0, 0x0, 28⟩, -- BEAT_STAT
  ⟨0x20, 0x4, 1, 0x0, 0xF, 0x0, 0x0, 0x0, 0x0, 0xF, 0x0, 28⟩, -- BEAT_IEN
  ⟨0x24, 0x4, 1, 0x0, 0xC000000F, 0x0, 0x0, 0x0, 0x0, 0xC000000F, 0x0, 28⟩, -- BEAT_PLREQ
  ⟨0x28, 0x4, 1, 0x0, 0x0, 0x0, 0x0, 0x0, 0x0, 0x0, 0x0, 28⟩, -- BEAT_PLCUR
  ⟨0x2C, 0x4, 1, 0xFFFF, 0x0, 0x0, 0x0, 0xFFFF, 0x0, 0xFFFF, 0x0, 28⟩, -- BEAT_RESLIM
  ⟨0x30, 0x4, 1, 0x0, 0xFFFFFFFF, 0x0, 0x0, 0x0, 0x0, 0x0, 0x0, 28⟩, -- BEAT_RESDROP
  ⟨0x34, 0x4, 1, 0x0, 0xFFFFFFFF, 0x0, 0x0, 0x0, 0x0, 0x0, 0x0, 28⟩, -- BEAT_OUTAGE
  ⟨0x38, 0x4, 1, 0x0, 0x0, 0x0, 0x0, 0x0, 0x0, 0x0, 0x0, 28⟩, -- BEAT_BOOTCHK
  ⟨0x40, 0x4, 16, 0x0, 0x0, 0x0, 0x0, 0xFFFFFFFF, 0x0, 0xFFFFFFFF, 0x0, 28⟩, -- BEAT_BUDGET
  ⟨0x80, 0x4, 16, 0x0, 0xFFFF, 0x0, 0x0, 0x0, 0x0, 0x0, 0x0, 28⟩ -- BEAT_OVR
  ]

/-- Registers of RXF. -/
def regRowsRXF : List RegRow := [
  ⟨0x0, 0x4, 1, 0x10, 0xF1B, 0x0, 0x0, 0x0, 0x0, 0xF1B, 0x0, 16⟩, -- RXF_CTRLA
  ⟨0x4, 0x4, 1, 0x10, 0xF1B, 0x0, 0x0, 0x0, 0x0, 0xF1B, 0x0, 17⟩, -- RXF_CTRLB
  ⟨0x8, 0x4, 1, 0x80, 0x0, 0x0, 0x0, 0x0, 0x0, 0x0, 0x0, 16⟩, -- RXF_STATA
  ⟨0xC, 0x4, 1, 0x80, 0x0, 0x0, 0x0, 0x0, 0x0, 0x0, 0x0, 17⟩, -- RXF_STATB
  ⟨0x10, 0x4, 1, 0xA1401, 0xFFFFFF, 0x0, 0x0, 0x0, 0x0, 0xFFFFFF, 0x0, 16⟩, -- RXF_AGCA
  ⟨0x14, 0x4, 1, 0xA1401, 0xFFFFFF, 0x0, 0x0, 0x0, 0x0, 0xFFFFFF, 0x0, 17⟩, -- RXF_AGCB
  ⟨0x18, 0x4, 1, 0x0, 0xFFFF, 0x0, 0x0, 0x0, 0x0, 0xFFFF, 0x0, 16⟩, -- RXF_CALA
  ⟨0x1C, 0x4, 1, 0x0, 0xFFFF, 0x0, 0x0, 0x0, 0x0, 0xFFFF, 0x0, 17⟩, -- RXF_CALB
  ⟨0x20, 0x4, 1, 0x5F008000, 0xFFFFFF30, 0x0, 0x0, 0x0, 0x1, 0xFFFFFF30, 0x0, 16⟩, -- RXF_TASTEA
  ⟨0x24, 0x4, 1, 0x5F008000, 0xFFFFFF30, 0x0, 0x0, 0x0, 0x1, 0xFFFFFF30, 0x0, 17⟩, -- RXF_TASTEB
  ⟨0x28, 0x4, 1, 0x0, 0xFFFFFFFF, 0x0, 0x0, 0x0, 0x0, 0xFFFFFFFF, 0x0, 16⟩, -- RXF_TFREQA
  ⟨0x2C, 0x4, 1, 0x0, 0xFFFFFFFF, 0x0, 0x0, 0x0, 0x0, 0xFFFFFFFF, 0x0, 17⟩, -- RXF_TFREQB
  ⟨0x30, 0x4, 1, 0x0, 0x0, 0x3FF, 0x0, 0x0, 0x0, 0x0, 0x0, 41⟩, -- RXF_EVT
  ⟨0x34, 0x4, 1, 0x0, 0x3FF, 0x0, 0x0, 0x0, 0x0, 0x3FF, 0x0, 41⟩, -- RXF_IEN
  ⟨0x38, 0x4, 1, 0x0, 0xFFFF, 0x0, 0x0, 0x0, 0x0, 0x0, 0x0, 16⟩, -- RXF_CLIPCNTA
  ⟨0x3C, 0x4, 1, 0x0, 0xFFFF, 0x0, 0x0, 0x0, 0x0, 0x0, 0x0, 17⟩, -- RXF_CLIPCNTB
  ⟨0x40, 0x4, 1, 0x0, 0xFFFFFFFF, 0x0, 0x0, 0x0, 0x0, 0x0, 0x0, 16⟩, -- RXF_TCNTA
  ⟨0x44, 0x4, 1, 0x0, 0xFFFFFFFF, 0x0, 0x0, 0x0, 0x0, 0x0, 0x0, 17⟩ -- RXF_TCNTB
  ]

/-- Registers of SLC. -/
def regRowsSLC : List RegRow := [
  ⟨0x0, 0x4, 1, 0x4, 0xC, 0x0, 0x0, 0x0, 0x0, 0xC, 0x0, 18⟩, -- SLC_CTRL
  ⟨0x4, 0x4, 1, 0x0, 0x0, 0x0, 0x0, 0x0, 0x0, 0x0, 0x0, 18⟩, -- SLC_ACTIVE
  ⟨0x8, 0x4, 1, 0x0, 0x0, 0x0, 0x0, 0x0, 0x0, 0x0, 0x0, 18⟩, -- SLC_DEAF
  ⟨0xC, 0x4, 1, 0x0, 0x0, 0x7, 0x0, 0x0, 0x0, 0x0, 0x0, 18⟩, -- SLC_EVT
  ⟨0x10, 0x4, 1, 0x0, 0x7, 0x0, 0x0, 0x0, 0x0, 0x7, 0x0, 18⟩, -- SLC_IEN
  ⟨0x100, 0x20, 16, 0x0, 0xF310, 0x0, 0x0, 0x0, 0x0, 0xF310, 0x0, 18⟩, -- SLC_CFG
  ⟨0x104, 0x20, 16, 0x0, 0xFFFFFFFF, 0x0, 0x0, 0x0, 0x0, 0xFFFFFFFF, 0x0, 18⟩, -- SLC_TUNE
  ⟨0x108, 0x20, 16, 0x4000, 0x0, 0x0, 0x0, 0x0, 0x0, 0x0, 0x0, 18⟩, -- SLC_STAT
  ⟨0x10C, 0x20, 16, 0x8000, 0x0, 0x0, 0x0, 0x0, 0x0, 0x0, 0x0, 18⟩, -- SLC_RSSI
  ⟨0x110, 0x20, 16, 0xC, 0x9F, 0x0, 0x0, 0x0, 0x0, 0x9F, 0x0, 18⟩, -- SLC_AGC
  ⟨0x114, 0x20, 16, 0x0, 0xFFFF, 0x0, 0x0, 0x0, 0x0, 0x0, 0x0, 18⟩, -- SLC_DEAFCNT
  ⟨0x118, 0x20, 16, 0x0, 0x0, 0x0, 0x0, 0x0, 0x0, 0x0, 0x0, 18⟩ -- SLC_NCO
  ]

/-- Registers of PHY. -/
def regRowsPHY : List RegRow := [
  ⟨0x0, 0x4, 1, 0x107, 0x10F, 0x0, 0x0, 0x0, 0x0, 0x10F, 0x0, 19⟩, -- PHY_CTRL
  ⟨0x4, 0x4, 1, 0x0, 0xFF0000, 0x0, 0x0, 0x0, 0x0, 0x0, 0x0, 19⟩, -- PHY_POOL
  ⟨0x8, 0x4, 1, 0x0, 0x0, 0x3, 0x0, 0x0, 0x0, 0x0, 0x0, 19⟩, -- PHY_EVT
  ⟨0xC, 0x4, 1, 0x0, 0x3, 0x0, 0x0, 0x0, 0x0, 0x3, 0x0, 19⟩, -- PHY_IEN
  ⟨0x10, 0x4, 1, 0x200, 0x1F01, 0x0, 0x0, 0x0, 0x0, 0x1F01, 0x0, 19⟩, -- PHY_TXCFG
  ⟨0x14, 0x4, 2, 0x21001F4, 0x3FFF3FFF, 0x0, 0x0, 0x0, 0x0, 0x3FFF3FFF, 0x0, 19⟩, -- PHY_TXFSK
  ⟨0x20, 0x4, 1, 0x0, 0xFFFFFFFF, 0x0, 0x0, 0x0, 0x0, 0x0, 0x0, 19⟩, -- PHY_CWCNT
  ⟨0x24, 0x4, 1, 0x0, 0xFFFF, 0x0, 0x0, 0x0, 0x0, 0x0, 0x0, 19⟩, -- PHY_CWFAIL
  ⟨0x28, 0x4, 1, 0x0, 0xFFFF, 0x0, 0x0, 0x0, 0x0, 0x0, 0x0, 19⟩, -- PHY_CWDROP
  ⟨0x100, 0x20, 16, 0x3FF0200, 0x3FF0700, 0x0, 0x0, 0x0, 0x0, 0x3FF0700, 0x0, 19⟩, -- PHY_RXCFG
  ⟨0x104, 0x20, 16, 0x21001F4, 0x3FFF3FFF, 0x0, 0x0, 0x0, 0x0, 0x3FFF3FFF, 0x0, 19⟩, -- PHY_FSK
  ⟨0x108, 0x20, 16, 0xACCA, 0xFFFF, 0x0, 0x0, 0x0, 0x0, 0xFFFF, 0x0, 19⟩, -- PHY_SYNC
  ⟨0x10C, 0x20, 16, 0x0, 0x0, 0x0, 0x0, 0x0, 0x0, 0x0, 0x0, 19⟩, -- PHY_STAT
  ⟨0x110, 0x20, 16, 0x80000000, 0x0, 0x0, 0x0, 0x0, 0x0, 0x0, 0x0, 19⟩, -- PHY_QUAL
  ⟨0x114, 0x20, 16, 0x0, 0xFFFFFFFF, 0x0, 0x0, 0x0, 0x0, 0x0, 0x0, 19⟩, -- PHY_OKCNT
  ⟨0x118, 0x20, 16, 0x0, 0xFFFFFFFF, 0x0, 0x0, 0x0, 0x0, 0x0, 0x0, 19⟩ -- PHY_ERRCNT
  ]

/-- Registers of TXF. -/
def regRowsTXF : List RegRow := [
  ⟨0x0, 0x4, 1, 0x40000, 0xFF0F0F83, 0x0, 0x0, 0x0, 0x0, 0xFF0F0F83, 0x0, 20⟩, -- TXF_CTRLA
  ⟨0x4, 0x4, 1, 0x40000, 0xFF0F0F83, 0x0, 0x0, 0x0, 0x0, 0xFF0F0F83, 0x0, 21⟩, -- TXF_CTRLB
  ⟨0x8, 0x4, 1, 0x0, 0xFFFFFFFF, 0x0, 0x0, 0x0, 0x0, 0xFFFFFFFF, 0x0, 20⟩, -- TXF_LOA
  ⟨0xC, 0x4, 1, 0x0, 0xFFFFFFFF, 0x0, 0x0, 0x0, 0x0, 0xFFFFFFFF, 0x0, 21⟩, -- TXF_LOB
  ⟨0x10, 0x4, 1, 0x0, 0x0, 0x0, 0x0, 0x0, 0x0, 0x0, 0x0, 20⟩, -- TXF_STATA
  ⟨0x14, 0x4, 1, 0x0, 0x0, 0x0, 0x0, 0x0, 0x0, 0x0, 0x0, 21⟩, -- TXF_STATB
  ⟨0x18, 0x4, 1, 0x1100, 0xFF07, 0x0, 0x0, 0x0, 0x0, 0xFF07, 0x0, 20⟩, -- TXF_FEA
  ⟨0x1C, 0x4, 1, 0x1100, 0xFF07, 0x0, 0x0, 0x0, 0x0, 0xFF07, 0x0, 21⟩, -- TXF_FEB
  ⟨0x20, 0x4, 1, 0x33332001, 0xFFFFFFFF, 0x0, 0x0, 0x0, 0x0, 0xFFFFFFFF, 0x0, 42⟩, -- TXF_SHAPE
  ⟨0x24, 0x4, 1, 0x0, 0xFFFFFFFF, 0x0, 0x0, 0x0, 0x0, 0xFFFFFFFF, 0x0, 42⟩, -- TXF_MASKSEL
  ⟨0x28, 0x4, 1, 0x0, 0x0, 0x1FF, 0x0, 0x0, 0x0, 0x0, 0x0, 42⟩, -- TXF_EVT
  ⟨0x2C, 0x4, 1, 0x0, 0x1FF, 0x0, 0x0, 0x0, 0x0, 0x1FF, 0x0, 42⟩, -- TXF_IEN
  ⟨0x30, 0x4, 1, 0x0, 0xFFFFFFFF, 0x0, 0x0, 0x0, 0x0, 0x0, 0x0, 42⟩, -- TXF_CALCNT
  ⟨0x34, 0x4, 1, 0x0, 0xFFFFFFFF, 0x0, 0x0, 0x0, 0x0, 0x0, 0x0, 42⟩, -- TXF_LATECNT
  ⟨0x38, 0x4, 1, 0x0, 0xFFFFFFFF, 0x0, 0x0, 0x0, 0x0, 0x0, 0x0, 42⟩, -- TXF_MASKCNT
  ⟨0x100, 0x10, 4, 0x0, 0x0, 0x0, 0x0, 0x0, 0x0, 0x0, 0x0, 20⟩, -- TXF_CARSTAT0 to 3
  ⟨0x104, 0x10, 4, 0x0, 0x0, 0x0, 0x0, 0x0, 0x0, 0x0, 0x0, 20⟩, -- TXF_CARFREQ0 to 3
  ⟨0x108, 0x10, 4, 0x0, 0x0, 0x0, 0x0, 0x0, 0x0, 0x0, 0x0, 20⟩, -- TXF_CARLVL0 to 3
  ⟨0x140, 0x10, 4, 0x0, 0x0, 0x0, 0x0, 0x0, 0x0, 0x0, 0x0, 21⟩, -- TXF_CARSTAT4 to 7
  ⟨0x144, 0x10, 4, 0x0, 0x0, 0x0, 0x0, 0x0, 0x0, 0x0, 0x0, 21⟩, -- TXF_CARFREQ4 to 7
  ⟨0x148, 0x10, 4, 0x0, 0x0, 0x0, 0x0, 0x0, 0x0, 0x0, 0x0, 21⟩, -- TXF_CARLVL4 to 7
  ⟨0x400, 0x4, 36, 0x0, 0x0, 0x0, 0x0, 0x0, 0x0, 0x0, 0x0, 42⟩, -- TXF_COEF (ROM sets)
  ⟨0x490, 0x4, 36, 0x0, 0xFFFFFFFF, 0x0, 0x0, 0x0, 0x0, 0xFFFFFFFF, 0x0, 42⟩, -- TXF_COEF
  ⟨0x600, 0x4, 16, 0x0, 0xFFFFFFFF, 0x0, 0x0, 0x0, 0x0, 0xFFFFFFFF, 0x0, 42⟩ -- TXF_MASK
  ]

/-- Registers of GLZ. -/
def regRowsGLZ : List RegRow := [
  ⟨0x0, 0x4, 1, 0x0, 0x0, 0x0, 0x0, 0x0, 0x0, 0x0, 0x0, 42⟩, -- GLZ_STAT
  ⟨0x4, 0x4, 1, 0x0, 0x0, 0x0, 0x0, 0x0, 0xFFFF0001, 0xFFFF0001, 0x0, 42⟩, -- GLZ_SEAL
  ⟨0x8, 0x4, 2, 0x0, 0x80FF00FF, 0x0, 0x0, 0x0, 0x0, 0x80FF00FF, 0x0, 42⟩, -- GLZ_PATH
  ⟨0x10, 0x4, 1, 0x0, 0x0, 0x0, 0x0, 0x0, 0x0, 0x0, 0x0, 42⟩, -- GLZ_CRC
  ⟨0x14, 0x4, 1, 0x0, 0x0, 0x7, 0x0, 0x0, 0x0, 0x0, 0x0, 42⟩, -- GLZ_EVT
  ⟨0x18, 0x4, 1, 0x0, 0x7, 0x0, 0x0, 0x0, 0x0, 0x7, 0x0, 42⟩, -- GLZ_IEN
  ⟨0x40, 0x4, 7, 0x0, 0xFFFFFFFF, 0x0, 0x0, 0x0, 0x0, 0x0, 0x0, 42⟩, -- GLZ_REFCNT
  ⟨0x100, 0x20, 16, 0x0, 0xFFFFFFFF, 0x0, 0x0, 0x0, 0x0, 0xFFFFFFFF, 0x0, 42⟩, -- GLZ_SBLO
  ⟨0x104, 0x20, 16, 0x0, 0xFFFFFFFF, 0x0, 0x0, 0x0, 0x0, 0xFFFFFFFF, 0x0, 42⟩, -- GLZ_SBHI
  ⟨0x108, 0x20, 16, 0x0, 0xFFFFFFFF, 0x0, 0x0, 0x0, 0x0, 0xFFFFFFFF, 0x0, 42⟩, -- GLZ_SBGRID
  ⟨0x10C, 0x20, 16, 0x0, 0xFFFFFFFF, 0x0, 0x0, 0x0, 0x0, 0xFFFFFFFF, 0x0, 42⟩, -- GLZ_SBMAPL
  ⟨0x110, 0x20, 16, 0x0, 0xFFFFFFFF, 0x0, 0x0, 0x0, 0x0, 0xFFFFFFFF, 0x0, 42⟩, -- GLZ_SBMAPH
  ⟨0x114, 0x20, 16, 0x0, 0xFFFFFF, 0x0, 0x0, 0x0, 0x0, 0xFFFFFF, 0x0, 42⟩, -- GLZ_SBLIM
  ⟨0x118, 0x20, 16, 0x0, 0xFFFFFFFF, 0x0, 0x0, 0x0, 0x0, 0xFFFFFFFF, 0x0, 42⟩, -- GLZ_SBDUTY
  ⟨0x11C, 0x20, 16, 0x0, 0xC00FFCFF, 0x0, 0x0, 0x0, 0x0, 0xC00FFCFF, 0x0, 42⟩, -- GLZ_SBLBT
  ⟨0x400, 0x4, 16, 0x0, 0x0, 0x0, 0x0, 0x0, 0x0, 0x0, 0xFFFFFFFF, 63⟩ -- GLZ_SBUSE
  ]

/-- Registers of LNK, part 0. -/
def regRowsLNK0 : List RegRow := [
  ⟨0x0, 0x4, 1, 0x7025180, 0x8F0F77FC, 0x0, 0x0, 0x0, 0x0, 0x8F0F77FC, 0x0, 22⟩, -- LNK_CTRL
  ⟨0x4, 0x4, 1, 0x0, 0xFFFFFFFF, 0x0, 0x0, 0x0, 0x0, 0xFFFFFFFF, 0x0, 22⟩, -- LNK_ADDR
  ⟨0x8, 0x4, 1, 0x960, 0x0, 0x0, 0x0, 0x3FFF, 0x0, 0x3FFF, 0x0, 22⟩, -- LNK_TXOFS
  ⟨0xC, 0x4, 1, 0x7D0, 0x0, 0x0, 0x0, 0x7FFF, 0x0, 0x7FFF, 0x0, 22⟩, -- LNK_AIRMAX
  ⟨0x10, 0x4, 1, 0xB500, 0xFF01, 0x0, 0x0, 0x0, 0x0, 0xFF01, 0x0, 22⟩, -- LNK_CCA
  ⟨0x14, 0x4, 1, 0x0, 0x3F07FF, 0x0, 0x0, 0x0, 0x0, 0x3F07FF, 0x0, 22⟩, -- LNK_BEACON
  ⟨0x18, 0x4, 1, 0x0, 0xFFF001FF, 0x0, 0x0, 0x0, 0x0, 0xFFF001FF, 0x0, 22⟩, -- LNK_BCAST
  ⟨0x1C, 0x4, 1, 0x0, 0xFF, 0x0, 0x0, 0x0, 0x0, 0xFF, 0x0, 22⟩, -- LNK_SEQ
  ⟨0x20, 0x4, 1, 0x80, 0x3FF, 0x0, 0x0, 0x0, 0x0, 0x0, 0x0, 22⟩, -- LNK_BCBO
  ⟨0x24, 0x4, 1, 0x0, 0x0, 0xFF, 0x0, 0x0, 0x0, 0x0, 0x0, 22⟩, -- LNK_EVT
  ⟨0x28, 0x4, 1, 0x0, 0xFF, 0x0, 0x0, 0x0, 0x0, 0xFF, 0x0, 22⟩, -- LNK_IEN
  ⟨0x2C, 0x4, 1, 0x0, 0x0, 0x0, 0x0, 0x0, 0x0, 0x0, 0x0, 22⟩, -- LNK_TXSTAT
  ⟨0x30, 0x4, 1, 0x0, 0x0, 0x0, 0x0, 0x0, 0x0, 0x0, 0x0, 22⟩, -- LNK_RXSTAT
  ⟨0x34, 0x4, 1, 0x0, 0xFFFFFFFF, 0x0, 0x0, 0x0, 0x0, 0x0, 0x0, 22⟩, -- LNK_TXOKCNT
  ⟨0x38, 0x4, 1, 0x0, 0xFFFFFFFF, 0x0, 0x0, 0x0, 0x0, 0x0, 0x0, 22⟩, -- LNK_RETRYCNT
  ⟨0x3C, 0x4, 1, 0x0, 0xFFFFFFFF, 0x0, 0x0, 0x0, 0x0, 0x0, 0x0, 22⟩, -- LNK_DROPCNT
  ⟨0x40, 0x4, 1, 0x0, 0xFFFFFFFF, 0x0, 0x0, 0x0, 0x0, 0x0, 0x0, 22⟩, -- LNK_RXOKCNT
  ⟨0x44, 0x4, 1, 0x0, 0xFFFFFFFF, 0x0, 0x0, 0x0, 0x0, 0x0, 0x0, 22⟩, -- LNK_RXERRCNT
  ⟨0x48, 0x4, 1, 0x0, 0xFFFFFFFF, 0x0, 0x0, 0x0, 0x0, 0x0, 0x0, 22⟩, -- LNK_NACKCNT
  ⟨0x4C, 0x4, 1, 0x0, 0xFFFFFFFF, 0x0, 0x0, 0x0, 0x0, 0x0, 0x0, 22⟩, -- LNK_SKIPCNT
  ⟨0x50, 0x4, 1, 0x0, 0xFFFF, 0x0, 0x0, 0x0, 0x0, 0x0, 0x0, 22⟩, -- LNK_CCACNT
  ⟨0x80, 0x4, 8, 0x1, 0x80001FFF, 0x0, 0x0, 0x0, 0x0, 0x80001FFF, 0x0, 22⟩, -- LNK_SF
  ⟨0xA0, 0x4, 1, 0x1010101, 0xFFFFFFFF, 0x0, 0x0, 0x0, 0x0, 0xFFFFFFFF, 0x0, 22⟩, -- LNK_HOPLEN
  ⟨0x1000, 0x4, 128, 0x0, 0x3F3F3F3F, 0x0, 0x0, 0x0, 0x0, 0x3F3F3F3F, 0x0, 22⟩, -- LNK_HOP
  ⟨0x1400, 0x4, 64, 0x0, 0xFFFFFFFF, 0x0, 0x0, 0x0, 0x0, 0xFFFFFFFF, 0x0, 22⟩, -- LNK_CHAN
  ⟨0x4000, 0x40, 256, 0x0, 0xFFFFFFFF, 0x0, 0x0, 0x0, 0x0, 0xFFFFFFFF, 0x0, 22⟩, -- LNK_NBR0
  ⟨0x4004, 0x40, 256, 0x0, 0xFFFFFFFF, 0x0, 0x0, 0x0, 0x0, 0xFFFFFFFF, 0x0, 22⟩, -- LNK_NBR1
  ⟨0x4008, 0x40, 256, 0x0, 0xFFFFFFFF, 0x0, 0x0, 0x0, 0x0, 0x0, 0x0, 22⟩, -- LNK_NBR2
  ⟨0x400C, 0x40, 256, 0x0, 0xFFFFFFFF, 0x0, 0x0, 0x0, 0x0, 0x0, 0x0, 22⟩, -- LNK_NBR3
  ⟨0x4010, 0x40, 256, 0x0, 0xFFFFFFFF, 0x0, 0x0, 0x0, 0x0, 0x0, 0x0, 22⟩, -- LNK_NBR4
  ⟨0x4014, 0x40, 256, 0x0, 0xFFFFFFFF, 0x0, 0x0, 0x0, 0x0, 0x0, 0x0, 22⟩, -- LNK_NBR5
  ⟨0x4018, 0x40, 256, 0x0, 0xFFFFDCFF, 0x0, 0x0, 0x0, 0x0, 0x0, 0x0, 22⟩, -- LNK_NBR6
  ⟨0x401C, 0x40, 256, 0x0, 0xFFFFFFFF, 0x0, 0x0, 0x0, 0x0, 0x0, 0x0, 22⟩, -- LNK_NBR7
  ⟨0x4020, 0x40, 256, 0x0, 0xFFFFFFFF, 0x0, 0x0, 0x0, 0x0, 0x0, 0x0, 22⟩, -- LNK_NBR8
  ⟨0x4024, 0x40, 256, 0x0, 0xFFFFFFFF, 0x0, 0x0, 0x0, 0x0, 0x0, 0x0, 22⟩, -- LNK_NBR9
  ⟨0x4028, 0x40, 256, 0x0, 0xFF8FFFFF, 0x0, 0x0, 0x0, 0x0, 0x0, 0x0, 22⟩, -- LNK_NBR10
  ⟨0x402C, 0x40, 256, 0x0, 0xE0FFFFFF, 0x0, 0x0, 0x0, 0x0, 0x0, 0x0, 22⟩, -- LNK_NBR11
  ⟨0x4030, 0x40, 256, 0x0, 0xFFFFFFFF, 0x0, 0x0, 0x0, 0x0, 0x0, 0x0, 22⟩, -- LNK_NBR12
  ⟨0x4034, 0x40, 256, 0x0, 0xFFFFFFFF, 0x0, 0x0, 0x0, 0x0, 0x0, 0x0, 22⟩, -- LNK_NBR13
  ⟨0x4038, 0x40, 256, 0x0, 0xFFFFFFFF, 0x0, 0x0, 0x0, 0x0, 0x0, 0x0, 22⟩ -- LNK_NBR14
  ]

/-- Registers of LNK, part 1. -/
def regRowsLNK1 : List RegRow := [
  ⟨0x403C, 0x40, 256, 0x0, 0xFFFFFFFF, 0x0, 0x0, 0x0, 0x0, 0x0, 0x0, 22⟩, -- LNK_NBR15
  ⟨0x8000, 0x8, 4096, 0x0, 0xFFFFFFFF, 0x0, 0x0, 0x0, 0x0, 0xFFFFFFFF, 0x0, 22⟩, -- LNK_CELL0
  ⟨0x8004, 0x8, 4096, 0x0, 0xFFFFFFFF, 0x0, 0x0, 0x0, 0x0, 0xFFFFFFFF, 0x0, 22⟩, -- LNK_CELL1
  ⟨0x100, 0x4, 1, 0xF0F2003, 0xFFFFF0FF, 0x0, 0x0, 0x0, 0x0, 0xFFFFF0FF, 0x0, 22⟩, -- LNK_GUARD
  ⟨0x104, 0x4, 1, 0x8980064, 0xFFF0FFF, 0x0, 0x0, 0x0, 0x0, 0xFFF0FFF, 0x0, 22⟩, -- LNK_GLIM
  ⟨0x108, 0x4, 1, 0x303FF, 0x30FFF, 0x0, 0x0, 0x0, 0x0, 0x30FFF, 0x0, 22⟩, -- LNK_TRACK
  ⟨0x10C, 0x4, 1, 0x96, 0xFFFF, 0x0, 0x0, 0x0, 0x0, 0xFFFF, 0x0, 22⟩, -- LNK_TSEND
  ⟨0x110, 0x4, 1, 0x14A6, 0xFFFFF, 0x0, 0x0, 0x0, 0x0, 0xFFFFF, 0x0, 22⟩, -- LNK_TRX
  ⟨0x114, 0x4, 1, 0x26400, 0xC0FFFFFF, 0x0, 0x0, 0x0, 0x0, 0xC0FFFFFF, 0x0, 22⟩, -- LNK_SCAN
  ⟨0x118, 0x4, 1, 0x0, 0xFFFFFFFF, 0x0, 0x0, 0x0, 0x0, 0xFFFFFFFF, 0x0, 22⟩, -- LNK_SCANMAPL
  ⟨0x11C, 0x4, 1, 0x0, 0xFFFFFFFF, 0x0, 0x0, 0x0, 0x0, 0xFFFFFFFF, 0x0, 22⟩, -- LNK_SCANMAPH
  ⟨0x120, 0x4, 1, 0x0, 0x0, 0x0, 0x0, 0x0, 0x0, 0x0, 0x0, 22⟩, -- LNK_SCANRES
  ⟨0x124, 0x4, 1, 0x0, 0x0, 0x0, 0x0, 0x0, 0x0, 0x0, 0x0, 22⟩, -- LNK_SCANABN
  ⟨0x128, 0x4, 1, 0x0, 0x0, 0xFF, 0x0, 0x0, 0x0, 0x0, 0x0, 22⟩, -- LNK_TEVT
  ⟨0x12C, 0x4, 1, 0x0, 0xFF, 0x0, 0x0, 0x0, 0x0, 0xFF, 0x0, 22⟩, -- LNK_TIEN
  ⟨0x130, 0x4, 1, 0x0, 0x0, 0x0, 0x0, 0x0, 0x0, 0x0, 0x0, 22⟩, -- LNK_TAWAKE
  ⟨0x200, 0x4, 2, 0x3E8, 0x800007FF, 0x0, 0x0, 0x0, 0x0, 0x800007FF, 0xFFFFFFFF, 63⟩ -- LNK_TINT
  ]

/-- Registers of LNK. -/
def regRowsLNK : List RegRow := regRowsLNK0 ++ regRowsLNK1

/-- Registers of MSH. -/
def regRowsMSH : List RegRow := [
  ⟨0x0, 0x4, 1, 0x7F403000, 0xFFFFF000, 0x0, 0x0, 0x0, 0x0, 0xFFFFF000, 0x0, 23⟩, -- MSH_CTRL
  ⟨0x4, 0x4, 1, 0x0, 0xFFF00000, 0x0, 0x0, 0x0, 0x0, 0xFFF00000, 0x0, 23⟩, -- MSH_DFLT
  ⟨0x8, 0x4, 1, 0x3, 0x3F, 0x0, 0x0, 0x0, 0x0, 0x3F, 0x0, 23⟩, -- MSH_BCOUT
  ⟨0xC, 0x4, 1, 0x660066, 0xFFF0FFF, 0x0, 0x0, 0x0, 0x0, 0xFFF0FFF, 0x0, 23⟩, -- MSH_FRAG
  ⟨0x10, 0x4, 1, 0x1000040, 0xFFFF00FF, 0x0, 0x0, 0x0, 0x0, 0xFFFF00FF, 0x0, 23⟩, -- MSH_REASM
  ⟨0x14, 0x4, 1, 0x0, 0x0, 0x0, 0x0, 0x0, 0x0, 0x0, 0x0, 23⟩, -- MSH_REASMSTAT
  ⟨0x18, 0x4, 1, 0x0, 0x0, 0x3F, 0x0, 0x0, 0x0, 0x0, 0x0, 23⟩, -- MSH_EVT
  ⟨0x1C, 0x4, 1, 0x0, 0x3F, 0x0, 0x0, 0x0, 0x0, 0x3F, 0x0, 23⟩, -- MSH_IEN
  ⟨0x20, 0x4, 1, 0x0, 0xFFFFFFFF, 0x0, 0x0, 0x0, 0x0, 0x0, 0x0, 23⟩, -- MSH_FWDCNT
  ⟨0x24, 0x4, 1, 0x0, 0xFFFFFFFF, 0x0, 0x0, 0x0, 0x0, 0x0, 0x0, 23⟩, -- MSH_LOCALCNT
  ⟨0x28, 0x4, 1, 0x0, 0xFFFFFFFF, 0x0, 0x0, 0x0, 0x0, 0x0, 0x0, 23⟩, -- MSH_DROPCNT0
  ⟨0x2C, 0x4, 1, 0x0, 0xFFFFFFFF, 0x0, 0x0, 0x0, 0x0, 0x0, 0x0, 23⟩, -- MSH_DROPCNT1
  ⟨0x30, 0x4, 1, 0x0, 0xFFFFFFFF, 0x0, 0x0, 0x0, 0x0, 0x0, 0x0, 23⟩, -- MSH_DROPCNT2
  ⟨0x34, 0x4, 1, 0x0, 0xFFFFFFFF, 0x0, 0x0, 0x0, 0x0, 0x0, 0x0, 23⟩, -- MSH_DROPCNT3
  ⟨0x40, 0x4, 8, 0x0, 0x77777777, 0x0, 0x0, 0x0, 0x0, 0x77777777, 0x0, 23⟩, -- MSH_TCMAP
  ⟨0x80, 0x8, 8, 0x0, 0x3F3F3F3F, 0x0, 0x0, 0x0, 0x0, 0x3F3F3F3F, 0x0, 23⟩, -- MSH_OQL
  ⟨0x84, 0x8, 8, 0x0, 0x3F3F3F3F, 0x0, 0x0, 0x0, 0x0, 0x3F3F3F3F, 0x0, 23⟩, -- MSH_OQH
  ⟨0x100, 0x4, 8, 0x0, 0x0, 0xFFFFFFFF, 0x0, 0x0, 0x0, 0x0, 0x0, 23⟩, -- MSH_DOWN
  ⟨0x400, 0x4, 256, 0x0, 0x8000007F, 0x0, 0x0, 0x0, 0x0, 0x8000007F, 0x0, 23⟩ -- MSH_MCAST
  ]

/-- Registers of QSC. -/
def regRowsQSC : List RegRow := [
  ⟨0x0, 0x4, 1, 0x0, 0x80000000, 0x0, 0x0, 0x0, 0x0, 0x80000000, 0x0, 23⟩, -- QSC_CTRL
  ⟨0x4, 0x4, 1, 0x1004000, 0x0, 0x0, 0x0, 0x0, 0x0, 0x0, 0x0, 23⟩, -- QSC_FREE
  ⟨0x8, 0x4, 1, 0xFF, 0xFF, 0x0, 0x0, 0x0, 0x0, 0xFF, 0x0, 23⟩, -- QSC_PBEN
  ⟨0xC, 0x4, 1, 0x0, 0x0, 0x0, 0x0, 0x0, 0x0, 0x0, 0x0, 23⟩, -- QSC_PBUSE
  ⟨0x10, 0x4, 1, 0x0, 0x0, 0x3F, 0x0, 0x0, 0x0, 0x0, 0x0, 23⟩, -- QSC_EVT
  ⟨0x14, 0x4, 1, 0x0, 0x3F, 0x0, 0x0, 0x0, 0x0, 0x3F, 0x0, 23⟩, -- QSC_IEN
  ⟨0x18, 0x4, 1, 0x0, 0x0, 0x0, 0x0, 0xFFFFFFFF, 0x0, 0xFFFFFFFF, 0x0, 23⟩, -- QSC_OWNL
  ⟨0x1C, 0x4, 1, 0x0, 0x0, 0x0, 0x0, 0xFFFFFFFF, 0x0, 0xFFFFFFFF, 0x0, 23⟩, -- QSC_OWNH
  ⟨0x20, 0x4, 1, 0x0, 0x0, 0x0, 0x0, 0xFFFFFFFF, 0x0, 0xFFFFFFFF, 0x0, 23⟩, -- QSC_POLOWN
  ⟨0x24, 0x4, 1, 0x0, 0x0, 0x0, 0x0, 0x0, 0x0, 0x0, 0x0, 23⟩, -- QSC_SAMPABN
  ⟨0x30, 0x4, 1, 0x0, 0xFFFFFFFF, 0x0, 0x0, 0x0, 0x0, 0x0, 0x0, 23⟩, -- QSC_DROPCNT0
  ⟨0x34, 0x4, 1, 0x0, 0xFFFFFFFF, 0x0, 0x0, 0x0, 0x0, 0x0, 0x0, 23⟩, -- QSC_DROPCNT1
  ⟨0x38, 0x4, 1, 0x0, 0xFFFFFFFF, 0x0, 0x0, 0x0, 0x0, 0x0, 0x0, 23⟩, -- QSC_DROPCNT2
  ⟨0x3C, 0x4, 1, 0x0, 0xFFFF, 0x0, 0x0, 0x0, 0x0, 0x0, 0x0, 23⟩, -- QSC_DROPCNT3
  ⟨0x40, 0x4, 8, 0x20, 0x7FFF, 0x0, 0x0, 0x0, 0x0, 0x7FFF, 0x0, 23⟩, -- QSC_RSV
  ⟨0x60, 0x4, 8, 0x0, 0x0, 0x0, 0x0, 0x0, 0x0, 0x0, 0x0, 23⟩, -- QSC_VTIME
  ⟨0x1000, 0x40, 64, 0x0, 0xA700005F, 0x0, 0x0, 0x0, 0x40000000, 0x27000000, 0x0, 23⟩, -- QSC_QCFG
  ⟨0x1004, 0x40, 64, 0x1, 0xFFFF, 0x0, 0x0, 0x0, 0x0, 0x0, 0x0, 23⟩, -- QSC_WEIGHT
  ⟨0x1008, 0x40, 64, 0x0, 0x3FFFFF, 0x0, 0x0, 0x0, 0x0, 0x0, 0x0, 23⟩, -- QSC_RATE
  ⟨0x100C, 0x40, 64, 0x10000, 0x1FFFFF, 0x0, 0x0, 0x0, 0x0, 0x0, 0x0, 23⟩, -- QSC_BURST
  ⟨0x1010, 0x40, 64, 0x400000, 0x7FFFFF, 0x0, 0x0, 0x0, 0x0, 0x0, 0x0, 23⟩, -- QSC_QBYTES
  ⟨0x1014, 0x40, 64, 0x4000, 0x7FFF, 0x0, 0x0, 0x0, 0x0, 0x0, 0x0, 23⟩, -- QSC_QPKTS
  ⟨0x1018, 0x40, 64, 0x0, 0x0, 0x0, 0x0, 0x0, 0x0, 0x0, 0x0, 23⟩, -- QSC_DEPTH
  ⟨0x101C, 0x40, 64, 0x0, 0x0, 0x0, 0x0, 0x0, 0x0, 0x0, 0x0, 23⟩, -- QSC_QSTAT
  ⟨0x1020, 0x40, 64, 0x0, 0x0, 0x0, 0x0, 0x0, 0x0, 0x0, 0x0, 23⟩, -- QSC_TOKEN
  ⟨0x1024, 0x40, 64, 0x0, 0x0, 0x0, 0x0, 0x0, 0x0, 0x0, 0x0, 23⟩, -- QSC_SAMPB
  ⟨0x1028, 0x40, 64, 0x0, 0x0, 0x0, 0x0, 0x0, 0x0, 0x0, 0x0, 23⟩, -- QSC_SAMPP
  ⟨0x102C, 0x40, 64, 0x0, 0x0, 0x0, 0x0, 0x0, 0x0, 0x0, 0x0, 23⟩, -- QSC_SOJ
  ⟨0x1030, 0x40, 64, 0x0, 0x7FFFFF, 0x0, 0x0, 0x0, 0x0, 0x0, 0x0, 23⟩, -- QSC_PEAK
  ⟨0x1034, 0x40, 64, 0x0, 0xFFFFFFFF, 0x0, 0x0, 0x0, 0x0, 0x0, 0x0, 23⟩, -- QSC_ENQCNT
  ⟨0x1038, 0x40, 64, 0x0, 0xFFFFFFFF, 0x0, 0x0, 0x0, 0x0, 0x0, 0x0, 23⟩, -- QSC_DEQCNT
  ⟨0x103C, 0x40, 64, 0x0, 0xFFFFFFFF, 0x0, 0x0, 0x0, 0x0, 0x0, 0x0, 23⟩, -- QSC_DROP
  ⟨0x2000, 0x20, 32, 0x0, 0xC0000000, 0x0, 0x0, 0x0, 0x0, 0x0, 0x0, 23⟩, -- QSC_POLCFG
  ⟨0x2004, 0x20, 32, 0x1, 0x3FFFFF, 0x0, 0x0, 0x0, 0x0, 0x0, 0x0, 23⟩, -- QSC_POLCIR
  ⟨0x2008, 0x20, 32, 0x800, 0x1FFFFF, 0x0, 0x0, 0x0, 0x0, 0x0, 0x0, 23⟩, -- QSC_POLCBS
  ⟨0x200C, 0x20, 32, 0x0, 0x1FFFFF, 0x0, 0x0, 0x0, 0x0, 0x0, 0x0, 23⟩, -- QSC_POLEBS
  ⟨0x2010, 0x20, 32, 0x0, 0xFFFFFFFF, 0x0, 0x0, 0x0, 0x0, 0x0, 0x0, 23⟩, -- QSC_POLGRN
  ⟨0x2014, 0x20, 32, 0x0, 0xFFFFFFFF, 0x0, 0x0, 0x0, 0x0, 0x0, 0x0, 23⟩, -- QSC_POLYEL
  ⟨0x2018, 0x20, 32, 0x0, 0xFFFFFFFF, 0x0, 0x0, 0x0, 0x0, 0x0, 0x0, 23⟩ -- QSC_POLRED
  ]

/-- Registers of TSU, part 0. -/
def regRowsTSU0 : List RegRow := [
  ⟨0x0, 0x4, 1, 0x0, 0x1, 0x0, 0x0, 0x0, 0x0, 0x1, 0x0, 28⟩, -- TSU_CTRL
  ⟨0x4, 0x4, 1, 0x87, 0x0, 0x0, 0x0, 0x0, 0x0, 0x0, 0x11, 28⟩, -- TSU_STAT
  ⟨0x8, 0x4, 1, 0x0, 0x0, 0x7F, 0x0, 0x0, 0x0, 0x0, 0x0, 28⟩, -- TSU_EVT
  ⟨0xC, 0x4, 1, 0x0, 0x7F, 0x0, 0x0, 0x0, 0x0, 0x7F, 0x0, 28⟩, -- TSU_IEN
  ⟨0x10, 0x4, 1, 0x0, 0x0, 0x0, 0x0, 0x0, 0xF, 0xF, 0x0, 28⟩, -- TSU_SNAP
  ⟨0x14, 0x4, 1, 0xA7898032, 0xF7FFF0FF, 0x0, 0x0, 0x0, 0x0, 0xF7FFF0FF, 0x0, 28⟩, -- TSU_SERVO
  ⟨0x18, 0x4, 1, 0x0, 0x0, 0x0, 0x0, 0x0, 0x0, 0x0, 0x0, 28⟩, -- TSU_PHASE
  ⟨0x1C, 0x4, 1, 0x0, 0x0, 0x0, 0x0, 0x0, 0x0, 0x0, 0x0, 28⟩, -- TSU_LASTOFS
  ⟨0x20, 0x4, 1, 0x0, 0xFFFFFFFF, 0x0, 0x0, 0x0, 0x0, 0x0, 0x0, 28⟩, -- TSU_OFSCNT
  ⟨0x24, 0x4, 1, 0x10064, 0x3FFFF, 0x0, 0x0, 0x0, 0x0, 0x3FFFF, 0xFFFFFFFF, 63⟩, -- TSU_SLPCFG
  ⟨0x28, 0x4, 1, 0x77359400, 0x0, 0x0, 0x0, 0x0, 0x0, 0x0, 0xFFFFFFFF, 63⟩, -- TSU_SLCAL
  ⟨0x2C, 0x4, 1, 0x1388, 0x0, 0x0, 0x0, 0x0, 0x0, 0x0, 0xFFFFFFFF, 63⟩, -- TSU_SLUNC
  ⟨0x30, 0x4, 1, 0x0, 0x0, 0x0, 0x0, 0x0, 0x0, 0x0, 0xFFFFFFFF, 63⟩, -- TSU_SLPTICKLO
  ⟨0x34, 0x4, 1, 0x0, 0x0, 0x0, 0x0, 0x0, 0x0, 0x0, 0xFFFFFFFF, 63⟩, -- TSU_SLPTICKHI
  ⟨0x38, 0x4, 1, 0x0, 0x0, 0x0, 0x0, 0x0, 0x0, 0x0, 0xFFFFFFFF, 63⟩, -- TSU_SLPERR
  ⟨0x3C, 0x4, 1, 0x0, 0x0, 0x0, 0x0, 0x0, 0x0, 0x0, 0xFFFFFFFF, 63⟩, -- TSU_HOLDERR
  ⟨0x40, 0x4, 1, 0x64, 0xFFFF, 0x0, 0x0, 0x0, 0x0, 0xFFFF, 0x0, 28⟩, -- TSU_LTOL
  ⟨0x44, 0x4, 1, 0x0, 0xFFFF, 0x0, 0x0, 0x0, 0x0, 0x0, 0x0, 28⟩, -- TSU_LATECNT
  ⟨0x48, 0x4, 2, 0x0, 0xFFFFFFFF, 0x0, 0x0, 0x0, 0x0, 0xFFFFFFFF, 0x0, 28⟩, -- TSU_RFDLY
  ⟨0x50, 0x4, 1, 0x0, 0xFFFFFFFF, 0x0, 0x0, 0x0, 0x0, 0xFFFFFFFF, 0x0, 28⟩, -- TSU_ETHDLY
  ⟨0x100, 0x40, 4, 0x0, 0x0, 0x0, 0x0, 0x0, 0x0, 0x0, 0x0, 28⟩, -- TSU_TBFRAC
  ⟨0x104, 0x40, 4, 0x0, 0x0, 0x0, 0x0, 0x0, 0x0, 0x0, 0x0, 28⟩, -- TSU_TBNS
  ⟨0x108, 0x40, 4, 0x0, 0x0, 0x0, 0x0, 0x0, 0x0, 0x0, 0x0, 28⟩, -- TSU_TBSECLO
  ⟨0x10C, 0x40, 4, 0x0, 0x0, 0x0, 0x0, 0x0, 0x0, 0x0, 0x0, 28⟩, -- TSU_TBSECHI
  ⟨0x110, 0x40, 2, 0x0, 0xFFFFFFFF, 0x0, 0x0, 0x0, 0x0, 0xFFFFFFFF, 0x0, 28⟩, -- TSU_RATE
  ⟨0x190, 0x40, 1, 0x0, 0xFFFFFFFF, 0x0, 0x0, 0x0, 0x0, 0x0, 0x0, 28⟩, -- TSU_RATE (TB2)
  ⟨0x1D0, 0x40, 1, 0x0, 0x0, 0x0, 0x0, 0x0, 0x0, 0x0, 0x0, 28⟩, -- TSU_RATE (TB3)
  ⟨0x114, 0x40, 4, 0x0, 0x0, 0x0, 0x0, 0x0, 0x0, 0x0, 0x0, 28⟩, -- TSU_SNAPNS
  ⟨0x118, 0x40, 4, 0x0, 0x0, 0x0, 0x0, 0x0, 0x0, 0x0, 0x0, 28⟩, -- TSU_SNAPSECLO
  ⟨0x11C, 0x40, 4, 0x0, 0x0, 0x0, 0x0, 0x0, 0x0, 0x0, 0x0, 28⟩, -- TSU_SNAPX
  ⟨0x120, 0x40, 2, 0x0, 0xFFFFFFFF, 0x0, 0x0, 0x0, 0x0, 0xFFFFFFFF, 0x0, 28⟩, -- TSU_STEPNS
  ⟨0x1A0, 0x40, 1, 0x0, 0xFFFFFFFF, 0x0, 0x0, 0x0, 0x0, 0x0, 0x0, 28⟩, -- TSU_STEPNS (TB2)
  ⟨0x124, 0x40, 2, 0x0, 0xFFFFFFFF, 0x0, 0x0, 0x0, 0x0, 0xFFFFFFFF, 0x0, 28⟩, -- TSU_STEPSECLO
  ⟨0x1A4, 0x40, 1, 0x0, 0xFFFFFFFF, 0x0, 0x0, 0x0, 0x0, 0x0, 0x0, 28⟩, -- TSU_STEPSECLO (TB2)
  ⟨0x128, 0x40, 2, 0x0, 0xFFFFFFFF, 0x0, 0x0, 0x0, 0x0, 0xFFFFFFFF, 0x0, 28⟩, -- TSU_STEPX
  ⟨0x1A8, 0x40, 1, 0x0, 0xFFFFFFFF, 0x0, 0x0, 0x0, 0x0, 0x0, 0x0, 28⟩, -- TSU_STEPX (TB2)
  ⟨0x12C, 0x40, 2, 0x0, 0x0, 0x0, 0x0, 0x0, 0xFFFF000F, 0xFFFF000F, 0x0, 28⟩, -- TSU_STEPCMD
  ⟨0x1AC, 0x40, 1, 0x0, 0x0, 0x0, 0x0, 0x0, 0xFFFF000F, 0x0, 0x0, 28⟩, -- TSU_STEPCMD (TB2)
  ⟨0x1EC, 0x40, 1, 0x0, 0x0, 0x0, 0x0, 0x0, 0xFFFF000F, 0xFFFF000F, 0x0, 28⟩, -- TSU_STEPCMD (TB3: every step request is refused, R261)
  ⟨0x400, 0x8, 16, 0x0, 0x0, 0x0, 0x0, 0x0, 0x0, 0x0, 0x0, 28⟩, -- TSU_RXST0
  ⟨0x404, 0x8, 16, 0x0, 0x0, 0x0, 0x0, 0x0, 0x0, 0x0, 0x0, 28⟩ -- TSU_RXST1
  ]

/-- Registers of TSU, part 1. -/
def regRowsTSU1 : List RegRow := [
  ⟨0x480, 0x8, 8, 0x0, 0x0, 0x0, 0x0, 0x0, 0x0, 0x0, 0x0, 28⟩, -- TSU_TXST0
  ⟨0x484, 0x8, 8, 0x0, 0x0, 0x0, 0x0, 0x0, 0x0, 0x0, 0x0, 28⟩, -- TSU_TXST1
  ⟨0x4C0, 0x4, 1, 0x0, 0x0, 0x0, 0x0, 0x0, 0x0, 0x0, 0x0, 28⟩, -- TSU_ETHRXST0
  ⟨0x4C4, 0x4, 1, 0x0, 0x0, 0x0, 0x0, 0x0, 0x0, 0x0, 0x0, 28⟩, -- TSU_ETHRXST1
  ⟨0x4C8, 0x4, 1, 0x0, 0x0, 0x0, 0x0, 0x0, 0x0, 0x0, 0x0, 28⟩, -- TSU_ETHTXST0
  ⟨0x4CC, 0x4, 1, 0x0, 0x0, 0x0, 0x0, 0x0, 0x0, 0x0, 0x0, 28⟩ -- TSU_ETHTXST1
  ]

/-- Registers of TSU. -/
def regRowsTSU : List RegRow := regRowsTSU0 ++ regRowsTSU1

/-- Registers of AES. -/
def regRowsAES : List RegRow := [
  ⟨0x0, 0x4, 1, 0x0, 0x0, 0x0, 0x0, 0x0, 0x0, 0x0, 0x0, 24⟩, -- AES_STAT
  ⟨0x4, 0x4, 1, 0x0, 0x0, 0x7, 0x0, 0x0, 0x0, 0x0, 0x0, 24⟩, -- AES_EVT
  ⟨0x8, 0x4, 1, 0x0, 0xF, 0x0, 0x0, 0x0, 0x0, 0xF, 0x0, 24⟩, -- AES_IEN
  ⟨0xC, 0x4, 1, 0x0, 0x0, 0x0, 0x0, 0xFFFFFFFF, 0x0, 0xFFFFFFFF, 0x0, 24⟩, -- AES_OWNL
  ⟨0x10, 0x4, 1, 0x0, 0x0, 0x0, 0x0, 0xFFFFFFFF, 0x0, 0xFFFFFFFF, 0x0, 24⟩, -- AES_OWNH
  ⟨0x14, 0x4, 1, 0x0, 0x0, 0xFFFFFFFF, 0x0, 0x0, 0x0, 0x0, 0x0, 24⟩, -- AES_DONEL
  ⟨0x18, 0x4, 1, 0x0, 0x0, 0xFFFFFFFF, 0x0, 0x0, 0x0, 0x0, 0x0, 24⟩, -- AES_DONEH
  ⟨0x100, 0x20, 64, 0x0, 0xFFFFFC00, 0x0, 0x0, 0x0, 0x0, 0x0, 0x0, 24⟩, -- AES_CFG
  ⟨0x104, 0x20, 64, 0x0, 0xFFFFFFFF, 0x0, 0x0, 0x0, 0x0, 0x0, 0x0, 24⟩, -- AES_SRC
  ⟨0x108, 0x20, 64, 0x0, 0xFFFFFFFF, 0x0, 0x0, 0x0, 0x0, 0x0, 0x0, 24⟩, -- AES_DST
  ⟨0x10C, 0x20, 64, 0x0, 0xFFFFFFFF, 0x0, 0x0, 0x0, 0x0, 0x0, 0x0, 24⟩, -- AES_LEN
  ⟨0x110, 0x20, 64, 0x0, 0x0, 0x0, 0x0, 0x0, 0xF1, 0x0, 0x0, 24⟩, -- AES_CMD
  ⟨0x114, 0x20, 64, 0x0, 0x0, 0x0, 0x0, 0x0, 0x0, 0x0, 0x0, 24⟩, -- AES_STATn
  ⟨0x1000, 0x4, 2048, 0x0, 0xFFFFFFFF, 0x0, 0x0, 0x0, 0x0, 0x0, 0x0, 24⟩ -- AES_CTX
  ]

/-- Registers of PKA. -/
def regRowsPKA : List RegRow := [
  ⟨0x0, 0x4, 1, 0x0, 0x0, 0x3, 0x0, 0x0, 0x0, 0x0, 0x0, 24⟩, -- PKA_EVT
  ⟨0x4, 0x4, 1, 0x0, 0x3, 0x0, 0x0, 0x0, 0x0, 0x3, 0x0, 24⟩, -- PKA_IEN
  ⟨0x8, 0x4, 1, 0x0, 0x0, 0x0, 0x0, 0x0, 0x0, 0x0, 0x0, 24⟩, -- PKA_ATTLEFT
  ⟨0x100, 0x40, 1, 0x0, 0x0, 0x0, 0x0, 0x0, 0xCF, 0xCF, 0x0, 24⟩, -- PKA_OP (c 0)
  ⟨0x140, 0x40, 1, 0x0, 0x0, 0x0, 0x0, 0x0, 0xCF, 0x0, 0x0, 24⟩, -- PKA_OP (c 1)
  ⟨0x104, 0x40, 1, 0x0, 0xFFFFFFFF, 0x0, 0x0, 0x0, 0x0, 0xFFFFFFFF, 0x0, 24⟩, -- PKA_SRC (c 0)
  ⟨0x144, 0x40, 1, 0x0, 0xFFFFFFFF, 0x0, 0x0, 0x0, 0x0, 0x0, 0x0, 24⟩, -- PKA_SRC (c 1)
  ⟨0x108, 0x40, 1, 0x0, 0xFFFFFF, 0x0, 0x0, 0x0, 0x0, 0xFFFFFF, 0x0, 24⟩, -- PKA_LEN (c 0)
  ⟨0x148, 0x40, 1, 0x0, 0xFFFFFF, 0x0, 0x0, 0x0, 0x0, 0x0, 0x0, 24⟩, -- PKA_LEN (c 1)
  ⟨0x10C, 0x40, 1, 0x0, 0xFFFFFFFF, 0x0, 0x0, 0x0, 0x0, 0xFFFFFFFF, 0x0, 24⟩, -- PKA_KEY (c 0)
  ⟨0x14C, 0x40, 1, 0x0, 0xFFFFFFFF, 0x0, 0x0, 0x0, 0x0, 0x0, 0x0, 24⟩, -- PKA_KEY (c 1)
  ⟨0x110, 0x40, 1, 0x0, 0xFFFFFFFF, 0x0, 0x0, 0x0, 0x0, 0xFFFFFFFF, 0x0, 24⟩, -- PKA_SIG (c 0)
  ⟨0x150, 0x40, 1, 0x0, 0xFFFFFFFF, 0x0, 0x0, 0x0, 0x0, 0x0, 0x0, 24⟩, -- PKA_SIG (c 1)
  ⟨0x114, 0x40, 1, 0x0, 0xFFFFFFFF, 0x0, 0x0, 0x0, 0x0, 0xFFFFFFFF, 0x0, 24⟩, -- PKA_DST (c 0)
  ⟨0x154, 0x40, 1, 0x0, 0xFFFFFFFF, 0x0, 0x0, 0x0, 0x0, 0x0, 0x0, 24⟩, -- PKA_DST (c 1)
  ⟨0x118, 0x40, 1, 0x0, 0x0, 0x0, 0x0, 0x0, 0x0, 0x0, 0x0, 24⟩, -- PKA_STAT (c 0)
  ⟨0x158, 0x40, 1, 0x0, 0x0, 0x0, 0x0, 0x0, 0x0, 0x0, 0x0, 24⟩ -- PKA_STAT (c 1)
  ]

/-- Registers of KEY. -/
def regRowsKEY : List RegRow := [
  ⟨0x0, 0x4, 1, 0x0, 0x0, 0x0, 0x0, 0x0, 0x0, 0x0, 0x0, 24⟩, -- KEY_LC
  ⟨0x4, 0x4, 1, 0x0, 0x0, 0x0, 0x0, 0x0, 0xFFFF0003, 0xFFFF0003, 0x0, 24⟩, -- KEY_LCCMD
  ⟨0x8, 0x4, 1, 0x0, 0x0, 0x0, 0x0, 0x0, 0xF00FFFF, 0xF00FFFF, 0x0, 24⟩, -- KEY_CMD
  ⟨0xC, 0x4, 1, 0x0, 0x0, 0x0, 0x0, 0x0, 0x0, 0x0, 0x0, 24⟩, -- KEY_STAT
  ⟨0x10, 0x4, 1, 0x0, 0x2F0001FF, 0x0, 0x0, 0x0, 0x0, 0x2F0001FF, 0x0, 24⟩, -- KEY_ATTRIN
  ⟨0x14, 0x4, 1, 0x0, 0xFFFFFFFF, 0x0, 0x0, 0x0, 0x0, 0xFFFFFFFF, 0x0, 24⟩, -- KEY_LIMITIN
  ⟨0x18, 0x4, 1, 0x0, 0xFFFFFFFF, 0x0, 0x0, 0x0, 0x0, 0xFFFFFFFF, 0x0, 24⟩, -- KEY_ADDR
  ⟨0x1C, 0x4, 1, 0x0, 0x0, 0x3F, 0x0, 0x0, 0x0, 0x0, 0x0, 24⟩, -- KEY_EVT
  ⟨0x20, 0x4, 1, 0x0, 0x3F, 0x0, 0x0, 0x0, 0x0, 0x3F, 0x0, 24⟩, -- KEY_IEN
  ⟨0x24, 0x4, 1, 0x0, 0x0, 0x0, 0x0, 0x0, 0x0, 0x0, 0x0, 24⟩, -- KEY_RNG
  ⟨0x28, 0x4, 1, 0x0, 0x0, 0x0, 0x0, 0x0, 0x0, 0x0, 0x0, 24⟩, -- KEY_RNGSTAT
  ⟨0x2C, 0x4, 1, 0x0, 0x0, 0x0, 0x0, 0x0, 0x1, 0x1, 0x0, 24⟩, -- KEY_RNGCTL
  ⟨0x30, 0x4, 1, 0x0, 0x80007FFF, 0x0, 0x0, 0x0, 0x0, 0x80007FFF, 0xFFFFFFFF, 63⟩, -- KEY_CTRL
  ⟨0x34, 0x4, 1, 0x0, 0x0, 0x0, 0x0, 0x0, 0x0, 0x0, 0xFFFFFFFF, 63⟩, -- KEY_PARKCNT
  ⟨0x38, 0x4, 1, 0x0, 0x0, 0x0, 0x0, 0x0, 0x0, 0x0, 0xFFFFFFFF, 63⟩, -- KEY_ATTNEXT
  ⟨0x40, 0x4, 12, 0x0, 0x0, 0x0, 0x0, 0x0, 0xFFFFFFFF, 0xFFFFFFFF, 0x0, 24⟩, -- KEY_DATA
  ⟨0x80, 0x4, 24, 0x0, 0xFFFFFFFF, 0x0, 0x0, 0x0, 0x0, 0xFFFFFFFF, 0x0, 24⟩, -- KEY_ROOT
  ⟨0xE0, 0x4, 4, 0x0, 0x0, 0x0, 0x0, 0x0, 0x0, 0x0, 0x0, 24⟩, -- KEY_DBGCHAL
  ⟨0x1000, 0x10, 256, 0x0, 0x0, 0x0, 0x0, 0x0, 0x0, 0x0, 0x0, 24⟩, -- KEY_SATTR
  ⟨0x1004, 0x10, 256, 0x0, 0x0, 0x0, 0x0, 0x0, 0x0, 0x0, 0x0, 24⟩, -- KEY_SUSE
  ⟨0x1008, 0x10, 256, 0x0, 0x0, 0x0, 0x0, 0x0, 0x0, 0x0, 0x0, 24⟩ -- KEY_SLIMIT
  ]

/-- Registers of UPD. -/
def regRowsUPD : List RegRow := [
  ⟨0x0, 0x4, 1, 0x0, 0x0, 0x0, 0x0, 0x0, 0x0, 0x0, 0x7000007F, 24⟩, -- UPD_STAT
  ⟨0x4, 0x4, 1, 0x0, 0x0, 0x0, 0x0, 0x0, 0xFFFF000F, 0xFFFF000F, 0x0, 24⟩, -- UPD_CMD
  ⟨0x8, 0x4, 1, 0x0, 0x0, 0x0, 0x0, 0x0, 0x0, 0x0, 0x0, 24⟩, -- UPD_RESULT
  ⟨0xC, 0x4, 1, 0x0, 0x0, 0x7F, 0x0, 0x0, 0x0, 0x0, 0x0, 24⟩, -- UPD_EVT
  ⟨0x10, 0x4, 1, 0x0, 0x7F, 0x0, 0x0, 0x0, 0x0, 0x7F, 0x0, 24⟩, -- UPD_IEN
  ⟨0x14, 0x4, 1, 0x0, 0x0, 0x0, 0x0, 0x0, 0x0, 0x0, 0x0, 24⟩, -- UPD_SECVER
  ⟨0x18, 0x4, 1, 0x0, 0xFFFFFFFF, 0x0, 0x0, 0x0, 0x0, 0xFFFFFFFF, 0x0, 24⟩, -- UPD_BUNDLE
  ⟨0x1C, 0x4, 1, 0x0, 0x3FFF, 0x0, 0x0, 0x0, 0x0, 0x3FFF, 0x0, 24⟩, -- UPD_MTOTAL
  ⟨0x20, 0x4, 1, 0x0, 0x3FFF, 0x0, 0x0, 0x0, 0x0, 0x3FFF, 0x0, 24⟩, -- UPD_MORSEL
  ⟨0x24, 0x4, 1, 0x0, 0xFFFFFFFF, 0x0, 0x0, 0x0, 0x0, 0xFFFFFFFF, 0x0, 24⟩, -- UPD_MADDR
  ⟨0x28, 0x4, 1, 0x0, 0x0, 0x0, 0x0, 0x0, 0x0, 0x0, 0x0, 24⟩, -- UPD_MCOUNT
  ⟨0x2C, 0x4, 1, 0x0, 0xFFFFFFFF, 0x0, 0x0, 0x0, 0x0, 0xFFFFFFFF, 0xFFFFFFFF, 24⟩, -- UPD_ACTLO
  ⟨0x30, 0x4, 1, 0x0, 0xFF, 0x0, 0x0, 0x0, 0x0, 0xFF, 0xFF, 24⟩, -- UPD_ACTHI
  ⟨0x34, 0x4, 1, 0x0, 0xFF001FFF, 0x0, 0x0, 0x0, 0x0, 0xFF001FFF, 0x0, 24⟩, -- UPD_SETCTL
  ⟨0x38, 0x4, 1, 0x0, 0x0, 0x0, 0x0, 0x0, 0x0, 0x0, 0x0, 24⟩, -- UPD_BOOT
  ⟨0x3C, 0x4, 1, 0x0, 0x0, 0x0, 0x0, 0x0, 0xFFFF0001, 0xFFFF0001, 0x0, 24⟩, -- UPD_COMMIT
  ⟨0x80, 0x4, 16, 0x0, 0x0, 0x0, 0x0, 0xFFFFFFFC, 0x0, 0xFFFFFFFC, 0x0, 24⟩ -- UPD_ENTRY
  ]

/-- Registers of JRN. -/
def regRowsJRN : List RegRow := [
  ⟨0x0, 0x4, 1, 0x0, 0x0, 0x0, 0x0, 0x0, 0x0, 0x0, 0xFFFFFFFF, 63⟩, -- JRN_STAT
  ⟨0x4, 0x4, 1, 0x0, 0x0, 0x0, 0x0, 0xFFFFFFFF, 0x0, 0xFFFFFFFF, 0xFFFFFFFF, 63⟩, -- JRN_HEAD
  ⟨0x8, 0x4, 1, 0x0, 0x0, 0x0, 0x0, 0xFFFFFFFF, 0x0, 0xFFFFFFFF, 0xFFFFFFFF, 63⟩, -- JRN_MIRHEAD
  ⟨0xC, 0x4, 1, 0x80000000, 0x80000000, 0x0, 0x0, 0x0, 0x0, 0x80000000, 0xFFFFFFFF, 63⟩, -- JRN_CTRL
  ⟨0x10, 0x4, 1, 0x0, 0x0, 0x3, 0x0, 0x0, 0x0, 0x0, 0x0, 28⟩, -- JRN_EVT
  ⟨0x14, 0x4, 1, 0x0, 0x3, 0x0, 0x0, 0x0, 0x0, 0x3, 0x0, 28⟩, -- JRN_IEN
  ⟨0x100, 0x20, 16, 0x0, 0xFFFFFF, 0x0, 0x0, 0x0, 0x0, 0xFFFFFF, 0x0, 28⟩, -- JRN_WCODE
  ⟨0x104, 0x20, 16, 0x0, 0xFFFFFFFF, 0x0, 0x0, 0x0, 0x0, 0xFFFFFFFF, 0x0, 28⟩, -- JRN_WRES
  ⟨0x108, 0x20, 16, 0x0, 0xFFFFFFFF, 0x0, 0x0, 0x0, 0x0, 0xFFFFFFFF, 0x0, 28⟩, -- JRN_WDIG0
  ⟨0x10C, 0x20, 16, 0x0, 0xFFFFFFFF, 0x0, 0x0, 0x0, 0x0, 0xFFFFFFFF, 0x0, 28⟩, -- JRN_WDIG1
  ⟨0x110, 0x20, 16, 0x0, 0xFFFFFFFF, 0x0, 0x0, 0x0, 0x0, 0xFFFFFFFF, 0x0, 28⟩, -- JRN_WDIG2
  ⟨0x114, 0x20, 16, 0x0, 0x0, 0x0, 0x0, 0x0, 0x0, 0x0, 0x0, 28⟩, -- JRN_GO
  ⟨0x118, 0x20, 16, 0x0, 0x0, 0x0, 0x0, 0x0, 0x0, 0x0, 0x0, 28⟩ -- JRN_LAST
  ]

/-- Registers of RTC. -/
def regRowsRTC : List RegRow := [
  ⟨0x0, 0x4, 1, 0x1, 0x0, 0x6, 0x0, 0x0, 0x0, 0x0, 0xFFFFFFFF, 62⟩, -- RTC_STAT
  ⟨0x4, 0x4, 1, 0x0, 0x0, 0x7, 0x0, 0x0, 0x0, 0x0, 0xFFFFFFFF, 62⟩, -- RTC_EVT
  ⟨0x8, 0x4, 1, 0x0, 0x1F, 0x0, 0x0, 0x0, 0x0, 0x1F, 0xFFFFFFFF, 62⟩, -- RTC_IEN
  ⟨0xC, 0x4, 1, 0x0, 0x0, 0x0, 0x0, 0x0, 0x0, 0x0, 0xFFFFFFFF, 62⟩, -- RTC_SUBSEC
  ⟨0x10, 0x4, 1, 0x0, 0x0, 0x0, 0x0, 0x0, 0x0, 0x0, 0xFFFFFFFF, 62⟩, -- RTC_TIME
  ⟨0x14, 0x4, 1, 0xC0000101, 0x0, 0x0, 0x0, 0x0, 0x0, 0x0, 0xFFFFFFFF, 62⟩, -- RTC_DATE
  ⟨0x18, 0x4, 1, 0x0, 0xFFFFFF, 0x0, 0x0, 0x0, 0x0, 0xFFFFFF, 0xFFFFFFFF, 62⟩, -- RTC_SETTIME
  ⟨0x1C, 0x4, 1, 0x101, 0x1FF00F1F, 0x0, 0x0, 0x0, 0x0, 0x1FF00F1F, 0xFFFFFFFF, 62⟩, -- RTC_SETDATE
  ⟨0x20, 0x4, 1, 0x0, 0x0, 0x0, 0x0, 0x0, 0xFFFF0001, 0xFFFF0001, 0xFFFFFFFF, 62⟩, -- RTC_CMD
  ⟨0x24, 0x4, 1, 0x0, 0x0, 0x0, 0x0, 0x0, 0xFFFF, 0xFFFF, 0xFFFFFFFF, 62⟩, -- RTC_SHIFT
  ⟨0x28, 0x4, 1, 0x0, 0x3FF, 0x0, 0x0, 0x0, 0x0, 0x3FF, 0xFFFFFFFF, 62⟩, -- RTC_TRIM
  ⟨0x30, 0x4, 1, 0x7000000, 0x87FFFFFF, 0x0, 0x0, 0x0, 0x0, 0x87FFFFFF, 0xFFFFFFFF, 62⟩, -- RTC_ALM0T
  ⟨0x34, 0x4, 1, 0xF0000, 0xFFFF0F1F, 0x0, 0x0, 0x0, 0x0, 0xFFFF0F1F, 0xFFFFFFFF, 62⟩, -- RTC_ALM0D
  ⟨0x38, 0x4, 1, 0x7000000, 0x87FFFFFF, 0x0, 0x0, 0x0, 0x0, 0x0, 0xFFFFFFFF, 62⟩, -- RTC_ALM1T
  ⟨0x3C, 0x4, 1, 0xF0000, 0xFFFF0F1F, 0x0, 0x0, 0x0, 0x0, 0x0, 0xFFFFFFFF, 62⟩ -- RTC_ALM1D
  ]

/-- Registers of TMR. -/
def regRowsTMR : List RegRow := [
  ⟨0x0, 0x4, 1, 0x0, 0x0, 0x0, 0x0, 0xFF, 0x0, 0xFF, 0x0, 28⟩, -- TMR_OWN
  ⟨0x4, 0x4, 1, 0x0, 0x0, 0xFFFFFF, 0x0, 0x0, 0x0, 0x0, 0x0, 28⟩, -- TMR_EVT
  ⟨0x8, 0x4, 1, 0x0, 0xFFFFFF, 0x0, 0x0, 0x0, 0x0, 0xFFFFFF, 0x0, 28⟩, -- TMR_IEN
  ⟨0x100, 0x40, 8, 0x0, 0x0, 0x0, 0x0, 0xF8FFFFDF, 0x0, 0xF8FFFFDF, 0x0, 28⟩, -- TMR_CFG
  ⟨0x104, 0x40, 8, 0x0, 0xC0000000, 0x0, 0x0, 0x0, 0x6, 0x0, 0x0, 28⟩, -- TMR_CTRL
  ⟨0x108, 0x40, 8, 0x0, 0x0, 0x60, 0x0, 0x0, 0x0, 0x0, 0x0, 28⟩, -- TMR_STAT
  ⟨0x10C, 0x40, 8, 0x0, 0xFFFFFFFF, 0x0, 0x0, 0x0, 0x0, 0x0, 0x0, 28⟩, -- TMR_CNT
  ⟨0x110, 0x40, 8, 0xFFFFFFFF, 0xFFFFFFFF, 0x0, 0x0, 0x0, 0x0, 0x0, 0x0, 28⟩, -- TMR_PERIOD
  ⟨0x114, 0x40, 8, 0xFFFFFFFF, 0xFFFFFFFF, 0x0, 0x0, 0x0, 0x0, 0x0, 0x0, 28⟩, -- TMR_CMP
  ⟨0x118, 0x40, 8, 0x0, 0x0, 0x0, 0x0, 0x0, 0x0, 0x0, 0x0, 28⟩, -- TMR_CAPR
  ⟨0x11C, 0x40, 8, 0x0, 0x0, 0x0, 0x0, 0x0, 0x0, 0x0, 0x0, 28⟩, -- TMR_CAPF
  ⟨0x120, 0x40, 8, 0x0, 0x0, 0x0, 0x0, 0x0, 0x0, 0x0, 0x0, 28⟩ -- TMR_WIDTH
  ]

/-- Registers of EVR. -/
def regRowsEVR : List RegRow := [
  ⟨0x0, 0x4, 1, 0x0, 0x0, 0x7, 0x0, 0x0, 0x0, 0x0, 0x0, 28⟩, -- EVR_EVT
  ⟨0x4, 0x4, 1, 0x0, 0xF, 0x0, 0x0, 0x0, 0x0, 0xF, 0x0, 28⟩, -- EVR_IEN
  ⟨0x8, 0x4, 1, 0x0, 0x0, 0x0, 0x0, 0x0, 0x0, 0x0, 0x0, 28⟩, -- EVR_CHECK
  ⟨0xC, 0x4, 1, 0x0, 0xFFFF, 0x0, 0x0, 0x0, 0x0, 0x0, 0x0, 28⟩, -- EVR_DROPCNT
  ⟨0x10, 0x4, 1, 0x0, 0xFFFF, 0x0, 0x0, 0x0, 0x0, 0x0, 0x0, 28⟩, -- EVR_COALCNT
  ⟨0x20, 0x4, 1, 0x0, 0x0, 0xFFFFFFFF, 0x0, 0x0, 0x0, 0x0, 0x0, 28⟩, -- EVR_FLAGL
  ⟨0x24, 0x4, 1, 0x0, 0x0, 0xFFFFFFFF, 0x0, 0x0, 0x0, 0x0, 0x0, 28⟩, -- EVR_FLAGH
  ⟨0x28, 0x4, 1, 0x0, 0xFFFFFFFF, 0x0, 0x0, 0x0, 0x0, 0x0, 0x0, 28⟩, -- EVR_FLAGENL
  ⟨0x2C, 0x4, 1, 0x0, 0xFFFFFFFF, 0x0, 0x0, 0x0, 0x0, 0x0, 0x0, 28⟩, -- EVR_FLAGENH
  ⟨0x30, 0x4, 1, 0x0, 0x0, 0x0, 0x0, 0x0, 0x0, 0x0, 0x0, 63⟩, -- EVR_HELDL
  ⟨0x34, 0x4, 1, 0x0, 0x0, 0x0, 0x0, 0x0, 0x0, 0x0, 0x0, 63⟩, -- EVR_HELDH
  ⟨0x40, 0x4, 8, 0x0, 0x0, 0xFFFFFFFF, 0x0, 0x0, 0x0, 0x0, 0x0, 28⟩, -- EVR_OVR
  ⟨0x100, 0x8, 64, 0x0, 0x0, 0x0, 0x0, 0xE0FF00FF, 0x0, 0xE0FF00FF, 0x0, 28⟩, -- EVR_CHCFG
  ⟨0x104, 0x8, 64, 0x0, 0x80000000, 0x0, 0x0, 0x0, 0x1, 0x0, 0x0, 28⟩, -- EVR_CHCTL
  ⟨0x400, 0x10, 16, 0x7E7E7E7E, 0x0, 0x0, 0x0, 0x7F7F7F7F, 0x0, 0x7F7F7F7F, 0x0, 28⟩, -- EVR_PCIN
  ⟨0x404, 0x10, 16, 0x0, 0x0, 0x0, 0x0, 0xC7000000, 0x0, 0xC7000000, 0x0, 28⟩, -- EVR_PCCFG
  ⟨0x408, 0x10, 16, 0x0, 0xFFFF, 0x0, 0x0, 0x0, 0x0, 0x0, 0x0, 28⟩, -- EVR_PCTAB
  ⟨0x40C, 0x10, 16, 0x0, 0x0, 0x0, 0x0, 0x0, 0x0, 0x0, 0x0, 28⟩ -- EVR_PCSTAT
  ]

/-- Registers of HIF. -/
def regRowsHIF : List RegRow := [
  ⟨0x0, 0x4, 1, 0xA00, 0xE3F0FF00, 0x0, 0x0, 0xF, 0x0, 0xE3F0FF0F, 0x0, 27⟩, -- HIF_CTRL
  ⟨0x4, 0x4, 1, 0x32, 0x0, 0x0, 0x0, 0x0, 0x0, 0x0, 0x0, 27⟩, -- HIF_STAT
  ⟨0x8, 0x4, 1, 0xD904, 0xFFFF, 0x0, 0x0, 0x0, 0x0, 0xFFFF, 0x0, 27⟩, -- HIF_BAUD
  ⟨0xC, 0x4, 1, 0x0, 0x0, 0x1F, 0x0, 0x0, 0x0, 0x0, 0x0, 27⟩, -- HIF_EVT
  ⟨0x10, 0x4, 1, 0x0, 0x1F, 0x0, 0x0, 0x0, 0x0, 0x1F, 0x0, 27⟩, -- HIF_IEN
  ⟨0x14, 0x4, 1, 0x0, 0x0, 0x0, 0x0, 0x0, 0x0, 0x0, 0x0, 27⟩, -- HIF_RXDATA
  ⟨0x18, 0x4, 1, 0x1, 0x0, 0x2, 0x0, 0x0, 0x80000000, 0x80000000, 0x0, 27⟩, -- HIF_RXSTAT
  ⟨0x1C, 0x4, 1, 0x0, 0x0, 0x0, 0x0, 0x0, 0xFFFFFFFF, 0x0, 0x0, 27⟩, -- HIF_TXDATA
  ⟨0x20, 0x4, 1, 0x0, 0x0, 0x1, 0x0, 0x0, 0x80000000, 0x80000000, 0x0, 27⟩, -- HIF_TXSTAT
  ⟨0x24, 0x4, 1, 0x0, 0xFFFFFFFF, 0x0, 0x0, 0x0, 0x0, 0x0, 0x0, 27⟩, -- HIF_ERRCNT
  ⟨0x28, 0x4, 1, 0x0, 0xFFFFFFFF, 0x0, 0x0, 0x0, 0x0, 0x0, 0x0, 27⟩, -- HIF_DROPCNT
  ⟨0x2C, 0x4, 1, 0x0, 0xFFFFFFFF, 0x0, 0x0, 0x0, 0x0, 0x0, 0x0, 27⟩ -- HIF_FRAMECNT
  ]

/-- Registers of ETH. -/
def regRowsETH : List RegRow := [
  ⟨0x0, 0x4, 1, 0x30000000, 0xF8000000, 0x0, 0x0, 0x0, 0x0, 0xF8000000, 0x0, 25⟩, -- ETH_CTRL
  ⟨0x4, 0x4, 1, 0x0, 0x0, 0x0, 0x0, 0x0, 0x0, 0x0, 0x0, 25⟩, -- ETH_STAT
  ⟨0x8, 0x4, 1, 0x0, 0xFFFFFFFF, 0x0, 0x0, 0x0, 0x0, 0xFFFFFFFF, 0x0, 25⟩, -- ETH_MACLO
  ⟨0xC, 0x4, 1, 0x0, 0xFFFF, 0x0, 0x0, 0x0, 0x0, 0xFFFF, 0x0, 25⟩, -- ETH_MACHI
  ⟨0x10, 0x4, 1, 0x88B5, 0xFFFF, 0x0, 0x0, 0x0, 0x0, 0xFFFF, 0x0, 25⟩, -- ETH_ETYPE
  ⟨0x14, 0x4, 1, 0xFFFF1000, 0xFFFFFFFF, 0x0, 0x0, 0x0, 0x0, 0xFFFFFFFF, 0x0, 25⟩, -- ETH_PAUSE
  ⟨0x18, 0x4, 1, 0x0, 0xFFFCFFFF, 0x0, 0x0, 0x0, 0x0, 0xFFFCFFFF, 0x0, 25⟩, -- ETH_MDIO
  ⟨0x1C, 0x4, 1, 0x4F, 0xFF, 0x0, 0x0, 0x0, 0x0, 0xFF, 0x0, 25⟩, -- ETH_MDIOCFG
  ⟨0x20, 0x4, 1, 0x0, 0x0, 0xF, 0x0, 0x0, 0x0, 0x0, 0x0, 25⟩, -- ETH_EVT
  ⟨0x24, 0x4, 1, 0x0, 0xF, 0x0, 0x0, 0x0, 0x0, 0xF, 0x0, 25⟩, -- ETH_IEN
  ⟨0x28, 0x4, 1, 0x0, 0xFFFFFFFF, 0x0, 0x0, 0x0, 0x0, 0x0, 0x0, 25⟩, -- ETH_RXCNT
  ⟨0x2C, 0x4, 1, 0x0, 0xFFFFFFFF, 0x0, 0x0, 0x0, 0x0, 0x0, 0x0, 25⟩, -- ETH_TXCNT
  ⟨0x30, 0x4, 1, 0x0, 0xFFFFFFFF, 0x0, 0x0, 0x0, 0x0, 0x0, 0x0, 25⟩, -- ETH_ERRCNT
  ⟨0x34, 0x4, 1, 0x0, 0xFFFFFFFF, 0x0, 0x0, 0x0, 0x0, 0x0, 0x0, 25⟩, -- ETH_PAUSECNT
  ⟨0x100, 0x8, 16, 0x0, 0xFFFFFFFF, 0x0, 0x0, 0x0, 0x0, 0xFFFFFFFF, 0x0, 25⟩, -- ETH_PEERLO
  ⟨0x104, 0x8, 16, 0x0, 0xFFFF, 0x0, 0x0, 0x0, 0x0, 0xFFFF, 0x0, 25⟩ -- ETH_PEERHI
  ]

/-- Registers of JJL. -/
def regRowsJJL : List RegRow := [
  ⟨0x0, 0x40, 2, 0x10100100, 0xF8FF0FFF, 0x0, 0x0, 0x0, 0x0, 0xF8FF0FFF, 0x0, 26⟩, -- JJL_CTRL
  ⟨0x4, 0x40, 2, 0x0, 0x0, 0x0, 0x0, 0x0, 0x0, 0x0, 0x0, 26⟩, -- JJL_STAT
  ⟨0x8, 0x40, 2, 0x0, 0x0, 0x0, 0x0, 0x0, 0x0, 0x0, 0x0, 26⟩, -- JJL_OFS
  ⟨0xC, 0x40, 2, 0x0, 0x0, 0x0, 0x0, 0x0, 0x0, 0x0, 0x0, 26⟩, -- JJL_DELAY
  ⟨0x10, 0x40, 2, 0x0, 0x0, 0x3F, 0x0, 0x0, 0x0, 0x0, 0x0, 26⟩, -- JJL_EVT
  ⟨0x14, 0x40, 2, 0x0, 0x3F, 0x0, 0x0, 0x0, 0x0, 0x3F, 0x0, 26⟩, -- JJL_IEN
  ⟨0x18, 0x40, 2, 0x0, 0xFFFFFFFF, 0x0, 0x0, 0x0, 0x0, 0x0, 0x0, 26⟩, -- JJL_RXCNT
  ⟨0x1C, 0x40, 2, 0x0, 0xFFFFFFFF, 0x0, 0x0, 0x0, 0x0, 0x0, 0x0, 26⟩, -- JJL_TXCNT
  ⟨0x20, 0x40, 2, 0x0, 0xFFFFFFFF, 0x0, 0x0, 0x0, 0x0, 0x0, 0x0, 26⟩ -- JJL_ERRCNT
  ]

/-- Registers of PAD. -/
def regRowsPAD : List RegRow := [
  ⟨0x0, 0x4, 1, 0x0, 0x0, 0x0, 0x0, 0xFFFFFFFF, 0x0, 0xFFFFFFFF, 0x0, 28⟩, -- PAD_OWN
  ⟨0x4, 0x4, 1, 0x0, 0x0, 0x0, 0x0, 0x0, 0x0, 0x0, 0x0, 28⟩, -- PAD_IN
  ⟨0x8, 0x4, 1, 0x0, 0xFFFFFFFF, 0x0, 0x0, 0x0, 0x0, 0x0, 0x0, 28⟩, -- PAD_OUT
  ⟨0xC, 0x4, 1, 0x0, 0x0, 0x0, 0xFFFFFFFF, 0x0, 0x0, 0x0, 0x0, 28⟩, -- PAD_OUTSET
  ⟨0x10, 0x4, 1, 0x0, 0x0, 0xFFFFFFFF, 0x0, 0x0, 0x0, 0x0, 0x0, 28⟩, -- PAD_OUTCLR
  ⟨0x14, 0x4, 1, 0x0, 0x0, 0x0, 0x0, 0x0, 0x0, 0x0, 0x0, 28⟩, -- PAD_STAT
  ⟨0x100, 0x4, 32, 0x14, 0x73F, 0x0, 0x0, 0x0, 0x0, 0x0, 0x0, 28⟩ -- PAD_CFG
  ]

/-- Registers of COEX. -/
def regRowsCOEX : List RegRow := [
  ⟨0x0, 0x4, 1, 0x3200C0B0, 0xFF00FFBF, 0x0, 0x0, 0x0, 0x0, 0xFF00FFBF, 0x0, 22⟩, -- COEX_CTRL
  ⟨0x4, 0x4, 1, 0x0, 0x0, 0x0, 0x0, 0x0, 0x0, 0x0, 0x0, 22⟩, -- COEX_STAT
  ⟨0x8, 0x4, 1, 0x0, 0x0, 0x3, 0x0, 0x0, 0x0, 0x0, 0x0, 22⟩, -- COEX_EVT
  ⟨0xC, 0x4, 1, 0x0, 0x3, 0x0, 0x0, 0x0, 0x0, 0x3, 0x0, 22⟩, -- COEX_IEN
  ⟨0x10, 0x4, 1, 0x0, 0xFFFFFFFF, 0x0, 0x0, 0x0, 0x0, 0x0, 0x0, 22⟩, -- COEX_DENYCNT
  ⟨0x14, 0x4, 1, 0x0, 0xFFFF, 0x0, 0x0, 0x0, 0x0, 0x0, 0x0, 22⟩ -- COEX_CUTCNT
  ]

/-- Registers of ENG. -/
def regRowsENG : List RegRow := [
  ⟨0x0, 0x4, 1, 0x0, 0x0, 0x0, 0x0, 0xFFFF, 0x0, 0xFFFF, 0x0, 40⟩, -- ENG_PART
  ⟨0x4, 0x4, 1, 0x0, 0x0, 0x0, 0x0, 0x8000000F, 0x0, 0x8000000F, 0x0, 40⟩, -- ENG_SPARE
  ⟨0x8, 0x4, 1, 0x1, 0xFFFF, 0x0, 0x0, 0x0, 0x0, 0xFFFF, 0x0, 40⟩, -- ENG_RUN
  ⟨0xC, 0x4, 1, 0x0, 0x0, 0x0, 0x0, 0xFFFF, 0x0, 0xFFFF, 0x0, 40⟩, -- ENG_WDEN
  ⟨0x10, 0x4, 1, 0x0, 0x0, 0xFFFFFFFF, 0x0, 0x0, 0x0, 0x0, 0x0, 40⟩, -- ENG_EVT
  ⟨0x14, 0x4, 1, 0x0, 0x7, 0x0, 0x0, 0x0, 0x0, 0x7, 0x0, 40⟩, -- ENG_IEN
  ⟨0x18, 0x4, 1, 0x0, 0x0, 0xC0000000, 0x0, 0x0, 0x0, 0x0, 0x0, 40⟩, -- ENG_TKSTAT
  ⟨0x1C, 0x4, 1, 0x0, 0x0, 0x0, 0x0, 0xFFFF, 0x0, 0xFFFF, 0x0, 40⟩, -- ENG_MBALLOW
  ⟨0x20, 0x4, 1, 0x0, 0x0, 0x0, 0x0, 0x0, 0x0, 0x0, 0x0, 40⟩, -- ENG_DBGSTAT
  ⟨0x40, 0x4, 16, 0x0, 0x0, 0x0, 0x0, 0x0, 0x0, 0x0, 0x0, 40⟩, -- ENG_ESTAT
  ⟨0x80, 0x4, 16, 0x0, 0x0, 0x0, 0x0, 0x0, 0x0, 0x0, 0x0, 40⟩, -- ENG_KICK
  ⟨0xC00, 0x4, 16, 0x0, 0x0, 0x0, 0x0, 0x8F8F8F8F, 0x0, 0x8F8F8F8F, 0x0, 40⟩, -- ENG_O6MAP
  ⟨0x100, 0x40, 16, 0x0, 0x0, 0x0, 0x0, 0x0, 0xF007F, 0x0, 0x0, 40⟩, -- ENG_TXDEST
  ⟨0x104, 0x40, 16, 0x0, 0x0, 0x0, 0x0, 0x0, 0xFFFFFFFF, 0x0, 0x0, 40⟩, -- ENG_TXDATA
  ⟨0x108, 0x40, 16, 0x0, 0x0, 0xF, 0x0, 0x0, 0x0, 0x0, 0x0, 40⟩, -- ENG_TXSTAT
  ⟨0x10C, 0x40, 16, 0x0, 0x0, 0x0, 0x0, 0x0, 0x0, 0x0, 0x0, 40⟩, -- ENG_RXDATA
  ⟨0x110, 0x40, 16, 0x1, 0x0, 0x2, 0x0, 0x0, 0x80000000, 0x0, 0x0, 40⟩, -- ENG_RXSTAT
  ⟨0x114, 0x40, 16, 0x0, 0x0, 0x19, 0x0, 0x0, 0x0, 0x0, 0x0, 40⟩, -- ENG_IRQSTAT
  ⟨0x118, 0x40, 16, 0x0, 0x0, 0x0, 0x0, 0x0, 0x0, 0x0, 0x0, 40⟩, -- ENG_PKTGET
  ⟨0x11C, 0x40, 16, 0x0, 0x0, 0x0, 0x0, 0x0, 0x0, 0x0, 0x0, 40⟩, -- ENG_PKTST0
  ⟨0x120, 0x40, 16, 0x0, 0x0, 0x0, 0x0, 0x0, 0x0, 0x0, 0x0, 40⟩, -- ENG_PKTST1
  ⟨0x124, 0x40, 16, 0x0, 0x0, 0x0, 0x0, 0x0, 0xBFFF0FFF, 0x0, 0x0, 40⟩, -- ENG_PKTDONE
  ⟨0x128, 0x40, 16, 0x0, 0x0, 0x0, 0x0, 0x0, 0x0, 0x0, 0x0, 40⟩, -- ENG_ALLOC
  ⟨0x12C, 0x40, 16, 0x0, 0x0, 0x0, 0x0, 0x0, 0xBFFF0FFF, 0x0, 0x0, 40⟩, -- ENG_FREE
  ⟨0x130, 0x40, 16, 0x0, 0xBFFF3FFF, 0x0, 0x0, 0x0, 0x0, 0x0, 0x0, 40⟩, -- ENG_LINK
  ⟨0x134, 0x40, 16, 0x0, 0x0, 0x0, 0x0, 0x0, 0x3FFF0FFF, 0x0, 0x0, 40⟩, -- ENG_SUBMIT
  ⟨0x138, 0x40, 16, 0x0, 0x0, 0x0, 0x0, 0x0, 0x0, 0x0, 0x0, 40⟩ -- ENG_SUBSTAT
  ]

/-- The register rows of block number `n` (R20). -/
def blockRows : Nat → List RegRow
  | 0 => regRowsSYS
  | 1 => regRowsPWR
  | 2 => regRowsBEAT
  | 3 => regRowsRXF
  | 4 => regRowsSLC
  | 5 => regRowsPHY
  | 6 => regRowsTXF
  | 7 => regRowsGLZ
  | 8 => regRowsLNK
  | 9 => regRowsMSH
  | 10 => regRowsQSC
  | 11 => regRowsTSU
  | 12 => regRowsAES
  | 13 => regRowsPKA
  | 14 => regRowsKEY
  | 15 => regRowsUPD
  | 16 => regRowsJRN
  | 17 => regRowsRTC
  | 18 => regRowsTMR
  | 19 => regRowsEVR
  | 20 => regRowsHIF
  | 21 => regRowsETH
  | 22 => regRowsJJL
  | 23 => regRowsPAD
  | 24 => regRowsCOEX
  | 25 => regRowsENG
  | _ => []

/-- Whether the row holds the register at offset `o` of its block. -/
def RegRow.covers (r : RegRow) (o : Nat) : Bool :=
  decide (r.off ≤ o) && decide ((o - r.off) % r.stride = 0) && decide ((o - r.off) / r.stride < r.count)

/-- The row of the register at address `a` of the engine view; none at a reserved offset (R5). -/
def findRow (a : Nat) : Option RegRow :=
  (blockRows (a / 0x10000 % 0x1000)).find? (·.covers (a % 0x10000))

/-- The reset value of the register at address `a` (R10); a reserved offset reads zero (R5). -/
def regReset (a : Nat) : BitVec 32 :=
  match findRow a with
  | some r => BitVec.ofNat 32 r.reset
  | none => 0

end Sys2Proof.Machine
end

