-- ==== Sys2Proof/Machine/Sparse.lean ====
section
/-! DEFINITION. A finite table with a default: a list of (key, value) pairs, keys strictly rising, no entry equal to what
an unlisted key reads as. The register file, the memories and the other sparse tables of the state are all of this form.
-/
namespace Sys2Proof.Machine

/-- The value at key `a`: the listed one, else the default `d a`. -/
def sget {β : Type} (d : Nat → β) : List (Nat × β) → Nat → β
  | [], a => d a
  | (k, v) :: t, a => if k = a then v else sget d t a

/-- The table without any entry for key `a`. -/
def serase {β : Type} (a : Nat) : List (Nat × β) → List (Nat × β)
  | [] => []
  | (k, v) :: t => if k = a then serase a t else (k, v) :: serase a t

/-- The table with the entry `(a, v)` put before the first larger key. -/
def sinsert {β : Type} (a : Nat) (v : β) : List (Nat × β) → List (Nat × β)
  | [] => [(a, v)]
  | (k, w) :: t => if a < k then (a, v) :: (k, w) :: t else (k, w) :: sinsert a v t

/-- The table in which key `a` reads `v`. A value equal to the default is not listed. -/
def sset {β : Type} [DecidableEq β] (d : Nat → β) (t : List (Nat × β)) (a : Nat) (v : β) : List (Nat × β) :=
  if v = d a then serase a t else sinsert a v (serase a t)

/-- Whether every listed key is above `m`. -/
def sabove {β : Type} (m : Nat) : List (Nat × β) → Bool
  | [] => true
  | (k, _) :: t => decide (m < k) && sabove m t

/-- The canonical form: keys strictly rising, and no entry equal to the default of its key. -/
def swf {β : Type} [DecidableEq β] (d : Nat → β) : List (Nat × β) → Bool
  | [] => true
  | (k, v) :: t => decide (v ≠ d k) && sabove k t && swf d t

/-- The table rewritten entry by entry: each key takes `f key value`; a result equal to the default is dropped. -/
def smap {β : Type} [DecidableEq β] (d : Nat → β) (f : Nat → β → β) : List (Nat × β) → List (Nat × β)
  | [] => []
  | (k, v) :: t => if f k v = d k then smap d f t else (k, f k v) :: smap d f t

/-- The table without the entries whose key `p` selects: those keys read the default again. -/
def sdrop {β : Type} (p : Nat → Bool) : List (Nat × β) → List (Nat × β)
  | [] => []
  | (k, v) :: t => if p k then sdrop p t else (k, v) :: sdrop p t

end Sys2Proof.Machine
end

