-- ==== Sys2Proof/Machine/State.lean ====
section
/-! DEFINITION. The state of the machine, as plain data: the register file, the memories, and for each block what the
spec gives it beside its registers. The default of every field is its value at reset. `regs` holds every register of the
register maps that is not computed from another field; a register that is not listed there reads its reset value. -/
namespace Sys2Proof.Machine

/-- Why a machine stops: nothing does. Every row of the table has an effect in every state. -/
inductive Fault where
  deriving DecidableEq, Repr

/-- Why a command has no meaning here. -/
inductive Refusal where
  /-- Raised by `exec` for a row whose meaning is not written yet. Safe: no next state is claimed. -/
  | notModelled (mnemonic : String)
  deriving DecidableEq, Repr

/-- SYS beside its registers. -/
structure SysState where
  /-- R7: lower words written and held, by the lower word's address. -/
  held : List (Nat × Word) := []
  /-- R7, R259, R435: halves latched by a read of the first word, by their own address. -/
  latched : List (Nat × Word) := []
  /-- R14: consecutive windows inside the band, up to 16. -/
  goodWindows : Nat := 0
  /-- R14, R55: reference return is declared and holdover ends at the next boundary. -/
  returnDeclared : Bool := false
  /-- R36: a requested warm reset is held. -/
  warmReq : Bool := false
  /-- R36: a requested cold reset is held. -/
  coldReq : Bool := false
  /-- R33: next ECC word of each scrubber, by memory ID × 16 + instance (the packet buffer has one). -/
  scrub : List (Nat × Nat) := []
  /-- R28: the clock in which the record in SYS_FAULTREC was latched. -/
  faultClk : Option Nat := none
  deriving DecidableEq, Repr, Inhabited

/-- PWR beside its registers. -/
structure PwrState where
  /-- R405, R411: the AO domain runs from VBAK; VMAIN is below VMAIN valid after a power fail. -/
  onVbak : Bool := false
  /-- R413: the AO domain is powered down. -/
  aoDown : Bool := false
  /-- R413: the 100 us hold timer runs. -/
  holdTimer : Bool := false
  /-- R420: domains that are coming on, and whether from off. -/
  waking : List (Nat × Bool) := []
  /-- R417, R423: domains whose entry to a state is in progress, with the state. -/
  leaving : List (Nat × Nat) := []
  /-- R423: domains to be woken once their entry completes. -/
  wakeAfter : List Nat := []
  /-- R424: for each recorded wake, the domains not yet ready. -/
  wakeSets : List (List Nat) := []
  /-- R422, R423: the clock and cause of the last recorded wake. -/
  lastWake : Option (Nat × Nat) := none
  /-- R467: a warm reset is held at its start while VIOOK is 0, and whether it carries out an activation. -/
  warmHeld : Bool := false
  heldAct : Bool := false
  deriving DecidableEq, Repr, Inhabited

/-- The event router beside its registers. -/
structure EvrState where
  /-- R451: channels carrying an event that has not reached its consumer, each with the clock it entered in. -/
  transit : List (Nat × Nat) := []
  /-- R455: the clock of the last event that reached each consumer input. -/
  arrived : List (Nat × Nat) := []
  /-- R456: the always-on copies of WAKE channels, channel and EVR_CHCFG word. -/
  routes : List (Nat × Word) := []
  deriving DecidableEq, Repr, Inhabited

/-- One timer unit beside its registers (R442 to R448). -/
structure TmrUnit where
  /-- The live count. -/
  cnt : Word := 0
  /-- Source periods counted toward the next tick. -/
  residue : Nat := 0
  /-- The read latch. -/
  latch : Word := 0
  /-- Event inputs START, STOP and CLR waiting for the next source period. -/
  pendStart : Bool := false
  pendStop : Bool := false
  pendClr : Bool := false
  /-- The last capture was a rising one. -/
  rose : Bool := false
  deriving DecidableEq, Repr, Inhabited

/-- The RTC beside its registers (R432 to R437). The prescaler PRE is RTC_SUBSEC.PRE, the calendar RTC_TIME and RTC_DATE.
-/
structure RtcState where
  /-- The trim window counter i. -/
  i : Nat := 0
  /-- T as latched at i = 0. -/
  trimT : Int := 0
  /-- The captured time and date of a pending set. -/
  setCopy : Option (Word × Word) := none
  /-- The pending shift S. -/
  shift : Int := 0
  deriving DecidableEq, Repr, Inhabited

/-- Balls, straps, detectors and pad latches (R427, R465 to R469). -/
structure PadState where
  /-- The levels driven onto the GPIO balls from outside. -/
  ext : Word := 0
  /-- R467: VIOOK. -/
  vioOk : Bool := true
  /-- The VIOSEL strap as sampled. -/
  viosel : Bool := false
  /-- The level of the COEX_GNT ball. -/
  gnt : Bool := false
  /-- R427: PAD_OUT and the PAD_CFG words frozen by the GPIO latches. -/
  gpioHold : Option (Word × List Word) := none
  /-- R427: the front-end latches of TXA and TXB hold, with the frozen levels SW, LNA, PA. -/
  feHold : Vector (Option (Bool × Bool × Bool)) 2 := Vector.replicate 2 none
  /-- R427: the COEX_REQ and COEX_PRI latches hold, with the frozen levels. -/
  coexHold : Option (Bool × Bool) := none
  /-- R469: an FL_RESET_N pulse is owed. -/
  flPulse : Bool := false
  /-- R484: the bits of PAD_OUT that events have inverted, with the clock they did it in (the model's own). -/
  tog : Nat × Word := (0, 0)
  deriving DecidableEq, Repr, Inhabited

/-- A time base (R257, R258): the value in 2^-16 ns, and the residue of the exact product that is below one unit. -/
structure TimeBase where
  v : Nat := 0
  res : Nat := 0
  deriving DecidableEq, Repr, Inhabited

/-- What TSU latches into the always-on domain at edge E0 (R272). -/
structure SleepLatch where
  tb0 : Nat
  tb3 : Nat
  rate0 : Word
  slcal : Word
  unc : Word
  /-- SLOW ticks since E0, up to 2^40 - 1. -/
  n : Nat := 0
  /-- SLOW ran at E0 and has run since. -/
  slow : Bool := true
  deriving DecidableEq, Repr, Inhabited

/-- R263: an offset that was taken: the clock and source, and what stood before it: the pending phase, when the offset
before was taken, TSU_LASTOFS and RATE0; and what it added to RATE0 (R264). -/
structure OfsTaken where
  clk : Nat
  src : OfsSource
  phase : Int
  last : Option Nat
  lastofs : Word
  rate : Word
  term : Int
  deriving DecidableEq, Repr

/-- TSU beside its registers. -/
structure TsuState where
  /-- TB0 to TB3. -/
  tb : Vector TimeBase 4 := Vector.replicate 4 {}
  /-- R264: the pending phase P in units of 2^-16 ns / 24,000,000. -/
  phase : Int := 0
  /-- R264: TB3 (in 2^-16 ns) when the last offset was taken; none after a step or reset. -/
  lastTaken : Option Nat := none
  /-- R453: a capture of the four bases is due in the next REF cycle. -/
  capPend : Bool := false
  /-- R272: the sleep latch, while PER is away. -/
  sleep : Option SleepLatch := none
  /-- R263: the last offset that was taken. -/
  ofs : Option OfsTaken := none
  /-- R261: steps asked for, carried out at the next REF edge: base, relative, and the value or offset in 2^-16 ns. -/
  stepDue : List (Nat × Bool × Nat) := []
  /-- R272: RATE0 as it was when a reset reached PER, for the E0 edge that follows. -/
  edgeRate : Option Word := none
  /-- R272: PER was reset or lost its supply, and its E0 edge has not come. -/
  resetEdge : Bool := false
  /-- R450: PER came back from retention, and the timers that follow sleep are still to be advanced. -/
  tmrDue : Bool := false
  /-- Steps of TB0 so far: what "before the latest step" means (R263; the model's own). -/
  steps : Nat := 0
  /-- R274: TB0 when holdover began, in 2^-16 ns. -/
  holdFrom : Option Nat := none
  deriving DecidableEq, Repr, Inhabited

/-- BEAT beside its registers. -/
structure BeatState where
  /-- R39: the last valid PERIOD code written. -/
  period : Nat := 3
  /-- R41: TB0 was stepped since the last boundary. -/
  stepped : Bool := false
  /-- R41: the ABN of the last boundary at which step 9 ran. -/
  lastDone : Option Nat := none
  /-- R48: engines whose beat task is running. -/
  running : Vector Bool 16 := Vector.replicate 16 false
  /-- R43: the level the engine cluster rail is being raised to. -/
  engRaise : Option Nat := none
  /-- R43: VSLC is settling after a raise; the slices the level before allowed. -/
  slcSettling : Option Nat := none
  /-- R53: forwarding work failed in this beat for an internal cause. -/
  outage : Bool := false
  deriving DecidableEq, Repr, Inhabited

/-- One receive chain beside its registers (R63 to R65, R77 to R79, R185 to R187). -/
structure RxChain where
  /-- Consecutive 1 us windows below -LOW dBFS, and windows the AGC still waits after a step. -/
  lowRun : Nat := 0
  agcWait : Nat := 0
  /-- R68: the gain index the chain held before it was deafened. -/
  gainBefore : Nat := 0
  /-- R77: the taste window that runs: on the detector (none inside), or on a slice. -/
  window : Option (Option Nat) := none
  /-- R185: SLOW ticks counted toward the next START; a START that waits for the chain's domain. -/
  ticks : Nat := 0
  due : Bool := false
  /-- R186, R187: the slice of the awake reception, and whether its release is pending. -/
  awake : Option Nat := none
  releasing : Bool := false
  deriving DecidableEq, Repr, Inhabited

/-- A frame in reception on a slice (R107, R108, R111 to R114). -/
structure RxFrame where
  /-- Names the frame (the model's own). -/
  fid : Nat := 0
  wave : Nat := 0
  chain : Nat := 0
  freq : Nat := 0
  /-- PHY_RXCFGn and PHY_FSKn in force since the search began (R119). -/
  rxcfg : Word := 0
  fsk : Word := 0
  /-- The measured launch on TB0 in 2^-16 ns (R265). -/
  stamp : Nat := 0
  /-- The header was received and passed. -/
  hdr : Bool := false
  mcs : Nat := 0
  flags : Nat := 0
  len : Nat := 0
  /-- Bytes of FCS at the end of the PSDU. -/
  fcs : Nat := 4
  /-- RSSI of R114, in 0.5 dB, once measured. -/
  rssi : Option Int := none
  gstep : Bool := false
  /-- R112: the status a codeword gave the frame, DEC_BUSY or DEC_FAIL. -/
  cwStatus : Option Nat := none
  /-- PHY_SYNCn in force since the search began (R119). -/
  sync : Word := 0
  /-- R109: the channel estimate, by used subcarrier. -/
  est : List Cx := []
  /-- Body symbols received, and the soft bits of the stream so far. -/
  symbols : Nat := 0
  soft : List Rat := []
  /-- R114: the sums of the errors and of the references so far. -/
  err : Rat := 0
  ref : Rat := 0
  /-- R111: codewords received, and the information bits of those decoded, by number. -/
  codewords : Nat := 0
  decoded : List (Nat × List Bool) := []
  /-- The frame's last sample on TB0 in 2^-16 ns. -/
  endAt : Nat := 0
  /-- R133: the carrier reserved for its acknowledgement. -/
  carrier : Option Nat := none
  /-- Steps of TB0 before it (R263). -/
  steps : Nat := 0
  deriving DecidableEq, Repr, Inhabited

/-- One slice beside its registers. -/
structure SliceState where
  /-- The tune and waveform in force. -/
  freq : Nat := 0
  wave : Nat := 0
  /-- R72: a held change: the tune and waveform to come. -/
  held : Option (Nat × Nat) := none
  /-- Within its settle time after a tune. -/
  settling : Bool := false
  frame : Option RxFrame := none
  deriving DecidableEq, Repr, Inhabited

/-- A codeword in the pool (R111): its slice, its frame, its number there, its K and its soft values, and the clock it
arrived in. -/
structure Codeword where
  slice : Nat
  fid : Nat
  index : Nat := 0
  k : Nat := 384
  soft : List Int := []
  clk : Nat := 0
  deriving DecidableEq, Repr

/-- The modem's pool of decoders (R111). -/
structure PhyState where
  queue : List Codeword := []
  dec : Vector (Option Codeword) 4 := Vector.replicate 4 none
  /-- Next frame name (the model's own). -/
  nextFid : Nat := 1
  deriving DecidableEq, Repr, Inhabited

/-- Where a carrier stands in its life (R122, R129, R132, R133, R141). -/
inductive CarPhase where
  /-- Held for a frame, or reserved for an acknowledgement, before its gate. -/
  | held
  /-- At its gate instant, waiting for lock. -/
  | waiting
  /-- Past its gate. -/
  | gated
  | rampUp
  | sending
  | rampDown
  deriving DecidableEq, Repr, Inhabited

/-- What a carrier holds. Times are TB0 in 2^-16 ns, lengths in ns, levels in 0.5 dB steps. -/
structure Carrier where
  phase : CarPhase := .held
  /-- It is for an acknowledgement, and its content is known. -/
  ack : Bool := false
  armed : Bool := false
  /-- The cell of the transmit action. -/
  cell : Nat := 0
  /-- The slice and frame whose acknowledgement it is. -/
  slice : Nat := 0
  wave : Nat := 0
  freq : Nat := 0
  /-- The requested level and the level in force. -/
  want : Int := 0
  level : Int := 0
  /-- The launch, as a transmit stamp gives it (R129, R267). -/
  launch : Nat := 0
  /-- Ramp-up length in us. -/
  ru : Nat := 2
  /-- The REF cycle count at its ramp-up start, and from its ramp-down start on the count there (R130). -/
  rampClk : Nat := 0
  air : Nat := 0
  /-- A clear CCA: its end and threshold (R141 check 8). -/
  cca : Option Nat := none
  /-- Copies of a train still to start after this one (R191). -/
  copies : Nat := 0
  mpdu : List Byte := []
  mcs : Nat := 0
  /-- Preamble units (R105), and the MIDAMBLE and TRAIN flags of its header (R101). -/
  count : Nat := 4
  mid : Bool := false
  train : Bool := false
  /-- COEX: the request and its priority are held (R144). -/
  req : Bool := false
  pri : Bool := false
  /-- What it would ask for: the traffic class. -/
  tc : Nat := 0
  /-- R119: PHY_TXCFG and PHY_TXFSKx as they stood at its launch. -/
  txcfg : Word := 0
  txfsk : Word := 0
  /-- R135: coefficients 0 to 16 of its filter, as they stood at its ramp-up start. -/
  taps : List Int := []
  /-- The status with which its sending ends. -/
  result : Nat := 0
  deriving DecidableEq, Repr, Inhabited

/-- One transmit chain beside its registers. -/
structure TxChain where
  /-- R123: a held retune. -/
  heldLo : Option Nat := none
  /-- Tj at the last calibration and at the last boundary, in degrees C (R131). -/
  lastTj : Int := 25
  tj : Int := 25
  deriving DecidableEq, Repr, Inhabited

/-- The duty buckets of a sub-band (R142). -/
structure Duty where
  /-- MAXON and WIN at the cold reset that filled the buckets, and the seconds since. -/
  maxon : Nat := 0
  win : Nat := 0
  secs : Nat := 0
  /-- Charges still kept: the second they were made in and their airtime in ns. -/
  charges : List (Nat × Nat) := []
  deriving DecidableEq, Repr, Inhabited

/-- The glaze beside its registers (R139, R140). -/
structure GlazeState where
  /-- The one-time-programmable contents and their CRC-32, with the valid marker: 130 words in the order of GLZ_CRC. -/
  otp : Option (List Word × Nat) := none
  /-- The contents being programmed. -/
  burning : Option (List Word) := none
  duty : Vector Duty 16 := Vector.replicate 16 {}
  deriving DecidableEq, Repr, Inhabited

/-- A receive action of the beat (R153, R159). -/
structure RxAct where
  /-- Names the action (the model's own). -/
  id : Nat
  cell : Nat
  kind : Nat
  nbr : Nat
  chain : Nat
  freq : Nat
  wave : Nat
  /-- L on TB0 in 2^-16 ns, and the guard in us, by which the window's commands come (R159). -/
  launch : Nat
  guard : Nat
  slice : Option Nat := none
  /-- The window is open; it has closed; an outcome was reached. -/
  opened : Bool := false
  closed : Bool := false
  /-- R200: the held action of the parent. -/
  held : Bool := false
  deriving DecidableEq, Repr, Inhabited

/-- A transmit action of the beat (R153, R158). -/
structure TxAct where
  /-- Names the action (the model's own). -/
  id : Nat
  cell : Nat
  kind : Nat
  nbr : Nat
  chain : Nat
  freq : Nat
  wave : Nat
  cca : Bool
  ackreq : Bool
  launch : Nat
  slice : Option Nat := none
  /-- Its cell start has come. -/
  started : Bool := false
  carrier : Option Nat := none
  /-- The packet: queue and descriptor; the neighbour of its outcome. -/
  pkt : Option (Nat × Nat) := none
  seq : Nat := 0
  /-- An acknowledgement is expected. -/
  wantAck : Bool := false
  /-- The CCA measures now, and what made it busy was met. -/
  sensing : Bool := false
  busy : Bool := false
  /-- Its last sample is sent and the acknowledgement is awaited. -/
  waiting : Bool := false
  /-- The latest SYNC on the acknowledgement has passed with a frame in reception (R158, R175). -/
  late : Bool := false
  deriving DecidableEq, Repr, Inhabited

/-- A frame that ended OK, from its verdict to its decision and the hand-over of its acknowledgement (R166, R169). -/
structure RxDone where
  slice : Nat
  fid : Nat := 0
  chain : Nat := 0
  freq : Nat := 0
  wave : Nat := 0
  mcs : Nat := 0
  flags : Nat := 0
  stamp : Nat := 0
  endAt : Nat := 0
  lq : Nat := 0
  mpdu : List Byte := []
  /-- The receive action it came in: its cell, kind, neighbour and L. -/
  act : Option (Nat × Nat × Nat × Nat) := none
  held : Bool := false
  carrier : Option Nat := none
  awake : Bool := false
  scan : Bool := false
  steps : Nat := 0
  /-- R192: another copy follows. -/
  more : Bool := false
  /-- R166 has decided it and an acknowledgement is owed: NACK, and the neighbour of its level. -/
  owed : Option (Bool × Nat) := none
  deriving DecidableEq, Repr, Inhabited

/-- A running scan (R201). -/
structure Scan where
  slice : Nat
  chan : Nat
  /-- Beats left on the channel; rounds still to run (none: unlimited). -/
  dwell : Nat
  rounds : Option Nat
  deriving DecidableEq, Repr, Inhabited

/-- LNK beside its registers. -/
structure LnkState where
  rx : List RxAct := []
  tx : List TxAct := []
  /-- Frames decided or to be decided, oldest first. -/
  done : List RxDone := []
  /-- R180: held writes of neighbour words 0 and 1: address and value. -/
  pend : List (Nat × Word) := []
  /-- R156: schedule words written in a clock: address, the word before, the clock. -/
  fresh : List (Nat × Word × Nat) := []
  /-- R168: frames decided last: source, sequence number, channel, stamp. -/
  recent : List (Nat × Nat × Nat × Nat) := []
  scan : Option Scan := none
  /-- R197: the domain came back from retention, and the bound is due. -/
  uaccDue : Bool := false
  /-- R200: the parent that was declared lost and has not been heard since. -/
  lost : Option Nat := none
  /-- R144: receive actions that hold a request, by name. -/
  rxReq : List Nat := []
  /-- Next action name (the model's own). -/
  nextAct : Nat := 0
  deriving DecidableEq, Repr, Inhabited

/-- The place of a fragment in its packet (R217). -/
structure FragInfo where
  /-- The packet the fragment was cut from. -/
  group : Nat
  idx : Nat
  last : Bool
  deriving DecidableEq, Repr, Inhabited

/-- A queued packet's descriptor (R243) with its handle to the buffer (R12, R216, R239). -/
structure Packet where
  /-- Names this descriptor (the model's own). -/
  pid : Nat := 0
  /-- Names the cells, which replicas share (R216). -/
  buf : Nat := 0
  /-- The buffer cells in order. -/
  cells : List Nat := []
  len : Nat := 0
  /-- HOPLIM as the packet leaves, where it differs from the bytes in the buffer (R209). -/
  hopOut : Option Nat := none
  /-- Next-hop neighbour or Ethernet peer; 255 broadcast (R210). -/
  nbr : Nat := 255
  tc : Nat := 0
  /-- Control traffic (R213). -/
  control : Bool := false
  /-- Admission stamps: ABN [15:0] and TB3 microseconds. -/
  abn16 : Nat := 0
  us : Nat := 0
  /-- Counted failures (R177). -/
  fails : Nat := 0
  inflight : Bool := false
  /-- Removed when its outcome returns: with its dropped packet (R217), or as flushed (R252). -/
  doomed : Bool := false
  flushed : Bool := false
  /-- Launch time: base code and the two words of R269. -/
  launch : Option (Nat × Word × Word) := none
  /-- The receive stamp that travels with the packet (R225, R269). -/
  stamp : Word × Word := (0, 0)
  frag : Option FragInfo := none
  /-- R164, R334: the sequence number and MPDU fixed at the first attempt. -/
  seq : Option Nat := none
  mpdu : Option (List Byte) := none
  /-- A frame of another EtherType, carried whole (R224). -/
  raw : Bool := false
  /-- The port it entered by: 0 radio, 1 Ethernet, 2 and 3 Jajor, 4 host, 5 engines. -/
  port : Nat := 0
  deriving DecidableEq, Repr, Inhabited

/-- One queue beside its registers: its packets in order, its scheduling state, and the configuration in force. -/
structure Queue where
  pkts : List Packet := []
  active : Bool := false
  /-- The 48-bit start tag S_q (R246). -/
  tag : Nat := 0
  /-- TOKEN in 1/64 bytes (R249). -/
  token : Int := 0
  /-- QSC_QCFGq as it governs (R252). -/
  cfg : Word := 0
  /-- The outlet in force, and a held move (R236). -/
  outlet : Nat := 0
  move : Option Nat := none
  weight : Nat := 1
  rate : Nat := 0
  burst : Nat := 65536
  qbytes : Nat := 4194304
  qpkts : Nat := 16384
  /-- A flush requested (R252). -/
  flush : Bool := false
  deriving DecidableEq, Repr, Inhabited

/-- One policer beside its registers (R251): the buckets in 1/64 bytes, the carried remainder of CIR / 125, and the
parameters in force. -/
structure Policer where
  tc : Nat := 64 * 2048
  te : Nat := 0
  rem : Nat := 0
  en : Bool := false
  yact : Bool := false
  cir : Nat := 1
  cbs : Nat := 2048
  ebs : Nat := 0
  deriving DecidableEq, Repr, Inhabited

/-- What a wired outlet is sending (R219, R223, R248): the packet, its queue, and the characters or
bytes of its frame, which go out on the wire. -/
structure Sending where
  q : Nat
  pkt : Packet
  wire : List Byte := []
  /-- It waits on O2 for its launch time, or for the end of a received PAUSE (R270). -/
  waits : Bool := false
  deriving DecidableEq, Repr, Inhabited

/-- QSC beside its registers. -/
structure QscState where
  /-- The allocated cells (R239). -/
  alloc : List Nat := []
  /-- Handles to each buffer in use: buffer name and count (R216). -/
  refs : List (Nat × Nat) := []
  /-- Next descriptor, buffer and fragment group name (the model's own). -/
  nextId : Nat := 1
  /-- QSC_CTRL.EN as it governs (R252). -/
  en : Bool := false
  queues : Vector Queue 64 := Vector.replicate 64 {}
  /-- The 48-bit virtual time V_o of each outlet (R246). -/
  vtime : Vector Nat 8 := Vector.replicate 8 0
  pols : Vector Policer 32 := Vector.replicate 32 {}
  /-- What each wired outlet is sending (R248). -/
  sending : Vector (Option Sending) 8 := Vector.replicate 8 none
  deriving DecidableEq, Repr, Inhabited

/-- A packet waiting at an ingress port of MSH (R207). -/
structure Ingress where
  bytes : List Byte := []
  /-- Buffer cells it already lies in: a Jajor frame's, or a submitted packet's. -/
  cells : List Nat := []
  /-- The buffer its submitter holds a handle to (R322). -/
  buf : Option Nat := none
  /-- The submitting engine. -/
  eng : Nat := 0
  /-- The queue and outlet a submitted packet was taken from, where it was one of O6 or O7 (R322). -/
  got : Option (Nat × Nat) := none
  /-- A host frame's TAG. -/
  tag : Nat := 0
  stamp : Word × Word := (0, 0)
  launch : Option (Nat × Word × Word) := none
  /-- It waits under NOBUF (R242), with what step 9 found: outlet, next hop, queue, and HOPLIM as it leaves. -/
  waiting : Option (Nat × Nat × Nat × Option Nat) := none
  /-- A frame of another EtherType (R224). -/
  raw : Bool := false
  /-- Bytes it holds in the Ethernet receive FIFO (R224). -/
  fifo : Nat := 0
  /-- Its engine took a reset: the outcome is reported to none (R326). -/
  orphan : Bool := false
  deriving DecidableEq, Repr, Inhabited

/-- A reassembly context (R217). -/
structure Reasm where
  band : Nat
  src : Nat
  /-- Bytes 0 to 6 of the first fragment. -/
  head : List Byte
  payload : List Byte
  cells : List Nat
  /-- ABN of the beat in which it last received a fragment. -/
  abn : Nat
  deriving DecidableEq, Repr, Inhabited

/-- MSH beside its registers. -/
structure MshState where
  /-- Packets waiting at ports 1 Ethernet, 2 and 3 Jajor, 4 host, 5 engines; port 0, the radio, never waits. -/
  ports : Vector (List Ingress) 6 := Vector.replicate 6 []
  /-- The port last served in the round robin. -/
  last : Nat := 5
  contexts : List Reasm := []
  /-- The flood cache, oldest first: SRC, CRC-32, ABN of entry (R214). -/
  flood : List (Nat × Nat × Nat) := []
  /-- Consecutive TX_RETRY drops per neighbour (R212). -/
  retryDrops : List (Nat × Nat) := []
  deriving DecidableEq, Repr, Inhabited

/-- The leader's BAS of this beat, and whether TB0 has been stepped since (R222): its ABN, A_F and DEP_F in 1/16 ns. -/
structure Bas where
  abn : Nat
  arr : Int
  dep : Int
  stale : Bool := false
  deriving DecidableEq, Repr, Inhabited

/-- The ordered sets a Jajor port sends around and between its frames (R218). -/
inductive JjSet where
  | sof
  | eof
  | abort
  | crd (control : Bool) (count : Nat)
  | bas (abn : Nat) (leader : Bool)
  | bfu (abn8 dep : Nat) (arr : Int)
  deriving DecidableEq, Repr

/-- One Jajor port beside its registers. -/
structure JjPort where
  /-- The sets it put on the line in the last clock in which it sent any, oldest first, each with that clock (R218). -/
  out : List (Nat × JjSet) := []
  /-- Its last BAS: the ABN, and its departure after the boundary in 1/16 ns (R222). -/
  sentAbn : Nat := 0
  sentDep : Nat := 0
  /-- The ABN of the exchange counted last for SYNC (R222). -/
  syncAbn : Nat := 0
  /-- JJL_CTRLn as it governs since the last link-up (R232). -/
  ctrl : Word := 0x10100100
  /-- Receive cells held for the control and the data class (R220, R242). -/
  heldM : List Nat := []
  heldD : List Nat := []
  /-- Replacement cells owed to each class. -/
  oweM : Nat := 0
  oweD : Nat := 0
  /-- Consecutive beats inside and outside the SYNC bound (R222). -/
  goodBeats : Nat := 0
  badBeats : Nat := 0
  /-- The leader's BAS that waits for its BFU. -/
  bas : Option Bas := none
  deriving DecidableEq, Repr, Inhabited

/-- ETH beside its registers. -/
structure EthState where
  /-- LATE in the transmit status of the last frame that O2 started (R225, R270). -/
  txLate : Bool := false
  /-- The last PAUSE frame sent (R224). -/
  pause : List Byte := []
  /-- An MDIO frame is running, with the word written (R226). -/
  mdio : Option Word := none
  deriving DecidableEq, Repr, Inhabited

/-- A message of a receive mailbox (R317): who opened it, its length, the words written and not yet read. -/
structure Message where
  sender : Nat
  len : Nat
  written : Nat := 0
  words : List Word := []
  deriving DecidableEq, Repr, Inhabited

/-- A packet an engine owns (R322): its cells, its buffer, its length, and the queue and outlet it came from. -/
structure HeldPkt where
  cells : List Nat
  buf : Nat
  len : Nat
  q : Nat
  outlet : Nat
  deriving DecidableEq, Repr, Inhabited

/-- The program state of an engine (R278 to R308). g0 is not stored. -/
structure CpuState where
  /-- g1 to g31; element 0 is never written. -/
  g : Vector Word 32 := Vector.replicate 32 0
  acc : BitVec 64 := 0
  /-- The address the engine fetches next. -/
  pc : Word := 0
  /-- STATUS without RSP, which the depth of the return stack gives (R296, R300). -/
  status : Word := 0
  epc : Word := 0
  estat : Word := 0
  cause : Word := 0
  eval : Word := 0
  vbase : Word := 0
  imask : Word := 0
  rcnt : Word := 0
  scr0 : Word := 0
  scr1 : Word := 0
  /-- The return stack, newest entry first (R296). -/
  rstack : List Word := []
  /-- Runs left of the REP whose body is at `pc` (R306). -/
  left : Nat := 0
  /-- Engine clocks since reset and since the last beat-task start, the part of a clock counted so far in 1/24, and the
  half of CYC that a read of CYCLO latched (R299, R7). -/
  cyc : Nat := 0
  bcyc : Nat := 0
  part : Nat := 0
  cychi : Option Word := none
  /-- What fetch still sees at stored instruction bytes (R294): local address and the byte before the stores since the
  last FENCE. -/
  shadow : List (Nat × Byte) := []
  deriving DecidableEq, Repr, Inhabited

/-- One engine of the cluster beside its registers. -/
structure EngState where
  cpu : CpuState := {}
  /-- The receive mailbox, in the order the sends were opened (R317). -/
  mbox : List Message := []
  /-- The last value read from the mailbox (R318). -/
  lastRx : Word := 0
  /-- Words of the mailbox memory read so far, modulo its 64 words: where the next word lies (the model's own; R29). -/
  rdPos : Nat := 0
  /-- Where its open send goes (R317). -/
  txTo : Option Nat := none
  /-- Writes still ignored after a flush of the target (R319). -/
  txSkip : Nat := 0
  /-- Allocated cells not yet submitted or freed (R323). -/
  alloc : List Nat := []
  /-- Undone packets (R321, R322). -/
  pkts : List HeldPkt := []
  /-- The selected cell (R323). -/
  sel : Option Nat := none
  /-- A SUBMIT write that stalls its bundle (R323). -/
  stalled : Option Word := none
  /-- Watched, and not reset, since the last boundary; kicked since then; the half-beat test is made (R314, R315). -/
  watched : Bool := false
  kicked : Bool := false
  warned : Bool := false
  /-- The state to resume after retention or a halt (R309, R325). -/
  resume : Nat := 0
  deriving DecidableEq, Repr, Inhabited

/-- A takeover arrangement (R324): failed engine, spare; until the next warm reset. -/
structure Takeover where
  failed : Nat
  spare : Nat
  /-- The copy has ended. -/
  done : Bool := false
  deriving DecidableEq, Repr, Inhabited

/-- A job of pipeline G (R330, R331): the context, the operation and LAST, and once it has started the key it uses and
the result its checks gave. -/
structure AesJob where
  n : Nat
  op : Nat
  last : Bool
  /-- The engine that started it: its view of the local ranges holds (R18). -/
  eng : Nat := 0
  /-- AES_CFGn, AES_SRCn, AES_DSTn and AES_LENn at the write. -/
  cfg : Word := 0
  src : Nat := 0
  dst : Nat := 0
  lens : Word := 0
  started : Bool := false
  key : List Byte := []
  slot : Option Nat := none
  fail : Option Nat := none
  deriving DecidableEq, Repr, Inhabited

/-- A command of KEY that runs (R336), with its inputs as they were at the write. -/
structure KeyJob where
  op : Nat
  slot : Nat
  wslot : Nat
  attr : Word
  limit : Nat
  addr : Nat
  data : List Byte
  eng : Nat := 0
  /-- What the checks at the write gave (R336). -/
  fail : Option Nat := none
  deriving DecidableEq, Repr, Inhabited

/-- A job of a PKA channel (R342), with its inputs as they were at the write. -/
structure PkaJob where
  op : Nat
  first : Bool
  last : Bool
  src : Nat
  len : Nat
  key : Nat
  sig : Nat
  dst : Nat
  /-- The engine that started it: its rights hold for the job (R22). -/
  eng : Nat
  /-- R338: at its start, ECSIGN could not use the slot it names. -/
  keyBad : Bool := false
  deriving DecidableEq, Repr, Inhabited

/-- One channel of PKA (R342): its job, and the hash state its last hash job left, as the operation and the message so far.
-/
structure PkaChan where
  job : Option PkaJob := none
  hop : Nat := 0
  msg : List Byte := []
  deriving DecidableEq, Repr, Inhabited

/-- The working state of CTR_DRBG: its key of 32 bytes and its counter block V. -/
structure CtrDrbg where
  key : List Byte := List.replicate 32 0
  v : BitVec 128 := 0
  deriving DecidableEq, Repr, Inhabited

/-- The DRBG (R341): requests since its last seeding, the words left of the 16-word buffer, and the blocks enciphered on the
present seed of the masks, in ERROR those since it began (R329). -/
structure Rng where
  core : CtrDrbg := {}
  reqs : Nat := 0
  buf : List Word := []
  masked : Nat := 0
  deriving DecidableEq, Repr, Inhabited

/-- R344: the secret of one tree of RFC 8554: its seed of 32 bytes and its identifier I of 16. -/
structure LmsSecret where
  seed : List Byte
  id : List Byte
  deriving DecidableEq, Repr, Inhabited

/-- R344: what KEY draws into one-time-programmable bits: the identity scalar, 48 bytes, and the secret of the top tree. -/
structure Identity where
  scalar : List Byte
  top : LmsSecret
  deriving DecidableEq, Repr, Inhabited

/-- SEC beside its registers (R335): the key material of the valid slots. -/
structure SecState where
  keys : List (Nat × List Byte) := []
  rng : Rng := {}
  /-- Jobs of pipeline G, in the order they arrived; the first runs (R328). -/
  aes : List AesJob := []
  /-- The command that runs, with the inputs it took (R336). -/
  cmd : Option KeyJob := none
  pka : Vector PkaChan 2 := Vector.replicate 2 {}
  /-- The channel whose job runs, and the one served last (R342). -/
  pkaRun : Option Nat := none
  pkaLast : Nat := 1
  /-- R336: what runs on channel 0 is the key command. -/
  keyRun : Bool := false
  /-- R348: the lifecycle move that runs. -/
  lcMove : Option Nat := none
  /-- R345: programmed bits of ATTBLK. -/
  attBlk : Nat := 0
  /-- R348: the lifecycle state and the owner root hashes in one-time-programmable bits. -/
  lc : Nat := 0
  roots : List Word := List.replicate 24 0
  /-- R344: the identity in one-time-programmable bits. -/
  identity : Option Identity := none
  /-- R349: challenges drawn before the one that stands. -/
  chal : Nat := 0
  /-- R349: a token waits for its verdict. -/
  token : Option (List Byte) := none
  deriving DecidableEq, Repr, Inhabited

/-- A command of UPD that runs, with the values it took at the write (R370): the command of the host it carries out, if
any, as TAG and source. -/
structure UpdCmd where
  op : Nat
  bundle : Nat := 0
  total : Nat := 0
  index : Nat := 0
  addr : Nat := 0
  /-- Data that come with the command in place of a memory address (R392). -/
  data : Option (List Byte) := none
  abn : Nat := 0
  setctl : Nat := 0
  eng : Nat := 0
  /-- The frame of the host that it carries out in RESCUE: its TAG, its source and its parameters (R392, R395). -/
  host : Option (Nat × Nat × List Byte) := none
  deriving DecidableEq, Repr, Inhabited

/-- UPD beside its registers and the flash (R365, R370 to R377). -/
structure UpdState where
  /-- The command that runs. -/
  cmd : Option UpdCmd := none
  /-- The sub-state of RESCUE. -/
  sub : Nat := 0
  /-- The activation ABN, then the confirmation deadline (always-on). -/
  deadline : Nat := 0
  /-- R3, R366: the recipe commit has been made since the last warm reset. -/
  locked : Bool := false
  /-- RESCUE: the bank the next boundary boots (R370). -/
  rescueBank : Option Nat := none
  /-- The settings copy in service for the recipe that runs. -/
  scur : Nat := 0
  /-- R369: programmed bits of the security counter. -/
  counter : Nat := 0
  /-- The boot after a cold reset is to come (R397). -/
  cold : Bool := true
  /-- The radio microcode loaded (R360, R364 check 6): held, with no command that shows it. -/
  ucode : List Byte := []
  /-- The recipe that was checked last: the RUN bits it commits with (R361). -/
  runBits : Nat := 1
  /-- The activation's deferral in this beat has been recorded (R50, R374). -/
  deferred : Bool := false
  deriving DecidableEq, Repr, Inhabited

/-- A frame HIF is sending (R388): its bytes and its source: 0 a notice, 1 an item, 2 a packet of O5. -/
structure HifFrame where
  bytes : List Byte
  src : Nat
  deriving DecidableEq, Repr, Inhabited

/-- HIF beside its registers. -/
structure HifState where
  /-- The inbound FIFO: for each item its unread words (R390). -/
  inbox : List (List Word) := []
  /-- The last value read from it. -/
  lastIn : Word := 0
  /-- Words taken from each FIFO so far, modulo its 512 words: where its next word lies (the model's own; R29). -/
  inPos : Nat := 0
  outPos : Nat := 0
  /-- The complete items of the outbound FIFO, header first. -/
  outbox : List (List Word) := []
  /-- The item being written: its words so far and how many are still to write. -/
  outOpen : Option (List Word × Nat) := none
  /-- Hardware notices that wait: TAG, CODE, RESULT (R387). -/
  notices : List (Nat × Nat × Nat) := []
  /-- The frame being sent. -/
  cur : Option HifFrame := none
  /-- R386: the bytes of the UART from the SOF of the frame being received. -/
  urx : List Byte := []
  /-- R385: the bytes SPI_MISO carried in the last transaction, the one of the operation byte first. -/
  miso : List Byte := []
  deriving DecidableEq, Repr, Inhabited

/-- The machine. -/
structure State where
  /-- The commands that are waiting, first in, first out. -/
  pending : List Instr := []
  /-- The register file, by engine-view address. -/
  regs : List (Nat × Word) := []
  /-- The word the last read returned to its reader (the model's own). -/
  rdata : Word := 0
  /-- REF cycles since reset: what "the same clock" means between commands (the model's own). -/
  clk : Nat := 0
  /-- Free values drawn so far (the model's own). -/
  drawn : Nat := 0
  /-- R8: what hardware has raised in this clock: fields set to 1 (by 1) and counters, with the amounts. -/
  hot : List (Loc × Nat) := []
  /-- Packet buffer, forwarding table and Jar (R18), by engine-view address. -/
  mem : List Host.Cell := []
  sys : SysState := {}
  pwr : PwrState := {}
  evr : EvrState := {}
  tmr : Vector TmrUnit 8 := Vector.replicate 8 {}
  rtc : RtcState := {}
  pad : PadState := {}
  tsu : TsuState := {}
  /-- Engine local memories (R18): key = engine × 0x2_0000 + local address. -/
  lmem : List Host.Cell := []
  /-- The attached boot flash, by byte address. -/
  flash : List Host.Cell := []
  /-- ECC words that hold a double-bit error (R31): memory ID, instance, word index. -/
  ecc : List (Nat × Nat × Nat) := []
  /-- ECC words that hold a single-bit error no read has met yet (R30). -/
  ecc1 : List (Nat × Nat × Nat) := []
  /-- ECC words written since their domain came on: every other word is marked unwritten (R32). -/
  written : List (Nat × Nat × Nat) := []
  beat : BeatState := {}
  rxc : Vector RxChain 2 := Vector.replicate 2 {}
  slc : Vector SliceState 16 := Vector.replicate 16 {}
  phy : PhyState := {}
  car : Vector (Option Carrier) 8 := Vector.replicate 8 none
  txc : Vector TxChain 2 := Vector.replicate 2 {}
  glz : GlazeState := {}
  lnk : LnkState := {}
  sec : SecState := {}
  qsc : QscState := {}
  msh : MshState := {}
  jjl : Vector JjPort 2 := Vector.replicate 2 {}
  eth : EthState := {}
  eng : Vector EngState 16 := Vector.replicate 16 {}
  takeover : Option Takeover := none
  /-- R323: the next cell of a linked cell; a cell that is not listed is LAST. -/
  links : List (Nat × Nat) := []
  upd : UpdState := {}
  hif : HifState := {}
  deriving DecidableEq, Repr

/-- The machine right after reset: every field at the default written above. -/
def State.reset : State := {}

end Sys2Proof.Machine
end

