-- ==== Sys2Proof/Machine/Ops.lean ====
section
/-! DEFINITION. The named operations over registers and memories that every meaning is written with: a register word, a
field of a register, a saturating counter; a byte or a word of a memory; domains, events, faults, wakes and the crumb
log, which all blocks share. -/
namespace Sys2Proof.Machine

/-- The word stored in the register at address `a`. -/
def State.reg (s : State) (a : Nat) : Word := sget regReset s.regs a

/-- The state with the register at address `a` holding `v`. -/
def State.setReg (s : State) (a : Nat) (v : Word) : State := { s with regs := sset regReset s.regs a v }

/-- The value of a field. -/
def State.get (s : State) (l : Loc) : Nat := fieldOf (s.reg l.addr) l.lo l.w

/-- The state with a field holding the low bits of `v`. -/
def State.set (s : State) (l : Loc) (v : Nat) : State := s.setReg l.addr (putField (s.reg l.addr) l.lo l.w v)

/-- A one-bit field as a Bool. -/
def State.bit (s : State) (l : Loc) : Bool := decide (s.get l = 1)

/-- A field read as two's complement. -/
def State.getS (s : State) (l : Loc) : Int := signed l.w (s.get l)

/-- A signed value stored in a field, held within its width. -/
def State.setS (s : State) (l : Loc) (i : Int) : State := s.set l (unsign l.w (clampS l.w i))

/-- A field after hardware adds `k` to it, saturating at all ones. -/
def State.lift (s : State) (l : Loc) (k : Nat) : State := s.set l (min (2 ^ l.w - 1) (s.get l + k))

/-- R8: hardware adds `k` to a field in this clock, and a write in the same clock finds that it did. -/
def State.incBy (s : State) (l : Loc) (k : Nat) : State := { s.lift l k with hot := s.hot ++ [(l, k)] }

/-- R8: hardware sets a flag in this clock. -/
def State.raise (s : State) (l : Loc) : State := s.incBy l 1

/-- R8: hardware sets bit `n` of a flag map in this clock. -/
def State.raiseBit (s : State) (l : Loc) (n : Nat) : State := s.raise ⟨l.addr, l.lo + n, 1⟩

/-- A counter that rises by one and saturates at all ones. -/
def State.inc (s : State) (l : Loc) : State := s.incBy l 1

/-- Bits of a register set. -/
def State.orReg (s : State) (a : Nat) (m : Nat) : State := s.setReg a (s.reg a ||| BitVec.ofNat 32 m)

/-- Bits of a register cleared. -/
def State.clrReg (s : State) (a : Nat) (m : Nat) : State := s.setReg a (s.reg a &&& ~~~ BitVec.ofNat 32 m)

/-- `f` applied where the condition holds. -/
def State.when (s : State) (c : Bool) (f : State → State) : State := if c then f s else s

/-- `f` applied for each element of a list in order. -/
def State.each {α : Type} (s : State) (l : List α) (f : State → α → State) : State := l.foldl f s

/-! ### ECC words (R29 to R32) -/

/-- The ECC word of a byte of shared memory: packet buffer, forwarding table or Jar. -/
def sharedWord (a : Nat) : Nat × Nat × Nat :=
  if a < 0x11000000 then (2, a % 0x400000 / 0x80000, a % 0x400000 / 8)
  else if a < 0x12000000 then (3, 0, a % 0x40000 / 8)
  else (0xB, 0, a % 0x10000 / 4)

/-- The ECC word of a byte of a local memory, by engine × 0x2_0000 + local address. -/
def localWord (a : Nat) : Nat × Nat × Nat :=
  if a % 0x20000 < 0x10000 then (0, a / 0x20000, a % 0x20000 / 4) else (1, a / 0x20000, a % 0x10000 / 4)

/-- A word that is written is marked written and holds no error any more. -/
def State.wrote (s : State) (e : Nat × Nat × Nat) : State :=
  { s with
    ecc := s.ecc.filter (fun x => decide (x ≠ e))
    ecc1 := s.ecc1.filter (fun x => decide (x ≠ e))
    written := if s.written.contains e then s.written else s.written ++ [e] }

/-- The words that `p` selects are unwritten, and hold no error (R32). -/
def State.unwrite (s : State) (p : Nat × Nat × Nat → Bool) : State :=
  { s with
    ecc := s.ecc.filter (fun x => !p x)
    ecc1 := s.ecc1.filter (fun x => !p x)
    written := s.written.filter (fun x => !p x) }

/-- R30: a read finds and corrects the single-bit errors of the words that `p` selects; a corrected word is written back,
but in the boot ROM. -/
def State.corrected (s : State) (p : Nat × Nat × Nat → Bool) : State :=
  let hit := s.ecc1.filter (fun x => p x && !s.ecc.contains x)
  if hit.isEmpty then s
  else { s with ecc1 := s.ecc1.filter (fun x => decide (x.1 = 0xC) || !hit.contains x) }.incBy SYS_ECCCORR.COUNT hit.length

/-- R31: SYS counts and shows an uncorrectable word. -/
def State.eccReport (s : State) (e : Nat × Nat × Nat) : State :=
  ((((s.inc SYS_ECCUNC.COUNT).set SYS_ECCADDR.MEM e.1).set SYS_ECCADDR.INST e.2.1).set SYS_ECCADDR.WORD e.2.2)

/-! ### Memories -/

/-- A byte of the packet buffer, the forwarding table or the Jar. An unwritten byte reads zero (R32). -/
def State.mbyte (s : State) (a : Nat) : Byte := sget (fun _ => 0) s.mem a

/-- One byte written to shared memory. -/
def State.setMbyte (s : State) (a : Nat) (b : Byte) : State :=
  { s.wrote (sharedWord a) with mem := sset (fun _ => 0) s.mem a b }

/-- Consecutive bytes of a byte reader. -/
def readBytes (f : Nat → Byte) (a : Nat) : Nat → List Byte
  | 0 => []
  | k + 1 => f a :: readBytes f (a + 1) k

/-- `k` bytes of shared memory from address `a`. -/
def State.mbytes (s : State) (a k : Nat) : List Byte := readBytes s.mbyte a k

/-- A byte list written to shared memory from address `a`. -/
def State.setMbytes (s : State) (a : Nat) : List Byte → State
  | [] => s
  | b :: t => (s.setMbyte a b).setMbytes (a + 1) t

/-- A little-endian 32-bit word of shared memory (R11). -/
def State.mword (s : State) (a : Nat) : Word := BitVec.ofNat 32 (leNat (s.mbytes a 4))

/-- A little-endian word written to shared memory. -/
def State.setMword (s : State) (a : Nat) (v : Word) : State := s.setMbytes a (leBytes 4 v.toNat)

/-- A byte of an engine's local memory, by engine × 0x2_0000 + local address. -/
def State.lbyte (s : State) (a : Nat) : Byte := sget (fun _ => 0) s.lmem a

/-- One byte written to a local memory. -/
def State.setLbyte (s : State) (a : Nat) (b : Byte) : State :=
  { s.wrote (localWord a) with lmem := sset (fun _ => 0) s.lmem a b }

/-- `k` bytes of local memory. -/
def State.lbytes (s : State) (a k : Nat) : List Byte := readBytes s.lbyte a k

/-- A byte list written to local memory. -/
def State.setLbytes (s : State) (a : Nat) : List Byte → State
  | [] => s
  | b :: t => (s.setLbyte a b).setLbytes (a + 1) t

/-- What a byte of the flash that nothing has programmed reads as: erased NOR (DESIGN CHOICE, log entry 5). -/
def flashErased : Byte := 0xFF

/-- A byte of the boot flash. -/
def State.fbyte (s : State) (a : Nat) : Byte := sget (fun _ => flashErased) s.flash a

/-- One byte of the boot flash programmed. -/
def State.setFbyte (s : State) (a : Nat) (b : Byte) : State := { s with flash := sset (fun _ => flashErased) s.flash a b }

/-- `k` bytes of the flash. -/
def State.fbytes (s : State) (a k : Nat) : List Byte := readBytes s.fbyte a k

/-- A byte list programmed into the flash. -/
def State.setFbytes (s : State) (a : Nat) : List Byte → State
  | [] => s
  | b :: t => (s.setFbyte a b).setFbytes (a + 1) t

/-- A range of the flash erased. -/
def State.eraseFlash (s : State) (a k : Nat) : State :=
  { s with flash := sdrop (fun x => decide (a ≤ x) && decide (x < a + k)) s.flash }

/-- The canonical form of a memory whose unlisted bytes read `d`. -/
abbrev Memory.wf (d : Byte) (m : List Host.Cell) : Prop := swf (fun _ => d) m = true

/-! ### Time as the blocks see it -/

/-- The ABN, 40 bits (R40). -/
def State.abn (s : State) : Nat := s.get BEAT_ABNHI.ABN * 2 ^ 32 + s.get BEAT_ABNLO.ABN

/-- R260: the TB3 microsecond count used by QSC. -/
def State.tb3us (s : State) : Nat := (vget s.tsu.tb 3).v / 65536 / 1000 % 2 ^ 32

/-! ### Power domains (R414 to R416) -/

/-- The domain numbers of R414. -/
def allDomains : List Nat := List.range 29 ++ (List.range 8).map (· + 32)

/-- A single domain is on and ready: its state is on and its logic stage is ready. -/
def State.dOn (s : State) (d : Nat) : Bool :=
  decide (s.get (PWR_DSTAT.STATE d) = 0) && s.bit (PWR_DSTAT.LOGRDY d)

/-- R415: the cluster part is on while any engine domain is on. -/
def State.clusterOn (s : State) : Bool := (List.range 16).any s.dOn

/-- Whether what lies in domain code `d` of the register tables can be accessed (R416). -/
def State.domOn (s : State) (d : Nat) : Bool :=
  if d ≥ 62 then true
  else if d = 40 then s.clusterOn
  else if d = 41 then s.dOn 16 || s.dOn 17
  else if d = 42 then s.dOn 20 || s.dOn 21
  else s.dOn d

/-- PWR turns one domain on (R420, R422, R423): a pending change of it is cleared; an entry in progress completes first;
otherwise, where it is not on, its stages start. -/
def State.turnOn (s : State) (d : Nat) : State :=
  if d ∉ allDomains then s
  else
    let s := (s.set (PWR_REQ.PEND d) 0).set (PWR_REQ.WAIT d) 0
    if (aget s.pwr.leaving d).isSome then
      { s with pwr := { s.pwr with wakeAfter := s.pwr.wakeAfter ++ [d] } }
    else if s.get (PWR_DSTAT.STATE d) = 0 || (aget s.pwr.waking d).isSome then s
    else
      let from_ := s.get (PWR_DSTAT.STATE d)
      let s := { s with pwr := { s.pwr with waking := s.pwr.waking ++ [(d, decide (from_ = 2))] } }
      s.setReg (PWR_DSTAT.addr d) (BitVec.ofNat 32 (8 + from_))

/-- R424: the recorded wakes whose domains are all ready set PWR_EVT.WAKE. -/
def State.wakeReady (s : State) : State :=
  let sets := s.pwr.wakeSets.map (fun l => l.filter (fun d => !s.dOn d))
  let s' := { s with pwr := { s.pwr with wakeSets := sets.filter (fun l => !l.isEmpty) } }
  if sets.any (·.isEmpty) then s'.raise PWR_EVT.WAKE else s'

/-- R422 to R424: an immediate wake of `ds`. It is ignored while VMAIN is below VMAIN valid after a power fail. A recorded
one writes PWR_LASTWAKE; of two in one clock one record is made, with the lower cause. -/
def State.wake (s : State) (ds : List Nat) (cause detail : Nat) (recorded : Bool) : State :=
  if s.pwr.onVbak then s
  else
    let s := s.each ds State.turnOn
    if !recorded then s
    else
      let s := { s with pwr := { s.pwr with wakeSets := s.pwr.wakeSets ++ [ds] } }
      let same : Option Nat := match s.pwr.lastWake with
        | some (c, k) => if c = s.clk then some k else none
        | none => none
      let s := match same with
        | some k => if cause < k then (s.set PWR_LASTWAKE.CAUSE cause).set PWR_LASTWAKE.DETAIL detail else s
        | none => ((s.inc PWR_LASTWAKE.COUNT).set PWR_LASTWAKE.CAUSE cause).set PWR_LASTWAKE.DETAIL detail
      let best := match same with
        | some k => min cause k
        | none => cause
      { s with pwr := { s.pwr with lastWake := some (s.clk, best) } }.wakeReady

/-- The domains named in PWR_WAKESETL and PWR_WAKESETH, or in another pair of bitmaps. -/
def domainsOf (lo hi : Nat) : List Nat :=
  (List.range 29).filter (fun d => bitOf lo d) ++ ((List.range 8).filter (fun d => bitOf hi d)).map (· + 32)

/-- The wake set. -/
def State.wakeSet (s : State) : List Nat := domainsOf (s.get PWR_WAKESETL.DOM) (s.get PWR_WAKESETH.PB)

/-! ### Faults (R27, R28) -/

/-- A synchronous fault before it reaches its engine: class, block, detail and address (R27, R37, R38). -/
structure AccFault where
  cls : Nat
  block : Nat
  detail : Nat := 0
  addr : Nat := 0
  deriving DecidableEq, Repr

/-- The word SYS_FAULTREC takes. -/
def faultWord (hw : Bool) (eng cls block detail : Nat) : Word :=
  BitVec.ofNat 32 (2 ^ 31 + b2n hw * 2 ^ 24 + eng * 2 ^ 20 + cls * 2 ^ 16 + block * 2 ^ 8 + detail)

/-- R28: the first fault is latched, later ones are counted. Of several in one clock the lowest class code is kept. -/
def State.latchFault (s : State) (cls : Nat) (w : Word) (addr : Nat) : State :=
  if s.get SYS_FAULTREC.VALID = 0 then
    let s := (s.setReg SYS_FAULTREC.addr w).setReg SYS_FAULTADDR.addr (BitVec.ofNat 32 addr)
    { s with sys := { s.sys with faultClk := some s.clk } }
  else
    let s := s.inc SYS_FAULTCNT.COUNT
    if s.sys.faultClk = some s.clk ∧ cls < s.get SYS_FAULTREC.CLASS then
      (s.setReg SYS_FAULTREC.addr w).setReg SYS_FAULTADDR.addr (BitVec.ofNat 32 addr)
    else s

/-- The record of a synchronous fault of engine `e`. Its delivery as an exception is the engine's. -/
def State.recordSync (s : State) (e : Nat) (f : AccFault) : State :=
  s.latchFault f.cls (faultWord false e f.cls f.block f.detail) f.addr

/-- R27: an asynchronous fault raised by a block. The fault engine's domain is woken with cause 7 where it is not on. -/
def State.raiseHw (s : State) (cls block detail : Nat) : State :=
  let s := s.latchFault cls (faultWord true 0 cls block detail) 0
  let e := s.get SYS_FAULTENG.ENGINE
  if s.get (PWR_DSTAT.STATE e) = 0 then s else s.wake [e] 7 e true

/-- R30, R31: block `blk` reads the ECC words that `p` selects: single-bit errors are corrected, and an uncorrectable word is
counted, shown and raised. -/
def State.blockRead (s : State) (blk : Nat) (p : Nat × Nat × Nat → Bool) : State :=
  let s := s.corrected p
  match s.ecc.find? p with
  | some e => (s.eccReport e).raiseHw 4 blk 0
  | none => s

/-! ### Producer pulses (R451, R452, R456) -/

/-- The domain of a producer (R452). -/
def producerDomain (p : Nat) : Nat :=
  if p = 1 then 28
  else if p ≤ 4 then 63
  else if p < 0x80 then 28
  else if p = 0x80 then 16
  else if p = 0x81 then 17
  else if p ≤ 0x83 then 22
  else 28

/-- An event put on channel `k` in this clock. -/
def State.enterEvent (s : State) (k : Nat) : State :=
  { s with evr := { s.evr with transit := s.evr.transit ++ [(k, s.clk)] } }

/-- A producer pulses: every enabled channel of that producer takes an event. While PER is not on only the always-on
copies of WAKE channels are routed. -/
def State.pulse (s : State) (p : Nat) : State :=
  if p = 0 || !s.domOn (producerDomain p) then s
  else if s.dOn 28 then
    s.each (List.range 64) (fun s k =>
      if s.get (EVR_CHCTL.EN k) = 1 ∧ s.get (EVR_CHCFG.PRODUCER k) = p then s.enterEvent k else s)
  else
    s.each s.evr.routes (fun s r => if fieldOf r.2 16 8 = p then s.enterEvent r.1 else s)

/-! ### The crumb log (R393 to R396) -/

/-- The 32 bytes of a crumb-log entry. -/
def crumbEntry (seq abn source code result origin : Nat) (digest : List Byte) : List Byte :=
  let body := leBytes 4 seq ++ leBytes 5 abn ++ leBytes 1 source ++ leBytes 2 code ++ leBytes 2 result ++
    leBytes 2 origin ++ (digest ++ List.replicate 12 0).take 12
  body ++ leBytes 4 (crc32 body)

/-- The Jar address of the entry with sequence number `seq`. -/
def crumbAddr (seq : Nat) : Nat := 0x12008000 + 32 * (seq % 1024)

/-- JRN writes an entry, increments HEAD, and lets the mirror fall behind by at most 1,023 entries. -/
def State.journal (s : State) (source code result origin : Nat) (digest : List Byte) : State :=
  let seq := s.get JRN_HEAD.SEQ
  let s := s.setMbytes (crumbAddr seq) (crumbEntry seq s.abn source code result origin digest)
  let head := (seq + 1) % 2 ^ 32
  let s := (s.set JRN_HEAD.SEQ head).raise JRN_EVT.APPENDED
  if ageOf 32 head (s.get JRN_MIRHEAD.SEQ) ≥ 1024 then
    (s.set JRN_MIRHEAD.SEQ (head + 2 ^ 32 - 1023)).raise JRN_EVT.MIRLOST
  else s

/-- R395: an entry that hardware appends. -/
def State.journalHw (s : State) (code result : Nat) : State := s.journal 0 code result 0 []

/-! ### Free values -/

/-- The next free value: a number no proof can see (the counter is the model's own). -/
def State.draw (s : State) : State := { s with drawn := s.drawn + 1 }

end Sys2Proof.Machine
end

