-- ==== Sys2Proof/Machine/Time.lean ====
section
/-! DEFINITION. Chapter 10: the four time bases, steps and the arm, the servo of TB0, calibration of the SLOW clock, and
the advance across sleep, warm reset and holdover. A base is a number of 2^-16 ns; what an engine reads as SEC, NS and
FRAC is computed from it (R257). -/
namespace Sys2Proof.Machine

/-- R257: one past the largest value of a base, in 2^-16 ns. -/
def tbMod : Nat := 2 ^ 48 * 1000000000 * 65536

/-- SEC of a base value. -/
def tbSec (v : Nat) : Nat := v / (1000000000 * 65536)

/-- NS of a base value. -/
def tbNs (v : Nat) : Nat := v / 65536 % 1000000000

/-- FRAC of a base value. -/
def tbFrac (v : Nat) : Nat := v % 65536

/-- The base value with the given SEC, NS and FRAC. -/
def tbOf (sec ns frac : Nat) : Nat := (sec * 1000000000 + ns) * 65536 + frac

/-- Denominator of the residue: a REF cycle is 625/24 ns, a rate unit 2^-40, a slew unit 10^-6. -/
def tbDen : Nat := 24 * 1000000 * 2 ^ 40

/-- Extra slew gained in one REF cycle for each ppm, in the units of the pending phase. -/
def slewUnit : Nat := 625 * 65536

/-- What one REF cycle adds to a base whose rate adjustment is `rate`, in 1/tbDen of 2^-16 ns (R258). `ppm` is the error of
the clock that stands for REF. -/
def refInc (rate ppm : Int) : Nat := ((slewUnit : Int) * (2 ^ 40 + rate) * (1000000 + ppm)).toNat

/-- R258: a base advanced by a number of 1/tbDen of a unit; the residue is carried. -/
def TimeBase.add (b : TimeBase) (inc : Nat) : TimeBase :=
  let t := b.res + inc
  { v := (b.v + t / tbDen) % tbMod, res := t % tbDen }

/-- SYSPLL is in holdover (R15). -/
def State.holdover (s : State) : Bool := s.bit SYS_CLKSTAT.HOLDOVER

/-- The signed rate adjustment of base `n`. -/
def State.rate (s : State) (n : Nat) : Int := if n = 3 then 0 else s.getS (TSU_RATE.RATE n)

/-- One base changed. -/
def State.modTb (s : State) (n : Nat) (f : TimeBase → TimeBase) : State :=
  { s with tsu := { s.tsu with tb := vmod s.tsu.tb n f } }

/-- The value of base `n`. -/
def State.tb (s : State) (n : Nat) : Nat := (vget s.tsu.tb n).v

/-- TSU_PHASE and TSU_STAT.SLEWING as the pending phase makes them (R264, R274). P is shown in ns, rounded toward zero. -/
def State.showPhase (s : State) : State :=
  (s.setS TSU_PHASE.P (Int.tdiv s.tsu.phase (65536 * 24000000))).set TSU_STAT.SLEWING
    (b2n (decide (s.tsu.phase ≠ 0) && !s.bit TSU_STAT.HOLD))

/-- The pending phase replaced. -/
def State.setPhase (s : State) (p : Int) : State := { s with tsu := { s.tsu with phase := p } }.showPhase

/-- R264: how much of the pending phase one REF cycle takes, with its sign. -/
def State.slewStep (s : State) : Int :=
  let m : Int := (slewUnit * s.get TSU_SERVO.SLEW : Nat)
  max (-m) (min s.tsu.phase m)

/-- R272: PER is coming back and its oscillator stage is ready: TB0 and TB3 count from E1 on, before the logic is. -/
def State.perWaking (s : State) : Bool := (aget s.pwr.waking 28).isSome && s.bit (PWR_DSTAT.OSCRDY 28)

/-- R258, R264: TB0 and TB3 advanced by one REF cycle, unless they stand between E0 and E1 (R272). -/
def State.netCycle (s : State) : State :=
  let e := s.slewStep
  let inc0 := (((refInc (s.rate 0) 0 : Nat) : Int) + e * 2 ^ 40).toNat
  if s.tsu.sleep.isSome then s
  else
    let s1 := (s.modTb 0 (·.add inc0)).modTb 3 (·.add (refInc 0 0))
    if e = 0 then s1 else s1.setPhase (s.tsu.phase - e)

/-- R258, R260, R264, R272, R274: one REF cycle. TB0 and TB3 stand still here in holdover and between E0 and E1; TB1 and
TB2 count while PER is on. -/
def State.refCycle (s : State) : State :=
  if !s.dOn 28 then (if s.perWaking && !s.holdover then s.netCycle else s)
  else if s.holdover then
    let ppm := max (-5000) (min (Config.holdError s.clk) 5000)
    (s.modTb 1 (·.add (refInc (s.rate 1) ppm))).modTb 2 (·.add (refInc
      (if s.bit TSU_CTRL.TB2FOLLOW then s.rate 0 else s.rate 2) ppm))
  else
    let e := s.slewStep
    let inc0 := (((refInc (s.rate 0) 0 : Nat) : Int) + e * 2 ^ 40).toNat
    let s1 := s.modTb 1 (·.add (refInc (s.rate 1) 0))
    (s1.modTb 2 (·.add (if s.bit TSU_CTRL.TB2FOLLOW then inc0 else refInc (s.rate 2) 0))).netCycle

/-- R271, R272, R274: what `n` SLOW ticks add to a base with rate adjustment `rate`, in 1/tbDen units. -/
def slowInc (n slcal : Nat) (rate : Int) : Nat := ((n * slcal * 24000000 : Nat) * (2 ^ 40 + rate)).toNat

/-- R274: a SLOW tick in holdover advances TB0 and TB3. -/
def State.holdTick (s : State) : State :=
  if s.holdover && s.dOn 28 && !s.tsu.sleep.isSome then
    let c := s.get TSU_SLCAL.PERIOD
    (s.modTb 0 (·.add (slowInc 1 c (s.rate 0)))).modTb 3 (·.add (slowInc 1 c 0))
  else s

/-- R272: a SLOW tick between E0 and E1 is counted, up to 2^40 - 1. -/
def State.sleepTick (s : State) : State :=
  match s.tsu.sleep with
  | some l => { s with tsu := { s.tsu with sleep := some { l with n := min (2 ^ 40 - 1) (l.n + 1) } } }
  | none => s

/-! ### Reading and capturing (R259) -/

/-- A half that the next read of its address returns (R7). -/
def State.latchAt (s : State) (a : Nat) (v : Word) : State :=
  { s with sys := { s.sys with latched := aput s.sys.latched a v } }

/-- R259: a read of FRAC latches the other three words of the base. -/
def State.fracRead (s : State) (n : Nat) : State :=
  let v := s.tb n
  ((s.latchAt (TSU_TBNS.addr n) (BitVec.ofNat 32 (tbNs v))).latchAt (TSU_TBSECLO.addr n)
    (BitVec.ofNat 32 (tbSec v))).latchAt (TSU_TBSECHI.addr n) (BitVec.ofNat 32 (tbSec v / 2 ^ 32))

/-- R259: base `n` captured into its snapshot registers. -/
def State.capture (s : State) (n : Nat) : State :=
  let v := s.tb n
  (((s.set (TSU_SNAPNS.NS n) (tbNs v)).set (TSU_SNAPSECLO.SEC n) (tbSec v)).set (TSU_SNAPX.SECHI n)
    (tbSec v / 2 ^ 32)).set (TSU_SNAPX.FRAC n) (tbFrac v)

/-- The bases of a mask captured in one REF cycle. -/
def State.captureMask (s : State) (m : Nat) : State :=
  s.each ((List.range 4).filter (fun n => bitOf m n)) State.capture

/-! ### Steps and the arm (R261) -/

/-- Bit `n` of TSU_STAT.VALID set or cleared. -/
def State.setValid (s : State) (n : Nat) (b : Bool) : State := s.set ⟨TSU_STAT.addr, 4 + n, 1⟩ (b2n b)

/-- Bit `n` of TSU_STAT.ARM set or cleared. -/
def State.setArm (s : State) (n : Nat) (b : Bool) : State := s.set ⟨TSU_STAT.addr, n, 1⟩ (b2n b)

/-- Base `n` is armed. -/
def State.armed (s : State) (n : Nat) : Bool := decide (n < 3) && bitOf (s.get TSU_STAT.ARM) n

/-- R261: a step carried out at a REF edge: the base takes the value, or gains the offset exactly, its residue carried. A
step of TB0 clears the pending phase and the record of the last offset, the ABN follows at the first boundary after it
(R41), and the advance of a holdover is counted without it (R274). -/
def State.stepTo (s : State) (n : Nat) (rel : Bool) (v : Nat) : State :=
  let was := s.tb n
  let s := s.modTb n (fun b => if rel then { b with v := (b.v + v) % tbMod } else { v := v % tbMod, res := 0 })
  let s := (s.setValid n true).raise TSU_EVT.STEP
  if n = 0 then
    let now := s.tb 0
    let hold := s.tsu.holdFrom.map (fun h => (h + now + tbMod - was) % tbMod)
    let s := s.setPhase 0
    let old (j : JjPort) : JjPort := { j with bas := j.bas.map (fun b => { b with stale := true }) }
    { s with
      tsu := { s.tsu with lastTaken := none, ofs := none, steps := s.tsu.steps + 1, holdFrom := hold }
      beat := { s.beat with stepped := true }
      jjl := s.jjl.map old }
  else s

/-- R261: the value or offset that a step request of base `n` names. Seconds read as signed 48-bit wrap modulo 2^48 s. -/
def State.stepValue (s : State) (n : Nat) : Nat :=
  tbOf (s.get (TSU_STEPX.SECHI n) * 2 ^ 32 + s.get (TSU_STEPSECLO.SEC n)) (s.get (TSU_STEPNS.NS n)) (s.get (TSU_STEPX.FRAC n))

/-- R261: a step is taken up for the next REF edge, and its arm is consumed. -/
def State.askStep (s : State) (n : Nat) (rel : Bool) (v : Nat) : State :=
  { s.setArm n false with tsu := { s.tsu with stepDue := s.tsu.stepDue ++ [(n, rel, v)] } }

/-- R259, R261: a write of TSU_STEPnCMD. The capture comes first, then the arm, then the step. -/
def State.stepCmd (s : State) (n : Nat) (w : Word) : State :=
  let s := if fieldOf w 3 1 = 1 ∧ n < 3 then s.capture n else s
  let key := fieldOf w 16 16 = 0xC6A0
  let s := if key ∧ fieldOf w 2 1 = 1 ∧ n < 3 then s.setArm n true else s
  if fieldOf w 0 1 = 1 then
    if key ∧ n < 3 ∧ s.armed n ∧ s.get (TSU_STEPNS.NS n) ≤ 999999999 then
      s.askStep n (decide (fieldOf w 1 1 = 1)) (s.stepValue n)
    else s.raise TSU_EVT.STEPREF
  else s

/-- R222, R261: the step of TB0 to `v` that a Jajor ADOPT asks for. -/
def State.adoptStep (s : State) (v : Nat) : State :=
  if s.armed 0 then s.askStep 0 false v else s.raise TSU_EVT.STEPREF

/-! ### The servo (R263, R264) -/

/-- An offset in 2^-16 ns: LNK gives 0.1 us, a Jajor port 1/16 ns. -/
def ofsUnits (src : OfsSource) (o : Int) : Int :=
  match src with
  | .lnk => o * 6553600
  | .jjl0 => o * 4096
  | .jjl1 => o * 4096

/-- The bit of TSU_SERVO.SRCEN of a source. -/
def ofsBit : OfsSource → Nat
  | .lnk => 0
  | .jjl0 => 1
  | .jjl1 => 2

/-- R222: a follower port shows SYNC. -/
def State.followerSync (s : State) : Bool :=
  (List.range 2).any (fun p => decide (fieldOf (vget s.jjl p).ctrl 29 2 = 2) && s.bit (JJL_STAT.SYNC p))

/-- R264: the change of RATE0 for an offset `o` taken `dt` after the one before, both in 2^-16 ns. -/
def freqTerm (o : Int) (dt ish : Nat) : Int := roundDiv (o * 2 ^ 40) (dt * 2 ^ ish)

/-- R264: what an offset `o` adds to RATE0, before RATE0 saturates. -/
def State.rateTerm (s : State) (o : Int) : Int :=
  match s.tsu.lastTaken with
  | some t =>
    let dt := (s.tb 3 + tbMod - t) % tbMod
    if s.bit TSU_SERVO.FREQEN && decide (100000000 * 65536 ≤ dt) && decide (dt ≤ 1000000000000 * 65536) then
      freqTerm o dt (s.get TSU_SERVO.ISH)
    else 0
  | none => 0

/-- R264: an offset `o` in 2^-16 ns is taken: it is shown, RATE0 takes its term and the pending phase becomes `o`. -/
def State.takeOffset (s : State) (src : OfsSource) (o : Int) : State :=
  let was : OfsTaken := {
    clk := s.clk, src := src, phase := s.tsu.phase, last := s.tsu.lastTaken, lastofs := s.reg TSU_LASTOFS.addr,
    rate := s.reg (TSU_RATE.addr 0), term := s.rateTerm o }
  let s := (s.setS TSU_LASTOFS.O (Int.tdiv o 65536)).setS (TSU_RATE.RATE 0) (s.rate 0 + was.term)
  { s with tsu := { s.tsu with lastTaken := some (s.tb 3), ofs := some was } }.setPhase (o * 24000000)

/-- R263: an offset that was taken is taken back, for one of an earlier source in the same clock. -/
def State.untakeOffset (s : State) (w : OfsTaken) : State :=
  let s := (s.setReg TSU_LASTOFS.addr w.lastofs).setReg (TSU_RATE.addr 0) w.rate
  { s with tsu := { s.tsu with lastTaken := w.last, ofs := none } }.setPhase w.phase

/-- R263: the place of a source in the order JJL0, JJL1, LNK. -/
def ofsOrder : OfsSource → Nat
  | .jjl0 => 0
  | .jjl1 => 1
  | .lnk => 2

/-- R263: an offset that nothing rejects. Of several in one clock the first in the order of their sources is taken; the
others are discarded and not counted. -/
def State.acceptOffset (s : State) (src : OfsSource) (u : Int) : State :=
  match s.tsu.ofs.filter (fun w => decide (w.clk = s.clk)) with
  | some w => if ofsOrder src < ofsOrder w.src then (s.untakeOffset w).takeOffset src u else s
  | none => (s.inc TSU_OFSCNT.TAKEN).takeOffset src u

/-- R263: an offset arrives at the servo. -/
def State.servoOffset (s : State) (src : OfsSource) (o : Int) (before : Bool) : State :=
  let u := ofsUnits src o
  if src = .lnk ∧ s.followerSync then s
  else if u.natAbs > s.get TSU_SERVO.OFSMAX * 1000 * 65536 then (s.inc TSU_OFSCNT.REJ).raise TSU_EVT.OFSREJ
  else if !bitOf (s.get TSU_SERVO.SRCEN) (ofsBit src) || before || s.bit TSU_STAT.HOLD then s.inc TSU_OFSCNT.REJ
  else s.acceptOffset src u

/-- R264, R8: a write of TSU_RATE0 in the clock in which the servo changed it: the servo's change is applied to the word. -/
def State.rateReheat (s : State) : State :=
  match s.tsu.ofs.filter (fun w => decide (w.clk = s.clk)) with
  | some w => s.setS (TSU_RATE.RATE 0) (s.rate 0 + w.term)
  | none => s

/-- SERVO_OFFSET. -/
def execServoOffset (src : OfsSource) (o : Int) (before : Bool) (s : State) : Host.Outcome State Fault Refusal :=
  .next (s.servoOffset src o before)

/-- SLEW_COMPLETE (R264): the rest of the pending phase has been gained; the slew stops. -/
def State.slewComplete (s : State) : State :=
  if s.bit TSU_STAT.HOLD then s
  else
    let v := ((s.tb 0 : Int) * 24000000 + (vget s.tsu.tb 0).res / 2 ^ 40 + s.tsu.phase) % ((tbMod * 24000000 : Nat) : Int)
    let n := v.toNat
    (s.modTb 0 (fun b => { v := n / 24000000 % tbMod, res := n % 24000000 * 2 ^ 40 + b.res % 2 ^ 40 })).setPhase 0

/-- SLEW_COMPLETE. -/
def execSlewComplete (s : State) : Host.Outcome State Fault Refusal := .next s.slewComplete

/-- TB_SECOND_ROLLOVER (R452): a base that rolls over a second pulses its producer. TB3 has none. -/
def execTbSecondRollover (n : Fin 4) (s : State) : Host.Outcome State Fault Refusal :=
  .next (if n.val < 3 then s.pulse (0x84 + n.val) else s)

/-! ### Calibration, sleep and holdover (R271 to R274) -/

/-- R271: the uncertainty of a window of each length, in 0.01 ppm. -/
def calUnc (calwin : Nat) : Nat := if calwin = 0 then 84 else if calwin = 1 then 21 else if calwin = 2 then 6 else 2

/-- SLOW_CAL_WINDOW (R271): the window ends. It is discarded where REF or SLOW did not run through it. -/
def State.slowCal (s : State) (mean : Word) : State :=
  if s.holdover || !s.bit SYS_CLKSTAT.SLOWOK || !s.dOn 28 then s
  else
    let s := s.set TSU_SLCAL.PERIOD mean.toNat
    ((s.set TSU_SLUNC.UNC (calUnc (s.get TSU_SLPCFG.CALWIN))).set TSU_SLUNC.CALOK 1).raise TSU_EVT.CALDONE

/-- SLOW_CAL_WINDOW. -/
def execSlowCalWindow (meanPeriod : Word) (s : State) : Host.Outcome State Fault Refusal :=
  .next (s.slowCal meanPeriod)

/-- R273: the error bound of an advance of `adv` 2^-16 ns with `unc` and `drift` in 0.01 ppm. -/
def slpErr (adv unc drift : Nat) : Nat := min (2 ^ 32 - 1) (ceilDiv (adv * (unc + drift)) (65536 * 100000000) + 100)

/-- R272: at E0 the bases and the calibration are latched and P is cleared. -/
def State.latchE0 (s : State) (slow : Bool) : State :=
  let l : SleepLatch := {
    tb0 := s.tb 0, tb3 := s.tb 3, rate0 := s.tsu.edgeRate.getD (s.reg (TSU_RATE.addr 0)),
    slcal := s.reg TSU_SLCAL.addr, unc := BitVec.ofNat 32 (s.get TSU_SLUNC.UNC), slow := slow }
  let s := s.setPhase 0
  { s with tsu := { s.tsu with sleep := some l, resetEdge := false, edgeRate := none } }

/-- R272, R273: at E1 TB0 and TB3 take their values, and the bound is written. -/
def State.exitE1 (s : State) (slow : Bool) : State :=
  match s.tsu.sleep with
  | none => s
  | some l =>
    let s := { s with tsu := { s.tsu with sleep := none } }
    if !(slow && l.slow) then
      let s := (s.modTb 0 (fun _ => { v := l.tb0 })).modTb 3 (fun _ => { v := l.tb3 })
      (s.setValid 0 false).raise TSU_EVT.NOSLOW
    else
      let rate := signed 32 l.rate0.toNat
      let b0 := ({ v := l.tb0 } : TimeBase).add (slowInc l.n l.slcal.toNat rate)
      let b3 := ({ v := l.tb3 } : TimeBase).add (slowInc l.n l.slcal.toNat 0)
      let adv := slowInc l.n l.slcal.toNat rate / tbDen
      let s := (s.modTb 0 (fun _ => b0)).modTb 3 (fun _ => b3)
      let s := (s.setReg TSU_SLPTICKLO.addr (BitVec.ofNat 32 l.n)).set TSU_SLPTICKHI.N (l.n / 2 ^ 32)
      let s := s.set TSU_SLPERR.NS (slpErr adv l.unc.toNat (s.get TSU_SLPCFG.DRIFT))
      if l.n = 2 ^ 40 - 1 then ((s.setValid 0 false).set TSU_STAT.SLPOVF 1).raise TSU_EVT.SLPOVF
      else s.set TSU_STAT.SLPOVF 0

/-- R274: TSU at holdover entry. -/
def State.tsuHold (s : State) : State :=
  let s := { s with tsu := { s.tsu with holdFrom := some (s.tb 0) } }
  (s.set TSU_STAT.HOLD 1).showPhase

/-- R274: TSU at holdover exit: the bound over the holdover's advance of TB0, and the slew resumes. -/
def State.tsuUnhold (s : State) : State :=
  let s := match s.tsu.holdFrom with
    | some v => s.set TSU_HOLDERR.NS
        (slpErr ((s.tb 0 + tbMod - v) % tbMod) (s.get TSU_SLUNC.UNC) (s.get TSU_SLPCFG.DRIFT))
    | none => s
  let s := { s with tsu := { s.tsu with holdFrom := none } }
  (s.set TSU_STAT.HOLD 0).showPhase

/-- R269: a stamp record of base value `v` in the two words at address `a`. -/
def State.stampAt (s : State) (a v : Nat) : State :=
  (s.setReg a (BitVec.ofNat 32 (tbNs v))).setReg (a + 4) (BitVec.ofNat 32 (tbSec v % 65536 * 65536 + tbFrac v))

/-- A base value moved by `d` sixteenths of a nanosecond (R267, R268). -/
def shiftSixteenths (v : Nat) (d : Int) : Nat := ((v : Int) + d * 4096) % (tbMod : Int) |>.toNat

end Sys2Proof.Machine
end

