-- ==== Sys2Proof/Machine/Rtc.lean ====
section
/-! DEFINITION. Chapter 17: the real-time clock and calendar. -/
namespace Sys2Proof.Machine

/-- R433: a leap year, from YEAR 0 to 399 meaning 2000 to 2399. -/
def leapYear (y : Nat) : Bool := decide (y % 4 = 0) && (decide (y % 100 ≠ 0) || decide (y % 400 = 0))

/-- R433: the length of a month. -/
def monthLen (y m : Nat) : Nat :=
  if m = 2 then (if leapYear y then 29 else 28)
  else if m = 4 ∨ m = 6 ∨ m = 9 ∨ m = 11 then 30 else 31

/-- Days from 2000-01-01 to the first day of a year. -/
def yearDays (y : Nat) : Nat := 365 * y + (y + 3) / 4 - (y + 99) / 100 + (y + 399) / 400

/-- Days from the first of January to the first of a month. -/
def monthDays (y : Nat) : Nat → Nat
  | 0 => 0
  | 1 => 0
  | m + 1 => monthDays y m + monthLen y m

/-- R433, R434: the weekday of a date, 1 Monday to 7 Sunday; 2000-01-01 is a Saturday. -/
def weekday (y m d : Nat) : Nat := (yearDays y + monthDays y m + (d - 1) + 5) % 7 + 1

/-- A time word: HOUR, MIN, SEC. -/
def timeWord (h m sec : Nat) : Word := BitVec.ofNat 32 (h * 65536 + m * 256 + sec)

/-- A date word: WDAY, YEAR, MONTH, DAY. -/
def dateWord (wd y m d : Nat) : Word := BitVec.ofNat 32 (wd * 2 ^ 29 + y * 2 ^ 20 + m * 256 + d)

/-- R433: staged time and date words lie within the calendar's ranges. -/
def dateOk (t d : Word) : Bool :=
  let y := fieldOf d 20 9
  let m := fieldOf d 8 4
  let day := fieldOf d 0 5
  decide (fieldOf t 16 8 ≤ 23) && decide (fieldOf t 8 8 ≤ 59) && decide (fieldOf t 0 8 ≤ 59) &&
    decide (y ≤ 399) && decide (1 ≤ m) && decide (m ≤ 12) && decide (1 ≤ day) && decide (day ≤ monthLen y m)

/-- One second later: time word, date word, and whether the century wrapped (R434). -/
def nextSecond (t d : Word) : Word × Word × Bool :=
  let h := fieldOf t 16 8
  let mi := fieldOf t 8 8
  let sec := fieldOf t 0 8
  let y := fieldOf d 20 9
  let m := fieldOf d 8 4
  let day := fieldOf d 0 5
  if sec < 59 then (timeWord h mi (sec + 1), d, false)
  else if mi < 59 then (timeWord h (mi + 1) 0, d, false)
  else if h < 23 then (timeWord (h + 1) 0 0, d, false)
  else
    let wd := fieldOf d 29 3 % 7 + 1
    if day < monthLen y m then (timeWord 0 0 0, dateWord wd y m (day + 1), false)
    else if m < 12 then (timeWord 0 0 0, dateWord wd y (m + 1) 1, false)
    else if y < 399 then (timeWord 0 0 0, dateWord wd (y + 1) 1 1, false)
    else (timeWord 0 0 0, dateWord wd 0 1 1, true)

/-- R438: an alarm's two words match a time and date: every field whose mask bit is 0 is equal. -/
def alarmMatch (at_ ad t d : Word) : Bool :=
  let same (mask : Word) (bit : Nat) (a b : Word) (lo w : Nat) : Bool :=
    decide (fieldOf mask bit 1 = 1) || decide (fieldOf a lo w = fieldOf b lo w)
  decide (fieldOf at_ 31 1 = 1) && same at_ 26 at_ t 16 8 && same at_ 25 at_ t 8 8 && same at_ 24 at_ t 0 8 &&
    same ad 19 ad d 20 9 && same ad 18 ad d 8 4 && same ad 17 ad d 0 5 && same ad 16 ad d 29 3

/-- R437: the trim at edge `i` of a window for a latched correction T. -/
def trimAt (i : Nat) (t : Int) : Int :=
  let m := t.natAbs
  if m = 0 then 0
  else
    let k := 1048576 / m
    if i % k = 0 ∧ i / k < m then (if 0 < t then 1 else -1) else 0

/-- R438: one alarm judged after a second advanced: its event bit, its producer and, where enabled, the wake. -/
def State.alarm (s : State) (n : Nat) (at_ ad : Word) (wakeEn : Loc) : State :=
  if alarmMatch at_ ad (s.reg RTC_TIME.addr) (s.reg RTC_DATE.addr) then
    let s := (s.raise ⟨RTC_EVT.addr, n, 1⟩).pulse (3 + n)
    if s.bit wakeEn then s.wake s.wakeSet 3 n true else s
  else s

/-- R432, R434, R438: a carry advances one second and evaluates both alarms. -/
def State.rtcSecond (s : State) : State :=
  let r := nextSecond (s.reg RTC_TIME.addr) (s.reg RTC_DATE.addr)
  let s := (s.setReg RTC_TIME.addr r.1).setReg RTC_DATE.addr r.2.1
  let s := if r.2.2 then s.raise RTC_STAT.CENTURY_WRAP else s
  let s := (s.alarm 0 (s.reg RTC_ALM0T.addr) (s.reg RTC_ALM0D.addr) PWR_WAKEEN.ALARM0)
  let s := (s.alarm 1 (s.reg RTC_ALM1T.addr) (s.reg RTC_ALM1D.addr) PWR_WAKEEN.ALARM1)
  (s.raise RTC_EVT.SECOND).pulse 2

/-- R432: a carry out of the prescaler is absorbed by BORROW, or advances one second. -/
def State.rtcCarry (s : State) : State :=
  if s.bit RTC_STAT.BORROW then s.set RTC_STAT.BORROW 0 else s.rtcSecond

/-- R432: the RTC's work at a rising edge of SLOW. -/
def State.rtcEdge (s : State) : State :=
  let s := if s.rtc.i = 0 then { s with rtc := { s.rtc with trimT := s.getS RTC_TRIM.T } } else s
  let i' := (s.rtc.i + 1) % 1048576
  match s.rtc.setCopy with
  | some (t, d) =>
    let s := { s with rtc := { s.rtc with i := i', setCopy := none, shift := 0 } }
    let y := fieldOf d 20 9
    let m := fieldOf d 8 4
    let day := fieldOf d 0 5
    let s := (s.setReg RTC_TIME.addr t).setReg RTC_DATE.addr (dateWord (weekday y m day) y m day)
    ((((s.set RTC_SUBSEC.PRE 0).set RTC_STAT.BORROW 0).set RTC_STAT.SHPEND 0).set RTC_STAT.INVALID 0).set
      RTC_STAT.SETPEND 0
  | none =>
    let pre : Int := s.get RTC_SUBSEC.PRE + 1 + trimAt s.rtc.i s.rtc.trimT + s.rtc.shift
    let s := { s with rtc := { s.rtc with i := i', shift := 0 } }
    let s := s.set RTC_STAT.SHPEND 0
    let s := if 32768 ≤ pre then s.rtcCarry else s
    let s := if 65536 ≤ pre then s.rtcCarry else s
    if pre < 0 then (s.set RTC_SUBSEC.PRE (pre + 32768).toNat).set RTC_STAT.BORROW 1
    else s.set RTC_SUBSEC.PRE (pre % 32768).toNat

/-- RTC_TICK (R432): a rising edge of SLOW. The same edge counts the sleep of TSU (R272) and advances TB0 and TB3 in holdover
(R274). With the AO domain powered down there is no edge. -/
def execRtcTick (s : State) : Host.Outcome State Fault Refusal :=
  .next (if s.pwr.aoDown then s else s.rtcEdge.sleepTick.holdTick)

/-- R435: a write of RTC_CMD. -/
def State.rtcCmd (s : State) (w : Word) : State :=
  if fieldOf w 16 16 = 0xC6A0 ∧ fieldOf w 0 1 = 1 then
    let t := s.reg RTC_SETTIME.addr
    let d := s.reg RTC_SETDATE.addr
    if dateOk t d then { s with rtc := { s.rtc with setCopy := some (t, d) } }.set RTC_STAT.SETPEND 1
    else s.raise RTC_STAT.BADDATE
  else s

/-- R436: a write of RTC_SHIFT. -/
def State.rtcShiftCmd (s : State) (w : Word) : State :=
  let sh := signed 16 (fieldOf w 0 16)
  if sh = -32768 ∨ s.bit RTC_STAT.BORROW then s
  else { s with rtc := { s.rtc with shift := sh } }.set RTC_STAT.SHPEND (b2n (decide (sh ≠ 0)))

/-- R435: a read of RTC_SUBSEC latches the time and date of the same edge. -/
def State.subsecRead (s : State) : State :=
  (s.latchAt RTC_TIME.addr (s.reg RTC_TIME.addr)).latchAt RTC_DATE.addr (s.reg RTC_DATE.addr)

/-- SLOW_LOSS (R439): SLOWOK falls; SLOW edges are missed from here on (R272). -/
def execSlowLoss (s : State) : Host.Outcome State Fault Refusal :=
  .next (if s.pwr.aoDown then s else
    let s := (s.set SYS_CLKSTAT.SLOWOK 0).set RTC_STAT.INVALID 1
    match s.tsu.sleep with
    | some l => { s with tsu := { s.tsu with sleep := some { l with slow := false } } }
    | none => s)

/-- SLOW_CLOCK_RETURN (R38, R442): SLOWOK becomes 1. INVALID stays until a set (R439). -/
def execSlowClockReturn (s : State) : Host.Outcome State Fault Refusal :=
  .next (if s.pwr.aoDown then s else s.set SYS_CLKSTAT.SLOWOK 1)

end Sys2Proof.Machine
end

