-- ==== Sys2Proof/Machine/Timers.lean ====
section
/-! DEFINITION. Chapters 18 and 19: GPIO levels, timer units, event channels and praline cells. -/
namespace Sys2Proof.Machine

/-! ### GPIO levels (R427, R467, R469, R483, R484) -/

/-- PAD_OUT as it reaches the pads: the frozen copy while the GPIO latches hold. -/
def State.padOut (s : State) : Word :=
  match s.pad.gpioHold with
  | some (o, _) => o
  | none => s.reg PAD_OUT.addr

/-- PAD_CFGk as it reaches the pad. -/
def State.padCfg (s : State) (k : Nat) : Word :=
  match s.pad.gpioHold with
  | some (_, cs) => cs.getD k 0
  | none => s.reg (PAD_CFG.addr k)

/-- The level of GPIO `k` after its synchroniser: 0 while VIOOK is 0; low where HIF drives attention on it; an output's own
level, where an open-drain output only pulls low; else the level from outside. -/
def State.gpioLevel (s : State) (k : Nat) : Bool :=
  let ext := bitOf s.pad.ext.toNat k
  let cfg := s.padCfg k
  let func := fieldOf cfg 8 3
  if !s.pad.vioOk then false
  else if s.bit PAD_STAT.ATTN && decide (s.get HIF_CTRL.ATTNGPIO = k) then false
  else if s.bit HIF_CTRL.ATTNEN && decide (s.get HIF_CTRL.ATTNGPIO = k) then ext
  else if func = 1 ∨ func = 2 then
    if !bitOf s.padOut.toNat k then false else if fieldOf cfg 0 1 = 1 then ext else true
  else ext

/-- A change to the pads: every GPIO whose level it moves pulses its edge producer (R452, R484). -/
def State.withPads (s : State) (f : State → State) : State :=
  let s' := f s
  s'.each (List.range 32) (fun t k =>
    if s'.gpioLevel k = s.gpioLevel k then t
    else t.pulse (if s'.gpioLevel k then 0x20 + k else 0x40 + k))

/-- GPIO_EDGE (R452). -/
def execGpioEdge (k : Fin 32) (level : Bool) (s : State) : Host.Outcome State Fault Refusal :=
  .next (s.withPads (fun s => { s with pad := { s.pad with ext := putField s.pad.ext k.val 1 (b2n level) } }))

/-- R484: the bits of PAD_OUT that events have inverted in this clock. -/
def State.toggled (s : State) : Word := if s.pad.tog.1 = s.clk then s.pad.tog.2 else 0

/-- R484: a write of PAD_OUT, PAD_OUTSET or PAD_OUTCLR changes the bits of `mask`; `v` is the new PAD_OUT. A toggle in the same
clock is applied to what is written. -/
def State.padWrite (s : State) (mask v : Word) : State :=
  s.withPads (fun s => s.setReg PAD_OUT.addr ((((s.reg PAD_OUT.addr ^^^ s.toggled) &&& ~~~mask) ||| (v &&& mask)) ^^^ s.toggled))

/-- R483: the word PAD_CFGk stores: FUNC 3 to 7 and PULL 3 store 0. -/
def padCfgWord (w : Word) : Word :=
  let w := if fieldOf w 8 3 ≥ 3 then putField w 8 3 0 else w
  if fieldOf w 4 2 = 3 then putField w 4 2 0 else w

/-- R453, R484: an event at consumer 0x60 + k toggles the output while FUNC is 2. -/
def State.padToggle (s : State) (k : Nat) : State :=
  if s.get (PAD_CFG.FUNC k) = 2 then
    let b := BitVec.ofNat 32 (2 ^ k)
    let s := s.withPads (fun s => s.setReg PAD_OUT.addr (s.reg PAD_OUT.addr ^^^ b))
    { s with pad := { s.pad with tog := (s.clk, s.toggled ^^^ b) } }
  else s

/-! ### Timer units (R442 to R450) -/

/-- R449: unit `n` heads a chained pair. -/
def State.chained (s : State) (n : Nat) : Bool := decide (n % 2 = 0) && s.bit (TMR_CFG.CHAIN n)

/-- R449: unit `n` is the odd unit of a chained pair, whose CFG and CTRL are ignored. -/
def State.tmrFollower (s : State) (n : Nat) : Bool := decide (n % 2 = 1) && s.bit (TMR_CFG.CHAIN (n - 1))

/-- A value of unit `n`, with the odd unit's half above it where the unit heads a pair. -/
def State.pairVal (s : State) (n : Nat) (f : Nat → Nat) : Nat :=
  if s.chained n then f n + 2 ^ 32 * f (n + 1) else f n

/-- The unit's live count. -/
def State.tmrCount (s : State) (n : Nat) : Nat := s.pairVal n (fun k => (vget s.tmr k).cnt.toNat)

/-- The unit's PERIOD. -/
def State.tmrPeriod (s : State) (n : Nat) : Nat := s.pairVal n (fun k => s.get (TMR_PERIOD.VALUE k))

/-- The unit's CMP. -/
def State.tmrCmp (s : State) (n : Nat) : Nat := s.pairVal n (fun k => s.get (TMR_CMP.VALUE k))

/-- One unit changed. -/
def State.modTmr (s : State) (n : Nat) (f : TmrUnit → TmrUnit) : State := { s with tmr := vmod s.tmr n f }

/-- The count replaced. -/
def State.setCount (s : State) (n v : Nat) : State :=
  let s' := s.modTmr n (fun u => { u with cnt := BitVec.ofNat 32 v })
  if s.chained n then s'.modTmr (n + 1) (fun u => { u with cnt := BitVec.ofNat 32 (v / 2 ^ 32) }) else s'

/-- R446: the read latch takes the count, and STALE clears. -/
def State.tmrLatch (s : State) (n : Nat) : State :=
  let s' := s.modTmr n (fun u => { u with latch := u.cnt })
  let s' := if s.chained n then s'.modTmr (n + 1) (fun u => { u with latch := u.cnt }) else s'
  s'.set (TMR_STAT.STALE n) 0

/-- RUN and STAT.RUNNING. -/
def State.setRun (s : State) (n : Nat) (b : Bool) : State :=
  (s.set (TMR_CTRL.RUN n) (b2n b)).set (TMR_STAT.RUNNING n) (b2n b)

/-- R444: stop. -/
def State.tmrStop (s : State) (n : Nat) : State := (s.setRun n false).tmrLatch n

/-- R444: clear. -/
def State.tmrClear (s : State) (n : Nat) : State := (s.setCount n 0).modTmr n (fun u => { u with residue := 0 })

/-- R443: a compare match or an end of period: the event bit and the producer. -/
def State.tmrCmpEvent (s : State) (n : Nat) : State := (s.raise ⟨TMR_EVT.addr, n, 1⟩).pulse (8 + n)

/-- R443: a WRAP event. -/
def State.tmrWrapEvent (s : State) (n : Nat) : State := (s.raise ⟨TMR_EVT.addr, 8 + n, 1⟩).pulse (0x10 + n)

/-- R443: one tick of a running unit, judged against a PERIOD and a CMP. -/
def State.tmrTick (s : State) (n period cmp : Nat) : State :=
  let c := s.tmrCount n
  if c < period then
    let s := s.setCount n (c + 1)
    if c + 1 = cmp then s.tmrCmpEvent n else s
  else if s.bit (TMR_CTRL.ONESHOT n) then (s.tmrStop n).tmrWrapEvent n
  else
    let s := (s.setCount n 0).tmrWrapEvent n
    if cmp = 0 then s.tmrCmpEvent n else s

/-- R445: the unit's gate is open. -/
def State.gateOpen (s : State) (n : Nat) : Bool :=
  let src := s.get (TMR_CFG.GATESRC n)
  let sel := s.get (TMR_CFG.GATESEL n)
  if src = 1 then s.gpioLevel sel != s.bit (TMR_CFG.GATEINV n)
  else if src = 2 then s.bit (EVR_PCSTAT.OUT sel) != s.bit (TMR_CFG.GATEINV n)
  else true

/-- R442, R445: a source period reaches the prescaler. -/
def State.tmrPeriodTick (s : State) (n period cmp : Nat) : State :=
  if s.bit (TMR_CTRL.RUN n) && s.gateOpen n then
    let r := (vget s.tmr n).residue + 1
    if s.get (TMR_CFG.PRE n) < r then (s.modTmr n (fun u => { u with residue := 0 })).tmrTick n period cmp
    else s.modTmr n (fun u => { u with residue := r })
  else s

/-- R442: the unit's clock source is present. CLKSRC 3 counts events, not a clock. -/
def State.tmrSource (s : State) (n : Nat) : Bool :=
  let c := s.get (TMR_CFG.CLKSRC n)
  s.dOn 28 && !s.tmrFollower n &&
    (decide (c = 0) || (decide (c = 1) && !s.holdover) || (decide (c = 2) && s.bit SYS_CLKSTAT.SLOWOK))

/-- R444, R447, R453: one source period: a waiting CLR zeroes the count in place of counting, a waiting STOP acts after the
count, a waiting START from the next period on. -/
def State.tmrSourcePeriod (s : State) (n period cmp : Nat) : State :=
  let u := vget s.tmr n
  let s := if u.pendClr then s.tmrClear n else s.tmrPeriodTick n period cmp
  let s := if u.pendStop then s.tmrStop n else s
  let s := if u.pendStart then s.setRun n true else s
  s.modTmr n (fun u => { u with pendStart := false, pendStop := false, pendClr := false })

/-- R444: a write of TMR_CTRLn: RUN and ONESHOT are stored, then SNAP and CLR act. -/
def State.tmrCtrl (s : State) (n : Nat) (w : Word) : State :=
  let s := s.set (TMR_CTRL.ONESHOT n) (fieldOf w 30 1)
  if s.tmrFollower n then s.set (TMR_CTRL.RUN n) (fieldOf w 31 1)
  else
    let run := s.bit (TMR_CTRL.RUN n)
    let s := if fieldOf w 31 1 = 1 then s.setRun n true else if run then s.tmrStop n else s
    let s := if fieldOf w 2 1 = 1 then s.tmrLatch n else s
    if fieldOf w 1 1 = 1 then s.tmrClear n else s

/-- R444, R449: a write of TMR_CNTn. While the unit runs it is ignored; a pair takes both halves at the upper word. -/
def State.tmrCountWrite (s : State) (n : Nat) (w : Word) : State :=
  if s.chained n then { s with sys := { s.sys with held := aput s.sys.held (TMR_CNT.addr n) w } }
  else if s.tmrFollower n then
    let lo := (aget s.sys.held (TMR_CNT.addr (n - 1))).getD (vget s.tmr (n - 1)).cnt
    let s := { s with sys := { s.sys with held := adel s.sys.held (TMR_CNT.addr (n - 1)) } }
    if s.bit (TMR_CTRL.RUN (n - 1)) then s else s.setCount (n - 1) (lo.toNat + 2 ^ 32 * w.toNat)
  else if s.bit (TMR_CTRL.RUN n) then s
  else s.setCount n w.toNat

/-- R446: what a read of TMR_CNTn returns. -/
def State.tmrCountRead (s : State) (n : Nat) : Word :=
  let head := if s.tmrFollower n then n - 1 else n
  if s.bit (TMR_CTRL.RUN head) then (vget s.tmr n).latch else (vget s.tmr n).cnt

/-- A value in a register of unit `n`, with the upper half in the odd unit's register where the unit heads a pair. -/
def State.setPair (s : State) (n v : Nat) (r : Nat → Nat) : State :=
  let s' := s.setReg (r n) (BitVec.ofNat 32 v)
  if s.chained n then s'.setReg (r (n + 1)) (BitVec.ofNat 32 (v / 2 ^ 32)) else s'

/-- R448: a capture. -/
def State.tmrCapture (s : State) (n : Nat) (rising : Bool) : State :=
  let c := s.tmrCount n
  let s := s.tmrLatch n
  if rising then
    let s := if s.bit (TMR_STAT.RVALID n) then s.raise (TMR_STAT.CAPOVR n) else s
    let s := (s.setPair n c TMR_CAPR.addr).set (TMR_STAT.RVALID n) 1
    s.modTmr n (fun u => { u with rose := true })
  else
    let s := if s.bit (TMR_STAT.FVALID n) then s.raise (TMR_STAT.CAPOVR n) else s
    let s := (s.setPair n c TMR_CAPF.addr).set (TMR_STAT.FVALID n) 1
    let s := if (vget s.tmr n).rose then
        let m := s.tmrPeriod n + 1
        let r := s.pairVal n (fun k => s.get (TMR_CAPR.VALUE k))
        (s.setPair n ((c + m - r % m) % m) TMR_WIDTH.addr).raise ⟨TMR_EVT.addr, 16 + n, 1⟩
      else s
    s.modTmr n (fun u => { u with rose := false })

/-- TIMER_CAPTURE (R448). -/
def execTimerCapture (n : Fin 8) (rising : Bool) (s : State) : Host.Outcome State Fault Refusal :=
  .next (if s.dOn 28 && !s.tmrFollower n.val && decide (s.get (TMR_CFG.CAPSRC n.val) ≠ 0) then
    s.tmrCapture n.val rising else s)

/-- R450: the advance of an ELAPSED unit by `n` SLOW ticks of sleep. -/
def State.tmrSleepAdvance (s : State) (u n : Nat) : State :=
  if s.bit (TMR_CFG.ELAPSED u) && decide (s.get (TMR_CFG.CLKSRC u) = 2) && decide (s.get (TMR_CFG.GATESRC u) = 0) &&
      s.bit (TMR_CTRL.RUN u) && !s.tmrFollower u then
    let pre := s.get (TMR_CFG.PRE u) + 1
    let tot := (vget s.tmr u).residue + n
    let ticks := tot / pre
    let c := s.tmrCount u
    let p := s.tmrPeriod u
    let cmp := s.tmrCmp u
    let s := s.modTmr u (fun t => { t with residue := tot % pre })
    if s.bit (TMR_CTRL.ONESHOT u) then
      let ends := decide (p ≤ c + ticks)
      let c' := if ends then p else c + ticks
      let s := s.setCount u c'
      let cross := decide (c < cmp) && decide (cmp ≤ c')
      let s := if ends then (s.tmrStop u).tmrWrapEvent u else s
      let s := if cross then s.tmrCmpEvent u else s
      if ends || cross then s.raise (TMR_STAT.SLPCROSS u) else s
    else
      let wraps := (c + ticks) / (p + 1)
      let s := (s.setCount u ((c + ticks) % (p + 1))).set (TMR_STAT.SLPWRAP u) (min 255 wraps)
      let cross := decide (cmp ≤ p) && decide ((cmp + (p + 1) - (c + 1) % (p + 1)) % (p + 1) + 1 ≤ ticks)
      let s := if 0 < wraps then s.tmrWrapEvent u else s
      let s := if cross then s.tmrCmpEvent u else s
      if decide (0 < wraps) || cross then s.raise (TMR_STAT.SLPCROSS u) else s
  else s

/-! ### Praline cells (R457) -/

/-- The input a selector names. -/
def State.pcInput (s : State) (sel : Nat) : Bool :=
  if sel < 0x40 then s.evr.transit.any (fun p => decide (p.1 = sel) && decide (p.2 = s.clk))
  else if sel < 0x60 then s.gpioLevel (sel - 0x40)
  else if sel < 0x70 then s.bit (EVR_PCSTAT.OUT (sel - 0x60))
  else decide (sel = 0x7F)

/-- The look-up index of a cell now. -/
def State.pcIndex (s : State) (c : Nat) : Nat :=
  8 * b2n (s.pcInput (s.get (EVR_PCIN.IN3 c))) + 4 * b2n (s.pcInput (s.get (EVR_PCIN.IN2 c))) +
    2 * b2n (s.pcInput (s.get (EVR_PCIN.IN1 c))) + b2n (s.pcInput (s.get (EVR_PCIN.IN0 c)))

/-- PRALINE_OUTPUT_CHANGE (R457): the output takes the look-up result and produces its edge. -/
def execPralineOutputChange (c : Fin 16) (s : State) : Host.Outcome State Fault Refusal :=
  .next (
    let r := bitOf (s.get (EVR_PCTAB.TABLE c.val)) (s.pcIndex c.val)
    if !s.dOn 28 || r == s.bit (EVR_PCSTAT.OUT c.val) then s
    else (s.set (EVR_PCSTAT.OUT c.val) (b2n r)).pulse (if r then 0x60 + c.val else 0x70 + c.val))

/-! ### Channels (R451, R453 to R456) -/

/-- The domain of a consumer input (R453). -/
def consumerDomain (c : Nat) : Nat :=
  if 0x40 ≤ c ∧ c < 0x50 then c - 0x40 else if c = 0x50 then 16 else if c = 0x51 then 17 else 28

/-- A channel's flag set. -/
def State.evFlag (s : State) (k : Nat) : State :=
  if k < 32 then s.raise ⟨EVR_FLAGL.addr, k, 1⟩ else s.raise ⟨EVR_FLAGH.addr, k - 32, 1⟩

/-- A channel's held bit. -/
def State.evHeld (s : State) (k : Nat) : Bool :=
  if k < 32 then bitOf (s.get EVR_HELDL.HELD) k else bitOf (s.get EVR_HELDH.HELD) (k - 32)

/-- A channel's held bit set or cleared. -/
def State.setHeld (s : State) (k : Nat) (b : Bool) : State :=
  if k < 32 then s.set ⟨EVR_HELDL.addr, k, 1⟩ (b2n b) else s.set ⟨EVR_HELDH.addr, k - 32, 1⟩ (b2n b)

/-- R455: an event merges with another. -/
def State.coalesce (s : State) : State := (s.inc EVR_COALCNT.COUNT).raise EVR_EVT.COALESCED

/-- R455: an event met a busy input. -/
def State.overrun (s : State) (c : Nat) : State :=
  (s.raise ⟨EVR_OVR.addr (c / 32), c % 32, 1⟩).raise EVR_EVT.OVERRUN

/-- R454: a write of EVR_CHCTLk with FIRE 1 puts one event on the channel; one on a channel with EN 0 is lost. -/
def State.chctl (s : State) (k : Nat) (w : Word) : State :=
  let s := s.set (EVR_CHCTL.EN k) (fieldOf w 31 1)
  if fieldOf w 0 1 = 1 ∧ s.bit (EVR_CHCTL.EN k) then s.enterEvent k else s

/-- R453: an event at one of a timer's inputs. START, STOP and CLR wait for the unit's next source period, or act at once
where events are the clock. -/
def State.tmrInput (s : State) (n kind : Nat) : State :=
  let ev := decide (s.get (TMR_CFG.CLKSRC n) = 3)
  if s.tmrFollower n then s
  else if kind = 0 then (if ev then s.setRun n true else s.modTmr n (fun u => { u with pendStart := true }))
  else if kind = 1 then
    (if ev then (if s.bit (TMR_CTRL.RUN n) then s.tmrStop n else s) else s.modTmr n (fun u => { u with pendStop := true }))
  else if kind = 2 then (if ev then s.tmrClear n else s.modTmr n (fun u => { u with pendClr := true }))
  else if kind = 3 then s.tmrLatch n
  else if ev then s.tmrPeriodTick n (s.tmrPeriod n) (s.tmrCmp n) else s

/-- R453: whether a timer input is busy. -/
def State.tmrBusy (s : State) (n kind : Nat) : Bool :=
  let u := vget s.tmr n
  if kind = 0 then u.pendStart else if kind = 1 then u.pendStop else if kind = 2 then u.pendClr else false

end Sys2Proof.Machine
end

