-- ==== Sys2Proof/Machine/Queues.lean ====
section
/-! DEFINITION. Chapter 9: the packet buffer, admission, selection, shapers, policers, residence and samples. -/
namespace Sys2Proof.Machine

/-! ### Buffer cells (R239, R240) -/

/-- Domain PBn serves allocation: on, and enabled in QSC_PBEN. -/
def State.pbUsable (s : State) (n : Nat) : Bool := s.dOn (32 + n) && bitOf (s.get QSC_PBEN.EN) n

/-- A cell that can be allocated. -/
def State.cellFree (s : State) (c : Nat) : Bool := s.pbUsable (c / 2048) && !s.qsc.alloc.contains c

/-- Allocated cells of PBn. -/
def State.pbAlloc (s : State) (n : Nat) : Nat := s.qsc.alloc.countP (fun c => decide (c / 2048 = n))

/-- R240: FREE. -/
def State.freeCount (s : State) : Nat :=
  (List.range 8).foldl (fun t n => if s.pbUsable n then t + (2048 - s.pbAlloc n) else t) 0

/-- R239: QSC_PBUSE. -/
def State.pbUse (s : State) : Nat :=
  (List.range 8).foldl (fun t n => if 0 < s.pbAlloc n then t + 2 ^ n else t) 0

/-- The first `n` cells from cell `c` on that satisfy `ok`, among the next `fuel` cells. -/
def pickCells (ok : Nat → Bool) : Nat → Nat → Nat → List Nat
  | 0, _, _ => []
  | _ + 1, 0, _ => []
  | f + 1, n + 1, c => if ok c then c :: pickCells ok f n (c + 1) else pickCells ok f (n + 1) (c + 1)

/-- R239: `n` cells, from the lowest-numbered usable domain that has one free; within a domain the lowest cell
(DESIGN CHOICE, log entry 9). -/
def State.pickFree (s : State) (n : Nat) : List Nat := pickCells s.cellFree 16384 n 0

/-- Cells marked allocated; the descriptor and link word of each is written. -/
def State.allocCells (s : State) (cs : List Nat) : State :=
  { s with qsc := { s.qsc with alloc := s.qsc.alloc ++ cs } }.each cs (fun s c => s.wrote (4, 0, c))

/-- The byte address of a cell (R18, R239). -/
def cellAddr (c : Nat) : Nat := 0x10000000 + 256 * c

/-- Cells that L bytes take (R239). -/
def cellsFor (len : Nat) : Nat := ceilDiv len 256

/-- A packet's bytes written to its cells. -/
def State.writeCells (s : State) : List Nat → List Byte → State
  | [], _ => s
  | c :: cs, bs =>
    (s.setMbytes (cellAddr c) (bs.take 256)).writeCells cs (bs.drop 256)

/-- `len` bytes read from a list of cells. -/
def State.readCells (s : State) : List Nat → Nat → List Byte
  | [], _ => []
  | c :: cs, len => s.mbytes (cellAddr c) (min 256 len) ++ s.readCells cs (len - 256)

/-- One queue. -/
def State.q (s : State) (q : Nat) : Queue := vget s.qsc.queues q

/-- One queue changed. -/
def State.modQ (s : State) (q : Nat) (f : Queue → Queue) : State :=
  { s with qsc := { s.qsc with queues := vmod s.qsc.queues q f } }

/-- R240: USED_o, the cells of control packets queued for outlet `o`. -/
def State.ctlUsed (s : State) (o : Nat) : Nat :=
  s.qsc.queues.toList.foldl (fun t u =>
    if u.outlet = o then u.pkts.foldl (fun t p => if p.control then t + p.cells.length else t) t else t) 0

/-- R240: U_o. -/
def State.unusedRsv (s : State) (o : Nat) : Nat := s.get (QSC_RSV.CELLS o) - s.ctlUsed o

/-- R240: the sum of U over all outlets. -/
def State.unusedSum (s : State) : Nat := (List.range 8).foldl (fun t o => t + s.unusedRsv o) 0

/-- R240: the buffer check for `n` new cells. -/
def State.bufferOk (s : State) (o : Nat) (control : Bool) (n : Nat) : Bool :=
  let held := if control then s.unusedSum - s.unusedRsv o else s.unusedSum
  decide (n + held ≤ s.freeCount)

/-- RESERVATION_WRITE (R240): a write of QSC_RSVo that keeps the sum of CELLS within half of the enabled domains' cells. -/
def State.rsvWrite (s : State) (o : Nat) (w : Word) : State :=
  let enabled := (List.range 8).countP (fun n => bitOf (s.get QSC_PBEN.EN) n)
  let sum := (List.range 8).foldl (fun t k => t + (if k = o then fieldOf w 0 15 else s.get (QSC_RSV.CELLS k))) 0
  if sum ≤ enabled * 1024 then s.set (QSC_RSV.CELLS o) (fieldOf w 0 15) else s.raise QSC_EVT.RSVBAD

/-- One Jajor port changed. -/
def State.modJj (s : State) (p : Nat) (f : JjPort → JjPort) : State := { s with jjl := vmod s.jjl p f }

/-- R218: a port puts an ordered set on the line. -/
def State.jjEmit (s : State) (p : Nat) (x : JjSet) : State :=
  s.modJj p (fun j => { j with out := j.out.filter (fun e => decide (e.1 = s.clk)) ++ [(s.clk, x)] })

/-- R220: credits of a class returned by CRD. -/
def State.jjCredit (s : State) (p : Nat) (ctl : Bool) (n : Nat) : State := if n = 0 then s else s.jjEmit p (.crd ctl n)

/-- R220, R242: cells that a Jajor port holds for a class again, with their credits. -/
def State.jjHold (s : State) (p : Nat) (ctl : Bool) (cs : List Nat) : State :=
  (s.modJj p (fun j => if ctl then { j with heldM := j.heldM ++ cs } else { j with heldD := j.heldD ++ cs })).jjCredit p ctl cs.length

/-- R242: a Jajor port takes cells owed to a class from the free pool, and so returns the credits. -/
def State.jjTake (s : State) (p : Nat) (ctl : Bool) : State :=
  let j := vget s.jjl p
  let cs := s.pickFree (if ctl then j.oweM else j.oweD)
  let s := (s.allocCells cs).modJj p (fun j =>
    if ctl then { j with oweM := j.oweM - cs.length } else { j with oweD := j.oweD - cs.length })
  s.jjHold p ctl cs

/-- R242: replacements taken by both ports as cells become free. -/
def State.jjReplenish (s : State) : State :=
  s.each [(0, true), (0, false), (1, true), (1, false)] (fun s p =>
    if s.get (JJL_STAT.STATE p.1) = 2 then s.jjTake p.1 p.2 else s)

/-- Cells returned to the free pool. -/
def State.freeCells (s : State) (cs : List Nat) : State :=
  { s with qsc := { s.qsc with alloc := s.qsc.alloc.filter (fun c => !cs.contains c) } }.jjReplenish

/-- R216: a handle to a buffer is given up; the cells are freed with the last one. -/
def State.releaseBuf (s : State) (p : Packet) : State :=
  match aget s.qsc.refs p.buf with
  | some (n + 2) => { s with qsc := { s.qsc with refs := aput s.qsc.refs p.buf (n + 1) } }
  | _ => { s with qsc := { s.qsc with refs := adel s.qsc.refs p.buf } }.freeCells p.cells

/-! ### Packets in a queue -/

/-- Bytes a queue holds. -/
def Queue.bytes (u : Queue) : Nat := u.pkts.foldl (fun t p => t + p.len) 0

/-- Packets not in flight. -/
def Queue.idle (u : Queue) : List Packet := u.pkts.filter (fun p => !p.inflight)

/-- R244: the queue is shaped: it holds packets and TOKEN is at 0 or below. -/
def Queue.shaped (u : Queue) : Bool := decide (u.rate ≠ 0) && decide (u.token ≤ 0) && !u.pkts.isEmpty

/-- R244: the queue is eligible. -/
def Queue.eligible (u : Queue) : Bool := !u.idle.isEmpty && (decide (u.rate = 0) || decide (0 < u.token))

/-- R244: a queue that holds no packet outside flight, or is shaped, is no longer active. -/
def Queue.settle (u : Queue) : Queue := if u.idle.isEmpty || u.shaped then { u with active := false } else u

/-- The queue that holds a descriptor, and the descriptor. -/
def State.findPkt (s : State) (pid : Nat) : Option (Nat × Packet) :=
  (List.range 64).findSome? (fun q => ((s.q q).pkts.find? (fun p => p.pid = pid)).map (fun p => (q, p)))

/-- A descriptor changed where it stands. -/
def State.modPkt (s : State) (q pid : Nat) (f : Packet → Packet) : State :=
  s.modQ q (fun u => { u with pkts := u.pkts.map (fun p => if p.pid = pid then f p else p) })

/-- A packet leaves its queue, without its cells being freed. -/
def State.unlinkPkt (s : State) (q pid : Nat) : State :=
  s.modQ q (fun u => ({ u with pkts := u.pkts.filter (fun p => p.pid ≠ pid) } : Queue).settle)

/-- A packet leaves its queue and gives up its buffer. -/
def State.removePkt (s : State) (q : Nat) (p : Packet) : State := (s.unlinkPkt q p.pid).releaseBuf p

/-- R217: when a fragment is dropped, the fragments still queued are dropped with it; those in flight go with their outcome.
MSH counts them once. -/
def State.dropGroup (s : State) (q : Nat) (g : Nat) : State :=
  let mine := (s.q q).pkts.filter (fun p => p.frag.any (fun f => f.group = g))
  let s := s.each mine (fun s p =>
    if p.inflight then s.modPkt q p.pid (fun p => { p with doomed := true })
    else (s.removePkt q p).inc (QSC_DROP.COUNT q))
  (s.inc MSH_DROPCNT2.REASM).raise MSH_EVT.FRAGDROP

/-- A packet stands in its queue: no discard of its group has removed it. -/
def State.queued (s : State) (q : Nat) (p : Packet) : Bool := (s.q q).pkts.any (fun r => decide (r.pid = p.pid))

/-- R254: a packet removed without delivery. -/
def State.dropPkt (s : State) (q : Nat) (p : Packet) : State :=
  if !s.queued q p then s
  else
    let s := (s.removePkt q p).inc (QSC_DROP.COUNT q)
    match p.frag with
    | some f => if p.doomed then s else s.dropGroup q f.group
    | none => s

/-- R253: the packet is expired. -/
def State.expired (s : State) (p : Packet) : Bool :=
  decide (s.get BEAT_RESLIM.BEATS ≤ ageOf 16 (s.abn % 65536) p.abn16)

/-- R253: an expired packet discarded, once. -/
def State.dropExpired (s : State) (q : Nat) (p : Packet) : State :=
  if s.queued q p then (s.dropPkt q p).inc BEAT_RESDROP.COUNT else s

/-- R29: the ECC words that a read of a packet meets: its cells in the packet buffer, and the words of the queue descriptors
and cell links that belong to them (DESIGN CHOICE, log entry 193). -/
def packetWord (p : Packet) (e : Nat × Nat × Nat) : Bool :=
  (decide (e.1 = 2) && p.cells.contains (e.2.2 / 32)) || (decide (e.1 = 4) && p.cells.contains e.2.2)

/-- R31: a word of the packet holds an uncorrectable error. -/
def State.eccInPacket (s : State) (p : Packet) : Option (Nat × Nat × Nat) := s.ecc.find? (packetWord p)

/-- R53: the queues hold forwarding work. -/
def State.workOffered (s : State) : Bool := (List.range 64).any (fun q => !(s.q q).pkts.isEmpty)

/-- R53: a cause makes the device fail to carry what its queues offer in this beat (DESIGN CHOICE, log entry 195). -/
def State.failWork (s : State) : State := if s.workOffered then { s with beat := { s.beat with outage := true } } else s

/-- R31, R53: a packet whose read meets an uncorrectable error is dropped and counted by QSC: an outage. -/
def State.dropEcc (s : State) (q : Nat) (p : Packet) (e : Nat × Nat × Nat) : State :=
  let s := ((s.eccReport e).raiseHw 4 10 0).dropPkt q p
  let s := (s.inc QSC_DROPCNT2.ECC).raise QSC_EVT.ECC
  { s with beat := { s.beat with outage := true } }

/-! ### Policers (R251) -/

/-- The colours of RFC 2697. -/
inductive Colour where
  | green
  | yellow
  | red
  deriving DecidableEq, Repr

/-- R251: the decision for a packet of L bytes and the buckets after it. -/
def Policer.meter (p : Policer) (len : Nat) : Colour × Policer :=
  if 64 * len ≤ p.tc then (.green, { p with tc := p.tc - 64 * len })
  else if 64 * len ≤ p.te then (.yellow, { p with te := p.te - 64 * len })
  else (.red, p)

/-- R251: one microsecond: Tc gains CIR / 125 with the remainder carried; what lies beyond 64 × CBS overflows into Te. A
bucket above a size that was lowered keeps its tokens (R252). -/
def Policer.tick (p : Policer) : Policer :=
  let g := (p.rem + p.cir) / 125
  let r := (p.rem + p.cir) % 125
  let room := 64 * p.cbs - p.tc
  let toTc := min g room
  { p with tc := p.tc + toTc, te := p.te + min (g - toTc) (64 * p.ebs - p.te), rem := r }

/-- POLICER_TICK (R251). -/
def execPolicerTick (n : Fin 32) (s : State) : Host.Outcome State Fault Refusal :=
  .next (if s.dOn 23 then { s with qsc := { s.qsc with pols := vmod s.qsc.pols n.val Policer.tick } } else s)

/-- R251: a packet metered by the policer of a queue, and counted by its colour. -/
def State.meterPkt (s : State) (n len : Nat) : Colour × State :=
  let r := (vget s.qsc.pols n).meter len
  let s := { s with qsc := { s.qsc with pols := vset s.qsc.pols n r.2 } }
  (r.1, match r.1 with
    | .green => s.inc (QSC_POLGRN.COUNT n)
    | .yellow => s.inc (QSC_POLYEL.COUNT n)
    | .red => s.inc (QSC_POLRED.COUNT n))

/-! ### Admission (R241 to R243) -/

/-- The refusals of R241. -/
inductive Refuse where
  | disabled
  | policed
  | quota
  | nobuf
  deriving DecidableEq, Repr

/-- What is offered to a queue: the bytes, the cells they lie in already, if any, and what the descriptor carries. -/
structure Offer where
  bytes : List Byte
  cells : List Nat := []
  desc : Packet := {}
  deriving DecidableEq, Repr

/-- R241: the checks of one offer against queue `q` on outlet `o`, after `bytes` and `pkts` already judged and `cells`
cells already promised. The policer's tokens are taken even where a later check refuses. -/
def State.judge (s : State) (q o bytes pkts cells : Nat) (f : Offer) : Option Refuse × State :=
  let u := s.q q
  let len := f.bytes.length
  if !s.qsc.en || fieldOf u.cfg 31 1 ≠ 1 || u.move.isSome then (some .disabled, s)
  else
    let r : Option Refuse × State :=
      if fieldOf u.cfg 6 1 = 1 ∧ (vget s.qsc.pols (fieldOf u.cfg 0 5)).en then
        let m := s.meterPkt (fieldOf u.cfg 0 5) len
        (match m.1 with
          | .green => none
          | .yellow => if (vget s.qsc.pols (fieldOf u.cfg 0 5)).yact then some .policed else none
          | .red => some .policed, m.2)
      else (none, s)
    match r with
    | (some x, s) => (some x, s)
    | (none, s) =>
      if u.qbytes < u.bytes + bytes + len ∨ u.qpkts < u.pkts.length + pkts + 1 then (some .quota, s)
      else
        let n := if f.cells.isEmpty then cellsFor len else 0
        if s.bufferOk o f.desc.control (cells + n) || decide (n = 0) then (none, s) else (some .nobuf, s)

/-- R241: the offers of one packet judged in order; the first failure stops the judgement. -/
def State.judgeAll (s : State) (q o : Nat) : List Offer → Nat → Nat → Nat → Option Refuse × State
  | [], _, _, _ => (none, s)
  | f :: fs, b, p, c =>
    match s.judge q o b p c f with
    | (some x, s) => (some x, s)
    | (none, s) =>
      State.judgeAll s q o fs (b + f.bytes.length) (p + 1) (c + if f.cells.isEmpty then cellsFor f.bytes.length else 0)

/-- R243, R254: an offer that passed joins its queue: it takes cells, its bytes go into them, and its descriptor is stamped.
An offer that lies in cells already keeps them; `buf` names a buffer that replicas share. -/
def State.enqueue (s : State) (q : Nat) (f : Offer) (buf : Option Nat) : State :=
  let pid := s.qsc.nextId
  let cs := if f.cells.isEmpty then s.pickFree (cellsFor f.bytes.length) else f.cells
  let s := if f.cells.isEmpty then (s.allocCells cs).writeCells cs f.bytes else s
  let b := buf.getD pid
  let n := (aget s.qsc.refs b).getD 0
  let p := { f.desc with
    pid := pid, buf := b, cells := cs, len := f.bytes.length, abn16 := s.abn % 65536, us := s.tb3us }
  let s := { s with qsc := { s.qsc with nextId := pid + 1, refs := aput s.qsc.refs b (n + 1) } }
  let s := s.modQ q (fun u => { u with pkts := u.pkts ++ [p] })
  let s := s.inc (QSC_ENQCNT.COUNT q)
  s.set (QSC_PEAK.BYTES q) (max (s.get (QSC_PEAK.BYTES q)) (s.q q).bytes)

/-- R241, R242: a refusal counted by cause. `wait`: the port waits under NOBUF in place of dropping. -/
def State.countRefusal (s : State) (r : Refuse) (wait : Bool) : State :=
  match r with
  | .disabled => s.inc QSC_DROPCNT1.DISABLED
  | .policed => (s.inc QSC_DROPCNT1.POLICED).raise QSC_EVT.POLICED
  | .quota => (s.inc QSC_DROPCNT0.QUOTA).raise QSC_EVT.QUOTA
  | .nobuf => (s.inc (if wait then QSC_DROPCNT3.WAIT else QSC_DROPCNT0.NOBUF)).raise QSC_EVT.NOBUF

/-- R241, R217: the offers of one packet are admitted into queue `q`, or none is. -/
def State.takeIn (s : State) (q o : Nat) (fs : List Offer) (buf : Option Nat) : Option Refuse × State :=
  match s.judgeAll q o fs 0 0 0 with
  | (some r, s) => (some r, s)
  | (none, s) => (none, s.each fs (fun s f => s.enqueue q f buf))

/-! ### Selection (R244 to R248) -/

/-- R245: the queues of an outlet whose STRICT bit is set, ascending. -/
def State.strictAll (s : State) (o : Nat) : List Nat :=
  (List.range 64).filter (fun q => decide ((s.q q).outlet = o) && decide (fieldOf (s.q q).cfg 29 1 = 1))

/-- R245: the four that act strict. -/
def State.strictQs (s : State) (o : Nat) : List Nat := (s.strictAll o).take 4

/-- The queues of an outlet that act weighted, ascending. -/
def State.weightedQs (s : State) (o : Nat) : List Nat :=
  (List.range 64).filter (fun q => decide ((s.q q).outlet = o) && !(s.strictQs o).contains q)

/-- R217: some but not all fragments of a packet to neighbour `n` have left outlet `o`; the group. -/
def State.openGroup (s : State) (o n : Nat) : Option Nat :=
  (List.range 64).findSome? (fun q =>
    if (s.q q).outlet ≠ o then none
    else ((s.q q).pkts.find? (fun p => decide (p.nbr = n) && p.frag.any (fun f =>
      decide (0 < f.idx) && !(s.q q).pkts.any (fun r => r.frag.any (fun g => decide (g.group = f.group) &&
        decide (g.idx = 0)))))).bind (fun p => p.frag.map (·.group)))

/-- R262, R269: the stamp record (NS, SEC and FRAC word) `t` has been reached by base value `v`. -/
def stampReached (v : Nat) (t : Word × Word) : Bool :=
  let d := wrapDiff 16 (tbSec v % 65536) (fieldOf t.2 16 16)
  if d = 0 then decide (t.1.toNat * 65536 + fieldOf t.2 0 16 ≤ tbNs v * 65536 + tbFrac v) else decide (0 < d)

/-- R270: a packet with a launch time is a candidate on a wired outlet once its base has reached it; on O2 from 20 us
before, for TB1 and TB2. -/
def State.launchOk (s : State) (o : Nat) (p : Packet) : Bool :=
  match p.launch with
  | none => true
  | some (b, w0, w1) =>
    let lead := if o = 2 ∧ b ≠ 0 then 20000 * 65536 else 0
    stampReached ((s.tb b + lead) % tbMod) (w0, w1)

/-- R247: what a scan of a queue finds: the expired packets it met, and the candidate. `want` says which packet fits;
`k` more packets may be examined. -/
def scanPkts (want expired : Packet → Bool) : List Packet → Nat → List Packet × Option Packet
  | [], _ => ([], none)
  | _ :: _, 0 => ([], none)
  | p :: t, k + 1 =>
    if p.inflight then scanPkts want expired t (k + 1)
    else if expired p then
      let r := scanPkts want expired t k
      (p :: r.1, r.2)
    else if want p then ([], some p)
    else scanPkts want expired t k

/-- What a selection is for: on a radio outlet the cell's neighbour and its launch instant (R247, R270). -/
structure SelFor where
  nbr : Nat := 255
  launchAt : Nat := 0
  /-- Packets a skim may examine. -/
  skim : Nat := 1
  /-- The queues it may choose from, where not all of the outlet's (R321). -/
  only : Option (List Nat) := none
  deriving DecidableEq, Repr

/-- R217, R247, R248, R270: whether a packet fits the selection. A fragment follows those before it in order: it waits while one
of them is still queued, in flight or not (DEDUCED, log entry 188). -/
def State.fits (s : State) (q o : Nat) (f : SelFor) (p : Packet) : Bool :=
  if o < 2 then
    (match p.frag with
      | some x => (s.q q).pkts.all (fun r => r.frag.all (fun y => decide (y.group ≠ x.group) || decide (x.idx ≤ y.idx)))
      | none => true) &&
    decide (p.nbr = f.nbr) &&
      (match p.launch with
        | none => true
        | some (_, w0, w1) => stampReached f.launchAt (w0, w1)) &&
      (match s.openGroup o f.nbr, p.frag with
        | some g, some x => decide (x.group = g) || decide (x.idx ≠ 0)
        | _, _ => true)
  else
    s.launchOk o p &&
      (if o = 3 ∨ o = 4 then
        decide (cellsFor p.len ≤ (if p.control then s.get (JJL_STAT.RMCRED (o - 3)) else s.get (JJL_STAT.RDCRED (o - 3))))
      else true)

/-- R246, R253: one queue tried: expired packets it examines are discarded; its candidate, if any. -/
def State.tryQueue (s : State) (q o : Nat) (f : SelFor) : State × Option Packet :=
  let r := scanPkts (s.fits q o f) s.expired (s.q q).pkts (if o < 2 then f.skim else (s.q q).pkts.length)
  let wired := if o < 2 then r else
    let live := (s.q q).pkts.dropWhile (fun p => !p.inflight && s.expired p)
    ((s.q q).pkts.takeWhile (fun p => !p.inflight && s.expired p), (live.head?).filter (s.fits q o f))
  (s.each wired.1 (fun s p => s.dropExpired q p), wired.2)

/-- R246: charge: tokens are taken, and the queue stops being active where it must. -/
def State.charge (s : State) (q : Nat) (p : Packet) : State :=
  s.modQ q (fun u => ({ u with token := if 0 < u.rate then u.token - 64 * p.len else u.token } : Queue).settle)

/-- R246: the strict queues tried in ascending order. -/
def State.selStrict (s : State) (o : Nat) (f : SelFor) : List Nat → State × Option (Nat × Packet)
  | [] => (s, none)
  | q :: qs =>
    if (s.q q).eligible then
      match s.tryQueue q o f with
      | (s, some p) => (s, some (q, p))
      | (s, none) => State.selStrict s o f qs
    else State.selStrict s o f qs

/-- R246: the cost of a packet. -/
def pktCost (len weight : Nat) : Nat := ceilDiv (len * 65536) weight

/-- R246: the weighted queues tried in ascending order; the best so far is kept with its finish tag. -/
def State.selWeighted (s : State) (o : Nat) (f : SelFor) :
    List Nat → Option (Nat × Packet × Nat) → State × Option (Nat × Packet × Nat)
  | [], best => (s, best)
  | q :: qs, best =>
    if (s.q q).eligible then
      let s := if (s.q q).active then s
        else s.modQ q (fun u => { u with active := true, tag := vget s.qsc.vtime o })
      match s.tryQueue q o f with
      | (s, none) => State.selWeighted s o f qs best
      | (s, some p) =>
        let fin := ((s.q q).tag + pktCost p.len (s.q q).weight) % 2 ^ 48
        let better := match best with
          | none => true
          | some (_, _, fb) => decide (wrapDiff 48 fin fb < 0)
        State.selWeighted s o f qs (if better then some (q, p, fin) else best)
    else State.selWeighted s o f qs best

/-- R244 to R246: one selection on outlet `o`: the packet chosen, its queue, and the state after the charge. `take` says
what happens to the chosen packet where it stands (marked in flight, or unlinked), before the queue's standing is judged. -/
def State.select (s : State) (o : Nat) (f : SelFor) (take : State → Nat → Packet → State) :
    State × Option (Nat × Packet) :=
  let ok (q : Nat) : Bool := match f.only with
    | some l => l.contains q
    | none => true
  match s.selStrict o f ((s.strictQs o).filter ok) with
  | (s, some (q, p)) => ((take s q p).charge q p, some (q, p))
  | (s, none) =>
    match s.selWeighted o f ((s.weightedQs o).filter ok) none with
    | (s, none) => (s, none)
    | (s, some (q, p, fin)) =>
      let s := { s with qsc := { s.qsc with vtime := vset s.qsc.vtime o fin } }
      let s := s.modQ q (fun u => { u with tag := fin })
      ((take s q p).charge q p, some (q, p))

/-- A chosen radio packet is marked in flight and keeps its place (R247). -/
def State.markFlight (s : State) (q : Nat) (p : Packet) : State :=
  s.modPkt q p.pid (fun p => { p with inflight := true })

/-- R247: a radio selection at a cell start for neighbour `n`, launching at TB0 value `at_`. -/
def State.selectRadio (s : State) (o n at_ : Nat) : State × Option (Nat × Packet) :=
  s.select o { nbr := n, launchAt := at_, skim := s.get LNK_CTRL.SKIM } State.markFlight

/-- R247, R270: a BTX cell that launches at TB0 value `at_` takes the head packet of the beacon queue that is not in flight, where
its launch time is reached then; V_o and the tags stay. Expired packets it meets are discarded (R253). -/
def State.selectBeacon (s : State) (q at_ : Nat) : State × Option (Nat × Packet) :=
  let s := s.each ((s.q q).idle.takeWhile s.expired) (fun s p => s.dropExpired q p)
  match (s.q q).idle.head? with
  | some p =>
    if p.launch.all (fun t => stampReached at_ (t.2.1, t.2.2)) then ((s.markFlight q p).charge q p, some (q, p)) else (s, none)
  | none => (s, none)

/-! ### The outcome of a radio attempt (R247) -/

/-- Released: removed, cells freed, counted as a departure. -/
def State.pktReleased (s : State) (q : Nat) (p : Packet) : State := (s.removePkt q p).inc (QSC_DEQCNT.COUNT q)

/-- Kept: the in-flight flag clears; an expired packet is discarded, a flushed one removed (R252, R253). -/
def State.pktKept (s : State) (q : Nat) (p : Packet) : State :=
  if p.doomed || p.flushed then
    let s := (s.removePkt q p).inc (QSC_DROP.COUNT q)
    if p.flushed then s.inc QSC_DROPCNT2.FLUSH else s
  else if s.expired p then s.dropExpired q p
  else s.modPkt q p.pid (fun p => { p with inflight := false })

/-! ### Step 7 of a boundary (R249, R252 to R254) -/

/-- R249: the refill of a queue's bucket for the beat period in force. -/
def Queue.refill (u : Queue) (k : Nat) : Queue :=
  if u.rate = 0 ∨ (64 * u.burst : Int) ≤ u.token then u
  else { u with token := min (u.token + u.rate * k) (64 * u.burst : Int) }

/-- R236, R252: written configuration of a queue takes effect, with a move and a flush request. -/
def State.applyQueueCfg (s : State) (q : Nat) : State :=
  let cfg := s.reg (QSC_QCFG.addr q)
  let o := fieldOf cfg 24 3
  let rate := s.get (QSC_RATE.RATE q)
  let burst := s.get (QSC_BURST.BURST q)
  let s := s.modQ q (fun u =>
    let u := { u with
      cfg := cfg, weight := s.get (QSC_WEIGHT.WEIGHT q), burst := burst,
      qbytes := s.get (QSC_QBYTES.QUOTA q), qpkts := s.get (QSC_QPKTS.QUOTA q),
      token := if u.rate = 0 ∧ rate ≠ 0 then (64 * burst : Int) else u.token, rate := rate }
    if o = u.outlet then { u with move := none }
    else if u.pkts.isEmpty then { u with outlet := o, move := none, active := false }
    else { u with move := some o })
  if (s.q q).flush then
    let s := s.modQ q (fun u => { u with flush := false })
    let gone := (s.q q).idle
    let s := s.each gone (fun s p => ((s.removePkt q p).inc (QSC_DROP.COUNT q)).inc QSC_DROPCNT2.FLUSH)
    s.modQ q (fun u => { u with pkts := u.pkts.map (fun p => { p with flushed := true }) })
  else s

/-- R252: a policer's parameters take effect; its buckets fill when EN becomes 1. -/
def State.applyPolicer (s : State) (n : Nat) : State :=
  let en := s.bit (QSC_POLCFG.EN n)
  let cbs := s.get (QSC_POLCBS.CBS n)
  let ebs := s.get (QSC_POLEBS.EBS n)
  { s with qsc := { s.qsc with pols := vmod s.qsc.pols n (fun p =>
      let p := if en && !p.en then { p with tc := 64 * cbs, te := 64 * ebs, rem := 0 } else p
      { p with en := en, yact := s.bit (QSC_POLCFG.YACT n), cir := s.get (QSC_POLCIR.CIR n), cbs := cbs, ebs := ebs }) } }

/-- R253: the packets of a queue tested from the head: packets in flight are passed over, expired ones are discarded, and the
first other one ends the test. What went with its group is passed over. -/
def State.residence (s : State) (q : Nat) : List Packet → State
  | [] => s
  | p :: t =>
    if p.inflight || !s.queued q p then s.residence q t
    else if s.expired p then (s.dropExpired q p).residence q t
    else s

/-- R254: the samples of a queue. -/
def State.sampleQueue (s : State) (q : Nat) : State :=
  let u := s.q q
  let soj := match u.pkts.head? with
    | some p => ageOf 32 s.tb3us p.us
    | none => 0
  ((s.set (QSC_SAMPB.BYTES q) u.bytes).set (QSC_SAMPP.PKTS q) u.pkts.length).set (QSC_SOJ.US q) soj

/-- R252 to R254: the work of QSC at step 7. -/
def State.qscStep7 (s : State) : State :=
  if !s.dOn 23 then s
  else
    let s := { s with qsc := { s.qsc with en := s.bit QSC_CTRL.EN } }
    let s := s.each (List.range 64) State.applyQueueCfg
    let s := s.each (List.range 32) State.applyPolicer
    let s := s.each (List.range 8) (fun s o => if 4 < (s.strictAll o).length then s.raise QSC_EVT.STRICTX else s)
    let k := 10 * 2 ^ s.beat.period
    let s := { s with qsc := { s.qsc with queues := s.qsc.queues.map (fun u => Queue.refill u k) } }
    let s := s.each (List.range 64) (fun s q => s.residence q (s.q q).pkts)
    let s := s.each (List.range 64) State.sampleQueue
    s.set QSC_SAMPABN.ABN (s.abn % 2 ^ 32)

end Sys2Proof.Machine
end

