-- ==== Sys2Proof/Machine/Mesh.lean ====
section
/-! DEFINITION. Chapter 8, the mesh forwarding unit: the crust header, the decision, the forwarding table, the flood cache,
fragments and their reassembly. -/
namespace Sys2Proof.Machine

/-! ### The crust header (R205) -/

/-- Byte `i` of a byte list; zero beyond its end. -/
def byteAt (b : List Byte) (i : Nat) : Nat := (b.getD i 0).toNat

/-- The header word H. -/
def crustH (b : List Byte) : Nat := byteAt b 0 + 256 * byteAt b 1 + 65536 * byteAt b 2

/-- VER. -/
def crustVer (b : List Byte) : Nat := crustH b % 4

/-- BCAST. -/
def crustBcast (b : List Byte) : Bool := bitOf (crustH b) 2

/-- MCAST. -/
def crustMcast (b : List Byte) : Bool := bitOf (crustH b) 3

/-- MGMT. -/
def crustMgmt (b : List Byte) : Bool := bitOf (crustH b) 4

/-- HOPLIM. -/
def crustHop (b : List Byte) : Nat := crustH b / 64 % 64

/-- TC. -/
def crustTc (b : List Byte) : Nat := crustH b / 4096 % 64

/-- DST. -/
def crustDst (b : List Byte) : Nat := byteAt b 3 + 256 * byteAt b 4

/-- SRC. -/
def crustSrc (b : List Byte) : Nat := byteAt b 5 + 256 * byteAt b 6

/-- The packet with its HOPLIM replaced. -/
def setHop (b : List Byte) (h : Nat) : List Byte :=
  if b.length < 3 then b
  else leBytes 3 (crustH b - crustHop b * 64 + h % 64 * 64) ++ b.drop 3

/-- R209: the packet with a HOPLIM above MAXHOP set to MAXHOP. -/
def clampHop (b : List Byte) (maxhop : Nat) : List Byte := if maxhop < crustHop b then setHop b maxhop else b

/-- R209, step 1. -/
def headerOk (b : List Byte) (radio : Bool) : Bool :=
  decide (8 ≤ b.length) && decide (b.length ≤ 2048) && decide (crustVer b = 1) && !(crustBcast b && crustMcast b) &&
    (!crustMcast b || decide (crustDst b ≤ 255)) && (radio || decide (byteAt b 7 = 0))

/-- A packet's bytes as it leaves: HOPLIM as the decision set it. -/
def State.packetBytes (s : State) (p : Packet) : List Byte :=
  let b := s.readCells p.cells p.len
  match p.hopOut with
  | some h => setHop b h
  | none => b

/-! ### Next hop (R210 to R212) -/

/-- A neighbour's down bit. -/
def State.isDown (s : State) (n : Nat) : Bool := bitOf (s.get (MSH_DOWN.DOWN (n / 32))) (n % 32)

/-- R212: an entry's next hop, with the alternate where the neighbour is down. -/
inductive Route where
  | to (outlet nbr : Nat)
  | noRoute
  | nbrDown
  deriving DecidableEq, Repr

/-- R210, R211: a route entry as outlet and next hop: it holds no route with OUTLET O2 and NBR 16 to 254. -/
def entryHolds (valid : Bool) (outlet nbr : Nat) : Bool := valid && !(decide (outlet = 2) && decide (16 ≤ nbr) && decide (nbr ≤ 254))

/-- R31: the ECC word of the forwarding table that holds the entry of address `a` has an uncorrectable error. -/
def State.ftEcc (s : State) (a : Nat) : Option (Nat × Nat × Nat) :=
  s.ecc.find? (fun e => decide (e.1 = 3) && decide (e.2.2 = a / 2))

/-- R210 to R212: the look-up of a destination. -/
def State.lookup (s : State) (a : Nat) : Route :=
  let e := s.mword (0x11000000 + 4 * a)
  let alt (o n an : Nat) (alten : Bool) : Route :=
    if o < 2 && s.isDown n then (if alten && !s.isDown an then .to o an else .nbrDown) else .to o n
  if (s.ftEcc a).isNone && entryHolds (decide (fieldOf e 31 1 = 1)) (fieldOf e 28 3) (fieldOf e 20 8) then
    alt (fieldOf e 28 3) (fieldOf e 20 8) (fieldOf e 12 8) (decide (fieldOf e 11 1 = 1))
  else if entryHolds (s.bit MSH_DFLT.EN) (s.get MSH_DFLT.OUTLET) (s.get MSH_DFLT.NBR) then
    alt (s.get MSH_DFLT.OUTLET) (s.get MSH_DFLT.NBR) 0 false
  else .noRoute

/-- R30, R31: what a look-up meets in its word of the forwarding table. -/
def State.lookupEcc (s : State) (a : Nat) : State :=
  s.blockRead 9 (fun e => decide (e.1 = 3) && decide (e.2.2 = a / 2))

/-- R213: the queue of priority `p` on outlet `o`. -/
def State.prioQueue (s : State) (o p : Nat) : Nat :=
  let k := p % 4
  let l : Loc := ⟨if p < 4 then MSH_OQL.addr o else MSH_OQH.addr o, 8 * k, 6⟩
  s.get l

/-- R213: the queue of a traffic class on outlet `o`. -/
def State.classQueue (s : State) (o tc : Nat) : Nat :=
  s.prioQueue o (s.get ⟨MSH_TCMAP.addr (tc / 8), 4 * (tc % 8), 3⟩)

/-! ### Drops (R209) -/

/-- The causes of MSH_DROPCNTn. -/
inductive MshDrop where
  | noRoute
  | hopExp
  | loop
  | badHdr
  | qdrop
  | nbrDown
  | floodDup
  deriving DecidableEq, Repr

/-- R209: a drop counted, and its event bit set where one exists. -/
def State.mshCount (s : State) (d : MshDrop) : State :=
  match d with
  | .noRoute => (s.inc MSH_DROPCNT0.NOROUTE).raise MSH_EVT.NOROUTE
  | .hopExp => (s.inc MSH_DROPCNT0.HOPEXP).raise MSH_EVT.HOPEXP
  | .loop => (s.inc MSH_DROPCNT1.LOOP).raise MSH_EVT.LOOP
  | .badHdr => s.inc MSH_DROPCNT1.BADHDR
  | .qdrop => s.inc MSH_DROPCNT2.QDROP
  | .nbrDown => s.inc MSH_DROPCNT3.NBRDOWN
  | .floodDup => s.inc MSH_DROPCNT3.FLOODDUP

/-- What a decision comes to, for the port the packet came from (R209, R242). -/
inductive MshOut where
  /-- Forwarded, delivered, appended to a context, or handed on in at least one replica. -/
  | passed
  /-- Dropped by MSH. -/
  | dropped
  /-- Refused at step 9, or by R217; for the radio port RX_NOROOM. `none`: the queue lies on another outlet, or no replica
  was admitted. -/
  | refused (r : Option Refuse)
  deriving DecidableEq, Repr

/-! ### Fragments (R217) -/

/-- The chunk length for a whole-packet limit. -/
def chunkLen (mx : Nat) : Nat := (mx - 8) / 16 * 16

/-- The fragments of a payload from offset `off` on, chunks of `c` bytes. -/
def fragsFrom (head : List Byte) (c : Nat) : Nat → Nat → List Byte → List (List Byte)
  | 0, _, _ => []
  | f + 1, off, pay =>
    let more := decide (c < pay.length)
    (head ++ [BitVec.ofNat 8 (b2n more * 128 + off / 16)] ++ pay.take c) ::
      (if more then fragsFrom head c f (off + c) (pay.drop c) else [])

/-- R217: what is offered to QSC for a packet: itself, or its fragments on a radio outlet. -/
def State.offersOf (s : State) (o : Nat) (bytes : List Byte) (cells : List Nat) (desc : Packet) : List Offer :=
  let mx := if o = 0 then s.get MSH_FRAG.MAXA else s.get MSH_FRAG.MAXB
  if o < 2 ∧ mx < bytes.length then
    let fs := fragsFrom (bytes.take 7) (chunkLen mx) 256 0 (bytes.drop 8)
    fs.zipIdx.map (fun f => { bytes := f.1, desc := { desc with
      frag := some { group := s.qsc.nextId, idx := f.2, last := decide (f.2 + 1 = fs.length) } } })
  else [{ bytes := bytes, cells := cells, desc := desc }]

/-! ### Step 9 (R209, R213, R241, R242) -/

/-- The buffer a packet lies in while MSH decides it: name and cells. -/
abbrev Share := Option (Nat × List Nat)

/-- A packet that came with cells holds a handle to them, under the name its submitter gave or a new one. -/
def State.claim (s : State) (i : Ingress) : Share × State :=
  if i.cells.isEmpty then (none, s)
  else match i.buf with
    | some b => (some (b, i.cells), s)
    | none =>
      (some (s.qsc.nextId, i.cells),
        { s with qsc := { s.qsc with nextId := s.qsc.nextId + 1, refs := aput s.qsc.refs s.qsc.nextId 1 } })

/-- A handle to a buffer given up. -/
def State.unshare (s : State) (h : Share) : State :=
  match h with
  | some (b, cs) => s.releaseBuf { buf := b, cells := cs }
  | none => s

/-- A claim taken back: the name given to cells that return to their submitter is forgotten. -/
def State.unclaim (s : State) (i : Ingress) (h : Share) : State :=
  match i.buf, h with
  | none, some (b, _) => { s with qsc := { s.qsc with refs := adel s.qsc.refs b } }
  | _, _ => s

/-- R213: control traffic: a packet with MGMT set, and every beacon, which is a packet for the beacon queue of a radio outlet. -/
def State.isControl (s : State) (i : Ingress) (o q : Nat) : Bool :=
  !i.raw && (crustMgmt i.bytes || (decide (o < 2) && decide (q = s.get LNK_BEACON.QUEUE)))

/-- What the descriptor of a packet carries from the decision. -/
def descOf (i : Ingress) (port n : Nat) (control : Bool) (hop : Option Nat) : Packet :=
  { nbr := n, tc := crustTc i.bytes, control := control, hopOut := hop, launch := i.launch, stamp := i.stamp,
    raw := i.raw, port := port }

/-- R209 step 9 on a chosen queue. A packet that lies in a buffer is enqueued in it; one that does not takes cells, which
later replicas share. -/
def State.offerTo (s : State) (o q : Nat) (bytes : List Byte) (desc : Packet) (h : Share) :
    Option Refuse × Share × State :=
  let fs := s.offersOf o bytes ((h.map (·.2)).getD []) desc
  let frag := decide (1 < fs.length)
  let s := if frag then { s with qsc := { s.qsc with nextId := s.qsc.nextId + 1 } } else s
  let pid := s.qsc.nextId
  match s.takeIn q o fs (if frag then none else h.map (·.1)) with
  | (some r, s) => (some r, h, s)
  | (none, s) =>
    if frag || h.isSome then (none, h, s)
    else match (s.q q).pkts.find? (fun p => p.pid = pid) with
      | some p => (none, some (pid, p.cells), s)
      | none => (none, h, s)

/-- R213, R209 step 9: the queue is chosen and the packet offered. -/
def State.place (s : State) (i : Ingress) (port o n : Nat) (hop : Option Nat) (h : Share) :
    Option (Option Refuse) × Share × State :=
  let q := s.classQueue o (crustTc i.bytes)
  if (s.q q).outlet ≠ o then (some none, h, s)
  else match s.offerTo o q i.bytes (descOf i port n (s.isControl i o q) hop) h with
    | (some r, h, s) => (some (some r), h, s)
    | (none, h, s) => (none, h, s)

/-- R242: ports whose packets wait under NOBUF. -/
def portWaits (port : Nat) : Bool := decide (port = 1) || decide (port = 4) || decide (port = 5)

/-- R242: a Jajor packet that is cut into fragments gives its held cells to them: they are free for the offer. -/
def State.lends (s : State) (i : Ingress) (port o : Nat) : Bool :=
  (decide (port = 2) || decide (port = 3)) && decide (1 < (s.offersOf o i.bytes [] {}).length)

/-- The cells of a packet lent to the free pool, and taken back. -/
def State.lendCells (s : State) (cs : List Nat) : State :=
  { s with qsc := { s.qsc with alloc := s.qsc.alloc.filter (fun c => !cs.contains c) } }

/-- A unicast packet at step 9: where it ends, and the counters of R209, R241 and R242. -/
def State.placeOne (s : State) (i : Ingress) (port o n : Nat) (hop : Option Nat) (local_ : Bool) : MshOut × State :=
  match s.claim i with
  | (h0, s) =>
    let lent := s.lends i port o
    match (if lent then (s.lendCells i.cells).place i port o n hop none else s.place i port o n hop h0) with
    | (none, _, s) =>
      let s := if lent then s.unclaim i h0 else s.unshare h0
      (.passed, s.inc (if local_ then MSH_LOCALCNT.COUNT else MSH_FWDCNT.COUNT))
    | (some none, _, s) =>
      let s := if lent then s.allocCells i.cells else s
      (.refused none, (s.unclaim i h0).mshCount .qdrop)
    | (some (some r), _, s) =>
      let s := (if lent then s.allocCells i.cells else s).unclaim i h0
      let wait := decide (r = .nobuf) && portWaits port
      let s := s.countRefusal r wait
      (.refused (some r), if wait then s else s.mshCount .qdrop)

/-! ### Broadcast and multicast (R214 to R216) -/

/-- R214: the flood key. -/
def floodKey (b : List Byte) : Nat × Nat := (crustSrc b, crc32 (setHop b 0))

/-- The key is in the cache and young. -/
def State.flooded (s : State) (k : Nat × Nat) : Bool :=
  s.msh.flood.any (fun e => decide (e.1 = k.1) && decide (e.2.1 = k.2) &&
    decide (ageOf 40 s.abn e.2.2 < max 1 (s.get MSH_CTRL.FLOODAGE)))

/-- A key withdrawn. -/
def State.unflood (s : State) (k : Nat × Nat) : State :=
  { s with msh := { s.msh with flood := s.msh.flood.filter (fun e => !(decide (e.1 = k.1) && decide (e.2.1 = k.2))) } }

/-- A key entered, the oldest of 256 replaced. -/
def State.enterFlood (s : State) (k : Nat × Nat) : State :=
  let s := s.unflood k
  let l := s.msh.flood ++ [(k.1, k.2, s.abn)]
  { s with msh := { s.msh with flood := if 256 < l.length then l.drop 1 else l } }

/-- R207: the wired outlet a port belongs to. -/
def wiredOutlet (port : Nat) : Option Nat := if port = 1 then some 2 else if port = 2 then some 3 else if port = 3 then some 4 else none

/-- Link ingress ports (R209). -/
def isLink (port : Nat) : Bool := decide (port ≤ 3)

/-- R216: the replicas offered in turn; whether one was admitted. -/
def State.replicate (s : State) (i : Ingress) (port : Nat) (hop : Option Nat) :
    List (Nat × Bool) → Share → Bool → Bool × Share × State
  | [], h, ok => (ok, h, s)
  | (o, loc) :: t, h, ok =>
    match s.place i port o 255 (if loc then none else hop) h with
    | (none, h, s) =>
      State.replicate (s.inc (if loc then MSH_LOCALCNT.COUNT else MSH_FWDCNT.COUNT)) i port hop t h true
    | (some r, h, s) =>
      let s := match r with
        | some x => s.countRefusal x false
        | none => s
      State.replicate (s.mshCount .qdrop) i port hop t h ok

/-- R214, R215: a broadcast or multicast packet. -/
def State.flood (s : State) (i : Ingress) (port : Nat) : MshOut × State :=
  let b := i.bytes
  let g := crustDst b
  if crustMcast b && !s.bit (MSH_MCAST.VALID g) then (.dropped, s.mshCount .noRoute)
  else if s.flooded (floodKey b) then (.dropped, s.mshCount .floodDup)
  else
    let s := s.enterFlood (floodKey b)
    let outs := if crustMcast b then s.get (MSH_MCAST.OUT g) % 64 else s.get MSH_BCOUT.MASK
    let here := if crustMcast b then bitOf (s.get (MSH_MCAST.OUT g)) 6 else s.bit MSH_CTRL.BCLOCAL
    let hopOk := decide ((if isLink port then 2 else 1) ≤ crustHop b)
    let away := if hopOk then
      (List.range 6).filter (fun o => bitOf outs o && decide (wiredOutlet port ≠ some o)) else []
    let reps := (if here then [(if crustMgmt b then 7 else 6, true)] else []) ++ away.map (fun o => (o, false))
    if reps.isEmpty then
      if !hopOk && decide (outs ≠ 0) then (.dropped, s.mshCount .hopExp) else (.dropped, s)
    else
      match s.claim i with
      | (h0, s) =>
        match s.replicate i port (if isLink port then some (crustHop b - 1) else none) reps h0 false with
        | (true, _, s) => (.passed, s.unshare h0)
        | (false, _, s) => (.refused none, (s.unclaim i h0).unflood (floodKey b))

/-! ### The decision (R209) -/

/-- Where a radio frame came from: band, neighbour index (255 unknown), link SRC. -/
structure RadioFrom where
  band : Nat
  nbr : Nat
  src : Nat
  deriving DecidableEq, Repr

/-- R209, steps 3 to 9. -/
def State.decideWhole (s : State) (i : Ingress) (port : Nat) (rf : Option RadioFrom) : MshOut × State :=
  let b := i.bytes
  let own := s.get LNK_ADDR.ADDR
  if isLink port && decide (crustSrc b = own) then (.dropped, s.mshCount .loop)
  else if crustBcast b || crustMcast b then s.flood i port
  else if crustDst b = own then s.placeOne i port (if crustMgmt b then 7 else 6) 255 none true
  else if crustHop b < (if isLink port then 2 else 1) then (.dropped, s.mshCount .hopExp)
  else
    let s' := s.lookupEcc (crustDst b)
    match s.lookup (crustDst b) with
    | .noRoute => (.dropped, s'.mshCount .noRoute)
    | .nbrDown => (.dropped, s'.mshCount .nbrDown)
    | .to o n =>
      if wiredOutlet port = some o ∨ (rf.any (fun r => decide (r.band = o) && decide (r.nbr = n) && decide (n ≠ 255))) then
        (.dropped, s'.mshCount .loop)
      else s'.placeOne i port o n (if isLink port then some (crustHop b - 1) else none) false

/-! ### Reassembly (R217) -/

/-- Cells all contexts hold. -/
def State.reasmCells (s : State) : Nat := s.msh.contexts.foldl (fun t c => t + c.cells.length) 0

/-- MSH_REASMSTAT follows the contexts. -/
def State.showReasm (s : State) : State :=
  (s.set MSH_REASMSTAT.CELLS s.reasmCells).set MSH_REASMSTAT.CTX s.msh.contexts.length

/-- The context of a band and link source. -/
def State.context (s : State) (band src : Nat) : Option Reasm :=
  s.msh.contexts.find? (fun c => decide (c.band = band) && decide (c.src = src))

/-- A context closed; its cells are not touched. -/
def State.closeContext (s : State) (band src : Nat) : State :=
  { s with msh := { s.msh with
      contexts := s.msh.contexts.filter (fun c => !(decide (c.band = band) && decide (c.src = src))) } }.showReasm

/-- A context opened or kept. -/
def State.keepContext (s : State) (c : Reasm) : State :=
  let s := s.closeContext c.band c.src
  { s with msh := { s.msh with contexts := s.msh.contexts ++ [c] } }.showReasm

/-- A context discarded, its cells freed, and counted as REASM. -/
def State.dropContext (s : State) (c : Reasm) : State :=
  let s := (s.closeContext c.band c.src).freeCells c.cells
  (s.inc MSH_DROPCNT2.REASM).raise MSH_EVT.REASM

/-- R217: `n` new cells are available beside `others` cells of other contexts and `have_` of this one. A context opened anew
gives its `give` cells back first. Control cells are judged against the reservation of the band's outlet (log entry 10). -/
def State.reasmRoom (s : State) (band : Nat) (ctl : Bool) (others total n give : Nat) : Bool :=
  decide (others + total ≤ s.get MSH_REASM.CELLS) &&
    (let held := if ctl then s.unusedSum - s.unusedRsv band else s.unusedSum
     decide (n + held ≤ s.freeCount + give) || decide (n = 0))

/-- R217: a fragment from the radio port. -/
def State.fragment (s : State) (i : Ingress) (rf : RadioFrom) : MshOut × State :=
  let b := i.bytes
  let more := decide (128 ≤ byteAt b 7)
  let off := byteAt b 7 % 128 * 16
  let chunk := b.drop 8
  let ctl := crustMgmt b
  let ctx := s.context rf.band rf.src
  let mine := (ctx.map (fun c => c.cells.length)).getD 0
  let others := s.reasmCells - mine
  if off = 0 ∧ more then
    let n := cellsFor (8 + chunk.length)
    if s.msh.contexts.length - b2n ctx.isSome < 32 && s.reasmRoom rf.band ctl others n n mine then
      let s := match ctx with
        | some c => s.dropContext c
        | none => s
      let cs := s.pickFree n
      let s := (s.allocCells cs).writeCells cs (b.take 7 ++ [0] ++ chunk)
      (.passed, s.keepContext { band := rf.band, src := rf.src, head := b.take 7, payload := chunk, cells := cs, abn := s.abn })
    else (.refused none, s)
  else match ctx with
    | none => (.dropped, (s.inc MSH_DROPCNT2.REASM).raise MSH_EVT.REASM)
    | some c =>
      let pay := c.payload ++ chunk
      if off = c.payload.length ∧ b.take 7 = c.head ∧ (more = false ∨ chunk.length % 16 = 0) ∧ pay.length ≤ 2040 then
        let total := cellsFor (8 + pay.length)
        let n := total - mine
        if s.reasmRoom rf.band ctl others total n 0 then
          let cs := c.cells ++ s.pickFree n
          let s := (s.allocCells (cs.drop mine)).writeCells cs (c.head ++ [0] ++ pay)
          if more then (.passed, s.keepContext { c with payload := pay, cells := cs, abn := s.abn })
          else
            let s := s.closeContext c.band c.src
            match s.decideWhole { i with bytes := c.head ++ [0] ++ pay, cells := cs } 0 (some rf) with
            | (.passed, s) => (.passed, s)
            | (.dropped, s) => (.dropped, s.freeCells cs)
            | (.refused r, s) => (.refused r, (s.freeCells (cs.drop mine)).keepContext c)
        else (.refused none, s)
      else (.dropped, s.dropContext c)

/-- R217: contexts idle for TO beats are discarded at step 7. -/
def State.reasmTimeout (s : State) : State :=
  s.each (s.msh.contexts.filter (fun c => decide (s.get MSH_REASM.TO ≤ ageOf 40 s.abn c.abn))) State.dropContext

/-- R209: the decision of one packet, from step 1. A frame of another EtherType goes to the O6 queue of priority 0 (R224). -/
def State.decidePacket (s : State) (i : Ingress) (port : Nat) (rf : Option RadioFrom) : MshOut × State :=
  if i.raw then
    let q := s.prioQueue 6 0
    if (s.q q).outlet ≠ 6 then (.refused none, s.mshCount .qdrop)
    else match s.offerTo 6 q i.bytes (descOf i port 255 false none) none with
      | (none, _, s) => (.passed, s)
      | (some r, _, s) =>
        let wait := decide (r = .nobuf)
        let s := s.countRefusal r wait
        (.refused (some r), if wait then s else s.mshCount .qdrop)
  else if !s.bit MSH_CTRL.EN then (.refused (some .disabled), s.mshCount .qdrop)
  else
    let b := clampHop i.bytes (s.get MSH_CTRL.MAXHOP)
    let s := match i.cells with
      | c :: _ => s.setMbytes (cellAddr c) (b.take 3)
      | [] => s
    let i := { i with bytes := b }
    if !headerOk b (decide (port = 0)) then (.dropped, s.mshCount .badHdr)
    else match rf with
      | some r => if byteAt b 7 ≠ 0 then s.fragment i r else s.decideWhole i port rf
      | none => s.decideWhole i port none

/-! ### Neighbours (R212) -/

/-- R212: a TX_RETRY drop of a packet to neighbour `n`. -/
def State.retryDrop (s : State) (n : Nat) : State :=
  let k := (aget s.msh.retryDrops n).getD 0 + 1
  let s := { s with msh := { s.msh with retryDrops := aput s.msh.retryDrops n k } }
  let lim := s.get MSH_CTRL.DOWNLIM
  if lim ≠ 0 ∧ lim ≤ k ∧ !s.isDown n then (s.raise ⟨MSH_DOWN.addr (n / 32), n % 32, 1⟩).raise MSH_EVT.DOWN else s

/-- R212: the count of neighbour `n` resets. -/
def State.retryReset (s : State) (n : Nat) : State :=
  { s with msh := { s.msh with retryDrops := adel s.msh.retryDrops n } }

/-- R212: the down bit of neighbour `n` clears, and its count with it. -/
def State.clearDown (s : State) (n : Nat) : State :=
  (s.set ⟨MSH_DOWN.addr (n / 32), n % 32, 1⟩ 0).retryReset n

/-- R8: the down bit of neighbour `n` was raised in this clock. -/
def State.downHot (s : State) (n : Nat) : Bool := s.hot.any (fun h => decide (h.1 = ⟨MSH_DOWN.addr (n / 32), n % 32, 1⟩))

/-- MSH_DOWN_CLEAR (R212): a write of MSH_DOWNi clears the bits written 1, but for those raised in its clock (R8). -/
def State.downWrite (s : State) (i : Nat) (w : Word) : State :=
  s.each ((List.range 32).filter (fun j => bitOf w.toNat j && s.isDown (32 * i + j) && !s.downHot (32 * i + j)))
    (fun s j => s.clearDown (32 * i + j))

/-! ### Ports (R207, R208, R242) -/

/-- A port's list changed. -/
def State.modPort (s : State) (p : Nat) (f : List Ingress → List Ingress) : State :=
  { s with msh := { s.msh with ports := vmod s.msh.ports p f } }

/-- One engine of the cluster changed. -/
def State.modEng (s : State) (e : Nat) (f : EngState → EngState) : State := { s with eng := vmod s.eng e f }

/-- R384, R387: a hardware notice joins its queue of eight; one that finds it full is lost. -/
def State.notice (s : State) (tag code result : Nat) : State :=
  if s.hif.notices.length < 8 then { s with hif := { s.hif with notices := s.hif.notices ++ [(tag, code, result)] } }
  else s.inc HIF_DROPCNT.NOTICE

/-- R387: notice PKTREFUSED. -/
def State.pktRefused (s : State) (tag result : Nat) : State :=
  ((s.notice tag (Config.noticeCode 1).toNat result).inc HIF_DROPCNT.REFUSED).raise HIF_EVT.PKTREF

/-- R387: the RESULT of a refusal by QSC. -/
def refuseResult : Refuse → Nat
  | .disabled => 3
  | .policed => 4
  | .quota => 5
  | .nobuf => 1

/-- R323: the submission of engine `e` ends with RESULT `r`. -/
def State.subEnd (s : State) (e r : Nat) : State :=
  ((s.set (ENG_SUBSTAT.BUSY e) 0).set (ENG_SUBSTAT.RESULT e) r).raise (ENG_IRQSTAT.SUBDONE e)

/-- R323: refused cells return to their engine: to its undone packets where it held the packet, else to its allocated
cells. -/
def State.cellsBack (s : State) (i : Ingress) : State :=
  match i.got, i.buf with
  | some (q, o), some b => s.modEng i.eng (fun e =>
      { e with pkts := e.pkts ++ [{ cells := i.cells, buf := b, len := i.bytes.length, q := q, outlet := o }] })
  | _, _ => s.modEng i.eng (fun e => { e with alloc := e.alloc ++ i.cells })

/-- The cells of a packet that is dropped are freed (R323). -/
def State.freeIngress (s : State) (i : Ingress) : State :=
  match i.buf with
  | some b => s.releaseBuf { buf := b, cells := i.cells }
  | none => s.freeCells i.cells

/-- R220, R242: a Jajor packet is decided. Where it was admitted, the port is owed replacements for its cells; otherwise they
return to its holding with their credits. Cells of a packet that came before the port left UP are just freed. -/
def State.jjSettle (s : State) (p : Nat) (i : Ingress) (passed : Bool) : State :=
  let n := i.cells.length
  if i.orphan then (if passed then s else s.freeCells i.cells)
  else if passed then
    (s.modJj p (fun j => if crustMgmt i.bytes then { j with oweM := j.oweM + n } else { j with oweD := j.oweD + n })).jjReplenish
  else s.jjHold p (crustMgmt i.bytes) i.cells

/-- R224: bytes of the receive FIFO in use. -/
def State.ethFifo (s : State) : Nat := (vget s.msh.ports 1).foldl (fun t i => t + i.fifo) 0

/-- A MAC address from its two registers. -/
def State.macOf (s : State) (lo hi : Nat) : List Byte := leBytes 4 (s.reg lo).toNat ++ leBytes 2 (s.reg hi).toNat

/-- The PAUSE frame of IEEE 802.3 with a number of quanta (PRESUMED, log entry 217), with its FCS. -/
def State.pauseFrame (s : State) (quanta : Nat) : List Byte :=
  let b := [0x01, 0x80, 0xC2, 0x00, 0x00, 0x01] ++ s.macOf ETH_MACLO.addr ETH_MACHI.addr ++ [0x88, 0x08, 0x00, 0x01] ++ beBytes 2 quanta
  let b := b ++ List.replicate (60 - b.length) 0
  b ++ leBytes 4 (crc32 b)

/-- R224: a PAUSE frame is sent, and counted. -/
def State.sendPause (s : State) (quanta : Nat) : State :=
  { s with eth := { s.eth with pause := s.pauseFrame quanta } }.inc ETH_PAUSECNT.SENT

/-- R224: PAUSE is sent with QUANTA when fewer than THR bytes are free, and with 0 when 2 × THR are free again. -/
def State.ethPause (s : State) : State :=
  if !s.bit ETH_CTRL.PAUSEEN then s
  else
    let free := 16384 - s.ethFifo
    let thr := s.get ETH_PAUSE.THR
    if !s.bit ETH_STAT.LPAUSED && decide (free < thr) then (s.set ETH_STAT.LPAUSED 1).sendPause (s.get ETH_PAUSE.QUANTA)
    else if s.bit ETH_STAT.LPAUSED && decide (2 * thr ≤ free) then (s.set ETH_STAT.LPAUSED 0).sendPause 0
    else s

/-- R209, R242, R323, R387: what a decision does at the port the packet came from. -/
def State.settlePort (s : State) (port : Nat) (i : Ingress) (r : MshOut) : State :=
  if port = 2 ∨ port = 3 then
    s.jjSettle (port - 2) i (decide (r = .passed))
  else if port = 1 then s.ethPause
  else if port = 4 then
    match r with
    | .passed => s
    | .dropped => s.pktRefused i.tag 2
    | .refused none => s.pktRefused i.tag 2
    | .refused (some x) => s.pktRefused i.tag (refuseResult x)
  else if port = 5 then
    match r with
    | .passed => if i.orphan then s else s.subEnd i.eng 1
    | .refused (some x) =>
      if i.orphan then s.freeIngress i
      else (s.cellsBack i).subEnd i.eng (match x with
        | .disabled => 2
        | .policed => 3
        | _ => 4)
    | _ =>
      let s := s.freeIngress i
      if i.orphan then s else s.subEnd i.eng 5
  else s

/-- What step 9 found for a packet that begins to wait: outlet, next hop, queue, HOPLIM. -/
def State.waitPlace (s : State) (i : Ingress) (port : Nat) : Nat × Nat × Nat × Option Nat :=
  let b := clampHop i.bytes (s.get MSH_CTRL.MAXHOP)
  if i.raw then (6, 255, s.prioQueue 6 0, none)
  else if crustDst b = s.get LNK_ADDR.ADDR then
    let o := if crustMgmt b then 7 else 6
    (o, 255, s.classQueue o (crustTc b), none)
  else match s.lookup (crustDst b) with
    | .to o n => (o, n, s.classQueue o (crustTc b), if isLink port then some (crustHop b - 1) else none)
    | _ => (6, 255, 0, none)

/-- R207: the next port in the round robin that has a packet to decide, and that packet. On the engines port the packets
that wait are passed over: only their own engines wait. -/
def State.nextIngress (s : State) : Option (Nat × Ingress) :=
  ((List.range 5).map (fun k => (s.msh.last + k) % 5 + 1)).findSome? (fun p =>
    let l := vget s.msh.ports p
    if p = 5 then (l.find? (fun i => i.waiting.isNone)).map (fun i => (p, i))
    else match l with
      | i :: _ => if i.waiting.isNone then some (p, i) else none
      | [] => none)

/-- The packet taken from its port. -/
def removeFirst (i : Ingress) : List Ingress → List Ingress
  | [] => []
  | x :: t => if x = i then t else x :: removeFirst i t

/-- MSH_DECISION (R207, R209). -/
def State.mshDecision (s : State) : State :=
  if !s.dOn 23 then s
  else match s.nextIngress with
    | none => s
    | some (p, i) =>
      let w := s.waitPlace i p
      let s := { s with msh := { s.msh with last := p } }
      match s.decidePacket i p none with
      | (r, s) =>
        if r = .refused (some .nobuf) ∧ portWaits p then
          s.modPort p (fun l => l.map (fun x => if x = i then { x with waiting := some w } else x))
        else (s.modPort p (removeFirst i)).settlePort p i r

/-- MSH_DECISION. -/
def execMshDecision (s : State) : Host.Outcome State Fault Refusal := .next s.mshDecision

/-- R242: a waiting packet is offered again to the queue that refused it. -/
def State.reoffer (s : State) (p : Nat) (i : Ingress) : State :=
  match i.waiting with
  | none => s
  | some (o, n, q, hop) =>
    match s.claim i with
    | (h0, s) =>
      match s.offerTo o q (if i.raw then i.bytes else clampHop i.bytes (s.get MSH_CTRL.MAXHOP))
          (descOf i p n (s.isControl i o q) hop) h0 with
      | (some .nobuf, _, s) => s.unclaim i h0
      | (some r, _, s) =>
        (((((s.unclaim i h0).countRefusal r false).mshCount .qdrop).modPort p (removeFirst i))).settlePort p i (.refused (some r))
      | (none, _, s) =>
        let s := (s.unshare h0).modPort p (removeFirst i)
        let s := if i.raw then s else s.inc (if o = 6 ∨ o = 7 then MSH_LOCALCNT.COUNT else MSH_FWDCNT.COUNT)
        s.settlePort p i .passed

/-- NOBUF_REOFFER (R242): the packets waiting at a port are offered again, in order. -/
def execNobufReoffer (port : Fin 6) (s : State) : Host.Outcome State Fault Refusal :=
  .next (if s.dOn 23 then s.each ((vget s.msh.ports port.val).filter (fun i => i.waiting.isSome))
    (fun s i => s.reoffer port.val i) else s)

end Sys2Proof.Machine
end

