-- ==== Sys2Proof/Machine/Links.lean ====
section
/-! DEFINITION. Chapter 8, the wired links: the two Jajor ports and the Ethernet border. -/
namespace Sys2Proof.Machine

/-! ### Jajor (R218 to R222, R232) -/

/-- The byte of the code group Dx.y or Kx.y. -/
def codeByte (x y : Nat) : Byte := BitVec.ofNat 8 (32 * y + x)

/-- R218: the characters of an ordered set: each a byte, and whether it is a control character. -/
def JjSet.chars : JjSet → List (Bool × Byte)
  | .sof => [(true, codeByte 27 7)]
  | .eof => [(true, codeByte 29 7)]
  | .abort => [(true, codeByte 30 7)]
  | .crd ctl n => [(true, codeByte 28 2), (false, BitVec.ofNat 8 (b2n ctl * 128 + n / 256 % 16)), (false, BitVec.ofNat 8 n)]
  | .bas abn leader =>
    (true, codeByte 28 1) :: (leBytes 5 abn ++ [BitVec.ofNat 8 (b2n leader * 128)]).map (fun b => (false, b))
  | .bfu abn8 dep arr =>
    (true, codeByte 28 3) :: ([BitVec.ofNat 8 abn8, BitVec.ofNat 8 dep] ++ leBytes 4 (unsign 32 arr)).map (fun b => (false, b))

/-- R218: IDLE, sent where there is nothing else to send. -/
def idleChars : List (Bool × Byte) := [(true, codeByte 28 5), (false, codeByte 16 2)]

/-- R218: the class, control or not, and the count of a CRD, from its data bytes. -/
def crdOf (w : BitVec 16) : Bool × Nat := (w.getLsbD 7, w.toNat % 16 * 256 + w.toNat / 256)

/-- R218: the ABN and ROLE of a BAS, from its data bytes. -/
def basOf (w : BitVec 48) : Nat × Bool := (w.toNat % 2 ^ 40, w.getLsbD 47)

/-- R218: ABN [7:0], DEP and ARR of a BFU, from its data bytes. -/
def bfuOf (w : BitVec 48) : Nat × Nat × Int := (w.toNat % 256, w.toNat / 256 % 256, signed 32 (w.toNat / 65536))

/-- The port's ROLE in force (R232): 1 leader, 2 follower. -/
def State.jjRole (s : State) (p : Nat) : Nat := fieldOf (vget s.jjl p).ctrl 29 2

/-- SERPLL is locked (R17). -/
def State.serLocked (s : State) : Bool := s.bit SYS_CLKSTAT.SERPLL_LOCK

/-- The port may train: its domain is on, EN is 1 and SERPLL is locked. -/
def State.jjAble (s : State) (p : Nat) : Bool := s.dOn 26 && s.bit (JJL_CTRL.EN p) && s.serLocked

/-- JAJOR_ALIGN (R221). -/
def execJajorAlign (p : Fin 2) (s : State) : Host.Outcome State Fault Refusal :=
  .next (if s.jjAble p.val && decide (s.get (JJL_STAT.STATE p.val) = 0) then s.set (JJL_STAT.STATE p.val) 1 else s)

/-- R220: credits of a class added. -/
def State.addCredits (s : State) (p : Nat) (control : Bool) (n : Nat) : State :=
  s.incBy (if control then JJL_STAT.RMCRED p else JJL_STAT.RDCRED p) n

/-- R220, R232, R242: at link-up the written control takes effect, MCRED + DCRED cells are taken from the free pool, or as many
as are free, and CRD sets go out for them. -/
def State.jjUp (s : State) (p : Nat) (control : Bool) (n : Nat) : State :=
  let w := s.reg (JJL_CTRL.addr p)
  let s := s.modJj p (fun _ => { ctrl := w })
  let m := s.pickFree (fieldOf w 16 8)
  let s := s.allocCells m
  let d := s.pickFree (fieldOf w 0 12)
  let s := ((s.allocCells d).jjHold p true m).jjHold p false d
  (((s.set (JJL_STAT.STATE p) 2).raise (JJL_EVT.UP p))).addCredits p control n

/-- JAJOR_UP (R221): 1,024 good characters and the first CRD, with its class and count. -/
def execJajorUp (p : Fin 2) (crd : BitVec 16) (s : State) : Host.Outcome State Fault Refusal :=
  .next (if s.jjAble p.val && decide (s.get (JJL_STAT.STATE p.val) = 1) then s.jjUp p.val (crdOf crd).1 (crdOf crd).2 else s)

/-- R17, R221: what a wired outlet is sending is lost with its packet. -/
def State.loseSending (s : State) (o : Nat) : State :=
  match vget s.qsc.sending o with
  | some x =>
    let s := { s with qsc := { s.qsc with sending := vset s.qsc.sending o none } }
    (s.releaseBuf x.pkt).inc (QSC_DROP.COUNT x.q)
  | none => s

/-- R221: a port leaves UP or ALIGN for DOWN. What it received and MSH has not decided no longer concerns it. -/
def State.jjDown (s : State) (p : Nat) : State :=
  let up := decide (s.get (JJL_STAT.STATE p) = 2)
  let s := s.set (JJL_STAT.STATE p) 0
  if !up then s
  else
    let s := s.loseSending (3 + p)
    let j := vget s.jjl p
    let s := ((s.set (JJL_STAT.RMCRED p) 0).set (JJL_STAT.RDCRED p) 0).set (JJL_STAT.SYNC p) 0
    let s := (s.raise (JJL_EVT.DOWN p)).modJj p (fun j => { ctrl := j.ctrl })
    let s := s.modPort (2 + p) (fun l => l.map (fun i => { i with orphan := true }))
    s.freeCells (j.heldM ++ j.heldD)

/-- JAJOR_DOWN (R221). -/
def execJajorDown (p : Fin 2) (s : State) : Host.Outcome State Fault Refusal :=
  .next (if s.dOn 26 then s.jjDown p.val else s)

/-- JAJOR_CREDIT_RETURN (R220). -/
def execJajorCreditReturn (p : Fin 2) (crd : BitVec 16) (s : State) : Host.Outcome State Fault Refusal :=
  .next (if s.dOn 26 && decide (s.get (JJL_STAT.STATE p.val) = 2) then s.addCredits p.val (crdOf crd).1 (crdOf crd).2 else s)

/-- R219: the packet of a frame body (LEN, packet, CRC-32), where its length and check are right. -/
def jajorPacket (body : List Byte) : Option (List Byte) :=
  let n := leNat (body.take 2)
  if body.length = n + 6 ∧ crc32 (body.take (n + 2)) = leNat (body.drop (n + 2)) then some ((body.drop 2).take n) else none

/-- R219: the frame body of a packet. -/
def jajorBody (b : List Byte) : List Byte :=
  let l := leBytes 2 b.length ++ b
  l ++ leBytes 4 (crc32 l)

/-- R219, R220: a frame is discarded, and its credits are returned: as many as its LEN says the sender deducted, where LEN and
the class arrived, and no more than the port holds (log entry 218). -/
def State.jjDiscard (s : State) (p : Nat) (body : List Byte) : State :=
  let s := s.raise (JJL_EVT.CRCERR p)
  let ctl := crustMgmt (body.drop 2)
  let held := if ctl then (vget s.jjl p).heldM else (vget s.jjl p).heldD
  if body.length < 3 then s else s.jjCredit p ctl (min (cellsFor (leNat (body.take 2))) held.length)

/-- R219, R242: a frame received whole goes into held cells of its class, which pass with it to MSH. One that needs more
cells than the port holds is discarded. -/
def State.jjReceive (s : State) (p : Nat) (body : List Byte) (ending : JjEnd) : State :=
  let bad (s : State) : State := s.jjDiscard p body
  match ending with
  | .abort => bad s
  | .codeError => bad (s.inc (JJL_ERRCNT.CODE p))
  | .eof =>
    match jajorPacket body with
    | none => bad (s.inc (JJL_ERRCNT.CRC p))
    | some b =>
      let j := vget s.jjl p
      let n := cellsFor b.length
      let ctl := crustMgmt b
      let held := if ctl then j.heldM else j.heldD
      let s := s.inc (JJL_RXCNT.COUNT p)
      if held.length < n ∨ n = 0 then s
      else
        let cs := held.take n
        let s := s.modJj p (fun j => if ctl then { j with heldM := held.drop n } else { j with heldD := held.drop n })
        (s.writeCells cs b).modPort (2 + p) (fun l => l ++ [{ bytes := b, cells := cs }])

/-- JAJOR_FRAME_RECEIVED (R219): the body between SOF and the ending. -/
def execJajorFrameReceived (p : Fin 2) (body : List (BitVec 8)) (ending : JjEnd) (s : State) :
    Host.Outcome State Fault Refusal :=
  .next (if s.dOn 26 && s.dOn 23 && decide (s.get (JJL_STAT.STATE p.val) = 2) then s.jjReceive p.val body ending else s)

/-- R222: ROLEERR raised. -/
def State.roleErr (s : State) (p : Nat) : State := (s.set (JJL_STAT.ROLEERR p) 1).raise (JJL_EVT.ROLEERR p)

/-- R222: a port that is UP sends its BAS of the beat that begins. -/
def State.basSend (s : State) (p : Nat) : State :=
  if !s.dOn 26 || decide (s.get (JJL_STAT.STATE p) ≠ 2) then s
  else
    let dep := min 64 (Config.basDelay p s.abn)
    (s.modJj p (fun j => { j with sentAbn := s.abn, sentDep := dep })).jjEmit p (.bas s.abn (decide (s.jjRole p = 1)))

/-- R222: both ports send their BAS. -/
def State.basBoundary (s : State) : State := (s.basSend 0).basSend 1

/-- R222: a BAS is received. `arr` is its arrival relative to the own boundary of that ABN in 1/16 ns. The leader answers the
follower's BAS of its own beat with a BFU. A follower whose last BAS had no BFU faces a side that sends none; a BAS of another
follower tells it nothing. -/
def State.basReceived (s : State) (p : Nat) (abn : Nat) (leader : Bool) (arr : Int) : State :=
  let role := s.jjRole p
  let j := vget s.jjl p
  let s :=
    if (role = 1 ∧ leader) ∨ (role = 2 ∧ !leader) ∨ (role = 2 ∧ j.bas.isSome) then s.roleErr p
    else s.set (JJL_STAT.ROLEERR p) 0
  if role = 1 ∧ !leader ∧ abn = j.sentAbn then s.jjEmit p (.bfu (abn % 256) j.sentDep arr)
  else if role ≠ 2 ∨ !leader then s
  else if abn ≠ s.abn then
    let s := (s.modJj p (fun j => { j with bas := none })).raise (JJL_EVT.ABNMIS p)
    if fieldOf (vget s.jjl p).ctrl 27 1 = 1 ∧ !s.bit (JJL_STAT.SYNC p) then
      let t := (abn * (1250000 * 2 ^ s.beat.period) * 65536 + s.get (JJL_DELAY.DELAY p) * 4096) % tbMod
      s.adoptStep t
    else s
  else s.modJj p (fun j => { j with bas := some { abn := abn, arr := arr, dep := j.sentDep } })

/-- JAJOR_BAS_RECEIVED (R222). -/
def execJajorBasReceived (p : Fin 2) (bas : BitVec 48) (arr : Int) (s : State) : Host.Outcome State Fault Refusal :=
  .next (if s.dOn 26 && decide (s.get (JJL_STAT.STATE p.val) = 2) then s.basReceived p.val (basOf bas).1 (basOf bas).2 arr else s)

/-- R222: half of a sum of 1/16 ns; how an odd sum rounds is not stated, and free. -/
def jjHalf (n : Int) : Int := (n + ((Config.halfRound n).toNat % 2 : Nat)) / 2

/-- R222: the follower's lead θ. -/
def jjTheta (aF dep arr depF : Int) : Int := jjHalf ((aF - dep) - (arr - depF))

/-- R222: the one-way delay d. -/
def jjDelay (aF dep arr depF : Int) : Int := jjHalf ((aF - dep) + (arr - depF))

/-- R222: SYNC after 8 consecutive beats inside 2 ns, and its loss after 8 outside. A beat without an exchange breaks a run. -/
def State.jjSync (s : State) (p abn : Nat) (th : Int) : State :=
  let good := decide (th.natAbs ≤ 32)
  let s := s.modJj p (fun j =>
    let j := if abn = (j.syncAbn + 1) % 2 ^ 40 then { j with syncAbn := abn } else { j with syncAbn := abn, goodBeats := 0, badBeats := 0 }
    if good then { j with goodBeats := min 8 (j.goodBeats + 1), badBeats := 0 }
    else { j with badBeats := min 8 (j.badBeats + 1), goodBeats := 0 })
  let j := vget s.jjl p
  if j.goodBeats = 8 ∧ !s.bit (JJL_STAT.SYNC p) then (s.set (JJL_STAT.SYNC p) 1).raise (JJL_EVT.SYNC p)
  else if j.badBeats = 8 then s.set (JJL_STAT.SYNC p) 0
  else s

/-- R222: a BFU completes the exchange of its beat. -/
def State.bfuReceived (s : State) (p : Nat) (abn8 : Nat) (dep : Nat) (arr : Int) : State :=
  match (vget s.jjl p).bas with
  | some b =>
    if b.abn % 256 ≠ abn8 then s
    else
      let th := jjTheta b.arr dep arr b.dep
      let s := s.modJj p (fun j => { j with bas := none })
      let s := (s.setS (JJL_OFS.OFS p) th).set (JJL_DELAY.DELAY p) (min 65535 (jjDelay b.arr dep arr b.dep).toNat)
      let s := s.jjSync p b.abn th
      if fieldOf (vget s.jjl p).ctrl 28 1 = 1 ∧ !s.bit (JJL_STAT.ROLEERR p) then
        s.servoOffset (if p = 0 then .jjl0 else .jjl1) (-th) b.stale
      else s
  | none => s

/-- JAJOR_BFU_RECEIVED (R222). -/
def execJajorBfuReceived (p : Fin 2) (bfu : BitVec 48) (s : State) : Host.Outcome State Fault Refusal :=
  .next (if s.dOn 26 && decide (s.get (JJL_STAT.STATE p.val) = 2) && decide (s.jjRole p.val = 2) then
    let b := bfuOf bfu
    s.bfuReceived p.val b.1 b.2.1 b.2.2 else s)

/-- R233: the word JJL_CTRLn stores; EN 0 takes the port DOWN (R221). -/
def State.jjCtrlWrite (s : State) (p : Nat) (w : Word) : State :=
  let w := if fieldOf w 29 2 = 3 then putField w 29 2 0 else w
  let w := if fieldOf w 16 8 < 8 then putField w 16 8 8 else w
  let w := if fieldOf w 0 12 < 8 then putField w 0 12 8 else w
  let s := s.setReg (JJL_CTRL.addr p) w
  if fieldOf w 31 1 = 0 then s.jjDown p else s

/-! ### Ethernet (R223 to R226, R268) -/

/-- R223: the frame of a mesh packet to a peer: padded to the minimum frame, with its FCS. -/
def State.ethFrame (s : State) (nbr : Nat) (b : List Byte) : List Byte :=
  let dst := if nbr < 16 then s.macOf (ETH_PEERLO.addr nbr) (ETH_PEERHI.addr nbr) else List.replicate 6 0xFF
  let body := dst ++ s.macOf ETH_MACLO.addr ETH_MACHI.addr ++ beBytes 2 (s.get ETH_ETYPE.TYPE) ++ beBytes 2 b.length ++ b
  let body := body ++ List.replicate (60 - body.length) 0
  body ++ leBytes 4 (crc32 body)

/-- A received frame dropped (R224). -/
def State.ethDrop (s : State) : State := (s.inc ETH_ERRCNT.DROP).raise ETH_EVT.RXDROP

/-- R268: the receive stamp of a frame whose stamp point was `ago` of 2^-16 ns before. -/
def State.ethRxStamp (s : State) (ago : Nat) : State :=
  s.stampAt (TSU_ETHRXST0.addr) (shiftSixteenths ((s.tb 1 + tbMod - ago % tbMod) % tbMod)
    (-(signed 16 (s.get TSU_ETHDLY.RX))))

/-- A frame put into the receive FIFO; one that does not fit is dropped. -/
def State.ethQueue (s : State) (i : Ingress) : State :=
  if 16384 < s.ethFifo + i.fifo then s.ethDrop
  else (s.modPort 1 (fun l => l ++ [i])).ethPause

/-- R223 to R225: a received frame, from its destination address to its FCS. -/
def State.ethReceive (s : State) (f : List Byte) (ago : Nat) : State :=
  let s := (s.inc ETH_RXCNT.COUNT).ethRxStamp ago
  let n := f.length
  let tagged := decide (byteAt f 12 = 0x81) && decide (byteAt f 13 = 0)
  let h := if tagged then 18 else 14
  let stamp := (s.reg TSU_ETHRXST0.addr, s.reg TSU_ETHRXST1.addr)
  if n < h + 4 then s.ethDrop
  else if crc32 (f.take (n - 4)) ≠ leNat (f.drop (n - 4)) then (s.inc ETH_ERRCNT.FCS).raise ETH_EVT.RXDROP
  else if (if tagged then 2072 else 2068) < n then s.ethDrop
  else if f.take 6 ≠ s.macOf ETH_MACLO.addr ETH_MACHI.addr ∧ byteAt f 0 % 2 = 0 then s.ethDrop
  else
    let etype := beNat ((f.drop (h - 2)).take 2)
    if etype = s.get ETH_ETYPE.TYPE then
      let len := beNat ((f.drop h).take 2)
      if len < 8 ∨ 2048 < len ∨ n < h + 2 + len + 4 then s.ethDrop
      else s.ethQueue { bytes := (f.drop (h + 2)).take len, stamp := stamp, fifo := n }
    else if s.bit ETH_CTRL.OTHER then s.ethQueue { bytes := f, stamp := stamp, raw := true, fifo := n }
    else s.ethDrop

/-- The port works: its domain and FAB are on, EN is 1 and the link is up. -/
def State.ethUp (s : State) : Bool := s.dOn 25 && s.dOn 23 && s.bit ETH_CTRL.EN && s.bit ETH_STAT.LINK

/-- ETH_FRAME_RECEIVED (R224). -/
def execEthFrameReceived (frame : List (BitVec 8)) (ago : Nat) (s : State) : Host.Outcome State Fault Refusal :=
  .next (if s.ethUp then s.ethReceive frame ago else s)

/-- ETH_LINK_UP (R223): 1000BASE-X runs at 1000 Mbit/s; SGMII at the signalled speed. -/
def execEthLinkUp (speed : Fin 3) (s : State) : Host.Outcome State Fault Refusal :=
  .next (if s.dOn 25 && s.bit ETH_CTRL.EN && s.serLocked then
    ((((s.set ETH_STAT.LINK 1).set ETH_STAT.SPEED (if s.bit ETH_CTRL.MODE then speed.val else 2)).set ETH_STAT.ANDONE
      (s.get ETH_CTRL.ANEN))).raise ETH_EVT.LINKUP
    else s)

/-- R17, R223: the link goes down; what is being sent is lost. -/
def State.ethDown (s : State) : State :=
  if !s.bit ETH_STAT.LINK then s
  else ((((s.set ETH_STAT.LINK 0).set ETH_STAT.ANDONE 0).set ETH_STAT.RPAUSED 0).raise ETH_EVT.LINKDOWN).loseSending 2

/-- ETH_LINK_DOWN (R223). -/
def execEthLinkDown (s : State) : Host.Outcome State Fault Refusal := .next (if s.dOn 25 then s.ethDown else s)

/-- ETH_PAUSE_RECEIVED (R224). -/
def execEthPauseReceived (quanta : BitVec 16) (s : State) : Host.Outcome State Fault Refusal :=
  .next (if s.ethUp then
    let s := s.inc ETH_PAUSECNT.RCVD
    if s.bit ETH_CTRL.PAUSEEN then s.set ETH_STAT.RPAUSED (b2n (decide (quanta.toNat ≠ 0))) else s
    else s)

/-- PAUSE_QUANTA_EXPIRY (R224). -/
def execPauseQuantaExpiry (s : State) : Host.Outcome State Fault Refusal :=
  .next (if s.dOn 25 then s.set ETH_STAT.RPAUSED 0 else s)

/-- MDIO_START (R226): a write of ETH_MDIO. GO 1 while a frame runs is ignored; GO reads as BUSY. -/
def State.mdioWrite (s : State) (w : Word) : State :=
  let busy := s.eth.mdio.isSome
  let go := decide (fieldOf w 31 1 = 1)
  if busy && go then s
  else
    let w := putField w 16 2 0
    let s := s.setReg ETH_MDIO.addr (putField w 31 1 (b2n (busy || go)))
    if go then { s with eth := { s.eth with mdio := some w } } else s

/-- A frame with this CL45 and OP reads: Clause 22 OP 2; Clause 45 OP 2 or 3 (PRESUMED, IEEE 802.3; log entry 11). -/
def mdioReads (w : Word) : Bool :=
  decide (fieldOf w 28 2 = 2) || (decide (fieldOf w 30 1 = 1) && decide (fieldOf w 28 2 = 3))

/-- MDIO_DONE (R226). -/
def execMdioDone (data : BitVec 16) (s : State) : Host.Outcome State Fault Refusal :=
  .next (match s.eth.mdio with
    | some w =>
      let s := { s with eth := { s.eth with mdio := none } }
      let s := (s.set ETH_MDIO.GO 0).raise ETH_EVT.MDIODONE
      if mdioReads w then s.set ETH_MDIO.DATA data.toNat else s
    | none => s)

/-! ### The sending side of O2, O3 and O4 (R219, R220, R223, R248, R268, R270) -/

/-- R248: the link side of readiness. -/
def State.linkReady (s : State) (o : Nat) : Bool :=
  if o = 2 then s.ethUp && !s.bit ETH_STAT.RPAUSED
  else if o = 3 ∨ o = 4 then s.dOn 26 && decide (s.get (JJL_STAT.STATE (o - 3)) = 2)
  else false

/-- The value of a base in 2^-16 ns that a launch record names, nearest to the base's value now. -/
def launchLate (v : Nat) (t : Word × Word) : Int :=
  wrapDiff 16 (tbSec v % 65536) (fieldOf t.2 16 16) * (1000000000 * 65536) +
    ((tbNs v * 65536 + tbFrac v : Nat) : Int) - ((t.1.toNat * 65536 + fieldOf t.2 0 16 : Nat) : Int)

/-- R268, R270: how late a packet starts now, in 2^-16 ns; before its launch time, below 0. -/
def State.lateBy (s : State) (p : Packet) : Int :=
  match p.launch with
  | some (b, w0, w1) => launchLate (s.tb b) (w0, w1)
  | none => 0

/-- One REF cycle and no more, in 2^-16 ns: a launch that it holds is in time. -/
def refTick : Int := 27 * 65536

/-- R268, R270: the transmit stamp and status of an Ethernet frame that starts: now, or at its launch time where that lies in the
REF cycle that has just passed; a late one is counted. -/
def State.ethTxStamp (s : State) (p : Packet) (waited : Bool) : State :=
  let late := s.lateBy p
  let start : Int := if waited && decide (0 ≤ late) && decide (late < refTick) then (s.tb 1 : Int) - late else s.tb 1
  let s := s.stampAt TSU_ETHTXST0.addr (shiftSixteenths (start % (tbMod : Int)).toNat (signed 16 (s.get TSU_ETHDLY.TX)))
  let isLate := decide ((s.get TSU_LTOL.NS * 65536 : Nat) < late)
  let s := { s with eth := { s.eth with txLate := isLate } }
  if isLate then (s.inc TSU_LATECNT.COUNT).raise TSU_EVT.LATE else s

/-- R270: the frame that O2 holds starts, once its launch time is reached and no PAUSE holds the port. -/
def State.ethLaunch (s : State) : State :=
  match vget s.qsc.sending 2 with
  | some x =>
    if x.waits && s.linkReady 2 && decide (0 ≤ s.lateBy x.pkt) then
      let s := s.ethTxStamp x.pkt true
      { s with qsc := { s.qsc with sending := vset s.qsc.sending 2 (some { x with waits := false }) } }
    else s
  | none => s

/-- A selected packet goes to O2, O3 or O4. On O2 it waits for its launch time; a Jajor port deducts the credits at SOF. -/
def State.startWired (s : State) (o q : Nat) (p : Packet) : State :=
  let b := s.packetBytes p
  let n := cellsFor p.len
  let waits := decide (o = 2) && decide (s.lateBy p < 0)
  let s := if o = 2 then (if waits then s else s.ethTxStamp p false)
    else
      let l := if p.control then JJL_STAT.RMCRED (o - 3) else JJL_STAT.RDCRED (o - 3)
      (s.set l (s.get l - n)).jjEmit (o - 3) .sof
  let wire := if o = 2 then s.ethFrame p.nbr b else jajorBody b
  { s with qsc := { s.qsc with sending := vset s.qsc.sending o (some { q := q, pkt := p, wire := wire, waits := waits }) } }

/-- R248: a selection on O2, O3 or O4; a packet with an uncorrectable error is dropped (R31), on a Jajor port its frame ends
with ABORT (R219). -/
def State.selectWired (s : State) (o : Nat) : State :=
  if (vget s.qsc.sending o).isSome || !s.linkReady o then s
  else match s.select o {} (fun s q p => s.unlinkPkt q p.pid) with
    | (s, none) => s
    | (s, some (q, p)) =>
      let s := s.corrected (packetWord p)
      match s.eccInPacket p with
      | some e =>
        let s := s.startWired o q p
        let s := if o = 2 then s else s.jjEmit (o - 3) .abort
        { s with qsc := { s.qsc with sending := vset s.qsc.sending o none } }.dropEcc q p e
      | none => s.startWired o q p

/-- R248, R254: an outlet has finished its packet, where it has started to send it: the cells are freed and the departure counted. -/
def State.sendDone (s : State) (o : Nat) : State :=
  match vget s.qsc.sending o with
  | some x =>
    if x.waits then s
    else
      let s := { s with qsc := { s.qsc with sending := vset s.qsc.sending o none } }
      let s := (s.releaseBuf x.pkt).inc (QSC_DEQCNT.COUNT x.q)
      if o = 2 then s.inc ETH_TXCNT.COUNT
      else if o = 3 ∨ o = 4 then (s.jjEmit (o - 3) .eof).inc (JJL_TXCNT.COUNT (o - 3))
      else s
  | none => s

end Sys2Proof.Machine
end

