-- ==== Sys2Proof/Machine/Engines.lean ====
section
/-! DEFINITION. Chapter 12: engine states and resets, the watchdog, mailboxes, packets to and from engines, and the spare
takeover. What a bundle does is chapter 11's. -/
namespace Sys2Proof.Machine

/-- The states of R309. -/
def stReset : Nat := 0
def stRun : Nat := 1
def stWait : Nat := 2
def stStopped : Nat := 3
def stHalted : Nat := 4
def stRetained : Nat := 5
def stOff : Nat := 6
def stReplaced : Nat := 7

/-- The state of engine `n`. -/
def State.estate (s : State) (n : Nat) : Nat := s.get (ENG_ESTAT.STATE n)

/-- R311: the engine belongs to the application partition. -/
def State.isApp (s : State) (n : Nat) : Bool := bitOf (s.get ENG_PART.EN) n

/-- One engine's part of the state. -/
def State.engOf (s : State) (n : Nat) : EngState := vget s.eng n

/-- The program state of an engine changed. -/
def State.modCpu (s : State) (n : Nat) (f : CpuState → CpuState) : State := s.modEng n (fun e => { e with cpu := f e.cpu })

/-- The states in which the watchdog watches an engine (R314). -/
def watchState (v : Nat) : Bool := decide (v = stRun) || decide (v = stWait) || decide (v = stStopped)

/-- The engine's state shown; an engine that leaves the watched states is not watched for the whole beat. -/
def State.setEstate (s : State) (n v : Nat) : State :=
  let s := s.set (ENG_ESTAT.STATE n) v
  if watchState v then s else s.modEng n (fun e => { e with watched := false })

/-- A bit of a 16-bit map register set or cleared. -/
def State.putBit (s : State) (l : Loc) (n : Nat) (b : Bool) : State := s.set ⟨l.addr, l.lo + n, 1⟩ (b2n b)

/-! ### Mailboxes (R317 to R320) -/

/-- Words of a mailbox in use: reserved or unread. -/
def mboxUsed (m : List Message) : Nat := m.foldl (fun t x => t + (x.len - x.written + x.words.length)) 0

/-- The complete messages that no incomplete one holds back. -/
def mboxReady (m : List Message) : List Message := m.takeWhile (fun x => decide (x.written = x.len))

/-- RXSTAT and input 27 as the mailbox makes them (R316 to R318): every complete message is delivered and gives a notice, also one
that is held back; EMPTY says that no word can be read (log entry 223). -/
def State.showMbox (s : State) (n : Nat) : State :=
  let m := (s.engOf n).mbox.filter (fun x => decide (x.written = x.len))
  let level := m.foldl (fun t x => t + x.words.length) 0
  (((s.set (ENG_RXSTAT.NOTICES n) m.length).set (ENG_RXSTAT.LEVEL n) level).set (ENG_RXSTAT.EMPTY n)
    (b2n (mboxReady (s.engOf n).mbox).isEmpty)).set (ENG_IRQSTAT.MBOX n) (b2n (!m.isEmpty))

/-- A mailbox changed. -/
def State.modMbox (s : State) (n : Nat) (f : List Message → List Message) : State :=
  (s.modEng n (fun e => { e with mbox := f e.mbox })).showMbox n

/-- TXSTAT.OPEN and LEFT. -/
def State.showSend (s : State) (n : Nat) (left : Nat) : State :=
  (s.set (ENG_TXSTAT.OPEN n) (b2n (decide (left ≠ 0)))).set (ENG_TXSTAT.LEFT n) left

/-- R317: the open send of `n`, and its reservation, are abandoned. -/
def State.abandonSend (s : State) (n : Nat) : State :=
  let s := match (s.engOf n).txTo with
    | some d => s.modMbox d (fun m => m.filter (fun x => !(decide (x.sender = n) && decide (x.written ≠ x.len))))
    | none => s
  (s.modEng n (fun e => { e with txTo := none, txSkip := 0 })).showSend n 0

/-- R324: sends to a replaced engine reach its spare. -/
def State.mailDest (s : State) (d : Nat) : Nat :=
  match s.takeover with
  | some t => if t.failed = d then t.spare else d
  | none => d

/-- R320: engine `n` may send to engine `d`. -/
def State.maySend (s : State) (n d : Nat) : Bool :=
  !s.isApp n || s.isApp d || bitOf (s.get ENG_MBALLOW.EN) d

/-- R29, R317: the word of the mailbox memory of `d` that the next write of sender `n` fills. -/
def State.mailSlot (s : State) (d n : Nat) : Nat × Nat × Nat :=
  let e := s.engOf d
  let before := mboxUsed (e.mbox.takeWhile (fun x => !(decide (x.sender = n) && decide (x.written ≠ x.len))))
  let own := ((e.mbox.find? (fun x => decide (x.sender = n) && decide (x.written ≠ x.len))).map (·.written)).getD 0
  (7, d, (e.rdPos + before + own) % 64)

/-- R317: a write of ENG_TXDESTn that R320 allows. -/
def State.mailOpen (s : State) (n : Nat) (w : Word) : State :=
  let s := s.abandonSend n
  let d := s.mailDest (fieldOf w 16 4)
  let len := fieldOf w 0 7
  if len = 0 ∨ 64 < len ∨ 64 < mboxUsed (s.engOf d).mbox + len then s.raise (ENG_TXSTAT.NOSPACE n)
  else
    let s := s.modMbox d (fun m => m ++ [{ sender := n, len := len }])
    (s.modEng n (fun e => { e with txTo := some d })).showSend n len

/-- R317, R319: a write of ENG_TXDATAn. -/
def State.mailWrite (s : State) (n : Nat) (w : Word) : State :=
  match (s.engOf n).txTo with
  | none =>
    if 0 < (s.engOf n).txSkip then s.modEng n (fun e => { e with txSkip := e.txSkip - 1 })
    else s.raise (ENG_TXSTAT.NOOPEN n)
  | some d =>
    let s := s.wrote (s.mailSlot d n)
    let s := s.modMbox d (fun m => m.map (fun x =>
      if x.sender = n ∧ x.written ≠ x.len then { x with written := x.written + 1, words := x.words ++ [w] } else x))
    let left := s.get (ENG_TXSTAT.LEFT n) - 1
    let s := s.showSend n left
    if left = 0 then s.modEng n (fun e => { e with txTo := none }) else s

/-- The next delivered word of a mailbox, and the mailbox without it. -/
def mboxTake : List Message → Option (Word × List Message)
  | [] => none
  | x :: t =>
    if x.written ≠ x.len then none
    else match x.words with
      | [] => none
      | [w] => some (w, t)
      | w :: ws => some (w, { x with words := ws } :: t)

/-- R29: the word of the mailbox memory that a read of ENG_RXDATAn meets. -/
def State.mailWord (s : State) (n : Nat) : Option (Nat × Nat × Nat) :=
  (mboxTake (s.engOf n).mbox).map (fun _ => (7, n, (s.engOf n).rdPos % 64))

/-- R318: a read of ENG_RXDATAn by its engine: the word returned and the state after. -/
def State.mailRead (s : State) (n : Nat) : Word × State :=
  match mboxTake (s.engOf n).mbox with
  | some (w, m) =>
    (w, (s.modMbox n (fun _ => m)).modEng n (fun e => { e with lastRx := w, rdPos := (e.rdPos + 1) % 64 }) |>.setReg (ENG_RXDATA.addr n) w)
  | none => ((s.engOf n).lastRx, s.raise (ENG_RXSTAT.UNDERRUN n))

/-- R319: the mailbox of `n` is emptied, and the sends open into it close. -/
def State.mailFlush (s : State) (n : Nat) : State :=
  let s := s.each ((List.range 16).filter (fun k => decide ((s.engOf k).txTo = some n))) (fun s k =>
    let left := s.get (ENG_TXSTAT.LEFT k)
    ((s.modEng k (fun e => { e with txTo := none, txSkip := left })).showSend k 0).raise (ENG_TXSTAT.FLUSHED k))
  s.modMbox n (fun _ => [])

/-! ### Packets to and from engines (R321 to R323) -/

/-- R321: the queues mapped to engine `n`. -/
def State.o6Queues (s : State) (n : Nat) : List Nat :=
  (List.range 64).filter (fun q =>
    decide (fieldOf (s.reg (ENG_O6MAP.addr (q / 4))) (8 * (q % 4) + 7) 1 = 1) &&
      decide (fieldOf (s.reg (ENG_O6MAP.addr (q / 4))) (8 * (q % 4)) 4 = n))

/-- R316: input 28. -/
def State.o6Level (s : State) (n : Nat) : Bool :=
  (s.o6Queues n).any (fun q => decide ((s.q q).outlet = 6) && (s.q q).eligible)

/-- The word of a handle (R327). -/
def handleWord (cell len : Nat) : Word := BitVec.ofNat 32 (2 ^ 31 + cell * 65536 + len)

/-- The links of a packet's cells, the last of them LAST (R321, R323). -/
def linkChain (l : List (Nat × Nat)) : List Nat → List (Nat × Nat)
  | [] => l
  | [c] => adel l c
  | c :: d :: t => linkChain (aput l c d) (d :: t)

/-- R31, R321: a read of ENG_PKTGETn by its engine: the word returned and the state after. -/
def State.pktGet (s : State) (n : Nat) : Word × State :=
  let s := (s.setReg (ENG_PKTGET.addr n) 0).setReg (ENG_PKTST0.addr n) 0 |>.setReg (ENG_PKTST1.addr n) 0
  if !s.dOn 23 || decide (16 ≤ (s.engOf n).pkts.length) then (0, s)
  else match s.select 6 { only := some (s.o6Queues n) } (fun s q p => s.unlinkPkt q p.pid) with
    | (s, none) => (0, s)
    | (s, some (q, p)) =>
      let s := s.corrected (packetWord p)
      match s.eccInPacket p with
      | some e => (0, s.dropEcc q p e)
      | none =>
        let w := handleWord (p.cells.headD 0) p.len
        let s := s.modEng n (fun e => { e with
          pkts := e.pkts ++ [{ cells := p.cells, buf := p.buf, len := p.len, q := q, outlet := 6 }] })
        let s := { s with links := linkChain s.links p.cells }
        let s := (s.setReg (ENG_PKTST0.addr n) p.stamp.1).setReg (ENG_PKTST1.addr n) p.stamp.2
        (w, s.setReg (ENG_PKTGET.addr n) w)

/-- R322: a handle or cell that the engine does not hold. -/
def State.badCell (s : State) (n : Nat) : State := s.raise (ENG_TXSTAT.BADCELL n)

/-- R322: a write of ENG_PKTDONEn: the packet's cells are freed, and it counts as finished. -/
def State.pktDone (s : State) (n : Nat) (w : Word) : State :=
  if fieldOf w 31 1 = 0 then s
  else match (s.engOf n).pkts.find? (fun p => p.cells.head? = some (fieldOf w 16 14)) with
    | none => s.badCell n
    | some p =>
      let s := s.modEng n (fun e => { e with pkts := e.pkts.filter (fun x => x ≠ p) })
      (s.releaseBuf { buf := p.buf, cells := p.cells }).inc (QSC_DEQCNT.COUNT p.q)

/-- R323: a read of ENG_ALLOCn by its engine. -/
def State.cellAlloc (s : State) (n : Nat) : Word × State :=
  if s.dOn 23 && s.bufferOk 6 false 1 && decide ((s.engOf n).alloc.length < 64) then
    match s.pickFree 1 with
    | c :: _ =>
      let s := (s.allocCells [c]).modEng n (fun e => { e with alloc := e.alloc ++ [c] })
      (handleWord c 0, { s with links := adel s.links c })
    | [] => (0, s)
  else (0, s)

/-- R323: a write of ENG_FREEn. -/
def State.cellFreeWrite (s : State) (n : Nat) (w : Word) : State :=
  let c := fieldOf w 16 14
  if fieldOf w 31 1 = 0 then s
  else if (s.engOf n).alloc.contains c then
    (s.modEng n (fun e => { e with alloc := e.alloc.filter (· ≠ c) })).freeCells [c]
  else s.badCell n

/-- The engine holds the cell: allocated, or part of an undone packet. -/
def State.holdsCell (s : State) (n c : Nat) : Bool :=
  (s.engOf n).alloc.contains c || (s.engOf n).pkts.any (fun p => p.cells.contains c)

/-- R323: a write of ENG_LINKn: SET 1 links, SET 0 selects. -/
def State.linkWrite (s : State) (n : Nat) (w : Word) : State :=
  let c := fieldOf w 0 14
  let d := fieldOf w 16 14
  if fieldOf w 31 1 = 0 then s.modEng n (fun e => { e with sel := some c })
  else if s.holdsCell n c && s.holdsCell n d then { s with links := aput s.links c d }
  else s.badCell n

/-- R323: what ENG_LINKn reads: the selected cell's next cell, or LAST. -/
def State.linkRead (s : State) (n : Nat) : Word :=
  match (s.engOf n).sel with
  | none => 0
  | some c =>
    if !s.holdsCell n c then 0
    else match aget s.links c with
      | some d => BitVec.ofNat 32 d
      | none => BitVec.ofNat 32 (2 ^ 31)

/-- The cells linked from `c` on, at most `k`, while they satisfy `ok`. -/
def followLinks (l : List (Nat × Nat)) (ok : Nat → Bool) : Nat → Nat → List Nat
  | 0, _ => []
  | k + 1, c =>
    if !ok c then []
    else c :: (match aget l c with
      | some d => followLinks l ok k d
      | none => [])

/-- A packet offered to MSH through the engines port (R207, R323). -/
def State.offerSubmit (s : State) (n : Nat) (i : Ingress) : State :=
  let s := (s.set (ENG_SUBSTAT.BUSY n) 1).set (ENG_SUBSTAT.RESULT n) 0
  s.modPort 5 (· ++ [i])

/-- R323: a packet that the engine took is broken up for a chain `cs` that uses some of its cells: its other cells stay with the
engine as allocated cells. A packet whose buffer others hold too is given up whole (log entry 224). -/
def State.breakUp (s : State) (n : Nat) (cs : List Nat) (p : HeldPkt) : State :=
  let s := s.modEng n (fun e => { e with pkts := e.pkts.filter (fun x => x ≠ p) })
  if 1 < (aget s.qsc.refs p.buf).getD 0 then s.releaseBuf { buf := p.buf, cells := p.cells }
  else
    let s := s.modEng n (fun e => { e with alloc := e.alloc ++ p.cells.filter (fun c => !cs.contains c) })
    { s with qsc := { s.qsc with refs := adel s.qsc.refs p.buf } }

/-- R323: a submission is carried out: the cells linked from FIRST on, whether the engine allocated them or took them with a
packet. A packet it took, with its chain as it was, keeps its buffer. -/
def State.submit (s : State) (n : Nat) (w : Word) : State :=
  let first := fieldOf w 16 14
  let len := fieldOf w 0 12
  let need := cellsFor len
  let cs := followLinks s.links (s.holdsCell n) need first
  if !s.dOn 23 then s
  else if len = 0 ∨ cs.length < need ∨ ¬ cs.Nodup then s.badCell n
  else match (s.engOf n).pkts.find? (fun p => decide (p.cells.take need = cs)) with
    | some p =>
      let s := s.modEng n (fun e => { e with pkts := e.pkts.filter (fun x => x ≠ p) })
      s.offerSubmit n { bytes := s.readCells p.cells len, cells := p.cells, buf := some p.buf, eng := n,
                        got := some (p.q, p.outlet) }
    | none =>
      let parts := (s.engOf n).pkts.filter (fun p => p.cells.any (fun c => cs.contains c))
      let shared := parts.any (fun p => decide (1 < (aget s.qsc.refs p.buf).getD 0))
      let bytes := s.readCells cs len
      let own := cs.filter (fun c => !parts.any (fun p => decide (1 < (aget s.qsc.refs p.buf).getD 0) && p.cells.contains c))
      let s := (s.each parts (fun s p => s.breakUp n cs p)).modEng n (fun e => { e with
        alloc := e.alloc.filter (fun c => !cs.contains c) })
      if shared then (s.freeCells own).offerSubmit n { bytes := bytes, eng := n }
      else s.offerSubmit n { bytes := bytes, cells := cs, eng := n }

/-- R208, R323: a write of ENG_SUBMITn: while a submission is pending the write stalls its bundle. -/
def State.submitWrite (s : State) (n : Nat) (w : Word) : State :=
  if s.bit (ENG_SUBSTAT.BUSY n) then s.modEng n (fun e => { e with stalled := some w }) else s.submit n w

/-- R323: the stalled writes whose engine's submission has ended are carried out. -/
def State.unstall (s : State) : State :=
  s.each (List.range 16) (fun s n =>
    match (s.engOf n).stalled with
    | some w =>
      if s.bit (ENG_SUBSTAT.BUSY n) then s else (s.modEng n (fun e => { e with stalled := none })).submit n w
    | none => s)

/-! ### Resets (R309, R310, R326, R367) -/

/-- R367: the reset address. -/
def State.resetAddr (s : State) (n : Nat) : Word :=
  if n = 0 && !s.upd.locked then 0x1F000000
  else
    let m := match s.takeover with
      | some t => if t.spare = n then t.failed else n
      | none => n
    s.reg (UPD_ENTRY.addr m)

/-- The engine leaves reset at its reset address. -/
def State.startEngine (s : State) (n : Nat) : State :=
  (s.modCpu n (fun c => { c with pc := s.resetAddr n })).setEstate n stRun

/-- R48: engines whose BEAT_TASKEN bit becomes 1 have their first beat-task start still to come. -/
def State.firstStarts (s : State) (m : Word) : State :=
  { s with beat := { s.beat with running := Vector.ofFn (fun n => vget s.beat.running n.val && !m.getLsbD n.val) } }

/-- R48, R57: the beat task of the engine is not running. -/
def State.endTask (s : State) (n : Nat) : State :=
  let s := (s.putBit BEAT_DONE.DONE n false).putBit BEAT_OVRSTAT.OVR n false
  { s with beat := { s.beat with running := vset s.beat.running n false } }

/-- R323, R326: the packets and cells an engine held go back to the fabric, and its submission is orphaned. -/
def State.freeEngine (s : State) (n : Nat) : State :=
  let e := s.engOf n
  let s := s.each e.pkts (fun s p => s.releaseBuf { buf := p.buf, cells := p.cells })
  let s := s.freeCells e.alloc
  let s := s.modEng n (fun e => { e with pkts := [], alloc := [], sel := none, stalled := none })
  s.modPort 5 (fun l => l.map (fun i => if i.eng = n then { i with orphan := true } else i))

/-- R326: an engine reset but for the state that follows it: registers, mailbox, packets, task and program state. -/
def State.clearEngine (s : State) (n : Nat) : State :=
  let s := ((s.abandonSend n).mailFlush n).freeEngine n
  let s := s.each (List.range 16) (fun s k => s.setReg (ENG_TXDEST.addr n + 4 * k) (regReset (ENG_TXDEST.addr n + 4 * k)))
  let s := (s.set (ENG_ESTAT.WDCNT n) 0).putBit ENG_DBGSTAT.HALT n false
  let s := s.modEng n (fun e => { e with
    cpu := {}, lastRx := 0, txSkip := 0, watched := false, kicked := false, resume := stReset })
  s.endTask n

/-- R310, R326: an engine reset: the engine restarts where its bit of ENG_RUN is 1. -/
def State.engineReset (s : State) (n : Nat) : State :=
  let s := s.clearEngine n
  let st := s.estate n
  let next := if bitOf (s.get ENG_RUN.EN) n then stRun else stReset
  if st = stReplaced ∨ st = stOff then s
  else if st = stRetained then
    (s.modCpu n (fun c => { c with pc := s.resetAddr n })).modEng n (fun e => { e with resume := next })
  else if next = stRun then s.startEngine n
  else s.setEstate n stReset

/-- SW_ENGINE_RESET (R36). -/
def State.swEngineReset (s : State) (n : Nat) : State := (s.raise SYS_RSTCAUSE.SWENG).engineReset n

/-- R310: the bits of ENG_RUN that a write leaves alone: the named spare not yet used, and replaced engines. -/
def State.runFixed (s : State) (n : Nat) : Bool :=
  decide (s.estate n = stReplaced) ||
    (s.bit ENG_SPARE.EN && !s.bit ENG_SPARE.USED && decide (s.get ENG_SPARE.ENGINE = n))

/-- ENGINE_RUN_WRITE (R310). -/
def State.runWrite (s : State) (w : Word) : State :=
  s.each ((List.range 16).filter (fun n => !s.runFixed n)) (fun s n =>
    let b := bitOf w.toNat n
    let s := s.putBit ENG_RUN.EN n b
    if !b then s.engineReset n
    else if s.estate n = stReset then s.startEngine n
    else if s.estate n = stRetained ∧ (s.engOf n).resume = stReset then
      (s.modCpu n (fun c => { c with pc := s.resetAddr n })).modEng n (fun e => { e with resume := stRun })
    else s)

/-- R309, R420: the domain of engine `n` is on again: `off`, from off. -/
def State.engineOn (s : State) (n : Nat) (off : Bool) : State :=
  if s.estate n = stReplaced then s
  else if off then (s.setEstate n stReset).engineReset n
  else s.setEstate n (s.engOf n).resume

/-- R309: the domain of engine `n` leaves on. -/
def State.engineLeaves (s : State) (n : Nat) (off : Bool) : State :=
  if s.estate n = stReplaced then s
  else if off then s.setEstate n stOff
  else
    let st := s.estate n
    (s.modEng n (fun e => { e with resume := st })).setEstate n stRetained

/-! ### The watchdog and the takeover (R313 to R315, R324) -/

/-- R313: a beat-task start is signalled. -/
def State.beatStart (s : State) (n : Nat) : State :=
  (s.raise (ENG_IRQSTAT.BEAT n)).modCpu n (fun c => { c with bcyc := 0 })

/-- R314: the engine is watched now. -/
def State.watchedNow (s : State) (n : Nat) : Bool := bitOf (s.get ENG_WDEN.EN) n && watchState (s.estate n)

/-- R314: after a write of ENG_WDEN, an engine whose bit is 0 is not watched for the whole of this beat. -/
def State.unwatch (s : State) : State :=
  s.each (List.range 16) (fun s n => if bitOf (s.get ENG_WDEN.EN) n then s else s.modEng n (fun e => { e with watched := false }))

/-- R314: the check of one engine that was watched for the whole beat; it answers whether WDCNT has reached 2. -/
def State.judgeKick (s : State) (n : Nat) : Bool × State :=
  if !(s.watchedNow n && (s.engOf n).watched) then (false, s)
  else if (s.engOf n).kicked then (false, s.set (ENG_ESTAT.WDCNT n) 0)
  else
    let old := s.get (ENG_ESTAT.WDCNT n)
    let s := (s.set (ENG_ESTAT.WDCNT n) (min 2 (old + 1))).raiseBit ENG_EVT.WD n
    (decide (old = 1), s.raiseHw 6 25 n)

/-- R314: the check at step 9: the engines whose takeover is due. -/
def State.watchdog (s : State) : List Nat × State :=
  let r := (List.range 16).foldl (fun (r : List Nat × State) n =>
    match r.2.judgeKick n with
    | (true, s) => (r.1 ++ [n], s)
    | (false, s) => (r.1, s)) ([], s)
  (r.1, r.2.each (List.range 16) (fun s n =>
    let w := s.watchedNow n
    s.modEng n (fun e => { e with watched := w, kicked := false, warned := false })))

/-- WATCHDOG_KICK (R314). -/
def State.kick (s : State) (n : Nat) : State := s.modEng n (fun e => { e with kicked := true })

/-- R315: the half-beat test, once in a beat. -/
def State.halfBeat (s : State) : State :=
  s.each (List.range 16) (fun s n =>
    if (s.engOf n).warned then s
    else
      let late := s.watchedNow n && !(s.engOf n).kicked
      let s := s.modEng n (fun e => { e with warned := true })
      if late then s.raise (ENG_IRQSTAT.WDWARN n) else s)

/-- WATCHDOG_WARN (R315). -/
def execWatchdogWarn (s : State) : Host.Outcome State Fault Refusal := .next (if s.clusterOn then s.halfBeat else s)

/-- R324: the spare may take over engine `n`. -/
def State.canTakeOver (s : State) (n : Nat) : Bool :=
  let sp := s.get ENG_SPARE.ENGINE
  s.bit ENG_SPARE.EN && !s.bit ENG_SPARE.USED && decide (n ≠ sp) && decide (s.isApp n = s.isApp sp)

/-- A bit of a map register moved from engine `n` to engine `m`. -/
def State.moveBit (s : State) (l : Loc) (n m : Nat) : State :=
  (s.putBit l m (bitOf (s.get l) n)).putBit l n false

/-- R324 step 1: the identity of engine `n` moves to spare `m`. -/
def State.moveIdentity (s : State) (n m : Nat) : State :=
  let s := s.each ((List.range 26).filter (fun i => decide (0 < i) && decide (s.get (SYS_IRQMAP.TARGET i) = n)))
    (fun s i => s.set (SYS_IRQMAP.TARGET i) m)
  let s := if s.get SYS_FAULTENG.ENGINE = n then s.set SYS_FAULTENG.ENGINE m else s
  let s := (s.moveBit BEAT_TASKEN.EN n m).moveBit ENG_WDEN.EN n m
  let s := (s.setReg (BEAT_BUDGET.addr m) (s.reg (BEAT_BUDGET.addr n))).setReg (BEAT_BUDGET.addr n) 0
  s.each (s.o6Queues n) (fun s q => s.set ⟨ENG_O6MAP.addr (q / 4), 8 * (q % 4), 4⟩ m)

/-- R324: a takeover of engine `n`, or its failure. -/
def State.takeOver (s : State) (n : Nat) : State :=
  if !s.canTakeOver n then s.raise ENG_TKSTAT.FAIL
  else
    let m := s.get ENG_SPARE.ENGINE
    let s := (s.clearEngine n).setEstate n stReplaced
    let s := (s.moveIdentity n m).set ENG_SPARE.USED 1
    let s := { s with takeover := some { failed := n, spare := m }, beat := { s.beat with outage := s.beat.outage || s.workOffered } }
    if s.dOn m then s else s.wake [m] 8 m true

/-- R324 step 3: the words of the failed engine's memories that hold an uncorrectable error. -/
def State.badWords (s : State) (n : Nat) : List (Nat × Nat × Nat) :=
  s.ecc.filter (fun e => decide (e.1 < 2) && decide (e.2.1 = n))

/-- R324 step 3: the local memories of `n` copied to those of `m`; bad words are copied as zero. -/
def State.copyLocal (s : State) (n m : Nat) : State :=
  let own (e : Nat × Nat × Nat) : Bool := decide (e.1 < 2) && decide (e.2.1 = n)
  let s := (s.corrected own).unwrite (fun e => decide (e.1 < 2) && decide (e.2.1 = m))
  let bad := s.badWords n
  let inEng (k a : Nat) : Bool := decide (a / 0x20000 = k)
  let src := s.lmem.filter (fun c => inEng n c.1 &&
    !bad.any (fun e => decide (c.1 % 0x20000 / 4 = e.1 * 0x4000 + e.2.2)))
  let base := sdrop (inEng m) s.lmem
  { s with
    lmem := src.foldl (fun l c => sset (fun _ => (0 : Byte)) l (m * 0x20000 + c.1 % 0x20000) c.2) base
    written := s.written ++ (s.written.filter own).map (fun e => (e.1, m, e.2.2)) }

/-- TAKEOVER_COPY_DONE (R324 steps 3 and 4): once the spare's domain is on and the copy has ended, the spare leaves reset. -/
def State.copyDone (s : State) : State :=
  match s.takeover with
  | some t =>
    if t.done || !s.dOn t.spare then s
    else
      let k := min 0xFFFF (s.badWords t.failed).length
      let s := s.copyLocal t.failed t.spare
      let s := { s with takeover := some { t with done := true } }
      let s := (s.putBit ENG_RUN.EN t.spare true).endTask t.spare
      let s := s.startEngine t.spare
      (((s.set ENG_TKSTAT.FAILED t.failed).set ENG_TKSTAT.SPARE t.spare).set ENG_TKSTAT.ECCW k).raise ENG_TKSTAT.DONE
  | none => s

/-- TAKEOVER_COPY_DONE. -/
def execTakeoverCopyDone (s : State) : Host.Outcome State Fault Refusal := .next s.copyDone

/-! ### Engine clocks (R299) -/

/-- The engine's clocks in one REF cycle at level `pl`: 200 MHz for each level step, against 38.4 MHz. -/
def CpuState.tick (c : CpuState) (pl : Nat) : CpuState :=
  let t := c.part + 125 * (pl + 1)
  { c with cyc := (c.cyc + t / 24) % 2 ^ 64, bcyc := min (2 ^ 32 - 1) (c.bcyc + t / 24), part := t % 24 }

/-- R299, R308: the cycle counters of the engines out of reset whose domain runs. -/
def State.engineClocks (s : State) : State :=
  let pl := s.get BEAT_PLCUR.ENGPL
  s.each (List.range 16) (fun s n =>
    if decide (1 ≤ s.estate n) && decide (s.estate n ≤ 4) then s.modCpu n (·.tick pl) else s)

end Sys2Proof.Machine
end

