-- ==== Sys2Proof/Machine/Standards.lean ====
section
/-! DEFINITION. The standards that chapter 13 and the waveform chapter name and do not print: FIPS 197 (AES), FIPS 180-4
(SHA-256 and SHA-384), FIPS 186 (ECDSA on P-384) and RFC 8554 (LMS and HSS). Their texts are PRESUMED (log entry 12). -/
namespace Sys2Proof.Machine

/-! ### FIPS 197 -/

/-- The S-box of FIPS 197, a row of sixteen bytes for each high digit. -/
def aesSbox : List Nat := [
  0x637c777bf26b6fc53001672bfed7ab76, 0xca82c97dfa5947f0add4a2af9ca472c0,
  0xb7fd9326363ff7cc34a5e5f171d83115, 0x04c723c31896059a071280e2eb27b275,
  0x09832c1a1b6e5aa0523bd6b329e32f84, 0x53d100ed20fcb15b6acbbe394a4c58cf,
  0xd0efaafb434d338545f9027f503c9fa8, 0x51a3408f929d38f5bcb6da2110fff3d2,
  0xcd0c13ec5f974417c4a77e3d645d1973, 0x60814fdc222a908846eeb814de5e0bdb,
  0xe0323a0a4906245cc2d3ac629195e479, 0xe7c8376d8dd54ea96c56f4ea657aae08,
  0xba78252e1ca6b4c6e8dd741f4bbd8b8a, 0x703eb5664803f60e613557b986c11d9e,
  0xe1f8981169d98e949b1e87e9ce5528df, 0x8ca1890dbfe6426841992d0fb054bb16]

/-- The inverse S-box. -/
def aesSboxInv : List Nat := [
  0x52096ad53036a538bf40a39e81f3d7fb, 0x7ce339829b2fff87348e4344c4dee9cb,
  0x547b9432a6c2233dee4c950b42fac34e, 0x082ea16628d924b2765ba2496d8bd125,
  0x72f8f66486689816d4a45ccc5d65b692, 0x6c704850fdedb9da5e154657a78d9d84,
  0x90d8ab008cbcd30af7e45805b8b34506, 0xd02c1e8fca3f0f02c1afbd0301138a6b,
  0x3a9111414f67dcea97f2cfcef0b4e673, 0x96ac7422e7ad3585e2f937e81c75df6e,
  0x47f11a711d29c5896fb7620eaa18be1b, 0xfc563e4bc6d279209adbc0fe78cd5af4,
  0x1fdda8338807c731b11210592780ec5f, 0x60517fa919b54a0d2de57a9f93c99cef,
  0xa0e03b4dae2af5b0c8ebbb3c83539961, 0x172b047eba77d626e169146355210c7d]

/-- The entry of a table of rows for a byte. -/
def aesSub (t : List Nat) (b : Nat) : Nat := t.getD (b / 16) 0 >>> (8 * (15 - b % 16)) % 256

/-- Multiplication by x in the field of AES. -/
def aesX (b : Nat) : Nat := if b < 128 then 2 * b else (2 * b) ^^^ 0x11B

/-- Multiplication by a constant of four bits. -/
def aesMul (k b : Nat) : Nat :=
  let b2 := aesX b
  let b4 := aesX b2
  (if k.testBit 0 then b else 0) ^^^ (if k.testBit 1 then b2 else 0) ^^^ (if k.testBit 2 then b4 else 0) ^^^
    (if k.testBit 3 then aesX b4 else 0)

/-- Bytewise exclusive or of numbers. -/
def aesXor (a b : List Nat) : List Nat := List.zipWith (· ^^^ ·) a b

/-- A column times the circulant matrix with first row `m`. -/
def aesColumn (m : List Nat) (s : List Nat) (c : Nat) : List Nat :=
  (List.range 4).map (fun r => (List.range 4).foldl (fun x j =>
    x ^^^ aesMul (m.getD ((j + 4 - r) % 4) 0) (s.getD (4 * c + j) 0)) 0)

/-- MixColumns with first row 2 3 1 1, and its inverse with first row 14 11 13 9. -/
def aesMix (m s : List Nat) : List Nat := (List.range 4).flatMap (aesColumn m s)

/-- ShiftRows: byte r + 4 c comes from column c + k r, for k 1, and k 3 for the inverse. -/
def aesShift (k : Nat) (s : List Nat) : List Nat :=
  (List.range 16).map (fun i => s.getD ((i + 4 * k * (i % 4)) % 16) 0)

/-- The round constant of step `i`. -/
def aesRcon (i : Nat) : Nat := [1, 2, 4, 8, 16, 32, 64, 128, 27, 54].getD (i - 1) 0

/-- The next word of the key schedule: `l` holds the words so far, newest first; `nk` is 4 or 8. -/
def aesNextWord (nk : Nat) (l : List (List Nat)) : List Nat :=
  let i := l.length
  let t := l.getD 0 []
  let t := if i % nk = 0 then aesXor ((t.drop 1 ++ t.take 1).map (aesSub aesSbox)) [aesRcon (i / nk), 0, 0, 0]
    else if nk = 8 ∧ i % 8 = 4 then t.map (aesSub aesSbox) else t
  aesXor t (l.getD (nk - 1) [])

/-- The key schedule continued by `n` words, newest first. -/
def aesExpand (nk : Nat) : Nat → List (List Nat) → List (List Nat)
  | 0, l => l
  | n + 1, l => aesExpand nk n (aesNextWord nk l :: l)

/-- The words of a key of 16 or 32 bytes, newest first. -/
def aesKeyWords (key : List Nat) : List (List Nat) :=
  ((List.range (key.length / 4)).map (fun i => (key.drop (4 * i)).take 4)).reverse

/-- The round keys of a key, in order. -/
def aesRounds (key : List Nat) : List (List Nat) :=
  let w := (aesExpand (key.length / 4) (4 * (key.length / 4 + 7) - key.length / 4) (aesKeyWords key)).reverse
  (List.range (key.length / 4 + 7)).map (fun r => ((w.drop (4 * r)).take 4).flatten)

/-- The rounds of the cipher after the first round key. -/
def aesForward : List (List Nat) → List Nat → List Nat
  | [], s => s
  | [k], s => aesXor (aesShift 1 (s.map (aesSub aesSbox))) k
  | k :: t, s => aesForward t (aesXor (aesMix [2, 3, 1, 1] (aesShift 1 (s.map (aesSub aesSbox)))) k)

/-- The rounds of the inverse cipher after the last round key. -/
def aesBackward : List (List Nat) → List Nat → List Nat
  | [], s => s
  | [k], s => aesXor ((aesShift 3 s).map (aesSub aesSboxInv)) k
  | k :: t, s => aesBackward t (aesMix [14, 11, 13, 9] (aesXor ((aesShift 3 s).map (aesSub aesSboxInv)) k))

/-- A block as its sixteen byte values. -/
def aesIn (b : BitVec 128) : List Nat := (beBytes 16 b.toNat).map (·.toNat)

/-- Sixteen byte values as a block. -/
def aesOut (l : List Nat) : BitVec 128 := BitVec.ofNat 128 (l.foldl (fun x b => x * 256 + b) 0)

/-- R328, FIPS 197: one block enciphered under a key of 16 or 32 bytes. -/
def aesEnc (key : List Byte) (b : BitVec 128) : BitVec 128 :=
  match aesRounds (key.map (·.toNat)) with
  | [] => b
  | k :: t => aesOut (aesForward t (aesXor (aesIn b) k))

/-- R328, FIPS 197: one block deciphered. -/
def aesDec (key : List Byte) (b : BitVec 128) : BitVec 128 :=
  match (aesRounds (key.map (·.toNat))).reverse with
  | [] => b
  | k :: t => aesOut (aesBackward t (aesXor (aesIn b) k))

/-! ### FIPS 180-4 -/

/-- Fractions of cube roots: the first 64 bits after the point of the cube roots of the first 80 primes, four to a number. -/
def cubeFractions : List Nat := [
  0x428a2f98d728ae227137449123ef65cdb5c0fbcfec4d3b2fe9b5dba58189dbbc,
  0x3956c25bf348b53859f111f1b605d019923f82a4af194f9bab1c5ed5da6d8118,
  0xd807aa98a303024212835b0145706fbe243185be4ee4b28c550c7dc3d5ffb4e2,
  0x72be5d74f27b896f80deb1fe3b1696b19bdc06a725c71235c19bf174cf692694,
  0xe49b69c19ef14ad2efbe4786384f25e30fc19dc68b8cd5b5240ca1cc77ac9c65,
  0x2de92c6f592b02754a7484aa6ea6e4835cb0a9dcbd41fbd476f988da831153b5,
  0x983e5152ee66dfaba831c66d2db43210b00327c898fb213fbf597fc7beef0ee4,
  0xc6e00bf33da88fc2d5a79147930aa72506ca6351e003826f142929670a0e6e70,
  0x27b70a8546d22ffc2e1b21385c26c9264d2c6dfc5ac42aed53380d139d95b3df,
  0x650a73548baf63de766a0abb3c77b2a881c2c92e47edaee692722c851482353b] ++ [
  0xa2bfe8a14cf10364a81a664bbc423001c24b8b70d0f89791c76c51a30654be30,
  0xd192e819d6ef5218d69906245565a910f40e35855771202a106aa07032bbd1b8,
  0x19a4c116b8d2d0c81e376c085141ab532748774cdf8eeb9934b0bcb5e19b48a8,
  0x391c0cb3c5c95a634ed8aa4ae3418acb5b9cca4f7763e373682e6ff3d6b2b8a3,
  0x748f82ee5defb2fc78a5636f43172f6084c87814a1f0ab728cc702081a6439ec,
  0x90befffa23631e28a4506cebde82bde9bef9a3f7b2c67915c67178f2e372532b,
  0xca273eceea26619cd186b8c721c0c207eada7dd6cde0eb1ef57d4f7fee6ed178,
  0x06f067aa72176fba0a637dc5a2c898a6113f9804bef90dae1b710b35131c471b,
  0x28db77f523047d8432caab7b40c724933c9ebe0a15c9bebc431d67c49c100d4c,
  0x4cc5d4becb3e42b6597f299cfc657e2a5fcb6fab3ad6faec6c44198c4a475817]

/-- Fractions of square roots: the same of the square roots of the first 16 primes. -/
def rootFractions : List Nat := [
  0x6a09e667f3bcc908bb67ae8584caa73b3c6ef372fe94f82ba54ff53a5f1d36f1,
  0x510e527fade682d19b05688c2b3e6c1f1f83d9abfb41bd6b5be0cd19137e2179,
  0xcbbb9d5dc1059ed8629a292a367cd5079159015a3070dd17152fecd8f70e5939,
  0x67332667ffc00b318eb44a8768581511db0c2e0d64f98fa747b5481dbefa4fa4]

/-- Fraction `i` of such a table, its first `w` bits. -/
def fractionAt (t : List Nat) (w i : Nat) : Nat := t.getD (i / 4) 0 >>> (64 * (3 - i % 4)) % 2 ^ 64 / 2 ^ (64 - w)

/-- SHA-256 has words of 32 bits and 64 rounds, SHA-384 words of 64 bits and 80 rounds. -/
def shaRounds (w : Nat) : Nat := if w = 32 then 64 else 80

/-- A word of `w` bits turned right by each of the amounts, and the results added bitwise to `x`. -/
def turned (w v : Nat) (amounts : List Nat) (x : Nat) : Nat :=
  amounts.foldl (fun r n => r ^^^ (v / 2 ^ n + v % 2 ^ n * 2 ^ (w - n))) x

/-- The two mixing functions of a round, on its register a and on its register e. -/
def mixA (w v : Nat) : Nat := turned w v (if w = 32 then [2, 13, 22] else [28, 34, 39]) 0
def mixE (w v : Nat) : Nat := turned w v (if w = 32 then [6, 11, 25] else [14, 18, 41]) 0

/-- The next word of the schedule from the words so far, newest first. -/
def scheduleNext (w : Nat) (l : List Nat) : Nat :=
  let far := l.getD 14 0
  let near := l.getD 1 0
  let one := if w = 32 then turned 32 far [7, 18] (far >>> 3) else turned 64 far [1, 8] (far >>> 7)
  let two := if w = 32 then turned 32 near [17, 19] (near >>> 10) else turned 64 near [19, 61] (near >>> 6)
  (l.getD 15 0 + l.getD 6 0 + one + two) % 2 ^ w

/-- The values registers a and e have taken, newest first: b, c, d and f, g, h are the three before. -/
abbrev ShaRegs := List Nat × List Nat

/-- A round: the registers take their next values, from the word `x` of the schedule with its constant added. -/
def shaTurn (w : Nat) (r : ShaRegs) (x : Nat) : ShaRegs :=
  let a := fun i => r.1.getD i 0
  let e := fun i => r.2.getD i 0
  let pick := e 2 ^^^ (e 0 &&& (e 1 ^^^ e 2))
  let most := (a 0 &&& (a 1 ||| a 2)) ||| (a 1 &&& a 2)
  let up := e 3 + mixE w (e 0) + pick + x
  ((up + mixA w (a 0) + most) % 2 ^ w :: r.1, (a 3 + up) % 2 ^ w :: r.2)

/-- `n` rounds from round `i` on, the schedule so far newest first, its word for round `i` at place 15. -/
def shaTurns (w : Nat) : Nat → Nat → List Nat → ShaRegs → ShaRegs
  | 0, _, _, r => r
  | n + 1, i, l, r =>
    shaTurns w n (i + 1) ((scheduleNext w l :: l).take 16) (shaTurn w r (fractionAt cubeFractions w i + l.getD 15 0))

/-- The eight words of a chaining value after one block of 2 w bytes. -/
def shaAbsorb (w : Nat) (v : List Nat) (block : List Byte) : List Nat :=
  let words := (List.range 16).map (fun i => beNat ((block.drop (w / 8 * (15 - i))).take (w / 8)))
  let r := shaTurns w (shaRounds w) 0 words (v.take 4, v.drop 4)
  List.zipWith (fun x y => (x + y) % 2 ^ w) v (r.1.take 4 ++ r.2.take 4)

/-- Bytes cut into pieces of `n`; `fuel` bounds their number. -/
def piecesOf (n : Nat) : Nat → List Byte → List (List Byte)
  | 0, _ => []
  | _ + 1, [] => []
  | f + 1, b :: t => (b :: t).take n :: piecesOf n f ((b :: t).drop n)

/-- What follows a message of `n` bytes: a one bit, zeros, and its length in bits, to the end of a block. -/
def shaTail (w n : Nat) : List Byte :=
  0x80 :: beBytes (2 * w - 1 - (n + w / 4) % (2 * w) + w / 4) (8 * n)

/-- The chaining value after a whole message, from fractions `i` on of the square roots. -/
def shaDigest (w i : Nat) (m : List Byte) : List Byte :=
  let v := (List.range 8).map (fun k => fractionAt rootFractions w (i + k))
  ((piecesOf (2 * w) (m.length + 3) (m ++ shaTail w m.length)).foldl (shaAbsorb w) v).flatMap (beBytes (w / 8))

/-- SHA-256: the digest, 32 bytes. -/
def sha256 (m : List Byte) : List Byte := shaDigest 32 0 m

/-- SHA-384: the digest, 48 bytes. -/
def sha384 (m : List Byte) : List Byte := (shaDigest 64 8 m).take 48

/-! ### FIPS 186: ECDSA on P-384 -/

/-- The field prime, the order of the group, and the coefficient b; a is -3. -/
def ecP : Nat := 2 ^ 384 - 2 ^ 128 - 2 ^ 96 + 2 ^ 32 - 1
def ecN : Nat :=
  0xFFFFFFFFFFFFFFFFFFFFFFFFFFFFFFFFFFFFFFFFFFFFFFFFC7634D81F4372DDF581A0DB248B0A77AECEC196ACCC52973
def ecB : Nat :=
  0xB3312FA7E23EE7E4988E056BE3F82D19181D9C6EFE8141120314088F5013875AC656398D8A2ED19D2A85C8EDD3EC2AEF

/-- The base point. -/
def ecGx : Nat :=
  0xAA87CA22BE8B05378EB1C71EF320AD746E1D3B628BA79B9859F741E082542A385502F25DBF55296C3A545E3872760AB7
def ecGy : Nat :=
  0x3617DE4A96262C6F5D9E98BF9292DC29F8F41DBD289A147CE9DA3113B5F0B8C00A60B1CE1D7E819D7A431D7C90EA0E5F

/-- Difference modulo m. -/
def subMod (m a b : Nat) : Nat := (a + m - b % m) % m

/-- A power modulo m, over the low `n` bits of the exponent. -/
def powMod (m : Nat) : Nat → Nat → Nat → Nat
  | 0, _, _ => 1
  | n + 1, b, e =>
    let r := powMod m n (b * b % m) (e / 2)
    if e % 2 = 1 then r * b % m else r

/-- The inverse modulo a prime below 2^384. -/
def invMod (m a : Nat) : Nat := powMod m 384 (a % m) (m - 2)

/-- A point x / z^2, y / z^3; z = 0 is the point at infinity. -/
structure EcPoint where
  x : Nat
  y : Nat
  z : Nat
  deriving DecidableEq, Repr

/-- Twice a point. -/
def ecDouble (p : EcPoint) : EcPoint :=
  let yy := p.y * p.y % ecP
  let zz := p.z * p.z % ecP
  let s := 4 * p.x * yy % ecP
  let m := 3 * subMod ecP p.x zz * (p.x + zz) % ecP
  let x := subMod ecP (m * m) (2 * s)
  { x := x, y := subMod ecP (m * subMod ecP s x) (8 * yy * yy), z := 2 * p.y * p.z % ecP }

/-- The sum of two points. -/
def ecAdd (p q : EcPoint) : EcPoint :=
  if p.z = 0 then q
  else if q.z = 0 then p
  else
    let pz := p.z * p.z % ecP
    let qz := q.z * q.z % ecP
    let u := p.x * qz % ecP
    let s := p.y * qz * q.z % ecP
    let h := subMod ecP (q.x * pz) u
    let r := subMod ecP (q.y * pz * p.z) s
    if h = 0 then (if r = 0 then ecDouble p else { x := 1, y := 1, z := 0 })
    else
      let hh := h * h % ecP
      let v := u * hh % ecP
      let x := subMod ecP (r * r) (hh * h + 2 * v)
      { x := x, y := subMod ecP (r * subMod ecP v x) (s * hh * h), z := p.z * q.z * h % ecP }

/-- A multiple of a point, over the low `n` bits of the factor. -/
def ecMulBits : Nat → Nat → EcPoint → EcPoint
  | 0, _, _ => { x := 1, y := 1, z := 0 }
  | n + 1, k, p =>
    let r := ecMulBits n (k / 2) (ecDouble p)
    if k % 2 = 1 then ecAdd r p else r

/-- A multiple of a point by a number below 2^384. -/
def ecMul (k : Nat) (p : EcPoint) : EcPoint := ecMulBits 384 k p

/-- The base point as a point. -/
def ecG : EcPoint := { x := ecGx, y := ecGy, z := 1 }

/-- The affine x and y of a point other than infinity. -/
def EcPoint.affine (p : EcPoint) : Nat × Nat :=
  let i := invMod ecP p.z
  (p.x * (i * i % ecP) % ecP, p.y * (i * i % ecP) * i % ecP)

/-- The point of a public key X, Y of 96 bytes. -/
def ecPoint (key : List Byte) : EcPoint := { x := beNat (key.take 48), y := beNat (key.drop 48), z := 1 }

/-- R343: the key lies on the curve. -/
def onCurve (key : List Byte) : Bool :=
  let p := ecPoint key
  decide (p.x < ecP) && decide (p.y < ecP) && decide (p.y * p.y % ecP = (p.x * p.x * p.x + (ecP - 3) * p.x + ecB) % ecP)

/-- R343: the signature r, s of 96 bytes verifies over a message under a key. -/
def ecVerify (key sig msg : List Byte) : Bool :=
  let r := beNat (sig.take 48)
  let s := beNat (sig.drop 48)
  let w := invMod ecN s
  let p := ecAdd (ecMul (beNat (sha384 msg) * w % ecN) ecG) (ecMul (r * w % ecN) (ecPoint key))
  decide (0 < r) && decide (r < ecN) && decide (0 < s) && decide (s < ecN) && decide (p.z ≠ 0) &&
    decide (p.affine.1 % ecN = r)

/-- R343: the signature of a message under a scalar with the number `k` of that signature, both 48 bytes. -/
def ecSign (scalar msg k : List Byte) : List Byte :=
  let r := (ecMul (beNat k) ecG).affine.1 % ecN
  let s := invMod ecN (beNat k) * (beNat (sha384 msg) + r * beNat scalar) % ecN
  beBytes 48 r ++ beBytes 48 s

/-- R336: the x-coordinate of a scalar times a public key. -/
def ecdh (scalar key : List Byte) : List Byte := beBytes 48 (ecMul (beNat scalar) (ecPoint key)).affine.1

/-- R344: the public key of a scalar. -/
def ecPublic (scalar : List Byte) : List Byte :=
  let a := (ecMul (beNat scalar) ecG).affine
  beBytes 48 a.1 ++ beBytes 48 a.2

/-! ### RFC 8554, for LMS_SHA256_M32_H10 with LMOTS_SHA256_N32_W4 (R343 to R346) -/

/-- Digit `i` of four bits of a byte string. -/
def otsDigit (l : List Byte) (i : Nat) : Nat :=
  let b := (l.getD (i / 2) 0).toNat
  if i % 2 = 0 then b / 16 else b % 16

/-- One hash chain from step `j`, `n` steps long. -/
def otsChain (id : List Byte) (i : Nat) : Nat → Nat → List Byte → List Byte
  | 0, _, t => t
  | n + 1, j, t => otsChain id i n (j + 1) (sha256 (id ++ beBytes 2 i ++ [BitVec.ofNat 8 j] ++ t))

/-- The digest of a message under a randomizer of 32 bytes, with its checksum: the digits a one-time signature signs. -/
def otsDigits (id rand msg : List Byte) : List Byte :=
  let q := sha256 (id ++ [0x81, 0x81] ++ rand ++ msg)
  let sum := ((List.range 64).map (fun i => 15 - otsDigit q i)).foldl (· + ·) 0
  q ++ beBytes 2 (sum * 16)

/-- The public key of a one-time key from the ends of its chains. -/
def otsKey (id : List Byte) (ends : Nat → List Byte) : List Byte := sha256 (id ++ [0x80, 0x80] ++ (List.range 67).flatMap ends)

/-- The public key of a one-time signature over a message: `id` is I and q, 20 bytes; the signature 2,180 bytes. -/
def otsPublic (id msg sig : List Byte) : List Byte :=
  let digits := otsDigits id ((sig.drop 4).take 32) msg
  otsKey id (fun i => otsChain id i (15 - otsDigit digits i) (otsDigit digits i) ((sig.drop (36 + 32 * i)).take 32))

/-- The start of chain `i` of a one-time key, drawn from the seed of its tree as RFC 8554 recommends. -/
def otsStart (seed id : List Byte) (i : Nat) : List Byte := sha256 (id ++ beBytes 2 i ++ [0xFF] ++ seed)

/-- A one-time signature of a message under a randomizer. -/
def otsSign (seed id rand msg : List Byte) : List Byte :=
  let digits := otsDigits id rand msg
  beBytes 4 3 ++ rand ++ (List.range 67).flatMap (fun i => otsChain id i (otsDigit digits i) 0 (otsStart seed id i))

/-- The root of the tree from node `r` up, along a path of digests. -/
def lmsRoot (id : List Byte) : List (List Byte) → Nat → List Byte → List Byte
  | [], _, t => t
  | p :: l, r, t =>
    let pre := id ++ beBytes 4 (r / 2) ++ [0x83, 0x83]
    lmsRoot id l (r / 2) (sha256 (if r % 2 = 1 then pre ++ p ++ t else pre ++ t ++ p))

/-- An LMS signature of 2,508 bytes verifies over a message under a key of 56 bytes. -/
def lmsVerify (key sig msg : List Byte) : Bool :=
  let id := (key.drop 8).take 16
  let q := beNat (sig.take 4)
  let kc := otsPublic (id ++ sig.take 4) msg ((sig.drop 4).take 2180)
  let leaf := sha256 (id ++ beBytes 4 (1024 + q) ++ [0x82, 0x82] ++ kc)
  decide (q < 1024) &&
    decide (lmsRoot id ((List.range 10).map (fun i => (sig.drop (2188 + 32 * i)).take 32)) (1024 + q) leaf = key.drop 24)

/-- Node `r` of a tree, `h` levels above the leaves. -/
def LmsSecret.node (k : LmsSecret) : Nat → Nat → List Byte
  | 0, r =>
    let one := k.id ++ beBytes 4 (r - 1024)
    sha256 (k.id ++ beBytes 4 r ++ [0x82, 0x82] ++ otsKey one (fun i => otsChain one i 15 0 (otsStart k.seed one i)))
  | h + 1, r => sha256 (k.id ++ beBytes 4 r ++ [0x83, 0x83] ++ k.node h (2 * r) ++ k.node h (2 * r + 1))

/-- The public key of a tree, 56 bytes. -/
def LmsSecret.public (k : LmsSecret) : List Byte := beBytes 4 6 ++ beBytes 4 3 ++ k.id ++ k.node 10 1

/-- The signature of a message with leaf `q`, 2,508 bytes. -/
def LmsSecret.sign (k : LmsSecret) (q : Nat) (rand msg : List Byte) : List Byte :=
  beBytes 4 q ++ otsSign k.seed (k.id ++ beBytes 4 q) rand msg ++ beBytes 4 6 ++
    (List.range 10).flatMap (fun h => k.node h (((1024 + q) / 2 ^ h) ^^^ 1))

/-- The type codes of the key and of the signature at both levels. -/
def hssTypes (key sig : List Byte) : Bool :=
  let at4 (l : List Byte) (o : Nat) : Nat := beNat ((l.drop o).take 4)
  decide (at4 key 4 = 6) && decide (at4 key 8 = 3) && decide (at4 sig 8 = 3) && decide (at4 sig 2188 = 6) &&
    decide (at4 sig 2512 = 6) && decide (at4 sig 2516 = 3) && decide (at4 sig 2572 = 3) && decide (at4 sig 4752 = 6)

/-- R343: an HSS signature of 5,076 bytes with L = 2 verifies over a message under a key of 60 bytes. -/
def hssVerify (key sig msg : List Byte) : Bool :=
  let pub := (sig.drop 2512).take 56
  decide (beNat (key.take 4) = 2) && decide (beNat (sig.take 4) = 1) &&
    lmsVerify (key.drop 4) ((sig.drop 4).take 2508) pub && lmsVerify pub (sig.drop 2568) msg

/-- R344: the HSS public key over the top tree, 60 bytes with L = 2. -/
def hssPublic (top : LmsSecret) : List Byte := beBytes 4 2 ++ top.public

/-- R345: the HSS signature of a message with leaf `u` of the top tree and leaf `l` of the lower tree, 5,076 bytes; each leaf
has its randomizer. -/
def hssSign (top lower : LmsSecret) (u l : Nat) (randU randL msg : List Byte) : List Byte :=
  beBytes 4 1 ++ top.sign u randU lower.public ++ lower.public ++ lower.sign l randL msg

/-! ### SP 800-90A: CTR_DRBG with AES-256 and the derivation function (R341) -/

/-- The next `n` blocks of output, and V after them. -/
def CtrDrbg.blocks (d : CtrDrbg) : Nat → List Byte × BitVec 128
  | 0 => ([], d.v)
  | n + 1 =>
    let r := d.blocks n
    (r.1 ++ beBytes 16 (aesEnc d.key (r.2 + 1)).toNat, r.2 + 1)

/-- The update of key and V with 48 bytes. -/
def CtrDrbg.update (d : CtrDrbg) (b : List Byte) : CtrDrbg :=
  let t := List.zipWith (· ^^^ ·) (d.blocks 3).1 b
  { key := t.take 32, v := BitVec.ofNat 128 (beNat (t.drop 32)) }

/-- The chained blocks of the derivation function: from block `v` over pieces of 16 bytes. -/
def dfChain (key : List Byte) (v : BitVec 128) (l : List (List Byte)) : BitVec 128 :=
  l.foldl (fun v b => aesEnc key (v ^^^ BitVec.ofNat 128 (beNat b))) v

/-- The derivation function: 48 bytes from a string. -/
def drbgDerive (b : List Byte) : List Byte :=
  let s := beBytes 4 b.length ++ beBytes 4 48 ++ b ++ [0x80]
  let s := s ++ List.replicate ((16 - s.length % 16) % 16) 0
  let fixed := (List.range 32).map (BitVec.ofNat 8)
  let t := (List.range 3).flatMap (fun i =>
    beBytes 16 (dfChain fixed 0 (piecesOf 16 (s.length + 1) (beBytes 4 i ++ List.replicate 12 0 ++ s))).toNat)
  ((List.range 3).foldl (fun (r : List Byte × BitVec 128) _ =>
    let x := aesEnc (t.take 32) r.2
    (r.1 ++ beBytes 16 x.toNat, x)) ([], BitVec.ofNat 128 (beNat (t.drop 32)))).1

/-- Seeded with source bytes: instantiated (from zeros) or reseeded. -/
def CtrDrbg.seed (d : CtrDrbg) (b : List Byte) : CtrDrbg := d.update (drbgDerive b)

/-- One request of 512 bits: 64 bytes and the state after. -/
def CtrDrbg.request (d : CtrDrbg) : List Byte × CtrDrbg :=
  let r := d.blocks 4
  (r.1, CtrDrbg.update { d with v := r.2 } (List.replicate 48 0))

end Sys2Proof.Machine
end

