-- ==== Sys2Proof/Machine/Crypto.lean ====
section
/-! DEFINITION. The modes of operation chapter 13 names, over the block cipher of FIPS 197: CTR, CBC,
CBC-MAC, CMAC, CCM and CCM*, GCM, RFC 3394 wrapping, and the SP 800-108 key derivation. The standards are named and not
printed by the spec; their texts are PRESUMED (log entry 12). -/
namespace Sys2Proof.Machine

/-- Sixteen bytes as a block, the first byte most significant; short input is padded with zeros. -/
def blockOf (l : List Byte) : BitVec 128 := BitVec.ofNat 128 (beNat ((l ++ List.replicate 16 0).take 16))

/-- A block as its sixteen bytes. -/
def blockBytes (b : BitVec 128) : List Byte := beBytes 16 b.toNat

/-- Bytes cut into blocks of sixteen. -/
def blocksOf (l : List Byte) : List (List Byte) := piecesOf 16 (l.length + 1) l

/-- Bytewise exclusive or, as long as the shorter. -/
def xorBytes (a b : List Byte) : List Byte := List.zipWith (· ^^^ ·) a b

/-- Counter mode from a 128-bit big-endian counter: the text and the next counter. -/
def ctrRun (key : List Byte) : BitVec 128 → List (List Byte) → List Byte × BitVec 128
  | c, [] => ([], c)
  | c, b :: t =>
    let r := ctrRun key (c + 1) t
    (xorBytes b (blockBytes (aesEnc key c)) ++ r.1, r.2)

/-- CBC encryption: the text and the last block. -/
def cbcEnc (key : List Byte) : BitVec 128 → List (List Byte) → List Byte × BitVec 128
  | v, [] => ([], v)
  | v, b :: t =>
    let c := aesEnc key (v ^^^ blockOf b)
    let r := cbcEnc key c t
    (blockBytes c ++ r.1, r.2)

/-- CBC decryption: the text and the last ciphertext block. -/
def cbcDec (key : List Byte) : BitVec 128 → List (List Byte) → List Byte × BitVec 128
  | v, [] => ([], v)
  | v, b :: t =>
    let r := cbcDec key (blockOf b) t
    (blockBytes (aesDec key (blockOf b) ^^^ v) ++ r.1, r.2)

/-- The CBC-MAC state after the blocks of a text, the last one padded with zeros. -/
def cbcMac (key : List Byte) (v : BitVec 128) (l : List Byte) : BitVec 128 :=
  (blocksOf l).foldl (fun v b => aesEnc key (v ^^^ blockOf b)) v

/-- Doubling in the field of CMAC. -/
def cmacDouble (b : BitVec 128) : BitVec 128 := if b.msb then (b <<< 1) ^^^ 0x87#128 else b <<< 1

/-- The last step of CMAC: state `v`, the last piece of 0 to 16 bytes. -/
def cmacLast (key : List Byte) (v : BitVec 128) (last : List Byte) : BitVec 128 :=
  let k1 := cmacDouble (aesEnc key 0)
  if last.length = 16 then aesEnc key (v ^^^ blockOf last ^^^ k1)
  else aesEnc key (v ^^^ blockOf (last ++ [0x80]) ^^^ cmacDouble k1)

/-- The number of bytes of a CMAC text that come before its last piece. -/
def cmacSplit (n : Nat) : Nat := (n - 1) / 16 * 16

/-- CMAC of a whole text. -/
def cmac (key : List Byte) (l : List Byte) : List Byte :=
  blockBytes (cmacLast key (cbcMac key 0 (l.take (cmacSplit l.length))) (l.drop (cmacSplit l.length)))

/-- The length prefix of the authenticated data in CCM. -/
def ccmAad (a : List Byte) : List Byte :=
  if a.isEmpty then []
  else
    let p := (if a.length < 0xFF00 then beBytes 2 a.length else [0xFF, 0xFE] ++ beBytes 4 a.length) ++ a
    p ++ List.replicate ((16 - p.length % 16) % 16) 0

/-- The CCM tag before its encryption. A tag of no bytes has no MAC pass (CCM*). -/
def ccmMac (key nonce aad text : List Byte) (m : Nat) : List Byte :=
  let l := 15 - nonce.length
  let flags := (if aad.isEmpty then 0 else 64) + (m - 2) / 2 * 8 + (l - 1)
  let v := cbcMac key 0 ([BitVec.ofNat 8 flags] ++ nonce ++ beBytes l text.length ++ ccmAad aad)
  (blockBytes (cbcMac key v text)).take m

/-- The first counter block of CCM. -/
def ccmCtr (nonce : List Byte) : BitVec 128 :=
  blockOf ([BitVec.ofNat 8 (14 - nonce.length)] ++ nonce ++ List.replicate (15 - nonce.length) 0)

/-- CCM's counter stream over a text. -/
def ccmCrypt (key nonce text : List Byte) : List Byte := (ctrRun key (ccmCtr nonce + 1) (blocksOf text)).1

/-- CCM and CCM*: ciphertext and encrypted tag of `m` bytes. -/
def ccmSeal (key nonce aad text : List Byte) (m : Nat) : List Byte × List Byte :=
  (ccmCrypt key nonce text,
    xorBytes (ccmMac key nonce aad text m) (blockBytes (aesEnc key (ccmCtr nonce))))

/-- CCM and CCM*: the text where the tag matches. -/
def ccmOpen (key nonce aad ct tag : List Byte) : Option (List Byte) :=
  let text := ccmCrypt key nonce ct
  let t := xorBytes (ccmMac key nonce aad text tag.length) (blockBytes (aesEnc key (ccmCtr nonce)))
  if t = tag then some text else none

/-- One step of the multiplication in the field of GCM: `x` by bit, the most significant first. -/
def ghashStep (st : BitVec 128 × BitVec 128) (bit : Bool) : BitVec 128 × BitVec 128 :=
  (if bit then st.1 ^^^ st.2 else st.1,
    if st.2.getLsbD 0 then (st.2 >>> 1) ^^^ (0xE1#128 <<< 120) else st.2 >>> 1)

/-- Multiplication in the field of GCM. -/
def gfMul (x y : BitVec 128) : BitVec 128 :=
  ((List.range 128).foldl (fun st i => ghashStep st (x.getLsbD (127 - i))) (0, y)).1

/-- GHASH continued over whole blocks, the last one padded with zeros. -/
def ghash (h v : BitVec 128) (l : List Byte) : BitVec 128 := (blocksOf l).foldl (fun v b => gfMul (v ^^^ blockOf b) h) v

/-- The tag of GCM from its GHASH state and the lengths in bytes. -/
def gcmTag (key : List Byte) (j0 : BitVec 128) (h v : BitVec 128) (aad len : Nat) : List Byte :=
  blockBytes (gfMul (v ^^^ BitVec.ofNat 128 (aad * 8 * 2 ^ 64 + len * 8)) h ^^^ aesEnc key j0)

/-- Counter mode of GCM: only the low 32 bits of the counter move. -/
def gctr (key : List Byte) : BitVec 128 → List (List Byte) → List Byte × BitVec 128
  | c, [] => ([], c)
  | c, b :: t =>
    let n := BitVec.ofNat 128 (c.toNat / 2 ^ 32 * 2 ^ 32 + (c.toNat + 1) % 2 ^ 32)
    let r := gctr key n t
    (xorBytes b (blockBytes (aesEnc key c)) ++ r.1, r.2)

/-- One step of RFC 3394 wrapping: the register, the blocks, and the step number. -/
def wrapStep (key : List Byte) (n : Nat) (st : List Byte × List (List Byte)) (t : Nat) : List Byte × List (List Byte) :=
  let i := t % n
  let b := blockBytes (aesEnc key (blockOf (st.1 ++ st.2.getD i [])))
  (xorBytes (b.take 8) (beBytes 8 (t + 1)), st.2.set i (b.drop 8))

/-- RFC 3394 key wrapping of a text of 8 n bytes, under the default initial value. -/
def rfcWrap (key text : List Byte) : List Byte :=
  let r := piecesOf 8 (text.length + 1) text
  let st := (List.range (6 * r.length)).foldl (wrapStep key r.length) (List.replicate 8 0xA6, r)
  st.1 ++ st.2.flatten

/-- One step of RFC 3394 unwrapping. -/
def unwrapStep (key : List Byte) (n : Nat) (st : List Byte × List (List Byte)) (t : Nat) : List Byte × List (List Byte) :=
  let i := t % n
  let b := blockBytes (aesDec key (blockOf (xorBytes st.1 (beBytes 8 (t + 1)) ++ st.2.getD i [])))
  (b.take 8, st.2.set i (b.drop 8))

/-- RFC 3394 unwrapping: the text where the integrity check passes. -/
def rfcUnwrap (key blob : List Byte) : Option (List Byte) :=
  match piecesOf 8 (blob.length + 1) blob with
  | [] => none
  | a :: r =>
    let st := (List.range (6 * r.length)).reverse.foldl (unwrapStep key r.length) (a, r)
    if st.1 = List.replicate 8 0xA6 then some st.2.flatten else none

/-- SP 800-108 in counter mode with CMAC: `n` bytes from a label and a context; counter and length of 32 bits, one zero byte
between label and context. -/
def kdf108 (key label context : List Byte) (n : Nat) : List Byte :=
  (((List.range (ceilDiv n 16)).map (fun i =>
    cmac key (beBytes 4 (i + 1) ++ label ++ [0] ++ context ++ beBytes 4 (8 * n)))).flatten).take n

/-- One shift of a right-shifting CRC-16 with the given reflected polynomial. -/
def crc16ShiftR (poly c : Nat) : Nat := if c % 2 = 1 then (c / 2) ^^^ poly else c / 2

/-- The ITU-T CRC-16 as IEEE 802.15.4 uses it: reflected, starting from 0 (PRESUMED, log entry 13). -/
def crc16Itu (l : List Byte) : Nat :=
  l.foldl (fun c b =>
    let x := c ^^^ b.toNat
    crc16ShiftR 0x8408 (crc16ShiftR 0x8408 (crc16ShiftR 0x8408 (crc16ShiftR 0x8408
      (crc16ShiftR 0x8408 (crc16ShiftR 0x8408 (crc16ShiftR 0x8408 (crc16ShiftR 0x8408 x)))))))) 0

/-- The FCS of `n` bytes over an MPDU, least significant byte first (R93, R115). -/
def fcsOf (n : Nat) (l : List Byte) : List Byte := if n = 4 then leBytes 4 (crc32 l) else leBytes 2 (crc16Itu l)

end Sys2Proof.Machine
end

