-- ==== Sys2Proof/Machine/Phy.lean ====
section
/-! DEFINITION. Chapters 3 to 6, the figures of the waveforms: bands, tunes, settle times, airtimes, the constants of the slot
templates, the Millefeuille header check, and the limits of a transmit descriptor. -/
namespace Sys2Proof.Machine

/-- R59: the edges of the band of chain 0 (A) or 1 (B), in Hz. -/
def bandLo (x : Nat) : Nat := if x = 0 then 400000000 else 2400000000
def bandHi (x : Nat) : Nat := if x = 0 then 960000000 else 2483500000

/-- The chain of the band a centre lies in (R154). -/
def chainOf (f : Nat) : Option Nat :=
  if bandLo 0 ≤ f ∧ f ≤ bandHi 0 then some 0 else if bandLo 1 ≤ f ∧ f ≤ bandHi 1 then some 1 else none

/-- R69, R116: the symbol rate of a SUN-FSK settings word, in symbols per second. -/
def fskRate (w : Word) : Nat := 100 * fieldOf w 0 14

/-- R69: the filter passband in Hz of a waveform with a SUN-FSK settings word. -/
def passband (wave : Nat) (fsk : Word) : Nat :=
  match wave with
  | 1 => 2500000
  | 2 => 5300000
  | 3 => 1330000
  | 4 => 3 * fskRate fsk
  | 5 => 1200000
  | 6 => 600000
  | 7 => 300000
  | 8 => 150000
  | _ => 0

/-- R121: the placement width in Hz. -/
def placeWidth (wave : Nat) (fsk : Word) : Nat :=
  match wave with
  | 2 => 5250000
  | 3 => 1312500
  | _ => passband wave fsk

/-- R71: a tune is valid: the whole passband, or with WAVE 0x0 the centre, lies inside the chain's band. -/
def tuneOk (x wave : Nat) (fsk : Word) (f : Nat) : Bool :=
  decide (2 * bandLo x + passband wave fsk ≤ 2 * f) && decide (2 * f + passband wave fsk ≤ 2 * bandHi x)

/-- R71: the NCO word of a tune. -/
def ncoWord (x f : Nat) : Nat :=
  let w := if x = 0 then roundDiv ((f : Int) * 2 ^ 32) 2400000000
    else roundDiv (((f : Int) - 1920000000) * 2 ^ 32) 1920000000
  unsign 32 w

/-- R69: the settle time in us. -/
def settleUs (wave : Nat) : Nat :=
  match wave with
  | 1 => 3
  | 2 => 4
  | 3 => 12
  | 4 => 40
  | 5 => 20
  | 6 => 30
  | 7 => 60
  | 8 => 120
  | _ => 0

/-- R69: the taste window in us. -/
def tasteUs (wave : Nat) : Nat := if wave = 1 ∨ wave = 2 then 160 else if wave = 0 then 0 else 400

/-- R105: the normal count of preamble units; SUN-OFDM has none. -/
def normalCount (wave : Nat) : Nat := if wave = 4 then 8 else if wave ≤ 3 then 4 else 0

/-- A number of SUN-FSK symbol periods in ns, rounded up. -/
def fskSymbols (fsk : Word) (n : Nat) : Nat := ceilDiv (n * 1000000000) (max 1 (fskRate fsk))

/-- R105: SUN-FSK symbols in a preamble octet. -/
def fskOctet (fsk : Word) : Nat := if fieldOf fsk 22 1 = 1 then 4 else 8

/-! ### Millefeuille (R86, R95, R97, R102, R104) -/

/-- R95: K of an MCS. -/
def mfK (mcs : Nat) : Nat := [384, 384, 384, 576, 384, 576, 512, 640, 576, 640].getD mcs 384

/-- R95: N_CBPS of an MCS. -/
def mfCbps (mcs : Nat) : Nat := [24, 48, 192, 192, 384, 384, 576, 576, 768, 768].getD mcs 24

/-- R97: codewords of a PSDU of `len` bytes. -/
def mfCodewords (mcs len : Nat) : Nat := ceilDiv (8 * len) (mfK mcs)

/-- R97: the transmitted bits: whole codewords less the shortening of the last. -/
def mfBits (mcs len : Nat) : Nat := mfCodewords mcs len * 768 - (mfCodewords mcs len * mfK mcs - 8 * len)

/-- R97: N_SYM. -/
def mfSymbols (mcs len : Nat) : Nat := ceilDiv (mfBits mcs len) (mfCbps mcs)

/-- R104: N_MID with MIDAMBLE set. -/
def mfMid (mcs len : Nat) : Nat := (mfSymbols mcs len - 1) / 32

/-- R85: the symbol in ns. -/
def mfTsym (wave : Nat) : Nat := if wave = 3 then 100000 else 25000

/-- R86: the airtime in ns. -/
def mfAir (wave mcs len count : Nat) (mid : Bool) : Nat :=
  (count + 3 + mfSymbols mcs len + (if mid then mfMid mcs len else 0)) * mfTsym wave

/-- R102: the check register after one more bit. -/
def hcrcStep (r : Nat) (bit : Bool) : Nat :=
  let fb := xor bit (r.testBit 5)
  let r := r * 2 % 64
  if fb then r ^^^ 3 else r

/-- R102: the remainder over the first `n` bits of a header word. -/
def hcrcRun (h n : Nat) : Nat := (List.range n).foldl (fun r i => hcrcStep r (h.testBit i)) 63

/-- R101, R102: the header word of MCS, LENGTH, MIDAMBLE and TRAIN. -/
def mfHeader (mcs len : Nat) (mid train : Bool) : Nat :=
  let h := mcs % 16 + len % 2048 * 16 + b2n mid * 2 ^ 15 + b2n train * 2 ^ 16
  let r := hcrcRun h 18
  h + ((List.range 6).foldl (fun t i => t + b2n (r.testBit (5 - i)) * 2 ^ (18 + i)) 0)

/-! ### Airtime and the template constants (R160) -/

/-- R116: the bits of a SUN-FSK frame after its SFD: PHR and PSDU; with FEC, three tail bits and a pad to a multiple of 16
follow and the bits are coded at rate 1/2 (PRESUMED, log entry 72). -/
def fskBits (set : Word) (len : Nat) : Nat :=
  let b := 16 + 8 * len
  if fieldOf set 27 2 = 0 then b else 32 * ceilDiv (b + 3) 16

/-- R116: bits of a SUN-FSK symbol. -/
def fskPer (set : Word) : Nat := if fieldOf set 22 1 = 1 then 2 else 1

/-- R116: the airtime of a SUN-FSK frame in symbols: preamble octets, an SFD of 16 bits (R266), PHR and PSDU. -/
def fskAir (set : Word) (count len : Nat) : Nat := count * fskOctet set + 16 / fskPer set + ceilDiv (fskBits set len) (fskPer set)

/-- R117: the data bits of a SUN-OFDM symbol: 96, 48, 24 or 12 data subcarriers by option, at the MCS (PRESUMED, log entry
72). -/
def ofdmDbps (wave mcs : Nat) : Nat := 96 / 2 ^ (wave - 5) * [1, 2, 4, 8, 12, 16, 24].getD mcs 8 / 8

/-- R117: the lowest MCS of a SUN-OFDM option. -/
def ofdmLow (wave : Nat) : Nat := if wave = 7 then 1 else if wave = 8 then 2 else 0

/-- R117: the symbols of a SUN-OFDM frame after its training fields: the PHR of 36 bits at the lowest MCS. -/
def ofdmPhrSymbols (wave : Nat) : Nat := 36 / ofdmDbps wave (ofdmLow wave)

/-- R117: the data symbols: PSDU and six tail bits. -/
def ofdmSymbols (wave mcs len : Nat) : Nat := ceilDiv (8 * len + 6) (max 1 (ofdmDbps wave mcs))

/-- R117: the airtime of a SUN-OFDM frame in symbols of 120 us: STF of four, LTF of two, PHR and data (PRESUMED, log entry
72). -/
def ofdmAir (wave mcs len : Nat) : Nat := 6 + ofdmPhrSymbols wave + ofdmSymbols wave mcs len

/-- The airtime in ns of a frame with `count` preamble units; `set` is the settings word of SUN-FSK or SUN-OFDM. -/
def airNs (wave : Nat) (set : Word) (mcs count len : Nat) (mid : Bool) : Nat :=
  if wave = 1 then (count + 2 + len) * 32000
  else if wave = 2 ∨ wave = 3 then mfAir wave mcs len count mid
  else if wave = 4 then fskSymbols set (fskAir set count len)
  else ofdmAir wave mcs len * 120000

/-- R160: the acknowledgement gap in us. -/
def gapUs (wave : Nat) : Nat := if wave = 1 then 192 else if wave = 2 ∨ wave = 3 then 100 else 1000

/-- R160: CCALEN in ns. -/
def ccaNs (wave : Nat) (fsk : Word) : Nat :=
  match wave with
  | 1 => 128000
  | 2 => 50000
  | 3 => 200000
  | 4 => fskSymbols fsk 8
  | _ => 240000

/-- R160: AWAIT in ns. -/
def awaitNs (wave : Nat) (fsk : Word) : Nat :=
  match wave with
  | 1 => 192000
  | 2 => 40000
  | 3 => 160000
  | 4 => fskSymbols fsk (8 * fskOctet fsk) + 40000
  | _ => 520000

/-- Whether frames of a waveform are Millefeuille. -/
def isMf (wave : Nat) : Bool := decide (wave = 2) || decide (wave = 3)

/-- The settings word of a waveform sent in the band of chain `x` (R116, R117). -/
def State.txSet (s : State) (x wave : Nat) : Word := if wave = 4 then s.reg (PHY_TXFSK.addr x) else s.reg PHY_TXCFG.addr

/-- Bytes of FCS of a frame sent with the words PHY_TXCFG and PHY_TXFSKx (R93, R115 to R117). -/
def fcsLen (wave : Nat) (cfg fsk : Word) : Nat :=
  let four := if wave = 1 then fieldOf cfg 8 1 else if isMf wave then 1 else if wave = 4 then fieldOf fsk 26 1 else fieldOf cfg 9 1
  if four = 1 then 4 else 2

/-- Bytes of FCS of a frame sent with the settings that stand. -/
def State.txFcs (s : State) (x wave : Nat) : Nat := fcsLen wave (s.reg PHY_TXCFG.addr) (s.reg (PHY_TXFSK.addr x))

/-- R104: the MIDAMBLE flag of a Millefeuille frame with the word PHY_TXCFG: by MFMIDAUTO beyond 32 data symbols, or as its
descriptor requests. -/
def midFlag (wave : Nat) (cfg : Word) (mcs psdu : Nat) : Bool :=
  isMf wave && ((decide (fieldOf cfg 0 1 = 1) && decide (32 < mfSymbols mcs psdu)) || Config.midRequest wave mcs psdu)

/-- R160: ACKAIR in ns; on SUN-OFDM that of the lowest MCS of the option. -/
def State.ackAir (s : State) (x wave : Nat) : Nat :=
  match wave with
  | 1 => if s.bit PHY_TXCFG.OQFCS4 then 672000 else 608000
  | 2 => 700000
  | 3 => 2800000
  | _ => airNs wave (s.txSet x wave) (ofdmLow wave) (normalCount wave) (11 + s.txFcs x wave) false

/-- R117: the MCS values of a SUN-OFDM option. -/
def ofdmMcsOk (wave mcs : Nat) : Bool :=
  match wave with
  | 5 => decide (mcs ≤ 3)
  | 6 => decide (mcs ≤ 5)
  | 7 => decide (1 ≤ mcs) && decide (mcs ≤ 6)
  | 8 => decide (2 ≤ mcs) && decide (mcs ≤ 6)
  | _ => false

/-- R106: a transmit descriptor is allowed. `len` counts the PSDU, `fcs` its FCS. -/
def txParamOk (wave mcs len fcs count : Nat) : Bool :=
  (if isMf wave then decide (mcs ≤ 9) else if 5 ≤ wave then ofdmMcsOk wave mcs else true) &&
    (if wave = 1 then decide (fcs < len) && decide (len ≤ 127) else decide (4 ≤ len) && decide (len ≤ 2047)) &&
    (decide (5 ≤ wave) || (decide (4 ≤ count) && decide (count ≤ 131071)))

/-- R266: the time from the reference point to the stamped marker, with the pipeline latency, in 2^-16 ns; the STF of
SUN-OFDM is four symbols of 120 us (PRESUMED, log entry 72). -/
def markerLag (wave : Nat) (fsk : Word) : Nat :=
  match wave with
  | 1 => (160000 + 4500) * 65536
  | 2 => (100000 + 6250) * 65536
  | 3 => (400000 + 25000) * 65536
  | 4 => fskSymbols fsk (10 * fskOctet fsk + 6) * 65536 + 2000 * 65536
  | _ => (480000 + 2000 + 3 * 120000) * 65536

/-! ### Beats and TB0 -/

/-- The beat period in ns (R39): 1.25 ms times a power of two. -/
def State.beatNs (s : State) : Nat := 1250000 * 2 ^ s.beat.period

/-- One microsecond in the units of a base. -/
def usTb : Nat := 1000 * 65536

/-- The boundary at which beat `abn` began, on TB0. -/
def State.boundaryOf (s : State) (abn : Nat) : Nat := abn * s.beatNs * 65536 % tbMod

/-- Base value `a` less `b`, as a signed number of 2^-16 ns. -/
def tbDiff (a b : Nat) : Int :=
  let d := (a + tbMod - b % tbMod) % tbMod
  if d < tbMod / 2 then (d : Int) else (d : Int) - tbMod

/-- A base value moved by a signed number of 2^-16 ns. -/
def tbPlus (a : Nat) (d : Int) : Nat := (((a : Int) + d) % (tbMod : Int)).toNat

end Sys2Proof.Machine
end

