-- ==== Sys2Proof/Machine/Carriers.lean ====
section
/-! DEFINITION. Chapter 5, the carriers, the synthesisers, levels, the glaze and the coexistence wires: what chapters 5 and
6 do with them is built from these operations. -/
namespace Sys2Proof.Machine

/-- The carriers of a chain (R121). -/
def carriersOf (x : Nat) : List Nat := [4 * x, 4 * x + 1, 4 * x + 2, 4 * x + 3]

/-- What a carrier holds. -/
def State.cr (s : State) (c : Nat) : Option Carrier := vget s.car c

/-- A carrier set. -/
def State.setCar (s : State) (c : Nat) (k : Option Carrier) : State := { s with car := vset s.car c k }

/-- A carrier changed, where it is held. -/
def State.modCar (s : State) (c : Nat) (f : Carrier → Carrier) : State := s.setCar c ((s.cr c).map f)

/-- From its ramp-up start to its ramp-down end. -/
def Carrier.on (k : Carrier) : Bool := k.phase = .rampUp || k.phase = .sending || k.phase = .rampDown

/-- R122, R126: what counts in N: sending from its ramp-up start on, or reserved for an acknowledgement. -/
def Carrier.counts (k : Carrier) : Bool := k.on || k.ack

/-- R122: no carrier of the chain is held, sending or reserved. -/
def State.chainIdle (s : State) (x : Nat) : Bool := (carriersOf x).all (fun c => (s.cr c).isNone)

/-- The PA of the chain is on (R129). -/
def State.paOn (s : State) (x : Nat) : Bool := (carriersOf x).any (fun c => (s.cr c).any Carrier.on)

/-- The TXF and TXB fields that show the carriers; a carrier stays reserved until its acknowledgement has ended (R133, R146). -/
def State.showTx (s : State) (x : Nat) : State :=
  let s := s.each (carriersOf x) (fun s c =>
    let k := s.cr c
    let res := k.any (·.ack)
    let s := (s.set (TXF_CARSTAT.SEND c) (b2n (k.any Carrier.on))).set (TXF_CARSTAT.RES c) (b2n res)
    let s := (s.set (TXF_CARSTAT.ACK c) (b2n res)).set ⟨(TXF_STAT.RES x).addr, 8 + c % 4, 1⟩ (b2n res)
    s.set ⟨(TXF_STAT.ACT x).addr, 4 + c % 4, 1⟩ (b2n (k.any Carrier.on)))
  (s.set (TXF_STAT.PAON x) (b2n (s.paOn x))).set (TXF_STAT.RETPEND x) (b2n (vget s.txc x).heldLo.isSome)

/-! ### Coexistence wires (R144) -/

/-- Whether the wires apply to the band of chain `x`. -/
def State.coexOn (s : State) (x : Nat) : Bool :=
  s.bit COEX_CTRL.EN && s.dOn 22 && (if x = 0 then s.bit COEX_CTRL.BANDA else s.bit COEX_CTRL.BANDB)

/-- COEX_STAT as the held requests and the grant ball make it. -/
def State.coexWires (s : State) : State :=
  let held := (List.range 8).filter (fun c => (s.cr c).any (·.req) && s.coexOn (c / 4))
  let rx := s.lnk.rx.any (fun a => s.lnk.rxReq.contains a.id && s.coexOn a.chain)
  let req := s.bit COEX_CTRL.EN && s.dOn 22 && (!held.isEmpty || rx)
  let pri := s.bit COEX_CTRL.EN && s.dOn 22 && held.any (fun c => (s.cr c).any (·.pri))
  let gnt := if s.bit COEX_CTRL.EN && s.dOn 22 then xor s.pad.gnt (s.bit COEX_CTRL.GNTPOL) else true
  ((s.set COEX_STAT.REQ (b2n req)).set COEX_STAT.PRI (b2n pri)).set COEX_STAT.GNT (b2n gnt)

/-- R144: a carrier asks for the wires. -/
def State.coexRequest (s : State) (c : Nat) : State :=
  (s.modCar c (fun k =>
    let pri := if k.ack then s.bit COEX_CTRL.ACKPRI else decide (s.get COEX_CTRL.PRITC ≤ k.tc)
    if s.coexOn (c / 4) then { k with req := true, pri := pri } else k)).coexWires

/-! ### Synthesisers (R123, R131) -/

/-- SYS_CLKSTAT's lock bit of SYA or SYB. -/
def syLock (x : Nat) : Loc := if x = 0 then SYS_CLKSTAT.SYA_LOCK else SYS_CLKSTAT.SYB_LOCK

/-- The synthesiser of chain `x` is locked. -/
def State.synLocked (s : State) (x : Nat) : Bool := s.bit (syLock x)

/-- R131: a calibration run starts. -/
def State.calRun (s : State) (x : Nat) : State :=
  let s := ((s.inc (if x = 0 then TXF_CALCNT.A else TXF_CALCNT.B)).set (TXF_STAT.CAL x) 1).set (TXF_STAT.LOCK x) 0
  let s := s.set (syLock x) 0
  { s with txc := vmod s.txc x (fun t => { t with lastTj := t.tj }) }

/-- R123: a retune starts. The size of a synthesiser step is not stated: the LO is kept as requested (log entry 210). -/
def State.retune (s : State) (x lo : Nat) : State :=
  let s := { s with txc := vmod s.txc x (fun t => { t with heldLo := none }) }
  ((s.set (TXF_LO.FREQ x) lo).calRun x).showTx x

/-- R123: the held retune starts where the chain has no carrier sending or reserved. -/
def State.startHeld (s : State) (x : Nat) : State :=
  match (vget s.txc x).heldLo with
  | some lo => if s.chainIdle x && !s.holdover then s.retune x lo else s
  | none => s

/-- R122, R133: a carrier is released, with its status. -/
def State.freeCar (s : State) (c status : Nat) : State :=
  match s.cr c with
  | none => s
  | some _ =>
    let s := (s.setCar c none).set (TXF_CARSTAT.STATUS c) status
    ((s.showTx (c / 4)).coexWires).startHeld (c / 4)

/-! ### Placement (R121 to R123, R133) -/

/-- R122: two placements keep their distance. -/
def spaced (f w g v : Nat) : Bool := decide (w + v ≤ 2 * ((f : Int) - g).natAbs)

/-- From the launch to the last sample in ns, with the copies of a train still to come (R191). -/
def Carrier.span (k : Carrier) : Nat := k.air + k.copies * (k.air + 4000)

/-- R129: the longest ramp-down of a carrier of chain `x`, in us: the last one's. -/
def State.tailUs (s : State) (x : Nat) : Nat := 2 + if s.bit (TXF_CTRL.EXTFE x) then s.get (TXF_FE.SWLAG x) else 0

/-- What passed since a count of REF cycles, in 2^-16 ns. -/
def State.sinceClk (s : State) (c : Nat) : Nat := (s.clk - c) * 625 * 65536 / 24

/-- R129: when a carrier of chain `x` ends its ramp-down. -/
def State.endOf (s : State) (x : Nat) (k : Carrier) : Nat :=
  if k.phase = .rampDown then tbPlus (s.tb 0) (((s.tailUs x * usTb : Nat) : Int) - (s.sinceClk k.rampClk : Int))
  else tbPlus k.launch ((k.span * 65536 + s.tailUs x * usTb : Nat) : Int)

/-- R122: a frame launched at `t` for `air` ns and a held carrier both send at some time, ramps included. -/
def State.airOverlap (s : State) (x : Nat) (k : Carrier) (t air : Nat) : Bool :=
  decide (tbDiff (tbPlus t (-((2 * usTb : Nat) : Int))) (s.endOf x k) < 0) &&
    decide (tbDiff (tbPlus k.launch (-((k.ru * usTb : Nat) : Int))) (tbPlus t ((air * 65536 + s.tailUs x * usTb : Nat) : Int)) < 0)

/-- R121 to R123: where a frame can be placed: its carrier, and the LO it needs where that changes. `ign` names carriers that
would give way; `air` is none for an acknowledgement whose length is not known yet. -/
def State.placeCar (s : State) (x f wave t : Nat) (air : Option Nat) (ign : List Nat) : Option (Nat × Option Nat) :=
  let w := placeWidth wave (s.txSet x wave)
  let busy := (carriersOf x).filter (fun c => (s.cr c).isSome && !ign.contains c)
  let lo := s.get (TXF_LO.FREQ x)
  let fits := decide (2 * lo ≤ 2 * f - w + 40000000) && decide (2 * f + w ≤ 2 * lo + 40000000) && decide (w ≤ 2 * f)
  let clear := busy.all (fun c => match s.cr c with
    | none => true
    | some k =>
      let meets := match air with
        | none => (k.ack && !k.armed) || decide (tbDiff t (s.endOf x k) < 0)
        | some a => (k.ack && !k.armed) || s.airOverlap x k t a
      !meets || spaced f w k.freq (placeWidth k.wave (s.txSet x k.wave)))
  let full := match air with
    | some _ => false
    | none => decide (s.get (TXF_CTRL.MAXN x) ≠ 0) && decide (s.get (TXF_CTRL.MAXN x) <
        (busy.filter (fun c => (s.cr c).any Carrier.counts)).length + 1)
  let free := (carriersOf x).find? (fun c => !busy.contains c)
  if !s.bit (TXF_CTRL.EN x) || !decide (2 * bandLo x + w ≤ 2 * f) || !decide (2 * f + w ≤ 2 * bandHi x) || full then none
  else if !fits && (s.bit (TXF_CTRL.LOMODE x) || !busy.isEmpty) then none
  else if !clear then none
  else free.map (fun c => (c, if fits then none
    else some ((f : Int) - s.getS (TXF_CTRL.AUTOOFS x) * 1000000).toNat))

/-- A placed carrier is held, and the chain retunes where it must. -/
def State.hold (s : State) (c : Nat) (lo : Option Nat) (k : Carrier) : State :=
  let s := ((s.setCar c (some k)).set (TXF_CARFREQ.FREQ c) k.freq).set (TXF_CARSTAT.WAVE c) k.wave
  let s := match lo with
    | some v => s.retune (c / 4) v
    | none => s
  s.showTx (c / 4)

/-! ### Levels (R124 to R127), in 0.5 dB steps -/

/-- R124: P1. -/
def State.p1 (s : State) (x : Nat) : Int := if s.bit (GLZ_PATH.EXTPA x) then 10 else if x = 0 then 44 else 40

/-- R125: the backoff of N carriers. -/
def backoff (n : Nat) : Int := if n ≤ 1 then 0 else if n = 2 then 12 else if n = 3 then 17 else 20

/-- The other held carriers of a carrier's chain. -/
def State.others (s : State) (c : Nat) : List Carrier := ((carriersOf (c / 4)).filter (· ≠ c)).filterMap s.cr

/-- R124 to R126: the limit of each of `n` carriers. -/
def State.levelLimit (s : State) (x n : Nat) : Int :=
  s.p1 x - backoff (if s.get (TXF_CTRL.MAXN x) = 0 then n else s.get (TXF_CTRL.MAXN x))

/-- R124: the level asked for, -20 dBm at least. -/
def Carrier.asked (k : Carrier) : Int := max k.want (-40)

/-- R126: the level in force of a carrier that sends; the level asked for of one that is reserved. -/
def Carrier.standing (k : Carrier) : Int := if k.on then k.level else k.asked

/-- R124 to R127: the level a carrier takes at its ramp-up start, or none where it may not start. It takes no more than the
glaze has passed (log entry 209). -/
def State.levelFor (s : State) (c : Nat) (k : Carrier) : Option Int :=
  let x := c / 4
  let counted := (s.others c).filter Carrier.counts
  let n := s.get (TXF_CTRL.MAXN x)
  let lim := s.levelLimit x (counted.length + 1)
  if !s.bit (TXF_CTRL.EN x) then none
  else if n ≠ 0 ∧ n < counted.length + 1 then none
  else if n = 0 ∧ ¬ counted.all (fun o => decide (o.standing ≤ lim)) then none
  else some (min k.level (min k.asked lim))

/-! ### The glaze (R138 to R142) -/

/-- 10 to the power i / 20 for i from 0 to 19, in 10^-30: rounded down, and far finer than any gap between sums of four. -/
def tenTable : List Nat := [
  1000000000000000000000000000000, 1122018454301963435591038946477, 1258925411794167210423954106395,
  1412537544622754302155607863930, 1584893192461113485202101373391, 1778279410038922801225421195192,
  1995262314968879601352455396739, 2238721138568339611954950852465, 2511886431509580111085032067799,
  2818382931264453819101923699155, 3162277660168379331998893544432, 3548133892335754584332187022644,
  3981071705534972507702523050877, 4466835921509631185562505243193, 5011872336272722850015541868849,
  5623413251903490803949510397764, 6309573444801932494343601366223, 7079457843841379108022149421893,
  7943282347242815020659182828363, 8912509381337455299531086810782]

/-- The linear power of a level in 0.5 dB steps, scaled so that levels from -1,000 on are positive. -/
def linPower (l : Int) : Nat :=
  let n := (l + 1000).toNat
  tenTable.getD (n % 20) 0 * 10 ^ (n / 20)

/-- R138: the contents registers of the glaze in the order of GLZ_CRC. -/
def glazeAddrs : List Nat := [GLZ_PATH.addr 0, GLZ_PATH.addr 1] ++ (List.range 128).map (fun i => GLZ_SBLO.addr 0 + 4 * i)

/-- The contents words. -/
def State.glazeWords (s : State) : List Word := glazeAddrs.map s.reg

/-- R148: GLZ_CRC. -/
def glazeCrc (ws : List Word) : Nat := crc32 ((ws.map (fun w => leBytes 4 w.toNat)).flatten)

/-- R142: the airtime a sub-band used in its window, in ns times the window of its initial charge. -/
def Duty.used (d : Duty) (win : Nat) : Nat × Nat :=
  let k := max 1 d.win
  let left := min (win - d.secs) d.win
  let sum := d.charges.foldl (fun t c => if d.secs < c.1 + win then t + c.2 else t) 0
  (left * d.maxon * 1000000 + sum * k, k)

/-- R142: the usage in ms, rounded up, as GLZ_SBUSEn shows it. -/
def State.dutyUsed (s : State) (n : Nat) : Nat :=
  let u := (vget s.glz.duty n).used (s.get (GLZ_SBDUTY.WIN n))
  ceilDiv u.1 (u.2 * 1000000)

/-- R142: a charge of `air` ns. -/
def State.chargeDuty (s : State) (n air : Nat) : State :=
  { s with glz := { s.glz with duty := vmod s.glz.duty n (fun d => { d with charges := d.charges ++ [(d.secs, air)] }) } }

/-- R142: one second passes in a sub-band's buckets; what no window can reach is forgotten. -/
def Duty.roll (d : Duty) : Duty :=
  let now := d.secs + 1
  { d with secs := now, charges := d.charges.filter (fun c => decide (now < c.1 + 3600)) }

/-- DUTY_BUCKET_ROLL (R142). -/
def execDutyBucketRoll (s : State) : Host.Outcome State Fault Refusal :=
  .next { s with glz := { s.glz with duty := s.glz.duty.map Duty.roll } }

/-- R138: a sub-band is enabled: HIGH above LOW, both edges in its band. -/
def State.sbEnabled (s : State) (n : Nat) : Bool :=
  let x := n / 8
  let lo := s.get (GLZ_SBLO.FREQ n)
  let hi := s.get (GLZ_SBHI.FREQ n)
  decide (lo < hi) && decide (bandLo x ≤ lo) && decide (hi ≤ bandHi x)

/-- R138, R141: a centre lies within 1 kHz of an allowed grid point. -/
def State.onGrid (s : State) (n f : Nat) : Bool :=
  let sp := s.get (GLZ_SBGRID.SPACING n) * 1000
  if sp = 0 then true
  else
    let p0 := s.get (GLZ_SBLO.FREQ n) + s.get (GLZ_SBGRID.FIRST n) * 1000
    (List.range 64).any (fun k =>
      bitOf (if k < 32 then s.get (GLZ_SBMAPL.MAP n) else s.get (GLZ_SBMAPH.MAP n)) (k % 32) &&
        decide ((((f : Int) - (p0 + k * sp)).natAbs) ≤ 1000))

/-- R141 check 4: the carrier's sub-band. -/
def State.subBand (s : State) (x f wave : Nat) : Option Nat :=
  let w := placeWidth wave (s.txSet x wave)
  ((List.range 8).map (· + 8 * x)).find? (fun n =>
    s.sbEnabled n && decide (2 * s.get (GLZ_SBLO.FREQ n) + w ≤ 2 * f) && decide (2 * f + w ≤ 2 * s.get (GLZ_SBHI.FREQ n)) &&
      s.onGrid n f && decide (1 ≤ wave) && bitOf (s.get (GLZ_SBLIM.WAVES n)) (wave - 1))

/-- R141 check 8: a clear CCA ended at `e`, for a ramp-up start at `now`. -/
def State.lbtOk (s : State) (n : Nat) (k : Carrier) (now : Nat) : Bool :=
  if !s.bit (GLZ_SBLBT.REQ n) || (k.ack && s.bit (GLZ_SBLBT.ACKEXEMPT n)) then true
  else match k.cca with
    | none => false
    | some e => decide (s.getS LNK_CCA.THR ≤ s.getS (GLZ_SBLBT.THR n)) &&
      decide (tbDiff now e ≤ ((s.get (GLZ_SBLBT.AGE n) * usTb : Nat) : Int))

/-- R141, checks 3 to 8: the glaze's answer for a carrier at level `lvl` whose ramp-up starts at `now`: the failing status, or
the sub-band. -/
def State.glazeCheck (s : State) (c : Nat) (k : Carrier) (lvl : Int) (now : Nat) : Nat ⊕ Nat :=
  let x := c / 4
  if s.glz.burning.isSome || s.bit GLZ_STAT.BAD || decide (s.sec.lc = 3) then .inl 8
  else match s.subBand x k.freq k.wave with
    | none => .inl 9
    | some n =>
      let gain := s.getS (GLZ_PATH.GAIN x)
      let sum := ((s.others c).filter (fun o => o.on || decide (o.phase = .gated))).foldl
        (fun t o => t + linPower (o.level + gain)) (linPower (lvl + gain))
      if s.getS (GLZ_SBLIM.EIRP n) < lvl + gain ∨ linPower (s.getS (GLZ_PATH.COMP x)) < sum ∨
          (!s.bit GLZ_STAT.SEALED ∧ 0 < lvl) then .inl 10
      else if s.get (GLZ_SBLIM.DWELL n) ≠ 0 ∧ s.get (GLZ_SBLIM.DWELL n) * 1000000 < k.air then .inl 11
      else
        let win := s.get (GLZ_SBDUTY.WIN n)
        let u := (vget s.glz.duty n).used win
        if win ≠ 0 ∧ s.get (GLZ_SBDUTY.MAXON n) * 1000000 * u.2 < u.1 + k.air * u.2 then .inl 12
        else if !s.lbtOk n k now then .inl 13
        else .inr n

/-! ### The outcome of the gate (R141) -/

/-- A refusal counted by its block. -/
def State.countGate (s : State) (x status : Nat) (ack : Bool) : State :=
  if status = 2 then s.raise TXF_EVT.NOCAR
  else if status = 3 then
    (s.inc (if x = 0 then TXF_LATECNT.A else TXF_LATECNT.B)).raise (if x = 0 then TXF_EVT.LATEA else TXF_EVT.LATEB)
  else if status = 4 then (s.inc (if ack then COEX_DENYCNT.ACK else COEX_DENYCNT.FRAME)).raise COEX_EVT.DENY
  else if 8 ≤ status ∧ status ≤ 14 then (s.inc (GLZ_REFCNT.COUNT (status - 8))).raise GLZ_EVT.REFUSE
  else s


/-- R129: the ramp-up length in us at this moment. -/
def State.rampUs (s : State) (x : Nat) : Nat :=
  if s.paOn x || !s.bit (TXF_CTRL.EXTFE x) then 2 else 3 + s.get (TXF_FE.PALEAD x)

/-- R158, R267: the planned ramp-up start of a carrier of chain `x`; its launch at the ball lies TX before its stamp. -/
def State.rampOf (s : State) (x : Nat) (k : Carrier) : Nat :=
  shiftSixteenths (tbPlus k.launch (-((k.ru * usTb : Nat) : Int))) (-(s.getS (TSU_RFDLY.TX x)))

/-- R126, R141: the level a carrier will have at a ramp-up start at `now`, with the carriers that count in N then. -/
def State.gateLevel (s : State) (c : Nat) (k : Carrier) (now : Nat) : Int :=
  let x := c / 4
  let then_ := (s.others c).filter (fun o => o.ack || (o.on && decide (0 < tbDiff (s.endOf x o) now)) ||
    (decide (o.phase = .gated) && decide (tbDiff (s.rampOf x o) now ≤ 0)))
  min k.asked (s.levelLimit x (then_.length + 1))

/-- R141: the checks of a carrier, lock apart, for a ramp-up start at `now`: the failing status, or the level and sub-band. -/
def State.gateChecks (s : State) (c : Nat) (k : Carrier) (now : Nat) : Nat ⊕ (Int × Nat) :=
  let l := s.gateLevel c k now
  if s.coexOn (c / 4) && !s.bit COEX_STAT.GNT then .inl 4
  else match s.glazeCheck c k l now with
    | .inl e => .inl e
    | .inr n => .inr (l, n)

/-- A carrier passes its gate: its level is checked, its sub-band charged. -/
def State.passGate (s : State) (c : Nat) (l : Int) (n : Nat) : State :=
  match s.cr c with
  | none => s
  | some k => ((s.modCar c (fun k => { k with phase := .gated, level := l })).chargeDuty n k.air).showTx (c / 4)

/-- R160: RUMAX in us. -/
def State.ruMax (s : State) (x : Nat) : Nat := if s.bit (TXF_CTRL.EXTFE x) then 3 + s.get (TXF_FE.PALEAD x) else 2

end Sys2Proof.Machine
end

