-- ==== Sys2Proof/Machine/Random.lean ====
section
/-! DEFINITION. Chapter 13: the entropy source and its health tests, the DRBG, and the seeds of the masks (R329, R340, R341).
-/
namespace Sys2Proof.Machine

/-! ### Health tests (R340) -/

/-- The longest run of equal samples so far and the run that stands, with its sample. -/
def runStep (r : Nat × Nat × Bool) (x : Bool) : Nat × Nat × Bool :=
  let n := if r.2.1 = 0 ∨ r.2.2 = x then r.2.1 + 1 else 1
  (max r.1 n, n, x)

/-- R340: the repetition count test fails: its cutoff is 41. -/
def rctFails (l : List Bool) : Bool := decide (41 ≤ (l.foldl runStep (0, 0, false)).1)

/-- R340: 1 + CRITBINOM(1,024, 2^-0.5, 1 - 2^-20). -/
def aptCutoff : Nat := 793

/-- R340: the adaptive proportion test fails: in a window of 1,024 samples its first comes as often as the cutoff. -/
def aptFails (l : List Bool) : Bool :=
  (List.range (ceilDiv l.length 1024)).any (fun i =>
    let w := (l.drop (1024 * i)).take 1024
    decide (aptCutoff ≤ w.countP (fun x => x == w.headD false)))

/-! ### The DRBG (R341) -/

/-- R340, R341: output of the DRBG can be used. -/
def State.rngReady (s : State) : Bool := decide (s.get KEY_RNGSTAT.STATE = 1)

/-- The 768 samples of a seeding as 96 bytes. -/
def seedBytes (d : Nat) : List Byte :=
  (List.range 96).map (fun i => BitVec.ofNat 8 (((List.range 8).map (fun k => b2n (Config.sample d (8 * i + k)) * 2 ^ k)).sum))

/-- SEC's DRBG changed. -/
def State.modRng (s : State) (f : Rng → Rng) : State := { s with sec := { s.sec with rng := f s.sec.rng } }

/-- R341: seeded with 768 samples, from the state `d`. -/
def State.rngSeed (s : State) (d : CtrDrbg) : State :=
  (s.modRng (fun r => { r with core := d.seed (seedBytes s.drawn), reqs := 0 })).draw

/-- R341: one request of 512 bits: its 64 bytes and the state after. Every 1,024 requests the DRBG reseeds. -/
def State.rngRequest (s : State) : List Byte × State :=
  let s := if s.sec.rng.reqs < 1024 then s else s.rngSeed s.sec.rng.core
  let r := s.sec.rng.core.request
  (r.1, s.modRng (fun x => { x with core := r.2, reqs := x.reqs + 1 }))

/-- R341: a read of KEY_RNG: the next word of the buffer, which an empty buffer first fills. It is zero unless the DRBG is
READY. -/
def State.rngRead (s : State) : Word × State :=
  if !s.rngReady then (0, s)
  else match s.sec.rng.buf with
    | w :: t => (w, s.modRng (fun r => { r with buf := t }))
    | [] =>
      let r := s.rngRequest
      let l := (List.range 16).map (fun i => BitVec.ofNat 32 (leNat ((r.1.drop (4 * i)).take 4)))
      (l.headD 0, r.2.modRng (fun x => { x with buf := l.tail }))

/-- R178, R341: a number below 2^`be` drawn; in ERROR it is 2^`be` - 1. -/
def State.rngDraw (s : State) (be : Nat) : Nat × State :=
  if s.rngReady then
    let r := s.rngRequest
    (leNat (r.1.take 4) % 2 ^ be, r.2)
  else if s.get KEY_RNGSTAT.STATE = 2 then (2 ^ be - 1, s)
  else (Config.random s.drawn % 2 ^ be, s.draw)

/-- R336, R344: a private scalar from one request, 48 bytes. -/
def State.rngScalar (s : State) : List Byte × State :=
  let r := s.rngRequest
  (Config.scalarBytes (Config.scalarLess (leNat r.1)).val, r.2)

/-! ### The masks (R329) -/

/-- R329: `n` blocks enciphered. Every 4,096 blocks the DRBG reseeds the masks; in ERROR they run on their last seed, and none is
left where more than 2^20 blocks would be enciphered on it. -/
def State.maskRun (s : State) (n : Nat) : Option State :=
  let k := s.sec.rng.masked + n
  if s.bit AES_STAT.MASKOLD then
    if 2 ^ 20 < k then none else some (s.modRng (fun r => { r with masked := k }))
  else
    let s := if s.rngReady then s.each (List.range (k / 4096)) (fun s _ => s.rngRequest.2) else s
    some (s.modRng (fun r => { r with masked := k % 4096 }))

/-! ### Outcomes of the tests (R340, R341) -/

/-- R341: a health test fails: the DRBG enters ERROR, the failing test shows, and the masks go on from their last seed. -/
def State.rngFail (s : State) (rct apt : Bool) : State :=
  let s := (s.set KEY_RNGSTAT.STATE 2).raise KEY_EVT.RNGERR
  let s := if rct then s.set KEY_RNGSTAT.RCTF 1 else s
  let s := if apt then s.set KEY_RNGSTAT.APTF 1 else s
  if s.bit AES_STAT.MASKOLD then s
  else (s.modRng (fun r => { r with masked := 0 })).set AES_STAT.MASKOLD 1

/-- R340: the tests over the samples since they began: whether they pass, and the state a failure leaves. -/
def State.rngJudge (s : State) (samples : List Bool) : Bool × State :=
  let rct := rctFails samples
  let apt := aptFails samples
  if rct || apt then (false, s.rngFail rct apt) else (true, s)

/-- R340, R341: 1,024 start-up samples have passed: the DRBG is seeded and READY, and the masks are reseeded. -/
def State.rngStart (s : State) : State :=
  let s := ((s.set KEY_RNGSTAT.STATE 1).set KEY_RNGSTAT.RCTF 0).set KEY_RNGSTAT.APTF 0
  let s := (s.rngSeed {}).rngRequest.2
  (s.modRng (fun r => { r with buf := [], masked := 0 })).set AES_STAT.MASKOLD 0

/-- RNG_HEALTH_FAIL (R340, R341): the continuous tests over the samples since they began. -/
def execRngHealthFail (samples : List Bool) (s : State) : Host.Outcome State Fault Refusal :=
  .next (if s.dOn 24 then (s.rngJudge samples).2 else s)

/-- RNG_STARTUP_DONE (R340, R341): the start-up samples; at least 1,024 of them must pass. -/
def execRngStartupDone (samples : List Bool) (s : State) : Host.Outcome State Fault Refusal :=
  .next (
    if !s.dOn 24 || decide (s.get KEY_RNGSTAT.STATE ≠ 0) then s
    else match s.rngJudge samples with
      | (false, s) => s
      | (true, s) => if samples.length < 1024 then s else s.rngStart)

/-- R341: a write of KEY_RNGCTL with RESTART: the start-up test is repeated. -/
def State.rngRestart (s : State) (w : Word) : State :=
  if fieldOf w 0 1 = 1 then s.set KEY_RNGSTAT.STATE 0 else s

end Sys2Proof.Machine
end

