-- ==== Sys2Proof/Machine/Frames.lean ====
section
/-! DEFINITION. Chapter 6, the frames of the link: their headers on Millefeuille and on the IEEE 802.15.4 waveforms, their
security, and the acknowledgements. -/
namespace Sys2Proof.Machine

/-- Two little-endian bytes of a frame. -/
def half (l : List Byte) (i : Nat) : Nat := leNat ((l.drop i).take 2)

/-- The IEEE 802.15.4 frame type of a link TYPE, and back (PRESUMED, log entry 14). -/
def macType (t : Nat) : Nat := if t = 0 then 1 else if t = 1 then 0 else t

/-- What LNK reads of a frame's header (R162, R163, R170, R171). -/
structure Head where
  type : Nat
  seq : Nat
  netid : Nat
  dst : Nat := 0
  src : Option Nat
  bcast : Bool := false
  ackreq : Bool := false
  sec : Bool := false
  nack : Bool := false
  tc : Bool := false
  /-- TCORR in 0.1 us. -/
  tcorr : Int := 0
  lq : Nat := 0
  /-- Bytes before the auxiliary header or the payload. -/
  len : Nat
  deriving DecidableEq, Repr

/-- R162: the Millefeuille link header; none for a frame outside the rule. -/
def headMf (m : List Byte) : Option Head :=
  if m.length < 8 then none
  else
    let b := leNat (m.take 1)
    let t := b % 4
    if b ≥ 128 then none
    else
      let h : Head := {
        type := t, seq := leNat ((m.drop 1).take 1), netid := half m 2, dst := half m 4, src := some (half m 6),
        bcast := bitOf b 2, ackreq := bitOf b 3, sec := bitOf b 4, len := 8 }
      if t = 2 then
        some { h with
          nack := bitOf b 6, tc := bitOf b 5, tcorr := signed 16 (half m 8), lq := leNat ((m.drop 10).take 1),
          ackreq := false, sec := false }
      else some h

/-- R163, R171: the frame control of a frame LNK sends, with its addresses: PAN ID compression leaves out the source PAN ID where
there is a source address, and would leave out the destination's where there is none (PRESUMED, log entry 14). -/
def macControl (type : Nat) (sec ackreq src ie : Bool) : Nat :=
  macType type + b2n sec * 8 + b2n ackreq * 32 + b2n ie * 512 + 2 * 1024 + 2 * 4096 + (if src then 64 + 2 * 16384 else 0)

/-- R165: security level, key index, frame counter and length of a received auxiliary header; none outside R163. -/
def auxOf (wave : Nat) (a : List Byte) : Option (Nat × Nat × Nat × Nat) :=
  if isMf wave then
    if a.length < 5 then none else some (6, leNat (a.take 1), leNat ((a.drop 1).take 4), 5)
  else
    let c := leNat (a.take 1)
    if a.length < 6 ∨ c % 8 < 5 ∨ c / 8 % 4 ≠ 1 ∨ c / 32 ≠ 0 then none
    else some (c % 8, leNat ((a.drop 5).take 1), leNat ((a.drop 1).take 4), 6)

/-- R163, R171: the MAC header of a received frame; none for a frame outside the subset, an auxiliary header of another kind
among what puts it there. -/
def headMac (m : List Byte) : Option Head :=
  let f := half m 0
  let t := f % 8
  if m.length < 7 ∨ 3 < t ∨ f / 4096 % 4 ≠ 2 ∨ f / 1024 % 4 ≠ 2 ∨ bitOf f 8 then none
  else
    let type := macType t
    let h : Head := {
      type := type, seq := leNat ((m.drop 2).take 1), netid := half m 3, dst := half m 5, src := none,
      sec := bitOf f 3, ackreq := bitOf f 5, len := 7 }
    if type = 2 ∧ f / 16384 % 4 = 0 ∧ !bitOf f 6 ∧ !bitOf f 3 then
      if bitOf f 9 then
        if half m 7 = 0x0F02 ∧ 11 ≤ m.length then
          let c := half m 9
          some { h with tc := !bitOf c 12, nack := bitOf c 15, tcorr := 10 * signed 12 (c % 4096), len := 11 }
        else none
      else some h
    else if f / 16384 % 4 = 2 ∧ bitOf f 6 ∧ 9 ≤ m.length ∧ !bitOf f 9 ∧ (bitOf f 3 → (auxOf 1 (m.drop 9)).isSome) then
      some { h with src := some (half m 7), bcast := decide (half m 5 = 0xFFFF), len := 9 }
    else none

/-- The header of a received MPDU. -/
def headOf (wave : Nat) (m : List Byte) : Option Head := if isMf wave then headMf m else headMac m

/-- R162, R163: the header of a frame LNK sends. -/
def makeHead (wave type seq netid dst src : Nat) (bcast ackreq sec : Bool) : List Byte :=
  if isMf wave then
    [BitVec.ofNat 8 (type + b2n bcast * 4 + b2n ackreq * 8 + b2n sec * 16), BitVec.ofNat 8 seq] ++
      leBytes 2 netid ++ leBytes 2 dst ++ leBytes 2 src
  else
    leBytes 2 (macControl type sec ackreq true false) ++ [BitVec.ofNat 8 seq] ++ leBytes 2 netid ++
      leBytes 2 (if bcast then 0xFFFF else dst) ++ leBytes 2 src

/-- R165: the auxiliary header: key index and frame counter. -/
def makeAux (wave slot fc : Nat) : List Byte :=
  if isMf wave then [BitVec.ofNat 8 slot] ++ leBytes 4 fc
  else [BitVec.ofNat 8 (6 + 8)] ++ leBytes 4 fc ++ [BitVec.ofNat 8 slot]

/-- R165: the nonce. Its numbers are little-endian (DEDUCED from R162, log entry 15). -/
def nonceOf (netid src fc level : Nat) : List Byte :=
  leBytes 2 netid ++ List.replicate 4 0 ++ leBytes 2 src ++ leBytes 4 fc ++ leBytes 1 level

/-- R165: bytes of MIC of a security level. -/
def micLen (level : Nat) : Nat := if level = 5 then 4 else if level = 7 then 16 else 8

/-! ### Key slots (R334, R335, R337) -/

/-- The key material of a slot. -/
def State.keyOf (s : State) (k : Nat) : List Byte := (aget s.sec.keys k).getD []

/-- R337: one use of a slot; a slot that reaches its limit is spent. -/
def State.keyUse (s : State) (k : Nat) : State :=
  let u := min (2 ^ 32 - 1) (s.get (KEY_SUSE.USE k) + 1)
  let s := s.set (KEY_SUSE.USE k) u
  if u = 2 ^ 32 - 1 ∨ (s.get (KEY_SLIMIT.LIMIT k) ≠ 0 ∧ s.get (KEY_SLIMIT.LIMIT k) ≤ u) then
    (s.set (KEY_SATTR.SPENT k) 1).raise KEY_EVT.SPENT
  else s

/-- R338: the slot is being erased. -/
def State.erasing (s : State) (k : Nat) : Bool :=
  match s.sec.cmd with
  | some c => decide (c.op = 7) && decide (c.slot = k)
  | none => false

/-- The ECC words of a slot in the key store: its material and its attributes, 16 words (log entry 193). -/
def keyWord (k : Nat) (e : Nat × Nat × Nat) : Bool := decide (e.1 = 9) && decide (e.2.2 / 16 = k)

/-- R31: the material of slot `k` holds an uncorrectable word. -/
def State.keyEcc (s : State) (k : Nat) : Bool := s.ecc.any (keyWord k)

/-- R334: a slot can be used for frames in this direction: usage ENC to send, DEC to receive. -/
def State.frameKeyOk (s : State) (k : Nat) (send : Bool) : Bool :=
  s.bit (KEY_SATTR.VALID k) && !s.erasing k && decide (s.get (KEY_SATTR.TYPE k) = 1) && bitOf (s.get (KEY_SATTR.USAGE k)) 2 &&
    (if send then bitOf (s.get (KEY_SATTR.USAGE k)) 0 && !s.bit (KEY_SATTR.SPENT k)
      else bitOf (s.get (KEY_SATTR.USAGE k)) 1)

/-- Blocks that CCM enciphers for `a` bytes of authenticated data and `n` bytes of payload. -/
def ccmBlocks (a n : Nat) : Nat := 2 + (if a = 0 then 0 else ceilDiv (a + 2) 16) + 2 * ceilDiv n 16

/-- R165, R334: a frame secured under slot `k` once: its MPDU, and the use counted. `mark` writes a beacon's ABN. -/
def State.secureFrame (s : State) (wave netid src k : Nat) (hdr payload : List Byte) (mark : List Byte → List Byte) :
    List Byte × State :=
  let fc := s.get (KEY_SUSE.USE k)
  let aux := makeAux wave k fc
  let n := hdr.length + aux.length
  let plain := mark (hdr ++ aux ++ payload)
  let r := ccmSeal (s.keyOf k) (nonceOf netid src fc 6) (plain.take n) (plain.drop n) 8
  (plain.take n ++ r.1 ++ r.2, s.keyUse k)

/-- R165, R334: a received secured frame under slot `k`: its frame counter and payload where the MIC verifies. -/
def State.openFrame (s : State) (wave : Nat) (h : Head) (k : Nat) (m : List Byte) : Option (Nat × List Byte) :=
  match auxOf wave (m.drop h.len) with
  | none => none
  | some (level, key, fc, n) =>
    let body := m.drop (h.len + n)
    let t := micLen level
    if key ≠ k ∨ body.length < t ∨ !s.frameKeyOk k false then none
    else
      (ccmOpen (s.keyOf k) (nonceOf h.netid (h.src.getD 0) fc level) (m.take (h.len + n)) (body.take (body.length - t))
        (body.drop (body.length - t))).map (fun p => (fc, p))

/-! ### Acknowledgements (R170 to R173) -/

/-- R172: a difference in 2^-16 ns as a number of units of `ns` ns, rounded and saturated. -/
def corrUnits (d : Int) (ns lim : Nat) : Int := max (-(lim : Int)) (min (roundDiv d (ns * 65536)) lim)

/-- R170: the MPDU of a compact acknowledgement. -/
def ackMf (netid dst src seq lq : Nat) (tc : Option Int) (nack : Bool) : List Byte :=
  [BitVec.ofNat 8 (2 + b2n tc.isSome * 32 + b2n nack * 64), BitVec.ofNat 8 seq] ++ leBytes 2 netid ++ leBytes 2 dst ++
    leBytes 2 src ++ leBytes 2 (unsign 16 (corrUnits (tc.getD 0) 100 32767)) ++ [BitVec.ofNat 8 lq]

/-- R171: the MPDU of an enhanced acknowledgement. -/
def ackMac (netid dst seq : Nat) (tc : Option Int) (nack : Bool) : List Byte :=
  let ie := tc.isSome || nack
  leBytes 2 (macControl 2 false false false ie) ++ [BitVec.ofNat 8 seq] ++ leBytes 2 netid ++ leBytes 2 dst ++
    (if ie then
      leBytes 2 0x0F02 ++ leBytes 2 (unsign 12 (corrUnits (tc.getD 0) 1000 2047) + b2n tc.isNone * 4096 + b2n nack * 32768)
    else [])

end Sys2Proof.Machine
end

