-- ==== Sys2Proof/Machine/Link.lean ====
section
/-! DEFINITION. Chapters 6 and 7, what LNK keeps and decides apart from the instants of its templates: the neighbour table,
backoff, the outcome of a transmit attempt, the duplicate window, contacts, guards, beacon tracking and the end of a scan. -/
namespace Sys2Proof.Machine

/-- Bits lo to lo + w - 1 of word `k` of neighbour entry `n` (R179, R202). -/
def nb (n k lo w : Nat) : Loc := ⟨0x20084000 + 0x40 * n + 4 * k, lo, w⟩

/-- R178: where the backoff of neighbour `n` is kept. -/
def boBE (n : Nat) : Loc := if n = 255 then LNK_BCBO.BE else nb n 6 21 3
def boCNT (n : Nat) : Loc := if n = 255 then LNK_BCBO.BOCNT else nb n 6 14 7

/-- R178: MINBE and MAXBE as they act. -/
def State.minBE (s : State) : Nat := min (s.get LNK_CTRL.MINBE) (s.get LNK_CTRL.MAXBE)
def State.maxBE (s : State) : Nat := s.get LNK_CTRL.MAXBE

/-- The ECC words of neighbour entry `n` (R29). -/
def nbrWords (n : Nat) (e : Nat × Nat × Nat) : Bool := decide (e.1 = 5) && decide (e.2.2 / 16 = n)

/-- R166 step 3: the lowest-numbered valid entry with this address; 255 where there is none. An entry with an uncorrectable
word is not valid (R31). -/
def State.nbrOf (s : State) (a : Nat) : Nat :=
  ((List.range 255).find? (fun n =>
    s.bit (nb n 0 31 1) && decide (s.get (nb n 0 0 16) = a) && !s.ecc.any (nbrWords n))).getD 255

/-- R30, R31, R166 step 3: LNK's look through the entries up to the one it takes. -/
def State.nbrScan (s : State) (a : Nat) : State := s.blockRead 8 (fun e => decide (e.1 = 5) && decide (e.2.2 / 16 ≤ s.nbrOf a))

/-- R182: LNK_TXSTAT. -/
def State.txReport (s : State) (status nbr fails cell : Nat) : State :=
  (((s.set LNK_TXSTAT.STATUS status).set LNK_TXSTAT.NBR nbr).set LNK_TXSTAT.FAILS fails).set LNK_TXSTAT.CELL cell

/-- R182: LNK_RXSTAT. `cell` is none for an unscheduled reception. -/
def State.rxReport (s : State) (status nbr slice : Nat) (cell : Option Nat) : State :=
  let s := (s.set LNK_RXSTAT.STATUS status).set LNK_RXSTAT.UNSCHED (b2n cell.isNone)
  ((s.set LNK_RXSTAT.NBR nbr).set LNK_RXSTAT.SLICE slice).set LNK_RXSTAT.CELL (cell.getD 0)

/-- A slice given up by its action. -/
def State.releaseSlice (s : State) (n : Option Nat) : State :=
  match n with
  | some k => s.set (SLC_STAT.ACT k) 0
  | none => s

/-- A transmit action ends: it is forgotten, and its slice released. -/
def State.endTx (s : State) (a : TxAct) : State :=
  { s with lnk := { s.lnk with tx := s.lnk.tx.filter (fun b => b.id ≠ a.id) } }.releaseSlice a.slice

/-- A receive action ends. Its COEX request ends with it (R144). -/
def State.endRx (s : State) (a : RxAct) : State :=
  let l := { s.lnk with
    rx := s.lnk.rx.filter (fun b => b.id ≠ a.id), rxReq := s.lnk.rxReq.filter (· ≠ a.id) }
  ({ s with lnk := l }.releaseSlice a.slice).coexWires

/-- A transmit action changed. -/
def State.modTx (s : State) (id : Nat) (f : TxAct → TxAct) : State :=
  { s with lnk := { s.lnk with tx := s.lnk.tx.map (fun a => if a.id = id then f a else a) } }

/-- A receive action changed. -/
def State.modRx (s : State) (id : Nat) (f : RxAct → RxAct) : State :=
  { s with lnk := { s.lnk with rx := s.lnk.rx.map (fun a => if a.id = id then f a else a) } }

/-! ### Outcomes (R176 to R178) -/

/-- R178: BE and BOCNT reset. -/
def State.boReset (s : State) (n : Nat) : State := (s.set (boBE n) s.minBE).set (boCNT n) 0

/-- R178: BE raised, and BOCNT drawn from 0 to 2^BE - 1. -/
def State.boRaise (s : State) (n : Nat) : State :=
  let be := min (s.get (boBE n) + 1) s.maxBE
  let r := s.rngDraw be
  (r.2.set (boBE n) be).set (boCNT n) r.1

/-- R176: the statuses that count as failures. -/
def failStatus (t : Nat) : Bool := [4, 5, 6, 0x10, 0x11, 0x12].contains t

/-- R178: cells that share. -/
def sharedKind (k : Nat) : Bool := decide (k = 2) || decide (k = 3)

/-- R176, R177: a counted failure of packet `p`. -/
def State.failPkt (s : State) (a : TxAct) (n q : Nat) (p : Packet) (status : Nat) : State :=
  let s := s.inc LNK_RETRYCNT.COUNT
  let s := if n ≠ 255 then s.inc (nb n 2 0 16) else s
  let s := if status = 0x12 then s.inc LNK_CCACNT.BUSY else if status = 0x11 then s.inc LNK_NACKCNT.RCVD else s
  let s := if sharedKind a.kind then s.boRaise n else s
  let f := p.fails + 1
  if s.get LNK_CTRL.RETRIES + 1 ≤ f then
    let s := ((s.inc LNK_DROPCNT.RETRY).raise LNK_EVT.DROP).dropPkt q p
    let s := if n ≠ 255 then s.retryDrop n else s
    s.txReport 0x14 a.nbr f a.cell
  else
    let s := s.modPkt q p.pid (fun p => { p with fails := f })
    (s.pktKept q { p with fails := f }).txReport status a.nbr f a.cell

/-- R176: an attempt ends with `status`, 0 meaning that the packet is released. -/
def State.txOutcome (s : State) (a : TxAct) (status : Nat) : State :=
  let s := s.endTx a
  let n := if a.kind = 4 then 255 else a.nbr
  match a.pkt with
  | none => s.txReport status a.nbr 0 a.cell
  | some (q, pid) =>
    match (s.q q).pkts.find? (fun p => p.pid = pid) with
    | none => s.txReport status a.nbr 0 a.cell
    | some p =>
      if status = 0 then
        let s := (s.pktReleased q p).inc LNK_TXOKCNT.COUNT
        let s := if a.wantAck && decide (n ≠ 255) then (s.inc (nb n 2 16 16)).retryReset n else s
        let s := if a.wantAck then s.pulse 0x83 else s
        (s.boReset n).txReport 0 a.nbr p.fails a.cell
      else if failStatus status then s.failPkt a n q p status
      else if status = 0x13 then
        (((s.inc LNK_DROPCNT.LONG).raise LNK_EVT.LONG).dropPkt q p).txReport 0x13 a.nbr p.fails a.cell
      else (s.pktKept q p).txReport status a.nbr p.fails a.cell

/-- A kind that transmits only (R153). -/
def txOnly (k : Nat) : Bool := decide (k = 1) || decide (k = 2) || decide (k = 4)

/-- R157: the counters of a skipped action. -/
def State.countSkip (s : State) (tx : Bool) : State :=
  (s.raise LNK_EVT.SKIP).inc (if tx then LNK_SKIPCNT.TX else LNK_SKIPCNT.RX)

/-- R157: a transmit action is skipped; its packet stays in place. -/
def State.skipTx (s : State) (a : TxAct) : State := (s.countSkip true).txOutcome a 0x27

/-! ### Neighbour entries (R167, R178 to R180, R195) -/

/-- R178, R195: an entry becomes valid. -/
def State.nbrValidated (s : State) (n : Nat) : State :=
  let s := s.boReset n
  (((s.set (nb n 11 30 2) 0).set (nb n 10 16 4) 0).set (nb n 11 29 1) 0).set (nb n 11 12 12) 0

/-- R180: the held writes are applied in write order. -/
def State.applyPend (s : State) : State :=
  let s' := s.each s.lnk.pend (fun s w =>
    let n := (w.1 - 0x20084000) / 0x40
    let was := s.bit (nb n 0 31 1)
    let s := (s.wrote (5, 0, (w.1 - 0x20084000) / 4)).setReg w.1 w.2
    if (w.1 - 0x20084000) % 0x40 = 0 ∧ !was ∧ s.bit (nb n 0 31 1) then s.nbrValidated n else s)
  { s' with lnk := { s'.lnk with pend := [] } }

/-- NBR_TABLE_WRITE (R180): a write of word 0 or 1 of entry `n` is held, or refused where the buffer is full. -/
def State.nbrWrite (s : State) (n k : Nat) (w : Word) : State :=
  let v := w &&& (if k = 0 then 0xF000FFFF#32 else 0xFFF0FF00#32)
  if 32 ≤ s.lnk.pend.length then s.raise LNK_EVT.WPEND
  else { s with lnk := { s.lnk with pend := s.lnk.pend ++ [(LNK_NBR0.addr n + 4 * k, v)] } }

/-- R156: before a schedule word is written, what it held at the start of the clock is kept. -/
def State.keepFresh (s : State) (a : Nat) : State :=
  let l := s.lnk.fresh.filter (fun f => decide (f.2.2 = s.clk))
  { s with lnk := { s.lnk with fresh := if l.any (fun f => decide (f.1 = a)) then l else l ++ [(a, s.reg a, s.clk)] } }

/-- R156: `f` carried out on the schedule table as it stood before the writes of this clock. -/
def State.onStale (s : State) (f : State → State) : State :=
  let l := s.lnk.fresh.filter (fun x => decide (x.2.2 = s.clk))
  let t := f (s.each l (fun s x => s.setReg x.1 x.2.1))
  t.each l (fun t x => t.setReg x.1 (s.reg x.1))

/-- R180: what a read of word 0 or 1 returns: the newest held value. -/
def State.nbrRead (s : State) (a : Nat) : Word := ((s.lnk.pend.reverse.find? (fun p => p.1 = a)).map (·.2)).getD (s.reg a)

/-- R167: E. -/
def State.dupLimit (s : State) : Nat := min (s.get BEAT_RESLIM.BEATS) 65280

/-- R167: DSEQ, DABN and WVALID of window slot `i`. -/
def dSeq (n i : Nat) : Loc := nb n (4 + i / 4) (8 * (i % 4)) 8
def dAbn (n i : Nat) : Loc := nb n (12 + i / 2) (16 * (i % 2)) 16
def wValid (n i : Nat) : Loc := nb n 6 i 1

/-- R167 step 5: a slot holds this sequence number and is younger than E. -/
def State.isDup (s : State) (n q : Nat) : Bool :=
  (List.range 8).any (fun i => s.bit (wValid n i) && decide (s.get (dSeq n i) = q) &&
    decide (ageOf 16 (s.abn % 65536) (s.get (dAbn n i)) < s.dupLimit))

/-- R167: RX_OK pushes the oldest slot out. -/
def State.dupPush (s : State) (n q : Nat) : State :=
  let h := (s.get (nb n 6 10 3) + 1) % 8
  (((s.set (nb n 6 10 3) h).set (dSeq n h) q).set (dAbn n h) (s.abn % 65536)).set (wValid n h) 1

/-- R167: at a boundary the slots of entry ABN mod 256 that are E beats old are invalidated. -/
def State.dupExpire (s : State) : State :=
  let n := s.abn % 256
  s.each (List.range 8) (fun s i =>
    if s.dupLimit ≤ ageOf 16 (s.abn % 65536) (s.get (dAbn n i)) then s.set (wValid n i) 0 else s)

/-! ### Contacts and guards (R194 to R197) -/

/-- R194, R196: the time since the last baseline contact, in ns. -/
def State.sinceNs (s : State) (n : Nat) : Nat := ageOf 32 (s.abn % 2 ^ 32) (s.get (nb n 9 0 32)) * s.beatNs

/-- R195: the new DRIFT, in 0.01 ppm. -/
def State.newDrift (s : State) (n : Nat) (o : Int) : Int :=
  let r := roundDiv (10 * (o - s.getS (nb n 8 16 16)) * 1000000000) (s.sinceNs n)
  let old := s.getS (nb n 8 0 16)
  let d := if s.get (nb n 11 30 2) = 1 then r else old + roundDiv (r - old) (2 ^ s.get LNK_GUARD.ALPHA)
  max (-32767) (min d 32767)

/-- R194, R195: a contact with neighbour `n` that yields the offset `o` in 0.1 us. -/
def State.contact (s : State) (n : Nat) (o : Int) : State :=
  let s := s.set (nb n 10 16 4) 0
  let m := s.get (nb n 11 30 2)
  if m ≠ 0 ∧ s.sinceNs n < 1000000000 then s
  else
    let s := if 1 ≤ m then s.setS (nb n 8 0 16) (s.newDrift n o) else s
    let s := (s.setS (nb n 8 16 16) o).set (nb n 9 0 32) (s.abn % 2 ^ 32)
    (s.set (nb n 11 30 2) (min (m + 1) 2)).set (nb n 11 12 12) 0

/-- R196: D in 0.01 ppm. -/
def State.driftTerm (s : State) (n : Nat) : Nat :=
  let dn := if s.get (nb n 10 24 8) = 0 then s.get LNK_GUARD.DNBR else s.get (nb n 10 24 8)
  let d := 100 * (s.get LNK_GUARD.DLOCAL + dn)
  if s.bit LNK_GUARD.ESTEN && decide (s.get (nb n 11 30 2) = 2) then
    min d ((s.getS (nb n 8 0 16)).natAbs + 100 * s.get LNK_GUARD.DMARGIN)
  else d

/-- R196: the guard of neighbour `n` in us. -/
def State.guardOf (s : State) (n : Nat) : Nat :=
  let gmax := s.get LNK_GLIM.GMAX
  if n = 255 ∨ s.get (nb n 11 30 2) = 0 ∨ s.bit (nb n 11 29 1) then gmax
  else min gmax (s.get LNK_GLIM.GMIN + s.get (nb n 11 12 12) + ceilDiv (s.driftTerm n * s.sinceNs n) 100000000000)

/-- R197: the sleep-advance bound added to UACC of every valid entry. -/
def State.addUacc (s : State) : State :=
  if !s.lnk.uaccDue then s
  else
    let us := ceilDiv (s.get TSU_SLPERR.NS) 1000
    let s := { s with lnk := { s.lnk with uaccDue := false } }
    s.each ((List.range 255).filter (fun n => s.bit (nb n 0 31 1))) (fun s n =>
      s.set (nb n 11 12 12) (min 4095 (s.get (nb n 11 12 12) + us)))

/-! ### Scans and beacons (R198 to R201) -/

/-- R201: a scan ends: RUN clears and the slice is written OFF, effective at the next step 5. -/
def State.scanStop (s : State) : State :=
  let s := s.set LNK_SCAN.RUN 0
  match s.lnk.scan with
  | some c => { s with lnk := { s.lnk with scan := none } }.set (SLC_CFG.MODE c.slice) 0
  | none => s

/-- R201: the channel index `i` is usable for the scan's waveform. -/
def State.scanUsable (s : State) (i : Nat) : Bool :=
  let f := s.get (LNK_CHAN.FREQ i)
  bitOf (if i < 32 then s.get LNK_SCANMAPL.MAP else s.get LNK_SCANMAPH.MAP) (i % 32) && decide (f ≠ 0) &&
    (match chainOf f with
      | some x => tuneOk x (s.get LNK_SCAN.WAVE) (s.reg (PHY_FSK.addr (s.get LNK_SCAN.SLICE))) f
      | none => false)

/-- R201: the next usable channel at or above index `i`. -/
def State.scanNext (s : State) (i : Nat) : Option Nat := (List.range 64).find? (fun k => decide (i ≤ k) && s.scanUsable k)

/-- R199: the ABN a beacon carries at ABNOFS, in its bytes before any MIC. -/
def State.beaconAbn (s : State) (m : List Byte) : Option Nat :=
  let o := s.get LNK_BEACON.ABNOFS
  if m.length < o + 5 then none else some (leNat ((m.drop o).take 5))

/-- R201: a match on the scan slice. -/
def State.scanMatch (s : State) (slice src : Nat) (m : List Byte) : State :=
  match s.lnk.scan with
  | some c =>
    let p := s.get LNK_TRACK.PARENT
    if c.slice = slice ∧ (s.bit LNK_SCAN.ANY ∨ (p ≠ 255 ∧ s.get (nb p 0 0 16) = src)) then
      let s := ((s.set LNK_SCANRES.FOUND 1).set LNK_SCANRES.CHAN c.chan).set LNK_SCANRES.SRC src
      let s := match s.beaconAbn m with
        | some abn => s.set LNK_SCANABN.ABN abn
        | none => s.draw.set LNK_SCANABN.ABN (Config.noBeaconAbn s.drawn).toNat
      (s.raise LNK_TEVT.SCFOUND).scanStop
    else s
  | none => s

/-- R198, R200: a BRX action of neighbour `n` ends as a success (`some true`), a miss (`some false`) or neither. -/
def State.brxEnd (s : State) (n : Nat) (held : Bool) (r : Option Bool) : State :=
  match r with
  | none => s
  | some ok =>
    let s := if held && decide (n ≠ 255) then s.set (nb n 11 29 1) 0 else s
    let parent := decide (n ≠ 255) && decide (n = s.get LNK_TRACK.PARENT)
    if ok then
      let s := if n = 255 then s else s.set (nb n 10 16 4) 0
      if parent && (held || decide (s.lnk.lost = some n)) then
        let s := { s with lnk := { s.lnk with lost := none } }.raise LNK_TEVT.PRECOV
        if s.lnk.scan.isSome || s.bit LNK_SCAN.RUN then s.scanStop else s
      else s
    else if n = 255 then s
    else
      let old := s.get (nb n 10 16 4)
      let s := s.set (nb n 10 16 4) (min 15 (old + 1))
      if !parent then s
      else
        let s := if old < s.get LNK_TRACK.LOSTN ∧ s.get LNK_TRACK.LOSTN ≤ old + 1 then
            { (s.set (nb n 11 29 1) 1) with lnk := { s.lnk with lost := some n } }.raise LNK_TEVT.PLOST
          else s
        if held && s.bit LNK_TRACK.AUTOSCAN then s.set LNK_SCAN.RUN 1 else s

/-- R199: the offset of a time source's beacon goes to the servo. `before`: it was measured before a step (R263). -/
def State.timeSource (s : State) (n : Nat) (o : Int) (m : List Byte) (before : Bool) : State :=
  if !s.bit LNK_TRACK.ADJ || !s.bit (nb n 0 29 1) then s
  else if s.beaconAbn m ≠ some s.abn then s.raise LNK_TEVT.ABNMIS
  else s.servoOffset .lnk o before

/-- R157: a receive action is skipped. -/
def State.skipRx (s : State) (a : RxAct) : State :=
  ((s.countSkip false).endRx a).rxReport 0x27 255 (a.slice.getD 0) (some a.cell)

/-- R159, R198: a receive action ends without a frame for LNK. -/
def State.idleRx (s : State) (a : RxAct) : State :=
  let s := (s.endRx a).rxReport 0x26 255 (a.slice.getD 0) (some a.cell)
  if a.kind = 5 then s.brxEnd a.nbr a.held (some false) else s

end Sys2Proof.Machine
end

