-- ==== Sys2Proof/Machine/Codes.lean ====
section
/-! DEFINITION. Chapter 4, the LDPC codes of Millefeuille (R96) and how a decoder of the pool works on a codeword (R111). The
base matrices are those of IEEE 802.16, which the spec names and does not print (PRESUMED, log entry 180). -/
namespace Sys2Proof.Machine

/-- Rate 1/2. An entry is the shift for Z = 96, or 96 where the block is zero. -/
def baseHalf : List (List Nat) := [[96, 94, 73, 96, 96, 96, 96, 96, 55, 83, 96, 96, 7, 0, 96, 96, 96, 96, 96, 96, 96, 96, 96, 96],
  [96, 27, 96, 96, 96, 22, 79, 9, 96, 96, 96, 12, 96, 0, 0, 96, 96, 96, 96, 96, 96, 96, 96, 96],
  [96, 96, 96, 24, 22, 81, 96, 33, 96, 96, 96, 0, 96, 96, 0, 0, 96, 96, 96, 96, 96, 96, 96, 96],
  [61, 96, 47, 96, 96, 96, 96, 96, 65, 25, 96, 96, 96, 96, 96, 0, 0, 96, 96, 96, 96, 96, 96, 96],
  [96, 96, 39, 96, 96, 96, 84, 96, 96, 41, 72, 96, 96, 96, 96, 96, 0, 0, 96, 96, 96, 96, 96, 96],
  [96, 96, 96, 96, 46, 40, 96, 82, 96, 96, 96, 79, 0, 96, 96, 96, 96, 0, 0, 96, 96, 96, 96, 96],
  [96, 96, 95, 53, 96, 96, 96, 96, 96, 14, 18, 96, 96, 96, 96, 96, 96, 96, 0, 0, 96, 96, 96, 96],
  [96, 11, 73, 96, 96, 96, 2, 96, 96, 47, 96, 96, 96, 96, 96, 96, 96, 96, 96, 0, 0, 96, 96, 96],
  [12, 96, 96, 96, 83, 24, 96, 43, 96, 96, 96, 51, 96, 96, 96, 96, 96, 96, 96, 96, 0, 0, 96, 96],
  [96, 96, 96, 96, 96, 94, 96, 59, 96, 96, 70, 72, 96, 96, 96, 96, 96, 96, 96, 96, 96, 0, 0, 96],
  [96, 96, 7, 65, 96, 96, 96, 96, 39, 49, 96, 96, 96, 96, 96, 96, 96, 96, 96, 96, 96, 96, 0, 0],
  [43, 96, 96, 96, 96, 66, 96, 41, 96, 96, 96, 26, 7, 96, 96, 96, 96, 96, 96, 96, 96, 96, 96, 0]]

/-- Rate 2/3 code A. -/
def baseTwoThirds : List (List Nat) := [[3, 0, 96, 96, 2, 0, 96, 3, 7, 96, 1, 1, 96, 96, 96, 96, 1, 0, 96, 96, 96, 96, 96, 96],
  [96, 96, 1, 96, 36, 96, 96, 34, 10, 96, 96, 18, 2, 96, 3, 0, 96, 0, 0, 96, 96, 96, 96, 96],
  [96, 96, 12, 2, 96, 15, 96, 40, 96, 3, 96, 15, 96, 2, 13, 96, 96, 96, 0, 0, 96, 96, 96, 96],
  [96, 96, 19, 24, 96, 3, 0, 96, 6, 96, 17, 96, 96, 96, 8, 39, 96, 96, 96, 0, 0, 96, 96, 96],
  [20, 96, 6, 96, 96, 10, 29, 96, 96, 28, 96, 14, 96, 38, 96, 96, 0, 96, 96, 96, 0, 0, 96, 96],
  [96, 96, 10, 96, 28, 20, 96, 96, 8, 96, 36, 96, 9, 96, 21, 45, 96, 96, 96, 96, 96, 0, 0, 96],
  [35, 25, 96, 37, 96, 21, 96, 96, 5, 96, 96, 0, 96, 4, 20, 96, 96, 96, 96, 96, 96, 96, 0, 0],
  [96, 6, 6, 96, 96, 96, 4, 96, 14, 30, 96, 3, 36, 96, 14, 96, 1, 96, 96, 96, 96, 96, 96, 0]]

/-- Rate 3/4 code A. -/
def baseThreeQuarters : List (List Nat) := [[6, 38, 3, 93, 96, 96, 96, 30, 70, 96, 86, 96, 37, 38, 4, 11, 96, 46, 48, 0, 96, 96, 96, 96],
  [62, 94, 19, 84, 96, 92, 78, 96, 15, 96, 96, 92, 96, 45, 24, 32, 30, 96, 96, 0, 0, 96, 96, 96],
  [71, 96, 55, 96, 12, 66, 45, 79, 96, 78, 96, 96, 10, 96, 22, 55, 70, 82, 96, 96, 0, 0, 96, 96],
  [38, 61, 96, 66, 9, 73, 47, 64, 96, 39, 61, 43, 96, 96, 96, 96, 95, 32, 0, 96, 96, 0, 0, 96],
  [96, 96, 96, 96, 32, 52, 55, 80, 95, 22, 6, 51, 24, 90, 44, 20, 96, 96, 96, 96, 96, 96, 0, 0],
  [96, 63, 31, 88, 20, 96, 96, 96, 6, 40, 56, 16, 71, 53, 96, 96, 27, 26, 48, 96, 96, 96, 96, 0]]

/-- Rate 5/6. -/
def baseFiveSixths : List (List Nat) := [[1, 25, 55, 96, 47, 4, 96, 91, 84, 8, 86, 52, 82, 33, 5, 0, 36, 20, 4, 77, 80, 0, 96, 96],
  [96, 6, 96, 36, 40, 47, 12, 79, 47, 96, 41, 21, 12, 71, 14, 72, 0, 44, 49, 0, 0, 0, 0, 96],
  [51, 81, 83, 4, 67, 96, 21, 96, 31, 24, 91, 61, 81, 9, 86, 78, 60, 88, 67, 15, 96, 96, 0, 0],
  [50, 96, 50, 15, 96, 36, 13, 10, 11, 20, 53, 90, 29, 92, 57, 30, 84, 92, 11, 66, 80, 96, 96, 0]]

/-- R95, R96: the base matrix of the code with K information bits. -/
def baseMatrix (k : Nat) : List (List Nat) :=
  if k = 512 then baseTwoThirds else if k = 576 then baseThreeQuarters else if k = 640 then baseFiveSixths else baseHalf

/-- R96: the shift an entry has for Z = 32; none where the block is zero. -/
def baseShift (k p : Nat) : Option Nat :=
  if 96 ≤ p then none else some (if k = 512 then p % 32 else p * 32 / 96)

/-- The blocks of a row of the base matrix that are not zero: column of blocks and shift. -/
def rowBlocks (k : Nat) (row : List Nat) : List (Nat × Nat) :=
  row.zipIdx.filterMap (fun e => (baseShift k e.1).map (fun s => (e.2, s)))

/-- A block of bits times the identity rotated right by `s`. -/
def turnBlock (l : List Bool) (s : Nat) : List Bool := l.drop s ++ l.take s

/-- The sum of 32-bit blocks. -/
def addBlocks (l : List (List Bool)) : List Bool := l.foldl (List.zipWith xor) (List.replicate 32 false)

/-- What the information bits give in a row of blocks. -/
def rowSum (k : Nat) (info : List Bool) (row : List Nat) : List Bool :=
  addBlocks (((rowBlocks k row).filter (fun b => decide (b.1 < k / 32))).map
    (fun b => turnBlock ((info.drop (32 * b.1)).take 32) b.2))

/-- The parity blocks after the first, from the rows' sums: each row but the last ends in the block that follows. -/
def parityRun (k : Nat) (first : List Bool) : List (List Nat) → List (List Bool) → List Bool → List (List Bool)
  | row :: r, sum :: t, last =>
    let own := match baseShift k (row.getD (k / 32) 96) with
      | some s => [turnBlock first s]
      | none => []
    let p := addBlocks (sum :: last :: own)
    p :: parityRun k first r t p
  | _, _, _ => []

/-- R96: the parity bits of information bits, in column order. -/
def ldpcParity (info : List Bool) : List Bool :=
  let k := info.length
  let rows := baseMatrix k
  let sums := rows.map (rowSum k info)
  let first := addBlocks sums
  first ++ (parityRun k first (rows.take (rows.length - 1)) sums (List.replicate 32 false)).flatten

/-- R96: the codeword: the information bits, then the parity bits. -/
def ldpcWord (info : List Bool) : List Bool := info ++ ldpcParity info

/-! ### Decoding (R111) -/

/-- The parity checks of a code, layer by layer: the bits that each adds up. -/
def ldpcChecks (k : Nat) : List (List Nat) :=
  (baseMatrix k).flatMap (fun row => (List.range 32).map (fun i => (rowBlocks k row).map (fun b => 32 * b.1 + (i + b.2) % 32)))

/-- The product of the signs and the least magnitude. -/
def minSum (l : List Int) : Int :=
  let m := (l.map Int.natAbs).foldl min ((l.headD 0).natAbs)
  if l.countP (fun x => decide (x < 0)) % 2 = 1 then -(m : Int) else m

/-- One check of a layer: the soft values without its last messages, then with its new ones. -/
def checkStep (cols : List Nat) (l msg : List Int) : List Int × List Int :=
  let t := List.zipWith (fun c r => l.getD c 0 - r) cols msg
  let new := (List.range t.length).map (fun j => minSum (t.eraseIdx j))
  ((cols.zip (List.zipWith (· + ·) t new)).foldl (fun l p => l.set p.1 p.2) l, new)

/-- One iteration over all layers. -/
def sweep : List (List Nat) → List (List Int) → List Int → List Int × List (List Int)
  | cols :: c, msg :: m, l =>
    let r := checkStep cols l msg
    let q := sweep c m r.1
    (q.1, r.2 :: q.2)
  | _, _, l => (l, [])

/-- The hard decisions: a negative soft value is a 1. -/
def hardBits (l : List Int) : List Bool := l.map (fun x => decide (x < 0))

/-- R112: every check is met. -/
def syndromeZero (cs : List (List Nat)) (w : List Bool) : Bool :=
  cs.all (fun cols => decide (cols.countP (fun c => w.getD c false) % 2 = 0))

/-- R111: up to `n` iterations; with `early` the first that meets every check is the last. -/
def ldpcRun (cs : List (List Nat)) (early : Bool) : Nat → List (List Int) → List Int → List Int
  | 0, _, l => l
  | n + 1, msg, l =>
    let r := sweep cs msg l
    if early && syndromeZero cs (hardBits r.1) then r.1 else ldpcRun cs early n r.2 r.1

/-- R111, R112: a codeword decoded: its information bits, and whether its syndrome is zero after the last iteration. -/
def ldpcDecode (k : Nat) (early : Bool) (iterations : Nat) (soft : List Int) : List Bool × Bool :=
  let cs := ldpcChecks k
  let w := hardBits (ldpcRun cs early iterations (cs.map (fun c => c.map (fun _ => 0))) soft)
  (w.take k, syndromeZero cs w)

end Sys2Proof.Machine
end

