-- ==== Sys2Proof/Machine/Waveform.lean ====
section
/-! DEFINITION. Chapter 4, what a transmit chain sends: the symbols of a Millefeuille frame as exact subcarrier values, from
the MPDU through FCS, scrambler, code, interleaver and constellation (R86 to R104), the pulses of an O-QPSK frame (R115), the
frequencies of a SUN-FSK frame (R116), the coded bits of a SUN-OFDM frame (R117), and the filter of a carrier (R135).
`State.onAir` reads them from the state of a carrier. -/
namespace Sys2Proof.Machine

/-! ### The reference sequence (R89) -/

/-- `n` bits of the sequence, from the eleven bits before them, newest first. -/
def refRun : Nat → List Bool → List Bool
  | 0, _ => []
  | n + 1, l =>
    let b := xor (l.getD 8 false) (l.getD 10 false)
    b :: refRun n (b :: l.take 10)

/-- R89: p_0 to p_(n-1). -/
def refBits (n : Nat) : List Bool := refRun n (List.replicate 11 true)

/-- 1 - 2 b. -/
def signOf (b : Bool) : Int := if b then -1 else 1

/-! ### Subcarriers (R87) and symbols (R88) -/

/-- Subcarrier `k` carries (i + j q) / √norm. -/
structure Tone where
  k : Int
  i : Int
  q : Int := 0
  norm : Nat := 1
  deriving DecidableEq, Repr

/-- R87: the used subcarriers, ascending. -/
def usedTones : List Int := ((List.range 105).map (fun i => (i : Int) - 52)).filter (· ≠ 0)

/-- R87: the pilots, ascending. -/
def pilotTones : List Int := [-46, -33, -20, -7, 7, 20, 33, 46]

/-- R87: the data subcarriers, by data index. -/
def dataTones : List Int := usedTones.filter (fun k => !pilotTones.contains k)

/-- R88: the terms of sample t: each subcarrier value with its phase in 1/128 of a turn. -/
def sampleTerms (x : List Tone) (t : Int) : List (Nat × Tone) := x.map (fun a => ((a.k * t % 128).toNat, a))

/-- R88: the samples of a symbol in the order they are sent, the cyclic prefix first. -/
def symbolSamples (x : List Tone) : List (List (Nat × Tone)) :=
  (List.range 160).map (fun t => sampleTerms x ((t : Int) - 32))

/-! ### Training symbols and pilots (R90 to R92) -/

/-- R90: the short training symbol. -/
def shortSymbol : List Tone :=
  let at4 := usedTones.filter (fun k => k % 4 = 0)
  List.zipWith (fun k b => { k := k, i := 2 * signOf b, q := 2 * signOf b, norm := 2 }) at4 ((refBits 226).drop 200)

/-- R91: the long training symbol. -/
def longSymbol : List Tone := List.zipWith (fun k b => { k := k, i := signOf b }) usedTones ((refBits 144).drop 40)

/-- R92: the signs b_i of the pilots. -/
def pilotSigns : List Int := [1, 1, -1, 1, -1, 1, 1, -1]

/-- R92: the pilots of a symbol, from p of its index. -/
def pilotsOf (p : Bool) : List Tone := List.zipWith (fun k b => { k := k, i := b * signOf p }) pilotTones pilotSigns

/-! ### Interleaver, constellations, placement (R98 to R100) -/

/-- R98: the coded bits of a symbol in interleaved order: position j holds bit (j mod N/12) × 12 + j / (N/12). -/
def interleave (l : List Bool) : List Bool :=
  let n := l.length / 12
  (List.range l.length).map (fun j => l.getD (j % n * 12 + j / n) false)

/-- R99: the bits of a Gray code, the first most significant, as the number they stand for. -/
def grayValue (l : List Bool) : Nat := (l.foldl (fun s b => let c := xor s.1 b; (c, 2 * s.2 + b2n c)) (false, 0)).2

/-- R99: the level of one half of a group of m bits, before scaling. -/
def grayLevel (l : List Bool) : Int := 2 * (grayValue l : Int) - (2 ^ l.length - 1)

/-- R99: the square of the scale of a modulation of m bits. -/
def levelNorm (m : Nat) : Nat := if m = 1 then 1 else if m = 2 then 2 else if m = 4 then 10 else if m = 6 then 42 else 170

/-- R99: the point of a group of bits on subcarrier `k`. -/
def pointOf (k : Int) (g : List Bool) : Tone :=
  if g.length = 1 then { k := k, i := 2 * (b2n (g.getD 0 false) : Int) - 1 }
  else { k := k, i := grayLevel (g.take (g.length / 2)), q := grayLevel (g.drop (g.length / 2)), norm := levelNorm g.length }

/-- R95: m of an MCS. -/
def mfM (mcs : Nat) : Nat := [1, 1, 2, 2, 4, 4, 6, 6, 8, 8].getD mcs 1

/-- R100: interleaved bits on the data subcarriers; fewer than 96 BPSK bits repeat with alternating sign. -/
def placeBits (m : Nat) (l : List Bool) : List Tone :=
  (List.range 96).map (fun d =>
    let k := dataTones.getD d 0
    if l.length < 96 then { k := k, i := (2 * (b2n (l.getD (d % l.length) false) : Int) - 1) * (-1) ^ (d / l.length) }
    else pointOf k ((l.drop (d * m)).take m))

/-- A header or data symbol: its data subcarriers and its pilots. -/
def bitSymbol (m : Nat) (p : Bool) (bits : List Bool) : List Tone := placeBits m (interleave bits) ++ pilotsOf p

/-! ### The data field (R93, R94, R96, R97) -/

/-- R93: the bits of bytes, each byte least significant bit first. -/
def bitsOfBytes (l : List Byte) : List Bool := l.flatMap (fun b => (List.range 8).map (fun i => b.getLsbD i))

/-- R94: the scrambler. -/
def scramble (l : List Bool) : List Bool := List.zipWith xor l (refBits l.length)

/-- R97: the codewords of scrambled bits, `n` of K information positions; the last is sent without its shortened ones. -/
def codewords (k : Nat) : Nat → List Bool → List (List Bool)
  | 0, _ => []
  | n + 1, l =>
    let info := l.take k
    let w := ldpcWord (info ++ List.replicate (k - info.length) false)
    (w.take info.length ++ w.drop k) :: codewords k n (l.drop k)

/-- R97: the stream of coded bits, padded to whole symbols by the bits of the last codeword, repeated. -/
def codedStream (mcs : Nat) (psdu : List Byte) : List Bool :=
  let ws := codewords (mfK mcs) (mfCodewords mcs psdu.length) (scramble (bitsOfBytes psdu))
  let last := ws.getLastD []
  let pad := mfSymbols mcs psdu.length * mfCbps mcs - mfBits mcs psdu.length
  ws.flatten ++ (List.range pad).map (fun i => last.getD (i % last.length) false)

/-- R92, R97: the data symbols; symbol s has pilot index s + 1. -/
def dataSymbols (mcs : Nat) (psdu : List Byte) : List (List Tone) :=
  let bits := codedStream mcs psdu
  let n := mfSymbols mcs psdu.length
  let p := refBits 2047
  (List.range n).map (fun s => bitSymbol (mfM mcs) (p.getD ((s + 1) % 2047) false) ((bits.drop (s * mfCbps mcs)).take (mfCbps mcs)))

/-- R104: a midamble after every 32nd data symbol but the last: `s` symbols came before. -/
def withMidambles : Nat → List (List Tone) → List (List Tone)
  | _, [] => []
  | s, x :: t => if (s + 1) % 32 = 0 ∧ t ≠ [] then x :: longSymbol :: withMidambles (s + 1) t else x :: withMidambles (s + 1) t

/-! ### The header (R101 to R103) and the frame (R86) -/

/-- R103: the 48 coded bits of a header word. -/
def headerCode (h : Nat) : List Bool :=
  let b (i : Nat) : Bool := h.testBit (i % 24)
  (List.range 24).flatMap (fun i =>
    [xor (b i) (xor (b (i + 22)) (xor (b (i + 21)) (xor (b (i + 19)) (b (i + 18))))),
      xor (b i) (xor (b (i + 23)) (xor (b (i + 22)) (xor (b (i + 21)) (b (i + 18)))))])

/-- R103: the header symbol, with the pilots of index 0. -/
def headerSymbol (h : Nat) : List Tone := bitSymbol 1 ((refBits 1).getD 0 false) (headerCode h)

/-- R86: a Millefeuille frame after its short training symbols. -/
def mfSymbolsOf (mcs : Nat) (mid train : Bool) (psdu : List Byte) : List (List Tone) :=
  let d := dataSymbols mcs psdu
  [longSymbol, longSymbol, headerSymbol (mfHeader mcs psdu.length mid train)] ++ (if mid then withMidambles 0 d else d)

/-! ### O-QPSK (R115) -/

/-- The chips of symbol 0 of the IEEE 802.15.4 O-QPSK PHY at 2.4 GHz, first to last (PRESUMED, log entry 72). -/
def chips0 : List Bool := (List.range 32).map (fun i => Nat.testBit 0xD9C3522E (31 - i))

/-- The chips of a data symbol: symbols 1 to 7 are rotations by four chips, 8 to 15 invert the odd chips. -/
def chipsOf (v : Nat) : List Bool :=
  (List.range 32).map (fun i => xor (chips0.getD ((i + 32 - 4 * (v % 8)) % 32) false) (decide (8 ≤ v) && decide (i % 2 = 1)))

/-- The chips of bytes, low symbol first. -/
def chipsOfBytes (l : List Byte) : List Bool := l.flatMap (fun b => chipsOf (b.toNat % 16) ++ chipsOf (b.toNat / 16))

/-- R105, R115: preamble octets of zero, the SFD 0xA7, the PHR and the PSDU. -/
def oqpskBytes (count : Nat) (psdu : List Byte) : List Byte :=
  List.replicate count 0 ++ [0xA7, BitVec.ofNat 8 (psdu.length % 128)] ++ psdu

/-- A half-sine pulse: on Q or I, its start in chip periods, its sign. It lasts two chip periods. -/
structure Pulse where
  q : Bool
  start : Nat
  sign : Int
  deriving DecidableEq, Repr

/-- R115: offset QPSK: even chips on I, odd chips on Q, each half-sine pulse starting one chip period after the one before. -/
def pulsesOf (chips : List Bool) : List Pulse :=
  chips.zipIdx.map (fun e => { q := decide (e.2 % 2 = 1), start := e.2, sign := if e.1 then 1 else -1 })

/-- R115: the terms of the signal at `t` sixteenths of a chip period: each pulse that lasts then, with the phase of its sine in
1/32 of half a turn. -/
def pulseTerms (l : List Pulse) (t : Nat) : List (Nat × Pulse) :=
  (l.filter (fun p => decide (16 * p.start ≤ t) && decide (t < 16 * p.start + 32))).map (fun p => (t - 16 * p.start, p))

/-! ### SUN-FSK (R116): IEEE 802.15.4g (PRESUMED, log entry 72) -/

/-- Bits of a sequence, each the sum of the bits nine and four before it. -/
def pn9Run : Nat → List Bool → List Bool
  | 0, _ => []
  | n + 1, l =>
    let b := xor (l.getD 8 false) (l.getD 3 false)
    b :: pn9Run n (b :: l.take 8)

/-- PN9 data whitening. -/
def whiten (l : List Bool) : List Bool := List.zipWith xor l (pn9Run l.length (List.replicate 9 true))

/-- `n` bits of a number, the most significant first. -/
def bitsMsb (n v : Nat) : List Bool := (List.range n).map (fun i => v.testBit (n - 1 - i))

/-- R105: the preamble: octets of alternating symbols. -/
def fskPreamble (set : Word) (count : Nat) : List Bool :=
  (List.replicate count (if fskPer set = 2 then bitsMsb 8 0x77 else bitsMsb 8 0x55)).flatten

/-- R116: the SFD of the set chosen by SFDSEL; its coded value announces FEC. -/
def fskSfd (set : Word) : List Bool :=
  let sel := fieldOf set 24 1
  let coded := decide (fieldOf set 27 2 ≠ 0)
  if fskPer set = 2 then (List.range 16).map (Config.fskSfd4 sel coded)
  else bitsMsb 16 (if sel = 0 then (if coded then 0x6F4E else 0x904E) else if coded then 0x632D else 0x7A0E)

/-- R116: the PHR: no mode switch, the FCS type, whitening, the length. -/
def fskPhr (set : Word) (len : Nat) : List Bool :=
  [false, false, false, decide (fieldOf set 26 1 = 0), decide (fieldOf set 25 1 = 1)] ++ bitsMsb 11 len

/-- R116: coded bits of two-bit symbols, sixteen to a block, interleaved. -/
def fskInterleave (l : List Bool) : List Bool :=
  (List.range l.length).map (fun i =>
    let k := i / 2 % 16
    l.getD (i / 32 * 32 + 2 * (15 - 4 * (k % 4) - k / 4) + i % 2) false)

/-- R116: PHR and PSDU as they are sent: whitened, and coded with FEC. -/
def fskBody (set : Word) (psdu : List Byte) : List Bool :=
  let bits := bitsOfBytes psdu
  let body := fskPhr set psdu.length ++ (if fieldOf set 25 1 = 1 then whiten bits else bits)
  if fieldOf set 27 2 = 0 then body
  else
    let coded := (List.range (fskBits set psdu.length)).map (Config.fskCode (fieldOf set 27 2) body)
    if fieldOf set 29 1 = 1 then fskInterleave coded else coded

/-- R116: the frequencies of the symbols, in units of half the modulation index times the symbol rate. -/
def fskLevels (per : Nat) (l : List Bool) : List Int :=
  (List.range (ceilDiv l.length per)).map (fun i =>
    let a := l.getD (per * i) false
    if per = 1 then (if a then 1 else -1)
    else
      let b := l.getD (2 * i + 1) false
      if a then (if b then 3 else 1) else (if b then -3 else -1))

/-! ### SUN-OFDM (R117): IEEE 802.15.4g (PRESUMED, log entry 72) -/

/-- R117: the convolutional code of constraint length 7, generators 133 and 171 octal; `l` are the six bits before, newest
first. -/
def convRun : List Bool → List Bool → List Bool
  | [], _ => []
  | b :: t, l =>
    let at_ (i : Nat) : Bool := l.getD i false
    xor b (xor (at_ 1) (xor (at_ 2) (xor (at_ 4) (at_ 5)))) ::
      xor b (xor (at_ 0) (xor (at_ 1) (xor (at_ 2) (at_ 5)))) :: convRun t (b :: l.take 5)

/-- R117: at rate 3/4, two of every six coded bits are left out. -/
def puncture (l : List Bool) : List Bool := (l.zipIdx.filter (fun e => decide (e.2 % 6 ≠ 3) && decide (e.2 % 6 ≠ 4))).map (·.1)

/-- R117: the PHR: MCS, LENGTH, the scrambler seed, its check and tail. -/
def ofdmPhr (cfg : Word) (mcs len : Nat) : List Bool :=
  let h := bitsMsb 5 mcs ++ [false] ++ bitsMsb 11 len ++ [false, false] ++ bitsMsb 2 (fieldOf cfg 11 2) ++ [false]
  h ++ (List.range 8).map (Config.ofdmCheck h) ++ List.replicate 6 false

/-- R117: the scrambled data bits: PSDU, six tail bits of zero, pad. -/
def ofdmData (wave : Nat) (cfg : Word) (mcs : Nat) (psdu : List Byte) : List Bool :=
  let bits := bitsOfBytes psdu
  let n := ofdmSymbols wave mcs psdu.length * ofdmDbps wave mcs
  let seed := (List.range 9).map (Config.ofdmSeed (fieldOf cfg 11 2))
  let plain := bits ++ List.replicate (n - bits.length) false
  let out := List.zipWith xor plain (pn9Run n seed)
  out.take bits.length ++ List.replicate 6 false ++ out.drop (bits.length + 6)

/-- R117: coded bits: rate 3/4 at MCS4 and MCS6, 1/2 elsewhere. -/
def ofdmCoded (mcs : Nat) (l : List Bool) : List Bool :=
  let c := convRun l (List.replicate 6 false)
  if mcs = 4 ∨ mcs = 6 then puncture c else c

/-! ### What leaves the ball -/

/-- What a carrier sends before its filter. -/
inductive Air where
  /-- A Millefeuille frame of waveform code `wave`: the count of its short training symbols, and the symbols after them. -/
  | millefeuille (wave shorts : Nat) (symbols : List (List Tone))
  /-- The pulses of an O-QPSK frame. -/
  | oqpsk (pulses : List Pulse)
  /-- A SUN-FSK frame: symbol rate, modulation index × 16, BT 1.0 or 0.5 of its Gaussian filter, the symbols' frequencies. -/
  | fsk (rate index : Nat) (bt1 : Bool) (levels : List Int)
  /-- A SUN-OFDM frame of waveform code `wave`: the coded bits of its PHR and of its data at `mcs`, and whether they are
  interleaved; `Config.ofdmTraining` and `Config.ofdmSymbol` give the subcarriers. -/
  | ofdm (wave mcs : Nat) (intlv : Bool) (phr data : List Bool)
  deriving DecidableEq, Repr

/-- R86, R115 to R117: the frame a carrier sends with its settings. -/
def Carrier.air_ (k : Carrier) : Air :=
  let psdu := k.mpdu ++ fcsOf (fcsLen k.wave k.txcfg k.txfsk) k.mpdu
  let set := k.txfsk
  if isMf k.wave then .millefeuille k.wave k.count (mfSymbolsOf k.mcs k.mid k.train psdu)
  else if k.wave = 1 then .oqpsk (pulsesOf (chipsOfBytes (oqpskBytes k.count psdu)))
  else if k.wave = 4 then
    .fsk (fskRate set) (fieldOf set 16 6) (decide (fieldOf set 23 1 = 1))
      (fskLevels (fskPer set) (fskPreamble set k.count ++ fskSfd set ++ fskBody set psdu))
  else
    .ofdm k.wave k.mcs (decide (fieldOf k.txcfg 10 1 = 1)) (ofdmCoded 0 (ofdmPhr k.txcfg k.mcs psdu.length))
      (ofdmCoded k.mcs (ofdmData k.wave k.txcfg k.mcs psdu))

/-- R135: the 33 taps of a filter from its coefficients 0 to 16, in units of 2^-14. -/
def firTaps (l : List Int) : List Int := l ++ (l.take 16).reverse

/-- R135: the terms of output sample `m` of a filter that runs at four times the rate of its input. -/
def firTerms {α : Type} (taps : List Int) (x : List α) (m : Nat) : List (Int × α) :=
  taps.zipIdx.filterMap (fun e =>
    if e.2 ≤ m ∧ (m - e.2) % 4 = 0 then (x[(m - e.2) / 4]?).map (fun v => (e.1, v)) else none)

/-- R135: the coefficients 0 to 16 of a set: 0 to 3 in ROM, 4 to 7 in TXF_COEF36 to TXF_COEF71. -/
def State.shapeSet (s : State) (n : Nat) : List Int :=
  if n < 4 then Config.shapeTaps n
  else (List.range 17).map (fun i =>
    let l := if i % 2 = 0 then TXF_COEF.EVEN (9 * n + i / 2) else TXF_COEF.ODD (9 * n + i / 2)
    s.getS l)

/-- R135: the set TXF_SHAPE chooses for a waveform. -/
def State.shapeOf (s : State) (wave : Nat) : List Int := s.shapeSet (s.get TXF_SHAPE.SET / 2 ^ (4 * (wave - 1)) % 16)

/-- What carrier `c` sends from its launch to its last sample, and the taps of the filter it passes (R86, R115 to R117, R129,
R135). -/
def State.onAir (s : State) (c : Nat) : Option (Air × List Int) :=
  match s.cr c with
  | none => none
  | some k => if k.phase ≠ .sending then none else some (k.air_, firTaps k.taps)

end Sys2Proof.Machine
end

