-- ==== Sys2Proof/Machine/Modem.lean ====
section
/-! DEFINITION. Chapter 4, what a slice makes of the samples it receives: detection (R107), the channel estimate and the phase
correction (R104, R109, R110), soft bits and their combining (R97, R109), the codewords for the decoder pool, descrambling
(R94) and EVM (R114). Numbers are exact, but for those that `Config` holds as the modem's own arithmetic does (log entry
206). -/
namespace Sys2Proof.Machine

/-! ### Complex numbers -/

def Cx.add (a b : Cx) : Cx := ⟨a.re + b.re, a.im + b.im⟩
def Cx.mul (a b : Cx) : Cx := ⟨a.re * b.re - a.im * b.im, a.re * b.im + a.im * b.re⟩
def Cx.conj (a : Cx) : Cx := ⟨a.re, -a.im⟩
def Cx.scale (r : Rat) (a : Cx) : Cx := ⟨r * a.re, r * a.im⟩
/-- The square of the magnitude. -/
def Cx.norm (a : Cx) : Rat := a.re * a.re + a.im * a.im
/-- A quotient; zero where the divisor is. -/
def Cx.div (a b : Cx) : Cx := (a.mul b.conj).scale (1 / b.norm)
def Cx.arg (a : Cx) : Rat := Config.arg a.re a.im
/-- e^(j phi). -/
def Cx.turn (phi : Rat) : Cx := ⟨(Config.cis phi).1, (Config.cis phi).2⟩
def Cx.sum (l : List Cx) : Cx := l.foldl Cx.add ⟨0, 0⟩

/-! ### Detection (R107) -/

/-- R107: the autocorrelation of 64 samples at a lag of 32. -/
def lagSum (x : List Cx) : Cx := Cx.sum (List.zipWith (fun a b => a.mul b.conj) (x.take 64) ((x.drop 32).take 64))

/-- The energy of samples. -/
def energyOf (x : List Cx) : Rat := (x.map Cx.norm).sum

/-- R107: the autocorrelation, normalised by the energies of the samples it multiplies (DESIGN CHOICE, log entry 206), reaches
`thr` sixteenths. -/
def lagReaches (thr : Nat) (x : List Cx) : Bool :=
  let e := energyOf (x.take 64) * energyOf ((x.drop 32).take 64)
  decide (0 < e) && decide ((thr * thr : Nat) * e ≤ 256 * (lagSum x).norm)

/-- R107, R120: a slice with thresholds `sync` detects a frame of waveform `wave`: Millefeuille in two successive periods of 32
samples, the standard waveforms by the correlation of their preamble. -/
def syncDetects (wave : Nat) (sync : Word) : RxSync → Bool
  | .samples x => isMf wave && lagReaches (fieldOf sync 0 4) x && lagReaches (fieldOf sync 0 4) (x.drop 32)
  | .sixteenths c =>
    !isMf wave && decide (fieldOf sync (if wave = 1 then 4 else if wave = 4 then 8 else 12) 4 ≤ c)

/-! ### Equalisation and tracking (R104, R109, R110) -/

/-- The value on subcarrier `k` of a symbol, whose used subcarriers stand in ascending order. -/
def toneAt (y : List Cx) (k : Int) : Cx := y.getD (usedTones.idxOf k) ⟨0, 0⟩

/-- R109: the channel estimate from the two long training symbols. -/
def estimate (y1 y2 : List Cx) : List Cx :=
  List.zipWith (fun y t => y.scale ((t.i : Rat) / 2)) (List.zipWith Cx.add y1 y2) longSymbol

/-- R104, R109: the channel estimate from a midamble. -/
def midEstimate (y : List Cx) : List Cx := List.zipWith (fun y t => y.scale (t.i : Rat)) y longSymbol

/-- R110: the residuals of the pilots of a symbol with p of its index. -/
def residuals (h y : List Cx) (p : Bool) : List Cx :=
  (pilotsOf p).map (fun t => (toneAt y t.k).mul (((toneAt h t.k).scale (t.i : Rat)).conj))

/-- R110: the common phase. -/
def commonPhase (z : List Cx) : Rat := (Cx.sum z).arg

/-- R110: the slope. -/
def phaseSlope (z : List Cx) : Rat :=
  (List.zipWith (fun (k : Int) r => (k : Rat) * (r.mul (Cx.turn (-(commonPhase z)))).arg) pilotTones z).sum / 7308

/-- R109, R110: the data subcarriers of a symbol: corrected in phase and equalised, each with its weight. -/
def equalise (h y : List Cx) (p : Bool) : List (Cx × Rat) :=
  let z := residuals h y p
  let th := commonPhase z
  let al := phaseSlope z
  dataTones.map (fun k => (((toneAt y k).mul (Cx.turn (-(th + al * k)))).div (toneAt h k), (toneAt h k).norm))

/-! ### Soft bits (R98 to R100, R109): a positive value stands for a 0 -/

/-- The bits of one half of a group and the level they give, before scaling. -/
def halfLevels : Nat → List (List Bool)
  | 0 => [[]]
  | n + 1 => (halfLevels n).flatMap (fun l => [l ++ [false], l ++ [true]])

/-- The least of the squared distances of `v` to the levels whose bit `i` is `b`. -/
def nearest (n i : Nat) (norm : Nat) (b : Bool) (v : Rat) : Rat :=
  let d (l : List Bool) : Rat := (v * Config.root norm - grayLevel l) * (v * Config.root norm - grayLevel l)
  let c := ((halfLevels n).filter (fun l => l.getD i false == b)).map d
  c.foldl min (c.headD 0)

/-- R99: the soft bits of one axis: how much nearer the levels of a 0 are than those of a 1 (DESIGN CHOICE, log entry 206). -/
def axisSoft (n norm : Nat) (v : Rat) : List Rat := (List.range n).map (fun i => nearest n i norm true v - nearest n i norm false v)

/-- R99, R109: the soft bits of a data subcarrier, weighted. -/
def pointSoft (m : Nat) (z : Cx) (w : Rat) : List Rat :=
  if m = 1 then [-(4 * z.re * w)]
  else ((axisSoft (m / 2) (levelNorm m) z.re) ++ axisSoft (m / 2) (levelNorm m) z.im).map (· * w)

/-- R100, R109: the interleaved soft bits of a symbol; repeated copies are combined. -/
def placedSoft (m cbps : Nat) (l : List (Cx × Rat)) : List Rat :=
  let s := l.flatMap (fun e => pointSoft m e.1 e.2)
  if cbps < 96 then
    (List.range cbps).map (fun j =>
      (((List.range (96 / cbps)).map (fun c => (if c % 2 = 1 then -1 else 1) * s.getD (c * cbps + j) 0)).sum))
  else s

/-- R98: soft bits in coded order. -/
def deinterleave (l : List Rat) : List Rat :=
  let n := l.length / 12
  (List.range l.length).map (fun k => l.getD (k % 12 * n + k / 12) 0)

/-- R99, R114: the nearest constellation point of an equalised value, on one axis. -/
def axisHard (n norm : Nat) (v : Rat) : Rat :=
  let lv := (halfLevels n).map (fun l => (grayLevel l : Rat))
  let best := lv.foldl (fun a b =>
    if (v * Config.root norm - b) * (v * Config.root norm - b) < (v * Config.root norm - a) * (v * Config.root norm - a) then b else a)
    (lv.headD 0)
  best / Config.root norm

/-- R114: the error and the reference power of an equalised value. -/
def pointError (m : Nat) (z : Cx) : Rat × Rat :=
  let x : Cx := if m = 1 then ⟨if 0 ≤ z.re then 1 else -1, 0⟩
    else ⟨axisHard (m / 2) (levelNorm m) z.re, axisHard (m / 2) (levelNorm m) z.im⟩
  ((z.add (x.scale (-1))).norm, x.norm)

/-! ### A frame in reception -/

/-- R104: the midamble comes after every 32nd data symbol: body symbol `q` of a frame with MIDAMBLE is one. -/
def isMid (f : RxFrame) (q : Nat) : Bool := bitOf f.flags 0 && decide (q % 33 = 32)

/-- R97 to R100, R104, R109, R110, R114: one body symbol of a Millefeuille frame: a midamble replaces the estimate; a data symbol
adds its soft bits and, among the first 64, its error. Symbols past N_SYM belong to no frame. -/
def takeSymbol (f : RxFrame) (y : List Cx) : RxFrame :=
  let q := f.symbols
  let f := { f with symbols := q + 1 }
  if isMid f q then { f with est := midEstimate y }
  else
    let i := if bitOf f.flags 0 then q - q / 33 else q
    if mfSymbols f.mcs f.len ≤ i then f
    else
      let z := equalise f.est y ((refBits 2047).getD ((i + 1) % 2047) false)
      let e := if i < 64 then z.map (fun t => pointError (mfM f.mcs) t.1) else []
      { f with
        soft := f.soft ++ deinterleave (placedSoft (mfM f.mcs) (mfCbps f.mcs) z)
        err := f.err + (e.map (·.1)).sum
        ref := f.ref + (e.map (·.2)).sum }

/-- R97: information positions of codeword `w` that are sent. -/
def infoSent (f : RxFrame) (w : Nat) : Nat := min (mfK f.mcs) (8 * f.len - w * mfK f.mcs)

/-- R97: where codeword `w` ends in the stream; the last is followed by its pad bits. -/
def codewordEnd (f : RxFrame) (w : Nat) : Nat :=
  if w + 1 < mfCodewords f.mcs f.len then 768 * (w + 1) else mfSymbols f.mcs f.len * mfCbps f.mcs

/-- The soft value a decoder takes for a position that is known to be zero (R97). -/
def surelyZero : Int := 2 ^ 40

/-- R97, R109: the soft values of codeword `w`: pad bits are combined with those they repeat, the shortened positions are
known zeros. -/
def codewordSoft (f : RxFrame) (w : Nat) : List Int :=
  let k := mfK f.mcs
  let n := infoSent f w + (768 - k)
  let own := (f.soft.drop (768 * w)).take n
  let pad := (f.soft.take (codewordEnd f w)).drop (768 * w + n)
  let all := own.zipIdx.map (fun e => e.1 + (((pad.zipIdx.filter (fun p => decide (p.2 % n = e.2))).map (·.1)).sum))
  let q := all.map Config.softStep
  q.take (infoSent f w) ++ List.replicate (k - infoSent f w) surelyZero ++ q.drop (infoSent f w)

/-- Bytes of bits, each byte least significant bit first (R93). -/
def bytesOfBits (l : List Bool) : List Byte :=
  (List.range (l.length / 8)).map (fun i =>
    BitVec.ofNat 8 ((List.range 8).foldl (fun t j => t + b2n (l.getD (8 * i + j) false) * 2 ^ j) 0))

/-- R94, R97: the PSDU of a Millefeuille frame from its decoded codewords: shortened positions dropped, descrambled. -/
def mfPsdu (f : RxFrame) : List Byte :=
  bytesOfBits (scramble (((List.range (mfCodewords f.mcs f.len)).flatMap (fun w => (aget f.decoded w).getD [])).take (8 * f.len)))

/-! ### EVM and LQ (R114) -/

/-- R114: -4 times EVM in dB, rounded, between -40 and 255: n is reached where ref / err is at least 10^((2n - 1) / 80). -/
def evmSteps (err ref : Rat) : Int :=
  let r := err / ref
  let a := r.num.natAbs ^ 80
  let b := r.den ^ 80
  let reached (i : Nat) : Bool :=
    if 40 < i then decide (10 ^ (2 * (i - 40) - 1) * a ≤ b) else decide (a ≤ b * 10 ^ (2 * (40 - i) + 1))
  ((List.range 295).countP (fun i => reached (i + 1)) : Int) - 40

/-- R114: LQ and EVM as they are reported; nothing measured reports 0. -/
def qualityOf (err ref : Rat) : Nat × Nat :=
  if ref ≤ 0 then (0, 0)
  else
    let v := evmSteps err ref
    ((max 0 (min (v + 40) 255)).toNat, (max 0 (min v 255)).toNat)

end Sys2Proof.Machine
end

