-- ==== Sys2Proof/Machine/Slices.lean ====
section
/-! DEFINITION. Chapters 3 and 4: the receive chains and their gain, the slices, and the reception of a frame from its SYNC to
its verdict, with what LNK makes of a frame that does not end OK. -/
namespace Sys2Proof.Machine

/-- One of two fields by chain. -/
def byChain (x : Nat) (a b : Loc) : Loc := if x = 0 then a else b

/-- One slice changed. -/
def State.modSlc (s : State) (n : Nat) (f : SliceState → SliceState) : State := { s with slc := vmod s.slc n f }

/-- One receive chain changed. -/
def State.modRxc (s : State) (x : Nat) (f : RxChain → RxChain) : State := { s with rxc := vmod s.rxc x f }

/-- The chain in force of a slice. -/
def State.slcChain (s : State) (n : Nat) : Nat := s.get (SLC_STAT.CHAIN n)

/-- R73: a slice is active. -/
def State.slcActive (s : State) (n : Nat) : Bool := decide (s.get (SLC_STAT.MODE n) ≠ 0) || s.bit (SLC_STAT.TASTE n)

/-- R15: the chain's converter and the reference run. -/
def State.chainClock (s : State) (x : Nat) : Bool :=
  !s.holdover && s.bit (byChain x SYS_CLKSTAT.CPLLA_LOCK SYS_CLKSTAT.CPLLB_LOCK)

/-- R74: NOSIG, and the registers that show it with the active slices (R76, R84). -/
def State.showSlices (s : State) : State :=
  let s := s.each (List.range 16) (fun s n =>
    let nosig := decide (s.get (SLC_STAT.MODE n) = 0) || decide (s.get (RXF_STAT.MODE (s.slcChain n)) ≠ 1)
    let s := s.set (SLC_STAT.NOSIG n) (b2n nosig)
    let s := s.set ⟨SLC_DEAF.addr, n, 1⟩ (s.get (SLC_STAT.DEAF n))
    let s := s.set ⟨SLC_ACTIVE.addr, n, 1⟩ (b2n (s.slcActive n))
    if nosig || s.bit (SLC_STAT.DEAF n) || (vget s.slc n).settling then s.set (SLC_RSSI.RSSI n) 0x8000 else s)
  s.set SLC_ACTIVE.COUNT ((List.range 16).countP s.slcActive)

/-- R45: slices a channelizer level allows. -/
def slicesAt (pl : Nat) : Nat := if pl = 0 then 4 else if pl = 1 then 10 else 16

/-- Slices the level in force allows. -/
def State.slicesNow (s : State) : Nat := slicesAt (s.get BEAT_PLCUR.CHNPL)

/-- R43: slice `n` waits for VSLC after a raise: the slices the old level allowed are the first active ones. -/
def State.slcWaits (s : State) (n : Nat) : Bool :=
  match s.beat.slcSettling with
  | some k => decide (k ≤ (List.range n).countP s.slcActive)
  | none => false

/-- A slice delivers valid samples and can search. -/
def State.slcLive (s : State) (n : Nat) : Bool :=
  s.dOn 18 && s.dOn 19 && decide (s.get (SLC_STAT.MODE n) ≠ 0) && !s.bit (SLC_STAT.NOSIG n) && !s.bit (SLC_STAT.DEAF n) &&
    !(vget s.slc n).settling && !s.slcWaits n && s.chainClock (s.slcChain n) && decide ((vget s.slc n).wave ≠ 0)

/-! ### Tunes (R69 to R72) -/

/-- A tune and waveform applied (R72): the NCO word, and the settle time that begins. -/
def State.applyTune (s : State) (n f wave : Nat) : State :=
  let s := s.modSlc n (fun c => { c with freq := f, wave := wave, held := none, settling := true })
  let s := (s.set (SLC_NCO.WORD n) (ncoWord (s.slcChain n) f)).set (SLC_STAT.TPEND n) 0
  s.set (SLC_RSSI.RSSI n) 0x8000

/-- R72: a held change applied at the end of a frame. -/
def State.applyHeld (s : State) (n : Nat) : State :=
  match (vget s.slc n).held with
  | some (f, w) => s.applyTune n f w
  | none => s

/-- SLICE_SETTLED (R72). -/
def execSliceSettled (n : Fin 16) (s : State) : Host.Outcome State Fault Refusal :=
  .next (if s.dOn 18 then s.modSlc n.val (fun c => { c with settling := false }) else s)

/-- SLICE_VALID_AGAIN (R68): not while the chain is still deafened. -/
def execSliceValidAgain (n : Fin 16) (s : State) : Host.Outcome State Fault Refusal :=
  .next (if s.dOn 18 && !s.bit (RXF_STAT.DEAF (s.slcChain n.val)) then
    ((s.set (SLC_STAT.DEAF n.val) 0).modSlc n.val (fun c => { c with settling := false })).showSlices else s)

/-! ### The end of a frame (R107, R113, R114) -/

/-- R76: a power at the ball referred to the antenna, within its limits, in 0.5 dB. -/
def State.rssiOf (s : State) (x : Nat) (power : Int) : Int :=
  max (-256) (min (power - s.getS (RXF_CAL.EXTGAIN x) + s.getS (RXF_CAL.RSSIOFS x)) 60)

/-- R113, R114: PHY_STATn and PHY_QUALn at the end of a frame. -/
def State.phyRecord (s : State) (n code : Nat) (f : RxFrame) (lq evm : Nat) : State :=
  let s := ((s.set (PHY_STAT.CODE n) code).set (PHY_STAT.MCS n) f.mcs).set (PHY_STAT.FLAGS n) f.flags
  let s := (s.set (PHY_STAT.GSTEP n) (b2n f.gstep)).set (PHY_STAT.LENGTH n) f.len
  let s := s.set (PHY_QUAL.RSSI n) (match f.rssi with
    | some r => unsign 16 r
    | none => 0x8000)
  (s.set (PHY_QUAL.LQ n) lq).set (PHY_QUAL.EVM n) evm

/-- SYNC clears, the held change applies, and the slice searches again. -/
def State.endSync (s : State) (n : Nat) : State :=
  ((s.set (SLC_STAT.SYNC n) 0).modSlc n (fun c => { c with frame := none })).applyHeld n

/-- R133: the reservation of a frame's acknowledgement is released. -/
def State.unreserve (s : State) (c : Option Nat) : State :=
  match c with
  | some k => s.freeCar k 0
  | none => s

/-- A frame that does not end OK, as LNK takes it: NOACK for an action that awaits an acknowledgement on the slice (R175), the
end of a receive action (R159, R198), or an unscheduled report. -/
def State.lnkFailed (s : State) (n code : Nat) : State :=
  match s.lnk.tx.find? (fun a => decide (a.slice = some n)) with
  | some a => if a.waiting then s.txOutcome a 0x10 else s
  | none =>
    match s.lnk.rx.find? (fun a => decide (a.slice = some n)) with
    | some a =>
      let s := (s.endRx a).rxReport code 255 n (some a.cell)
      if a.kind = 5 then s.brxEnd a.nbr a.held (if code = 6 ∨ code = 9 then none else some false) else s
    | none => s.rxReport code 255 n none

/-- R114: the LQ and EVM of a frame abandoned in its data: what its codewords brought, and what was measured after them,
which is free. -/
def State.partQuality (s : State) (f : RxFrame) : Nat × Nat :=
  let e := Config.partEvm s.drawn
  if !f.hdr then (0, 0)
  else if isMf f.wave && decide (64 ≤ f.symbols) then qualityOf f.err f.ref
  else qualityOf (f.err + e.1) (f.ref + e.2)

/-- R114: from the reference point of a frame to the end of its RSSI span, in ns. -/
def rssiSpan (wave : Nat) (fsk : Word) : Nat :=
  match wave with
  | 1 => 160000
  | 2 => 150000
  | 3 => 600000
  | 4 => fskSymbols fsk (8 * fskOctet fsk)
  | _ => 720000

/-- R114: the RSSI of an abandoned frame: of one whose header did not come yet but whose span is complete it is free. -/
def State.partRssi (s : State) (f : RxFrame) : Option Int :=
  match f.rssi with
  | some r => some r
  | none =>
    if ((rssiSpan f.wave f.fsk * 65536 : Nat) : Int) ≤ tbDiff (s.tb 0) f.stamp then
      some (s.rssiOf f.chain (Config.partPower s.drawn))
    else none

/-- R113: a frame in reception is abandoned with a status: 6 DEAF, 7 SLICE_OFF, 9 CLKLOSS. -/
def State.abandon (s : State) (n code : Nat) : State :=
  match (vget s.slc n).frame with
  | none => s
  | some f =>
    let q := s.partQuality f
    let f := { f with rssi := s.partRssi f }
    let s := (s.draw.phyRecord n code f q.1 q.2).inc (PHY_ERRCNT.BODY n)
    let s := (s.endSync n).unreserve f.carrier
    s.lnkFailed n code

/-! ### Receive chains: gain and mode (R62 to R65, R68, R74) -/

/-- The gain index in force of a chain, with its LNA (R62). -/
def State.setGain (s : State) (x g : Nat) : State :=
  (s.set (RXF_STAT.GAINIDX x) g).set (RXF_STAT.LNA x) (b2n (decide (g ≤ 10)))

/-- The slices of a chain that are on. -/
def State.slicesOf (s : State) (x : Nat) : List Nat :=
  (List.range 16).filter (fun n => decide (s.get (SLC_STAT.MODE n) ≠ 0) && decide (s.slcChain n = x))

/-- R64: a step of the analog gain: frames in reception carry GSTEP. -/
def State.gainStep (s : State) (x g : Nat) : State :=
  if s.get (RXF_STAT.GAINIDX x) = g then s
  else
    let s := s.setGain x g
    let hit := (s.slicesOf x).filter (fun n => (vget s.slc n).frame.isSome)
    let s := s.each hit (fun s n => s.modSlc n (fun c => { c with frame := c.frame.map (fun f => { f with gstep := true }) }))
    if hit.isEmpty then s else s.raise (byChain x RXF_EVT.GSTEPA RXF_EVT.GSTEPB)

/-- R63: the AGC's answer to a window, after the counting of saturation. A step at the end of one window is followed by the
next at the end of the second window after it, 2 us later. -/
def State.agcJudge (s : State) (x below : Nat) : State :=
  let g := s.get (RXF_STAT.GAINIDX x)
  let c := vget s.rxc x
  let run := if s.get (RXF_AGC.LOW x) * 100 < below then c.lowRun + 1 else 0
  let s := s.modRxc x (fun c => { c with lowRun := run, agcWait := c.agcWait - 1 })
  if s.bit (RXF_CTRL.AGCMAN x) || decide (1 < c.agcWait) then s
  else
    let step (g : Nat) : State := (s.gainStep x g).modRxc x (fun c => { c with lowRun := 0, agcWait := 2 })
    if below = 0 then (if g < 15 then step (min 15 (g + 3)) else s)
    else if below ≤ s.get (RXF_AGC.HIGH x) * 100 then (if g < 15 then step (g + 1) else s)
    else if s.get (RXF_AGC.HOLD x) * 10 ≤ run && decide (0 < g) && (s.slicesOf x).all (fun n => !s.bit (SLC_STAT.SYNC n)) then
      step (g - 1)
    else s

/-- CHAIN_AGC_WINDOW (R63): the AGC is frozen while the chain is deafened and in taste mode. CLIP and RXF_CLIPCNTx stand
still there too (DESIGN CHOICE, log entry 199: R82 speaks of every window). -/
def State.agcWindow (s : State) (x below : Nat) : State :=
  if !s.dOn (16 + x) || decide (s.get (RXF_STAT.MODE x) ≠ 1) || s.bit (RXF_STAT.DEAF x) then s
  else
    let s := s.set (RXF_STAT.CLIP x) (b2n (decide (below ≤ s.get (RXF_AGC.HIGH x) * 100)))
    let s := if below = 0 then
        (s.inc (RXF_CLIPCNT.COUNT x)).raise (byChain x RXF_EVT.CLIPA RXF_EVT.CLIPB)
      else s
    s.agcJudge x below

/-- CHAIN_AGC_WINDOW. -/
def execChainAgcWindow (x : Fin 2) (below : Nat) (s : State) : Host.Outcome State Fault Refusal :=
  .next (s.agcWindow x.val below)

/-- The index a chain is to run at, once it is not held at 15 (R65, R68). -/
def State.aimGain (s : State) (x g : Nat) : State :=
  if s.bit (RXF_STAT.DEAF x) then s.modRxc x (fun c => { c with gainBefore := g }) else s.setGain x g

/-- R65: the manual index applied. -/
def State.manualGain (s : State) (x : Nat) : State :=
  let g := s.get (RXF_CTRL.GAINIDX x)
  if !s.bit (RXF_CTRL.AGCMAN x) || decide (s.get (RXF_STAT.MODE x) = 2) then s
  else if s.bit (RXF_STAT.DEAF x) then s.modRxc x (fun c => { c with gainBefore := g })
  else s.gainStep x g

/-- R65, R82: a write of RXF_CTRLx. MODE waits for step 6; its code 3 is ignored. -/
def State.rxfCtrlWrite (s : State) (x : Nat) (w : Word) : State :=
  let mode := if fieldOf w 0 2 = 3 then s.get (RXF_CTRL.MODE x) else fieldOf w 0 2
  let s := (s.set (RXF_CTRL.GAINIDX x) (fieldOf w 8 4)).set (RXF_CTRL.AUTOFULL x) (fieldOf w 4 1)
  ((s.set (RXF_CTRL.AGCMAN x) (fieldOf w 3 1)).set (RXF_CTRL.MODE x) mode).manualGain x

/-- R77: the slice of a taste window is OFF and free again. -/
def State.stopTasting (s : State) (n : Nat) : State :=
  (((s.set (SLC_STAT.TASTE n) 0).set (SLC_STAT.MODE n) 0).set (SLC_STAT.DEAF n) 0).modSlc n
    (fun c => { c with settling := false })

/-- R77: a taste window ends: its slice, if any, is free again; a frame it receives is abandoned as of a slice that goes OFF
(R74). -/
def State.endWindow (s : State) (x : Nat) : State :=
  match (vget s.rxc x).window with
  | none => s
  | some w =>
    let s := (s.modRxc x (fun c => { c with window := none })).set (RXF_STAT.TBUSY x) 0
    match w with
    | some n => ((s.abandon n 7).stopTasting n).showSlices
    | none => s

/-- R77: a window skipped. -/
def State.skipTaste (s : State) (x : Nat) : State :=
  (s.inc (RXF_TCNT.SKIP x)).raise (byChain x RXF_EVT.TSKIPA RXF_EVT.TSKIPB)

/-- R50, R77: a window that runs is given up as skipped. -/
def State.loseWindow (s : State) (x : Nat) : State :=
  if (vget s.rxc x).window.isSome then (s.endWindow x).skipTaste x else s

/-- R74, R82: the mode of a chain changes: frames on it are abandoned where it leaves FULL. From TASTE to FULL with AGCMAN 0
the AGC starts at the taste index (DESIGN CHOICE, log entry 200: R65 gives no index there). -/
def State.setChainMode (s : State) (x m : Nat) : State :=
  if s.get (RXF_STAT.MODE x) = m then s
  else
    let s := if m = 1 then s else s.each (s.slicesOf x) (fun s n => s.abandon n 7)
    let s := if m = 0 ∨ (m = 2 ∧ (vget s.rxc x).window.join.isSome) then s.loseWindow x else s
    let s := (s.set (RXF_STAT.MODE x) m).set (RXF_STAT.CLIP x) 0
    let s := if m = 2 then s.aimGain x (s.get (RXF_TASTE.GAINIDX x)) else s.manualGain x
    (s.modRxc x (fun c => { c with lowRun := 0, agcWait := 0 })).showSlices

/-- R68: a chain is deafened. -/
def State.deafen (s : State) (x : Nat) : State :=
  if s.bit (RXF_STAT.DEAF x) then s
  else
    let s := s.loseWindow x
    let g := s.get (RXF_STAT.GAINIDX x)
    let s := ((s.modRxc x (fun c => { c with gainBefore := g })).set (RXF_STAT.DEAF x) 1).setGain x 15
    let s := s.each (s.slicesOf x) (fun s n =>
      let s := ((s.set (SLC_STAT.DEAF n) 1).inc (SLC_DEAFCNT.COUNT n)).abandon n 6
      { s with lnk := { s.lnk with tx := s.lnk.tx.map (fun a =>
          if a.slice = some n ∧ a.sensing then { a with busy := true } else a) } })
    s.showSlices

/-- R68: the chain's gain index returns; its slices follow one by one. -/
def State.undeafen (s : State) (x : Nat) : State :=
  if s.bit (RXF_STAT.DEAF x) then ((s.set (RXF_STAT.DEAF x) 0).setGain x (vget s.rxc x).gainBefore) else s

/-! ### Assignment (R72, R73) -/

/-- R73: a slice is active in the pending assignment. -/
def State.slcPending (s : State) (n : Nat) : Bool := decide (s.get (SLC_CFG.MODE n) ≠ 0) || s.bit (SLC_STAT.TASTE n)

/-- R73: slices the higher of the level in force and the requested level allows. -/
def State.slicesAsked (s : State) : Nat :=
  if s.bit BEAT_PLREQ.CHNPEND ∧ s.get BEAT_PLREQ.CHNPL < 3 then max s.slicesNow (slicesAt (s.get BEAT_PLREQ.CHNPL))
  else s.slicesNow

/-- R72: a change of a STATIC slice: refused, held, or applied. -/
def State.changeTune (s : State) (n f wave : Nat) (wr : State → State) : State :=
  if !tuneOk (s.slcChain n) wave (s.reg (PHY_FSK.addr n)) f then s.raise SLC_EVT.RANGE
  else if s.bit (SLC_STAT.SYNC n) then
    ((wr s).set (SLC_STAT.TPEND n) 1).modSlc n (fun c => { c with held := some (f, wave) })
  else (wr s).applyTune n f wave

/-- The mode in force as a write of a slice's tune or waveform meets it: a slice that serves a taste window is free to
software (DESIGN CHOICE, log entry 201). -/
def State.slcMode (s : State) (n : Nat) : Nat := if s.bit (SLC_STAT.TASTE n) then 0 else s.get (SLC_STAT.MODE n)

/-- R72: a write of SLC_TUNEn. While a change is held the write is judged with the held waveform and combined with it
(DESIGN CHOICE, log entry 202: the registers show the held values). -/
def State.tuneWrite (s : State) (n : Nat) (w : Word) : State :=
  let m := s.slcMode n
  if m = 1 then s.raise SLC_EVT.WIGN
  else if m = 2 then s.changeTune n w.toNat (s.get (SLC_CFG.WAVE n)) (·.set (SLC_TUNE.FREQ n) w.toNat)
  else s.set (SLC_TUNE.FREQ n) w.toNat

/-- R72, R73: a write of SLC_CFGn. A write past the slice limit is ignored whole. In SCHED mode WIGN is set only where the
write would change WAVE or CHAIN (DESIGN CHOICE, log entry 203: R72 does not say whether a repeat of their values is such a
write, and MODE stands in the same word). -/
def State.cfgWrite (s : State) (n : Nat) (w : Word) : State :=
  let m := s.slcMode n
  let mode := if fieldOf w 8 2 = 3 then s.get (SLC_CFG.MODE n) else fieldOf w 8 2
  let wave := if 9 ≤ fieldOf w 12 4 then s.get (SLC_CFG.WAVE n) else fieldOf w 12 4
  let chain := fieldOf w 4 1
  if mode ≠ 0 ∧ !s.slcPending n ∧ s.slicesAsked ≤ (List.range 16).countP s.slcPending then s.raise SLC_EVT.LIMIT
  else
    let s := s.set (SLC_CFG.MODE n) mode
    if m = 1 then
      if wave ≠ s.get (SLC_CFG.WAVE n) ∨ chain ≠ s.get (SLC_CFG.CHAIN n) then s.raise SLC_EVT.WIGN else s
    else
      let s := s.set (SLC_CFG.CHAIN n) chain
      if m = 2 then
        if wave = s.get (SLC_CFG.WAVE n) then s
        else s.changeTune n (s.get (SLC_TUNE.FREQ n)) wave (·.set (SLC_CFG.WAVE n) wave)
      else s.set (SLC_CFG.WAVE n) wave

/-- R73: the pending assignment of one slice takes effect. A slice that serves a taste window gives the window up for a
pending mode other than OFF (DESIGN CHOICE, log entry 201), and goes on serving it otherwise. -/
def State.assignSlice (s : State) (n : Nat) : State :=
  if s.bit (SLC_STAT.TASTE n) && decide (s.get (SLC_CFG.MODE n) = 0) then s
  else
    let s := if s.bit (SLC_STAT.TASTE n) then s.loseWindow (s.slcChain n) else s
    let mode := s.get (SLC_CFG.MODE n)
    let x := s.get (SLC_CFG.CHAIN n)
    let was := s.get (SLC_STAT.MODE n)
    let moves := decide (x ≠ s.slcChain n)
    let bad := decide (mode = 2) && (moves || decide (was ≠ 2)) &&
      !tuneOk x (s.get (SLC_CFG.WAVE n)) (s.reg (PHY_FSK.addr n)) (s.get (SLC_TUNE.FREQ n))
    let s := if bad then (s.set (SLC_CFG.MODE n) 0).raise SLC_EVT.RANGE else s
    let mode := if bad then 0 else mode
    if mode = was ∧ !moves then s
    else
      let s := if mode = 0 ∨ moves then s.abandon n 7 else s
      let s := (s.set (SLC_STAT.MODE n) mode).set (SLC_STAT.CHAIN n) x
      if mode = 2 then
        let s := s.set (SLC_STAT.DEAF n) (s.get (RXF_STAT.DEAF x))
        s.applyTune n (s.get (SLC_TUNE.FREQ n)) (s.get (SLC_CFG.WAVE n))
      else if mode = 1 then s.set (SLC_STAT.DEAF n) (s.get (RXF_STAT.DEAF (s.slcChain n)))
      else (s.set (SLC_STAT.DEAF n) 0).set (SLC_STAT.ACT n) 0

/-- R73: slices trimmed until the pending assignment fits the level in force: the newly activated ones, highest first. -/
def State.trimSlices (s : State) : State :=
  let excess := (List.range 16).countP s.slcPending - s.slicesNow
  let fresh := ((List.range 16).filter (fun n => s.slcPending n && !s.slcActive n)).reverse.take excess
  let s := s.each fresh (fun s n => s.set (SLC_CFG.MODE n) 0)
  if fresh.isEmpty then s else s.raise SLC_EVT.LIMIT

/-- R73: step 5 for the slices, once the level is decided. -/
def State.assignSlices (s : State) : State :=
  if s.dOn 18 then ((s.trimSlices).each (List.range 16) State.assignSlice).showSlices else s

/-- R82: step 6 for the receive chains. -/
def State.applyChainModes (s : State) : State :=
  s.each [0, 1] (fun s x => if s.dOn (16 + x) then s.setChainMode x (s.get (RXF_CTRL.MODE x)) else s)

/-- R70: the lowest-numbered SCHED slice that serves nothing. -/
def State.freeSched (s : State) : Option Nat :=
  (List.range 16).find? (fun n => decide (s.get (SLC_STAT.MODE n) = 1) && !s.bit (SLC_STAT.ACT n) && !s.bit (SLC_STAT.TASTE n))

/-- R70, R159: a SCHED slice is taken for an action. -/
def State.takeSlice (s : State) (n : Nat) : State := s.set (SLC_STAT.ACT n) 1

/-- R159, R158: a slice of the slot engine is set to a chain, waveform and channel, and settles. -/
def State.schedTune (s : State) (n x wave f : Nat) : State :=
  let s := ((s.set (SLC_CFG.CHAIN n) x).set (SLC_CFG.WAVE n) wave).set (SLC_TUNE.FREQ n) f
  let s := (s.set (SLC_STAT.CHAIN n) x).set (SLC_STAT.DEAF n) (s.get (RXF_STAT.DEAF x))
  ((s.applyTune n f wave).modSlc n (fun c => { c with settling := false })).showSlices

/-! ### RSSI (R75, R76) -/

/-- RSSI_WINDOW (R75, R76): the digital gain follows while the slice searches, unless FREEZE holds it. -/
def State.rssiWindow (s : State) (n : Nat) (power : Int) (gain : Nat) : State :=
  if !s.dOn 18 then s
  else
    let s := if s.bit (SLC_STAT.SYNC n) || s.bit (SLC_AGC.FREEZE n) || !s.slcLive n then s
      else s.set (SLC_AGC.DGAIN n) (min gain 96)
    if s.bit (SLC_STAT.NOSIG n) || s.bit (SLC_STAT.DEAF n) || (vget s.slc n).settling then s.set (SLC_RSSI.RSSI n) 0x8000
    else s.set (SLC_RSSI.RSSI n) (unsign 16 (s.rssiOf (s.slcChain n) power))

/-- RSSI_WINDOW. -/
def execRssiWindow (n : Fin 16) (power : Int) (gain : Nat) (s : State) : Host.Outcome State Fault Refusal :=
  .next (s.rssiWindow n.val power gain)

/-! ### Reception (R107, R108, R111, R112) -/

/-- FRAME_SYNC (R107): where the slice detects a frame SYNC is set; the stamp of R266 and R267 is recorded. A SYNC withdraws a
release that waits (R187). -/
def State.frameSync (s : State) (n : Nat) (marker : Int) (seen : RxSync) : State :=
  let c := vget s.slc n
  if !s.slcLive n || c.frame.isSome || !syncDetects c.wave (s.reg (PHY_SYNC.addr n)) seen then s
  else
    let x := s.slcChain n
    let fsk := s.reg (PHY_FSK.addr n)
    let stamp := shiftSixteenths (tbPlus (s.tb 0) (marker - markerLag c.wave fsk)) (-(s.getS (TSU_RFDLY.RX x)))
    let f : RxFrame := {
      fid := s.phy.nextFid, wave := c.wave, chain := x, freq := c.freq, rxcfg := s.reg (PHY_RXCFG.addr n), fsk := fsk,
      sync := s.reg (PHY_SYNC.addr n), stamp := stamp, steps := s.tsu.steps }
    let s := { s with phy := { s.phy with nextFid := s.phy.nextFid + 1 } }
    let s := (s.modSlc n (fun c => { c with frame := some f })).set (SLC_STAT.SYNC n) 1
    let s := (s.set (PHY_STAT.LENGTH n) 0).stampAt (TSU_RXST0.addr n) stamp
    let s := { s with lnk := { s.lnk with tx := s.lnk.tx.map (fun a =>
      if a.slice = some n ∧ a.sensing ∧ s.bit LNK_CCA.MODE then { a with busy := true } else a) } }
    let r := vget s.rxc x
    if r.awake = some n ∧ r.releasing then
      ((s.modRxc x (fun c => { c with releasing := false })).set (SLC_CFG.MODE n) 2).set (RXF_CTRL.MODE x) 1
    else s

/-- FRAME_SYNC. -/
def execFrameSync (n : Fin 16) (marker : Int) (seen : RxSync) (s : State) : Host.Outcome State Fault Refusal :=
  .next (s.frameSync n.val marker seen)

/-- R108, R115 to R117: what a header says: the failure status, or MCS, FLAGS, LENGTH and bytes of FCS; the values go with a
status HDR_BAD too. -/
def headerFields (wave : Nat) (rxcfg : Word) (h : RxHeader) : Option Nat × Nat × Nat × Nat × Nat :=
  match h with
  | .mf _ _ w =>
    let v := w.toNat
    if hcrcRun v 24 ≠ 0 then (some 4, 0, 0, 0, 4)
    else
      let mcs := v % 16
      let len := v / 16 % 2048
      let bad := decide (9 < mcs) || decide (len < 4) || !bitOf (fieldOf rxcfg 16 10) mcs
      (if bad then some 5 else none, mcs, v / 2 ^ 15 % 8, len, 4)
  | .oqpsk p =>
    let len := p.toNat % 128
    let n := if fieldOf rxcfg 8 1 = 1 then 4 else 2
    (if len ≤ n then some 5 else none, 0, 0, len, n)
  | .fsk _ ms f4 _ l =>
    (if ms || decide (l.toNat < 4) then some 5 else none, 0, 0, l.toNat, if f4 then 4 else 2)
  | .ofdm ok mcs l =>
    if !ok then (some 4, 0, 0, 0, 4)
    else (if !ofdmMcsOk wave mcs.toNat || decide (l.toNat < 4) then some 5 else none, mcs.toNat, 0, l.toNat,
      if fieldOf rxcfg 9 1 = 1 then 4 else 2)

/-- The header is one of the waveform's. -/
def headerFits (wave : Nat) : RxHeader → Bool
  | .mf _ _ _ => isMf wave
  | .oqpsk _ => decide (wave = 1)
  | .fsk _ _ _ _ _ => decide (wave = 4)
  | .ofdm _ _ _ => decide (5 ≤ wave)

/-- R109: the channel estimate a header brings. -/
def headerEstimate : RxHeader → List Cx
  | .mf y1 y2 _ => estimate y1 y2
  | _ => []

/-- R116: the settings a SUN-FSK frame is received with: FEC where its SFD is coded. -/
def headerFsk (fsk : Word) : RxHeader → Word
  | .fsk false _ _ _ _ => putField fsk 27 2 0
  | _ => fsk

/-- R133: frames that may give way to an acknowledgement that starts at `t`: those placed to ramp up after it, the last
planned first. -/
def State.giveWay (s : State) (x t : Nat) : List Nat :=
  let cand := (carriersOf x).filter (fun c => match s.cr c with
    | some k => !k.ack && (decide (k.phase = .held) || decide (k.phase = .waiting)) &&
        decide (0 < tbDiff (s.rampOf x k) t)
    | none => false)
  cand.mergeSort (fun a b => match s.cr a, s.cr b with
    | some k, some l => decide (0 ≤ tbDiff k.launch l.launch)
    | _, _ => true)

/-- A frame returned to LNK with its status: its carrier is freed and its action ends (R176). -/
def State.returnFrame (s : State) (c status : Nat) : State :=
  match s.cr c with
  | none => s
  | some k =>
    let s := if status = 2 then s.raise TXF_EVT.NOCAR else s
    let s := s.freeCar c status
    match s.lnk.tx.find? (fun a => decide (a.carrier = some c)) with
    | some a => if k.ack then s else s.txOutcome a status
    | none => s

/-- R133: a carrier reserved for the acknowledgement of a frame on `f` that ends at `t`. -/
def State.reserveAck (s : State) (x f wave t : Nat) (want : Int) (n : Nat) : State × Option Nat :=
  let cand := s.giveWay x t
  let ok := (List.range (cand.length + 1)).find? (fun k => (s.placeCar x f wave t none (cand.take k)).isSome)
  match ok with
  | none => (s, none)
  | some k =>
    match s.placeCar x f wave t none (cand.take k) with
    | none => (s, none)
    | some (c, lo) =>
      let s := s.each (cand.take k) (fun s c => s.returnFrame c 2)
      (s.hold c lo {
        ack := true, slice := n, wave := wave, freq := f, want := want, launch := tbPlus t ((gapUs wave * usTb : Nat) : Int) },
        some c)

/-- R173: the level of an acknowledgement to neighbour index `n`. -/
def State.ackLevel (s : State) (n : Nat) : Int := if n = 255 then s.getS LNK_BCAST.LEVEL else s.getS (nb n 1 20 8)

/-- R108, R113: a header fails: counted, not passed to LNK; an action whose window has closed ends as RX_IDLE (R159), one
whose latest SYNC has passed as NOACK (R158). -/
def State.headerFailed (s : State) (n code : Nat) (f : RxFrame) : State :=
  let s := ((s.phyRecord n code f 0 0).inc (PHY_ERRCNT.HDR n)).endSync n
  match s.lnk.rx.find? (fun a => decide (a.slice = some n)) with
  | some a => if a.closed then s.idleRx a else s
  | none =>
    match s.lnk.tx.find? (fun a => decide (a.slice = some n) && a.late) with
    | some a => s.txOutcome a 0x10
    | none => s

/-- HEADER_RECEIVED (R108, R133). A frame may need an acknowledgement where it asks for one and its link header names this
device. -/
def State.headerReceived (s : State) (n : Nat) (h : RxHeader) (head : List Byte) (rssi : Int) : State :=
  match (vget s.slc n).frame with
  | none => s
  | some f =>
    if f.hdr || !headerFits f.wave h then s
    else
      let r := headerFields f.wave f.rxcfg h
      let f := { f with
        rssi := some (s.rssiOf f.chain rssi), mcs := r.2.1, flags := r.2.2.1, len := r.2.2.2.1, fcs := r.2.2.2.2 }
      match r.1 with
      | some code => s.headerFailed n code f
      | none =>
        let set := if f.wave = 4 then headerFsk f.fsk h else f.rxcfg
        let air := airNs f.wave set f.mcs (normalCount f.wave) f.len (bitOf f.flags 0)
        let f := { f with hdr := true, est := headerEstimate h, endAt := tbPlus f.stamp ((air * 65536 : Nat) : Int) }
        let s := s.set (PHY_STAT.LENGTH n) f.len
        let mine := !s.lnk.tx.any (fun a => decide (a.slice = some n))
        let wants := match headOf f.wave head with
          | some d => d.ackreq && !d.bcast && decide (d.type ≠ 2) && mine && s.dOn 22 &&
              decide (d.dst = s.get LNK_ADDR.ADDR) && decide (d.netid = s.get LNK_ADDR.NETID)
          | none => false
        if wants then
          let src := (headOf f.wave head).bind (·.src)
          let r := s.reserveAck f.chain f.freq f.wave f.endAt (s.ackLevel (s.nbrOf (src.getD 0))) n
          r.1.modSlc n (fun c => { c with frame := some { f with carrier := r.2 } })
        else s.modSlc n (fun c => { c with frame := some f })

/-- HEADER_RECEIVED. -/
def execHeaderReceived (n : Fin 16) (h : RxHeader) (head : List (BitVec 8)) (rssi : Int) (s : State) :
    Host.Outcome State Fault Refusal :=
  .next (s.headerReceived n.val h head rssi)

/-! ### The decoder pool (R111, R112) -/

/-- PHY_POOL's DEPTH and BUSY. -/
def State.showPool (s : State) : State :=
  (s.set PHY_POOL.DEPTH s.phy.queue.length).set PHY_POOL.BUSY
    ((List.range 4).foldl (fun t d => if (vget s.phy.dec d).isSome then t + 2 ^ d else t) 0)

/-- Idle decoders take codewords in order of arrival. -/
def State.feedDecoders (s : State) : State :=
  (s.each (List.range 4) (fun s d =>
    match vget s.phy.dec d, s.phy.queue with
    | none, w :: t => { s with phy := { s.phy with queue := t, dec := vset s.phy.dec d (some w) } }
    | _, _ => s)).showPool

/-- R111: a codeword joins the queue. Those that arrived in this clock stand in ascending slice number: the ones decoders took
in it are ordered again with it. -/
def State.joinPool (s : State) (w : Codeword) : State :=
  let now (v : Codeword) : Bool := decide (v.clk = s.clk)
  let back := s.phy.dec.toList.filterMap (fun d => d.filter now)
  let all := back ++ s.phy.queue
  let late := all.filter now
  { s with phy := { s.phy with
      dec := s.phy.dec.map (fun d => d.filter (fun v => !now v))
      queue := all.filter (fun v => !now v) ++ late.filter (fun v => decide (v.slice ≤ w.slice)) ++
        w :: late.filter (fun v => decide (w.slice < v.slice)) } }

/-- R112: the frame of slice `n` named `fid` takes a codeword's status: DEC_BUSY, or DEC_FAIL where it has none yet. -/
def State.cwStatus (s : State) (n fid code : Nat) : State :=
  s.modSlc n (fun c => { c with frame := c.frame.map (fun f =>
    if f.fid = fid ∧ (code = 8 ∨ f.cwStatus.isNone) then { f with cwStatus := some code } else f) })

/-- R111, R112: the next codeword of a frame, whose soft bits are all there. None enters the queue after one was dropped. -/
def State.offerCodeword (s : State) (n : Nat) (f : RxFrame) : State :=
  let w := f.codewords
  let s := s.modSlc n (fun c => { c with frame := some { f with codewords := w + 1 } })
  if f.cwStatus = some 8 then s
  else if 32 ≤ s.phy.queue.length then
    ((s.inc PHY_CWDROP.COUNT).raise PHY_EVT.POOLFULL).cwStatus n f.fid 8
  else
    let s := s.joinPool { slice := n, fid := f.fid, index := w, k := mfK f.mcs, soft := codewordSoft f w, clk := s.clk }
    let s := s.set PHY_POOL.PEAK (max (s.get PHY_POOL.PEAK) s.phy.queue.length)
    s.feedDecoders

/-- CODEWORD_READY (R97, R109 to R112): the slice takes the body symbols, and with them the last soft bit of its next codeword. -/
def State.codewordReady (s : State) (n : Nat) (symbols : List (List Cx)) : State :=
  match (vget s.slc n).frame with
  | none => s
  | some f =>
    if !f.hdr || !isMf f.wave || !s.dOn 19 then s
    else
      let f := symbols.foldl takeSymbol f
      if mfCodewords f.mcs f.len ≤ f.codewords ∨ f.soft.length < codewordEnd f f.codewords then
        s.modSlc n (fun c => { c with frame := some f })
      else s.offerCodeword n f

/-- CODEWORD_READY. -/
def execCodewordReady (n : Fin 16) (symbols : List (List Cx)) (s : State) : Host.Outcome State Fault Refusal :=
  .next (s.codewordReady n.val symbols)

/-- CODEWORD_DECODED (R111, R112): what PHY_CTRL's MAXIT and EARLY make of the codeword in decoder `d`. -/
def State.codewordDecoded (s : State) (d : Nat) : State :=
  match vget s.phy.dec d with
  | none => s
  | some w =>
    let r := ldpcDecode w.k (s.bit PHY_CTRL.EARLY) (s.get PHY_CTRL.MAXIT + 1) w.soft
    let s := { s with phy := { s.phy with dec := vset s.phy.dec d none } }.inc PHY_CWCNT.COUNT
    let s := s.modSlc w.slice (fun c => { c with frame := c.frame.map (fun f =>
      if f.fid = w.fid then { f with decoded := f.decoded ++ [(w.index, r.1)] } else f) })
    let s := if r.2 then s else ((s.inc PHY_CWFAIL.COUNT).raise PHY_EVT.CWFAIL).cwStatus w.slice w.fid 3
    s.feedDecoders

/-- CODEWORD_DECODED. -/
def execCodewordDecoded (d : Fin 4) (s : State) : Host.Outcome State Fault Refusal := .next (s.codewordDecoded d.val)

/-! ### Verdicts (R113, R114, R175) -/

/-- R175: an acknowledgement for action `a`: none, or its header where the action takes it. -/
def State.ackMatch (s : State) (a : TxAct) (m : List Byte) : Option Head :=
  match headOf a.wave m with
  | some h =>
    let src := match h.src with
      | some v => decide (a.nbr ≠ 255) && decide (v = s.get (nb a.nbr 0 0 16))
      | none => true
    if src = true ∧ h.type = 2 ∧ h.seq = a.seq ∧ h.dst = s.get LNK_ADDR.ADDR then some h else none
  | none => none

/-- R175, R194: the sender judges what came on its slice. -/
def State.judgeAck (s : State) (a : TxAct) (m : List Byte) : State :=
  match s.ackMatch a m with
  | none => s.txOutcome a 0x10
  | some h =>
    let s := if h.tc && decide (a.nbr ≠ 255) then s.contact a.nbr (-h.tcorr) else s
    s.txOutcome a (if h.nack then 0x11 else 0)

/-- R113: the status of a frame from its PSDU. -/
def verdictOf (f : RxFrame) (psdu : List Byte) : Nat :=
  match f.cwStatus with
  | some c => c
  | none =>
    let m := psdu.take (f.len - f.fcs)
    if psdu.length = f.len ∧ psdu.drop (f.len - f.fcs) = fcsOf f.fcs m then 1 else 2

/-- R111: codewords of the frame named `fid` are in the pool. -/
def State.inPool (s : State) (fid : Nat) : Bool :=
  s.phy.queue.any (fun w => decide (w.fid = fid)) || s.phy.dec.toList.any (fun d => d.any (fun w => decide (w.fid = fid)))

/-- R113: the verdict of a frame can be reached: of a Millefeuille frame every codeword came, and none is in the pool. -/
def State.frameOver (s : State) (f : RxFrame) : RxBody → Bool
  | .millefeuille => f.hdr && isMf f.wave && decide (mfCodewords f.mcs f.len ≤ f.codewords) && !s.inPool f.fid
  | .standard _ _ _ => f.hdr && !isMf f.wave

/-- R94, R113: the PSDU at the end of a frame. -/
def bodyPsdu (f : RxFrame) : RxBody → List Byte
  | .millefeuille => mfPsdu f
  | .standard p _ _ => p

/-- R114: LQ and EVM at the end of a frame. -/
def bodyQuality (f : RxFrame) : RxBody → Nat × Nat
  | .millefeuille => qualityOf f.err f.ref
  | .standard _ e r => qualityOf e r

/-- R159, R166: an OK frame waits for its decision; the slice of a receive action is released. -/
def State.lnkOk (s : State) (n : Nat) (f : RxFrame) (m : List Byte) (lq : Nat) : State :=
  match s.lnk.tx.find? (fun a => decide (a.slice = some n)) with
  | some a =>
    let s := s.unreserve f.carrier
    if a.waiting then s.judgeAck a m else s
  | none =>
    let act := s.lnk.rx.find? (fun a => decide (a.slice = some n))
    let d : RxDone := {
      slice := n, fid := f.fid, chain := f.chain, freq := f.freq, wave := f.wave, mcs := f.mcs, flags := f.flags,
      stamp := f.stamp, endAt := f.endAt, lq := lq, mpdu := m, act := act.map (fun a => (a.cell, a.kind, a.nbr, a.launch)),
      held := act.any (·.held), carrier := f.carrier, awake := decide ((vget s.rxc f.chain).awake = some n),
      scan := s.lnk.scan.any (fun c => decide (c.slice = n)), steps := f.steps }
    let s := match act with
      | some a => s.endRx a
      | none => s
    { s with lnk := { s.lnk with done := s.lnk.done ++ [d] } }

/-- FRAME_VERDICT (R113, R114, R175, R159). -/
def State.frameVerdict (s : State) (n : Nat) (body : RxBody) : State :=
  match (vget s.slc n).frame with
  | none => s
  | some f =>
    if !s.frameOver f body then s
    else
      let psdu := bodyPsdu f body
      let code := verdictOf f psdu
      let q := bodyQuality f body
      let s := (s.phyRecord n code f q.1 q.2).endSync n
      if code = 1 then (s.inc (PHY_OKCNT.COUNT n)).lnkOk n f (psdu.take (f.len - f.fcs)) q.1
      else ((s.inc (PHY_ERRCNT.BODY n)).unreserve f.carrier).lnkFailed n code

/-- FRAME_VERDICT. -/
def execFrameVerdict (n : Fin 16) (body : RxBody) (s : State) : Host.Outcome State Fault Refusal :=
  .next (s.frameVerdict n.val body)

end Sys2Proof.Machine
end

