-- ==== Sys2Proof/Machine/Transmit.lean ====
section
/-! DEFINITION. Chapter 5, the instants of a carrier from its gate to its ramp-down end, the synthesisers, the monitor, the
coexistence wires and the sealing of the glaze. -/
namespace Sys2Proof.Machine

/-- The transmit action that holds carrier `c`. -/
def State.actOf (s : State) (c : Nat) : Option TxAct := s.lnk.tx.find? (fun a => decide (a.carrier = some c))

/-- A carrier's sending ends early with a status (R15, R137, R143, R144): it is ramped down, or freed where it has not begun;
the outcome is reported at once. -/
def State.cutCar (s : State) (c status : Nat) : State :=
  match s.cr c with
  | none => s
  | some k =>
    if k.phase = .gated then s.returnFrame c status
    else if k.phase = .rampUp ∨ k.phase = .sending ∨ (k.phase = .rampDown ∧ k.result = 0) then
      let s := s.modCar c (fun k => { k with
        phase := .rampDown, result := status, copies := 0, rampClk := if k.phase = .rampDown then k.rampClk else s.clk })
      let s := s.set (TXF_CARSTAT.STATUS c) status
      if k.ack then s
      else match s.actOf c with
        | some a => s.txOutcome a status
        | none => s
    else s

/-- R15, R16: the carriers of a chain that are past their gates are cut; one that has sent its last sample was sent whole. -/
def State.cutChain (s : State) (x status : Nat) : State :=
  s.each ((carriersOf x).filter (fun c => (s.cr c).any (fun k =>
    decide (k.phase = .gated) || decide (k.phase = .rampUp) || decide (k.phase = .sending)))) (fun s c => s.cutCar c status)

/-- R122, R131: what an unrequested loss of lock stops: the sending carriers, and the held ones, which count as sending. -/
def State.stopChain (s : State) (x status : Nat) : State :=
  (s.cutChain x status).each ((carriersOf x).filter (fun c => (s.cr c).any (fun k =>
    (decide (k.phase = .held) || decide (k.phase = .waiting)) && !k.ack))) (fun s c => s.returnFrame c status)

/-- R136: the points of mask `m`, OFS and LIM, up to the first OFS 0. -/
def State.maskPoints (s : State) (m : Nat) : List (Nat × Nat) :=
  ((List.range 4).flatMap (fun i =>
    [(s.get (TXF_MASK.OFS0 (4 * m + i)), s.get (TXF_MASK.LIM0 (4 * m + i))),
      (s.get (TXF_MASK.OFS1 (4 * m + i)), s.get (TXF_MASK.LIM1 (4 * m + i)))])).takeWhile (fun p => decide (p.1 ≠ 0))

/-- R136: the offsets ascend. -/
def maskAscends : List (Nat × Nat) → Bool
  | a :: b :: t => decide (a.1 < b.1) && maskAscends (b :: t)
  | _ => true

/-- R136: a write leaves mask `m` with points that do not ascend. -/
def State.maskWritten (s : State) (m : Nat) : State := if maskAscends (s.maskPoints m) then s else s.raise TXF_EVT.MASKBAD

/-- R137: the mask enabled for a waveform. -/
def State.maskOf (s : State) (wave : Nat) : Option Nat :=
  let v := s.get TXF_MASKSEL.SEL / 2 ^ (4 * (wave - 1)) % 16
  if 8 ≤ v then some (v % 4) else none

/-- R136, R137: a level, in hundredths of a dB below the carrier's mean, breaks the mask at offset `o` (100 kHz). -/
def maskBreaks (o : Nat) (level : Int) : List (Nat × Nat) → Bool
  | [] => false
  | [p] => decide (p.1 ≤ o) && decide (-(50 * (p.2 : Int)) < level) && decide (-5500 < level)
  | p :: q :: t =>
    if o < p.1 then false
    else if q.1 ≤ o then maskBreaks o level (q :: t)
    else
      decide (-(50 * ((p.2 * (q.1 - p.1) : Nat) : Int) + 50 * ((q.2 : Int) - p.2) * (o - p.1)) < level * ((q.1 - p.1 : Nat) : Int)) &&
        decide (-5500 < level)

/-- MASK_CHECK_END (R137). Bins outside the window are not checked. -/
def State.maskCheck (s : State) (c : Nat) (bins : List (Int × Int)) : State :=
  match s.cr c with
  | none => s
  | some k =>
    if k.phase ≠ .sending ∧ k.phase ≠ .rampDown then s
    else match s.maskOf k.wave with
      | none => s
      | some m =>
        let pts := s.maskPoints m
        let lo : Int := s.get (TXF_LO.FREQ (c / 4))
        let inside (b : Int × Int) : Bool := decide (((k.freq : Int) + b.1 * 100000 - lo).natAbs ≤ 20000000)
        if !maskAscends pts then s.raise TXF_EVT.MASKBAD
        else if bins.any (fun b => inside b && maskBreaks b.1.natAbs b.2 pts) then
          let s := (s.inc (byChain (c / 4) TXF_MASKCNT.A TXF_MASKCNT.B)).raise (byChain (c / 4) TXF_EVT.MASKA TXF_EVT.MASKB)
          if s.bit (TXF_CTRL.MASKCUT (c / 4)) then s.cutCar c 6 else s
        else s

/-- MASK_CHECK_END. -/
def execMaskCheckEnd (c : Fin 8) (bins : List (Int × Int)) (s : State) : Host.Outcome State Fault Refusal :=
  .next (s.maskCheck c.val bins)

/-- GLAZE_CUT (R143): the measured level lies more than 2 dB above the launch level. GLZ_REFCNT6 counts the status (log entry 16). -/
def State.glazeCut (s : State) (c : Nat) (level : Int) : State :=
  match s.cr c with
  | none => s
  | some k =>
    if k.phase = .sending ∧ 50 * k.level + 200 < level then
      (((s.inc (GLZ_REFCNT.COUNT 6)).raise GLZ_EVT.CUT).cutCar c 14)
    else s

/-- GLAZE_CUT. -/
def execGlazeCut (c : Fin 8) (level : Int) (s : State) : Host.Outcome State Fault Refusal := .next (s.glazeCut c.val level)

/-! ### Gate and ramp-up (R129, R132, R134, R141) -/

/-- RAMP_UP_START (R126, R127, R129, R135, R68): the level and the filter are fixed and the chain is deafened; a slice that only
awaits the acknowledgement is tuned just before. A carrier that may not start is returned. -/
def State.rampUp (s : State) (c : Nat) : State :=
  match s.cr c with
  | none => s
  | some k =>
    if k.phase ≠ .gated then s
    else match s.levelFor c k with
    | none => s.returnFrame c 2
    | some l =>
      let s := match s.actOf c with
        | some a => (match a.slice with
          | some n => if a.cca || k.ack then s else s.schedTune n a.chain a.wave a.freq
          | none => s)
        | none => s
      let s := if k.want ≠ l then s.raise TXF_EVT.CLAMP else s
      let taps := s.shapeOf k.wave
      let s := s.modCar c (fun k => { k with phase := .rampUp, level := l, rampClk := s.clk, taps := taps })
      ((s.set (TXF_CARLVL.LEVEL c) (unsign 8 l)).showTx (c / 4)).deafen (c / 4)

/-- RAMP_UP_START. -/
def execRampUpStart (c : Fin 8) (s : State) : Host.Outcome State Fault Refusal := .next (s.rampUp c.val)

/-- R141: a carrier that has lock is judged for a ramp-up start at `now`. -/
def State.gateAt (s : State) (c : Nat) (k : Carrier) (now : Nat) : State :=
  match s.gateChecks c k now with
  | .inl e => ((s.countGate (c / 4) e k.ack).modCar c (fun k => { k with req := false, pri := false })).returnFrame c e
  | .inr (l, n) => s.passGate c l n

/-- R132, R134: how long after its planned ramp-up start a carrier may start, in 2^-16 ns. -/
def State.lateTol (s : State) (c : Nat) (k : Carrier) : Nat :=
  if k.ack then usTb / 2 else s.get (TXF_CTRL.LATETOL (c / 4)) * usTb / 2

/-- The chain can send: its synthesiser is locked, and no holdover has stopped it (R15, R131). -/
def State.txReady (s : State) (x : Nat) : Bool := s.synLocked x && !s.holdover

/-- TX_GATE (R141): the gate 1 us before ramp-up start. Without lock the carrier waits (R132), and in holdover (R15). -/
def State.txGate (s : State) (c : Nat) (grant : Bool) : State :=
  let s := { s with pad := { s.pad with gnt := grant } }.coexWires
  match s.cr c with
  | none => s
  | some k =>
    if k.phase ≠ .held ∨ (k.ack ∧ !k.armed) ∨ (s.actOf c).any (fun a => a.sensing || a.cca) then s
    else
      let k := { k with ru := s.rampUs (c / 4) }
      let s := s.setCar c (some k)
      if s.txReady (c / 4) then s.gateAt c k (s.rampOf (c / 4) k)
      else s.modCar c (fun k => { k with phase := .waiting })

/-- TX_GATE. -/
def execTxGate (c : Fin 8) (grant : Bool) (s : State) : Host.Outcome State Fault Refusal := .next (s.txGate c.val grant)

/-- R132: a carrier that waited past its latest ramp-up start is returned. -/
def State.txLate (s : State) (c : Nat) : State :=
  match s.cr c with
  | none => s
  | some k => if k.phase = .waiting then (s.countGate (c / 4) 3 k.ack).returnFrame c 3 else s

/-- TX_LATE_EXPIRY (R132). -/
def execTxLateExpiry (c : Fin 8) (s : State) : Host.Outcome State Fault Refusal := .next (s.txLate c.val)

/-- R132: a waiting carrier at the instant of lock: late, or through the gate, its launch delayed by the wait. -/
def State.gateAtLock (s : State) (c : Nat) : State :=
  match s.cr c with
  | none => s
  | some k =>
    if k.phase ≠ .waiting then s
    else
      let wait := tbDiff (s.tb 0) (s.rampOf (c / 4) k)
      if ((s.lateTol c k : Nat) : Int) < wait then s.txLate c
      else
        let k := { k with launch := if 0 < wait then tbPlus k.launch wait else k.launch }
        let s := (s.setCar c (some k)).gateAt c k (s.rampOf (c / 4) k)
        if 0 ≤ wait then s.rampUp c else s

/-- SYNTH_LOCK (R131, R132). -/
def State.synthLock (s : State) (x : Nat) : State :=
  if s.holdover || !s.dOn (20 + x) then s
  else (((s.set (TXF_STAT.LOCK x) 1).set (syLock x) 1).set (TXF_STAT.CAL x) 0).each (carriersOf x) State.gateAtLock

/-- SYNTH_LOCK. -/
def execSynthLock (x : Fin 2) (s : State) : Host.Outcome State Fault Refusal := .next (s.synthLock x.val)

/-- SYNTH_CALIBRATION_END (R131). -/
def execSynthCalibrationEnd (x : Fin 2) (s : State) : Host.Outcome State Fault Refusal :=
  .next (if s.dOn (20 + x.val) then s.set (TXF_STAT.CAL x.val) 0 else s)

/-- SYNTH_UNLOCK (R16, R131). -/
def State.synthUnlock (s : State) (x : Nat) : State :=
  if !s.synLocked x || !s.dOn (20 + x) then s
  else
    let s := (s.raise (byChain x TXF_EVT.UNLOCKA TXF_EVT.UNLOCKB)).stopChain x 5
    (s.raiseHw 8 0 0).calRun x

/-- SYNTH_UNLOCK. -/
def execSynthUnlock (x : Fin 2) (s : State) : Host.Outcome State Fault Refusal := .next (s.synthUnlock x.val)

/-- R123: a write of TXF_LOx acts in FIXED mode, inside the LO's range. In holdover, when no synthesiser runs, its retune is
held too (log entry 211). -/
def State.loWrite (s : State) (x : Nat) (w : Word) : State :=
  let f := w.toNat
  let lo := if x = 0 then 380000000 else 2380000000
  let hi := if x = 0 then 980000000 else 2503500000
  if !s.bit (TXF_CTRL.LOMODE x) || decide (f < lo) || decide (hi < f) then s
  else if s.chainIdle x && !s.holdover then s.retune x f
  else ({ s with txc := vmod s.txc x (fun t => { t with heldLo := some f }) }).showTx x

/-- RETUNE_HELD_START (R123). -/
def execRetuneHeldStart (x : Fin 2) (s : State) : Host.Outcome State Fault Refusal :=
  .next (if s.dOn (20 + x.val) then s.startHeld x.val else s)

/-! ### Launch to ramp-down (R129, R191, R265) -/

/-- R119: a carrier with the settings in force at its launch, and the frame they make. -/
def State.launched (s : State) (x : Nat) (k : Carrier) : Carrier :=
  let cfg := s.reg PHY_TXCFG.addr
  let fsk := s.reg (PHY_TXFSK.addr x)
  let len := k.mpdu.length + fcsLen k.wave cfg fsk
  let mid := if k.ack then k.mid else midFlag k.wave cfg k.mcs len
  { k with
    phase := .sending, txcfg := cfg, txfsk := fsk, mid := mid
    air := airNs k.wave (if k.wave = 4 then fsk else cfg) k.mcs k.count len mid }

/-- FRAME_LAUNCH (R119, R129, R265, R269): the stamp records the launch; an extended preamble leaves it unchanged (log entry
190). -/
def State.frameLaunch (s : State) (c : Nat) : State :=
  match s.cr c with
  | none => s
  | some k =>
    if k.phase ≠ .rampUp then s
    else
      let s := s.setCar c (some (s.launched (c / 4) k))
      let s := s.stampAt (TSU_TXST0.addr c) k.launch
      match s.maskOf k.wave with
      | some m => if maskAscends (s.maskPoints m) then s else s.raise TXF_EVT.MASKBAD
      | none => s

/-- FRAME_LAUNCH. -/
def execFrameLaunch (c : Fin 8) (s : State) : Host.Outcome State Fault Refusal := .next (s.frameLaunch c.val)

/-- LAST_SAMPLE (R129): ramp-down begins. -/
def execLastSample (c : Fin 8) (s : State) : Host.Outcome State Fault Refusal :=
  .next (s.modCar c.val (fun k => if k.phase = .sending then { k with phase := .rampDown, result := 0, rampClk := s.clk } else k))

/-- R191: the next copy of a train: its gate, and its ramp-up in the same instant. -/
def State.nextCopy (s : State) (c : Nat) (k : Carrier) : State :=
  let l := tbPlus k.launch (((k.air + 4000) * 65536 : Nat) : Int)
  let k := { k with phase := .held, copies := k.copies - 1, launch := l, ru := 2 }
  let s := s.setCar c (some k)
  if s.txReady (c / 4) then (s.gateAt c k (s.rampOf (c / 4) k)).rampUp c
  else (s.modCar c (fun k => { k with phase := .waiting }))

/-- R68: a chain whose last carrier has ended its ramp-down hears again. -/
def State.paCheck (s : State) (x : Nat) : State := if s.paOn x then s else s.undeafen x

/-- R176: what a transmit action does once its frame is sent: it awaits the acknowledgement, or ends. -/
def State.txSent (s : State) (a : TxAct) : State :=
  if a.wantAck then s.modTx a.id (fun a => { a with waiting := true, carrier := none }) else s.txOutcome a 0

/-- RAMP_DOWN_END (R122, R129, R191). -/
def State.rampDownEnd (s : State) (c : Nat) : State :=
  match s.cr c with
  | none => s
  | some k =>
    if k.phase ≠ .rampDown then s
    else if k.result = 0 ∧ 0 < k.copies then (s.nextCopy c k).paCheck (c / 4)
    else
      let act := s.actOf c
      let s := (s.freeCar c k.result).paCheck (c / 4)
      if k.ack then (if k.result = 0 ∧ bitOf (leNat (k.mpdu.take 1)) 6 ∧ isMf k.wave ∨
          k.result = 0 ∧ !isMf k.wave ∧ 11 ≤ k.mpdu.length ∧ bitOf (half k.mpdu 9) 15 then s.inc LNK_NACKCNT.SENT else s)
      else if k.result ≠ 0 then s
      else match act with
        | some a => s.txSent a
        | none => s

/-- RAMP_DOWN_END. -/
def execRampDownEnd (c : Fin 8) (s : State) : Host.Outcome State Fault Refusal := .next (s.rampDownEnd c.val)

/-! ### Acknowledgements (R134, R169 to R173) -/

/-- R170, R171: the MPDU of the acknowledgement owed for a frame. -/
def State.ackMpdu (s : State) (d : RxDone) (nack : Bool) : List Byte :=
  match headOf d.wave d.mpdu with
  | none => []
  | some h =>
    let tc := d.act.map (fun a => tbDiff a.2.2.2 d.stamp)
    let net := s.get LNK_ADDR.NETID
    if isMf d.wave then ackMf net (h.src.getD 0) (s.get LNK_ADDR.ADDR) h.seq d.lq tc nack
    else ackMac net (h.src.getD 0) h.seq tc nack

/-- ACK_LAUNCH (R133, R134, R169): the acknowledgement owed goes to its carrier, to be launched at the gap, with the request
its carrier holds (R144). Where no carrier can be had, no event is set (log entry 212). -/
def State.ackLaunch (s : State) (n : Nat) : State :=
  match s.lnk.done.find? (fun d => decide (d.slice = n) && d.owed.isSome) with
  | none => s
  | some d =>
    let s := { s with lnk := { s.lnk with done := s.lnk.done.filter (fun e => e.fid ≠ d.fid) } }
    match d.owed with
    | none => s
    | some (nack, nbr) =>
      let m := s.ackMpdu d nack
      let mcs := if isMf d.wave then min d.mcs (s.get LNK_CTRL.ACKMCS) else if 5 ≤ d.wave then d.mcs else 0
      let len := m.length + s.txFcs d.chain d.wave
      let air := airNs d.wave (s.txSet d.chain d.wave) mcs (normalCount d.wave) len false
      let launch := tbPlus d.endAt ((gapUs d.wave * usTb : Nat) : Int)
      let k : Carrier := {
        ack := true, armed := true, slice := n, wave := d.wave, freq := d.freq, want := s.ackLevel nbr,
        launch := launch, ru := s.rampUs d.chain, air := air, mpdu := m, mcs := mcs, count := normalCount d.wave }
      match d.carrier with
      | some c => (match s.cr c with
        | some o => if o.ack && !o.armed then s.setCar c (some { k with req := o.req, pri := o.pri }) else s
        | none => s)
      | none =>
        match s.placeCar d.chain d.freq d.wave launch (some air) [] with
        | some (c, lo) => s.hold c lo k
        | none => s

/-- ACK_LAUNCH. -/
def execAckLaunch (n : Fin 16) (s : State) : Host.Outcome State Fault Refusal := .next (s.ackLaunch n.val)

/-! ### Coexistence (R144) -/

/-- COEX_REQUEST_ASSERT (R144): for a carrier that is still to send. -/
def execCoexRequestAssert (c : Fin 8) (s : State) : Host.Outcome State Fault Refusal :=
  .next (match s.cr c.val with
    | some k => if k.phase = .held ∨ k.phase = .waiting then s.coexRequest c.val else s
    | none => s)

/-- COEX_GRANT_DROP (R144). -/
def State.grantDrop (s : State) : State :=
  let s := { s with pad := { s.pad with gnt := s.bit COEX_CTRL.GNTPOL } }.coexWires
  if !s.bit COEX_CTRL.EN || !s.dOn 22 || !s.bit COEX_CTRL.GNTCUT then s
  else
    s.each ((List.range 8).filter (fun c => s.coexOn (c / 4) && (s.cr c).any (fun k =>
      decide (k.phase = .gated) || decide (k.phase = .rampUp) || decide (k.phase = .sending)))) (fun s c =>
      (((s.inc COEX_CUTCNT.COUNT).raise COEX_EVT.CUT).cutCar c 4))

/-- COEX_GRANT_DROP. -/
def execCoexGrantDrop (s : State) : Host.Outcome State Fault Refusal := .next s.grantDrop

/-! ### The front end (R130) -/

/-- R130: an external PA is on for this carrier: from 1 us after a ramp-up start with the PA off, to the end of the internal
ramp-down. -/
def State.extPa (s : State) (k : Carrier) : Bool :=
  decide (k.phase = .sending) || (decide (k.phase = .rampUp) && (decide (k.ru = 2) || decide (usTb ≤ s.sinceClk k.rampClk))) ||
    (decide (k.phase = .rampDown) && decide (s.sinceClk k.rampClk < 2 * usTb))

/-- R130, R427: the levels of FEx_SW, FEx_LNA and FEx_PA. -/
def State.feLevels (s : State) (x : Nat) : Bool × Bool × Bool :=
  match vget s.pad.feHold x with
  | some l => l
  | none =>
    let ext := s.bit (TXF_CTRL.EXTFE x)
    let tx := ext && s.paOn x
    let lna := s.bit (RXF_STAT.LNA x) && !tx
    let pa := ext && (carriersOf x).any (fun c => (s.cr c).any s.extPa)
    (xor tx (s.bit (TXF_FE.SWPOL x)), xor lna (s.bit (TXF_FE.LNAPOL x)), xor pa (s.bit (TXF_FE.PAPOL x)))

/-! ### Sealing (R139, R140) -/

/-- GLAZE_SEAL (R139). A seal of a sealed glaze, or one while programming runs, is ignored. -/
def State.sealWrite (s : State) (w : Word) : State :=
  if fieldOf w 16 16 ≠ 0xC6A0 ∨ fieldOf w 0 1 = 0 ∨ s.bit GLZ_STAT.SEALED ∨ s.glz.burning.isSome then s
  else if 1 < s.sec.lc ∨ s.bit PWR_STAT.PFW then s.raise GLZ_EVT.SEALERR
  else { s with glz := { s.glz with burning := some s.glazeWords } }.set GLZ_STAT.BUSY 1

/-- R139: programming stops; the glaze stays unsealed. -/
def State.stopBurn (s : State) : State := { s with glz := { s.glz with burning := none } }.set GLZ_STAT.BUSY 0

/-- R140: a sealed glaze is reloaded, and its CRC checked; an unsealed one returns to its reset values. -/
def State.glazeReload (s : State) : State :=
  match s.glz.otp with
  | some (ws, crc) =>
    let s := (glazeAddrs.zip ws).foldl (fun s p => s.setReg p.1 p.2) s
    ((s.set GLZ_STAT.SEALED 1).set GLZ_STAT.BAD (b2n (decide (glazeCrc ws ≠ crc)))).set GLZ_STAT.BUSY 0
  | none =>
    let s := glazeAddrs.foldl (fun s a => s.setReg a (regReset a)) s
    (s.set GLZ_STAT.SEALED 0).set GLZ_STAT.BUSY (b2n s.glz.burning.isSome)

/-- GLAZE_PROGRAM_DONE (R139): the valid marker is programmed, and the registers show what was burnt. -/
def execGlazeProgramDone (s : State) : Host.Outcome State Fault Refusal :=
  .next (match s.glz.burning with
    | some ws => { s with glz := { s.glz with burning := none, otp := some (ws, glazeCrc ws) } }.glazeReload
    | none => s)

/-- R142: at a cold reset every bucket of every sub-band holds MAXON / WIN. -/
def State.fillDuty (s : State) : State :=
  s.each (List.range 16) (fun s n =>
    let d : Duty := { maxon := s.get (GLZ_SBDUTY.MAXON n), win := s.get (GLZ_SBDUTY.WIN n) }
    { s with glz := { s.glz with duty := vset s.glz.duty n d } })

end Sys2Proof.Machine
end

