-- ==== Sys2Proof/Machine/Slot.lean ====
section
/-! DEFINITION. Chapters 6 and 7: the loading of a beat, the transmit and receive templates, acceptance, and the scan's part
of a boundary. -/
namespace Sys2Proof.Machine

/-! ### Cells and channels (R151 to R154) -/

/-- The slotframe, offset and kind of cell `c`, and the rest of its words. -/
def cellSF (c : Nat) : Loc := ⟨LNK_CELL0.addr c, 28, 3⟩
def cellOffset (c : Nat) : Loc := ⟨LNK_CELL0.addr c, 16, 12⟩
def cellNbr (c : Nat) : Loc := ⟨LNK_CELL0.addr c, 8, 8⟩
def cellKind (c : Nat) : Loc := ⟨LNK_CELL0.addr c, 5, 3⟩
def cellCca (c : Nat) : Loc := ⟨LNK_CELL0.addr c, 4, 1⟩
def cellAckreq (c : Nat) : Loc := ⟨LNK_CELL0.addr c, 3, 1⟩
def cellChofs (c : Nat) : Loc := ⟨LNK_CELL1.addr c, 25, 7⟩
def cellHop (c : Nat) : Loc := ⟨LNK_CELL1.addr c, 23, 2⟩
def cellWave (c : Nat) : Loc := ⟨LNK_CELL1.addr c, 19, 4⟩
def cellStart (c : Nat) : Loc := ⟨LNK_CELL1.addr c, 0, 12⟩

/-- The valid cells, ascending: those whose word 0 is listed with VALID set. -/
def State.validCells (s : State) : List Nat :=
  s.regs.filterMap (fun p =>
    if LNK_CELL0.addr 0 ≤ p.1 ∧ p.1 < LNK_CELL0.addr 4096 ∧ p.1 % 8 = 0 ∧ fieldOf p.2 31 1 = 1 then
      some ((p.1 - LNK_CELL0.addr 0) / 8) else none)

/-- R151: the cell fires in the beat `abn`. -/
def State.cellFires (s : State) (abn c : Nat) : Bool :=
  let sf := s.get (cellSF c)
  s.bit (LNK_SF.EN sf) && decide (abn % (s.get (LNK_SF.LENGTH sf)) = s.get (cellOffset c))

/-- R151, R155: the cells of a beat, by slotframe and then by number. -/
def State.firing (s : State) (abn : Nat) : List Nat :=
  let l := s.validCells.filter (s.cellFires abn)
  (List.range 8).flatMap (fun sf => l.filter (fun c => decide (s.get (cellSF c) = sf)))

/-- The length of hop sequence `h`. -/
def State.hopLen (s : State) (h : Nat) : Nat := s.get ⟨LNK_HOPLEN.addr, 8 * h, 8⟩

/-- Entry `e` of hop sequence `h`: a channel index. -/
def State.hopEntry (s : State) (h e : Nat) : Nat := s.get ⟨LNK_HOP.addr (32 * h + e / 4), 8 * (e % 4), 6⟩

/-- R154: the centre of a cell's channel in the beat `abn`. -/
def State.cellFreq (s : State) (abn c : Nat) : Nat :=
  let h := s.get (cellHop c)
  s.get (LNK_CHAN.FREQ (s.hopEntry h ((abn + s.get (cellChofs c)) % s.hopLen h)))

/-- R69: a waveform code a cell may name. -/
def waveOk (w : Nat) : Bool := decide (1 ≤ w) && decide (w ≤ 8)

/-- R154: the chain of a centre that is a valid tune for the waveform. `fsk` is the SUN-FSK settings word in force. -/
def chanChain (f wave : Nat) (fsk : Nat → Word) : Option Nat :=
  match chainOf f with
  | some x => if waveOk wave && tuneOk x wave (fsk x) f then some x else none
  | none => none

/-- The kinds that receive, and those that transmit (R153). -/
def rxKind (k : Nat) : Bool := decide (k = 0) || decide (k = 3) || decide (k = 5)
def txKind (k : Nat) : Bool := decide (1 ≤ k) && decide (k ≤ 4)

/-- R160: the template of a cell of kind `k` fits the beat, for a RUMAX in us and a longest acknowledgement in ns. -/
def State.templateFits (s : State) (k wave start : Nat) (cca : Bool) (ru ack : Nat) (fsk : Word) : Bool :=
  let ofs := s.get LNK_TXOFS.TXOFS * 1000
  let gmax := s.get LNK_GLIM.GMAX * 1000
  let settle := settleUs wave * 1000
  let sum := 10000 * start + ofs + s.get LNK_AIRMAX.AIRMAX * 1000 + gapUs wave * 1000 + ack
  (!rxKind k || (decide (gmax + settle ≤ ofs) && decide (sum + gmax + 2000 ≤ s.beatNs))) &&
    (!txKind k || (decide (sum + 16000 ≤ s.beatNs) &&
      (!cca || decide (ru * 1000 + 10000 + ccaNs wave fsk + settle ≤ ofs))))

/-! ### Loading a beat (R155 to R157, R174, R196) -/

/-- What a beat's actions have taken so far: receive actions, transmit actions by band, slices. -/
structure Booked where
  rx : Nat
  tx : Nat → Nat
  slices : Nat

/-- R42, R155, R174: what spans into the beat is counted first: the actions in progress, and chains that taste awake. -/
def State.spanning (s : State) : Booked :=
  let awake := ([0, 1].filter (fun x => (vget s.rxc x).awake.isSome)).length
  { rx := s.lnk.rx.length + awake,
    tx := fun x => (s.lnk.tx.filter (fun a => decide (a.chain = x))).length,
    slices := (s.lnk.rx.filter (fun a => a.slice.isSome)).length + (s.lnk.tx.filter (fun a => a.slice.isSome)).length + awake }

/-- Actions of the beat before that have not begun are forgotten; what is in progress stays. -/
def State.dropStale (s : State) : State :=
  { s with lnk := { s.lnk with rx := s.lnk.rx.filter (·.opened), tx := s.lnk.tx.filter (·.started) } }

/-- The ECC words of cell `c` and of its neighbour entry `n`. -/
def cellWord (c n : Nat) (e : Nat × Nat × Nat) : Bool :=
  (decide (e.1 = 6) && decide (e.2.2 / 2 = c)) || (decide (e.1 = 5) && decide (n ≠ 255) && decide (e.2.2 / 16 = n))

/-- R31: an uncorrectable error in the cell's words or its neighbour entry: the first such word. -/
def State.cellEcc (s : State) (c n : Nat) : Option (Nat × Nat × Nat) := s.ecc.find? (cellWord c n)

/-- R157, R182: a cell skipped at the load. -/
def State.skipCell (s : State) (c : Nat) : State :=
  let k := s.get (cellKind c)
  let s := s.countSkip (txOnly k)
  if txOnly k then s.txReport 0x27 (s.get (cellNbr c)) 0 c else s.rxReport 0x27 255 0 (some c)

/-- R155: a cell over the beat's limits. -/
def State.overbook (s : State) (c : Nat) : State :=
  let k := s.get (cellKind c)
  let s := (s.raise LNK_EVT.OVERBOOK).inc (if txOnly k then LNK_SKIPCNT.TX else LNK_SKIPCNT.RX)
  if txOnly k then s.txReport 0x27 (s.get (cellNbr c)) 0 c else s.rxReport 0x27 255 0 (some c)

/-- R196, R202: the guard of a receive action, recorded in GLAST. -/
def State.takeGuard (s : State) (n : Nat) : State × Nat :=
  let g := s.guardOf n
  (if n = 255 then s else s.set (nb n 11 0 12) g, g)

/-- R155, R158, R159, R196: the actions of a cell that has its place in the beat. -/
def State.addActions (s : State) (c x f : Nat) : State :=
  let k := s.get (cellKind c)
  let n := s.get (cellNbr c)
  let w := s.get (cellWave c)
  let l := tbPlus (s.boundaryOf s.abn) (((s.get (cellStart c) * 10 + s.get LNK_TXOFS.TXOFS) * usTb : Nat) : Int)
  let id := s.lnk.nextAct
  let s := { s with lnk := { s.lnk with nextAct := id + 1 } }
  let s := if txKind k then
      let a : TxAct := {
        id := id, cell := c, kind := k, nbr := n, chain := x, freq := f, wave := w, cca := s.bit (cellCca c),
        ackreq := s.bit (cellAckreq c) && decide (n ≠ 255) && decide (k ≠ 4), launch := l }
      { s with lnk := { s.lnk with tx := s.lnk.tx ++ [a] } }
    else s
  if rxKind k then
    let r := s.takeGuard n
    let a : RxAct := {
      id := id, cell := c, kind := k, nbr := n, chain := x, freq := f, wave := w, launch := l, guard := r.2,
      held := decide (k = 5) && decide (n ≠ 255) && s.bit (nb n 11 29 1) }
    { r.1 with lnk := { r.1.lnk with rx := r.1.lnk.rx ++ [a] } }
  else s

/-- R30, R155, R157, R160: one firing cell is loaded, or skipped. A broadcast cell with ACKREQ, BTX among them, takes no slice:
no broadcast frame is acknowledged (R153; log entry 213). -/
def State.loadCell (r : State × Booked) (c : Nat) : State × Booked :=
  let n := r.1.get (cellNbr c)
  let s := r.1.corrected (cellWord c n)
  let b := r.2
  let k := s.get (cellKind c)
  let w := s.get (cellWave c)
  let f := s.cellFreq s.abn c
  match s.cellEcc c n with
  | some e => (((s.eccReport e).raiseHw 4 8 0).skipCell c, b)
  | none =>
    match chanChain f w (fun x => s.reg (PHY_TXFSK.addr x)) with
    | none => (s.skipCell c, b)
    | some x =>
      if 5 < k then (s.skipCell c, b)
      else
        let ack := s.bit (cellAckreq c) && decide (n ≠ 255) && decide (k ≠ 4)
        let sl := b2n (rxKind k || s.bit (cellCca c) || ack)
        if 16 < b.rx + b2n (rxKind k) ∨ 4 < b.tx x + b2n (txKind k) ∨ s.slicesNow < b.slices + sl then (s.overbook c, b)
        else
          let b := {
            rx := b.rx + b2n (rxKind k), tx := fun y => if y = x then b.tx y + b2n (txKind k) else b.tx y,
            slices := b.slices + sl }
          let set := s.txSet x w
          if s.templateFits k w (s.get (cellStart c)) (s.bit (cellCca c)) (s.ruMax x) (s.ackAir x w) set then
            (s.addActions c x f, b)
          else ((s.raise LNK_EVT.NOFIT).skipCell c, b)

/-- R155: the cells of the new beat. -/
def State.loadBeat (s : State) : State :=
  if s.bit LNK_CTRL.EN then ((s.firing s.abn).foldl State.loadCell (s, s.spanning)).1 else s

/-! ### The scan at a boundary (R201) -/

/-- R201: the scan ends with an event. -/
def State.scanEnds (s : State) (evt : Loc) : State := s.scanStop.raise evt

/-- R201: the slice of a scan that was ended is written OFF. -/
def State.setScan (s : State) (c : Scan) : State := { s with lnk := { s.lnk with scan := some c } }

/-- R201: a scan starts on the lowest usable channel. -/
def State.scanStart (s : State) : State :=
  let n := s.get LNK_SCAN.SLICE
  let active := s.slcPending n || s.slcActive n
  let room := decide (((List.range 16).filter (· ≠ n)).countP s.slcPending + 1 ≤ s.slicesNow)
  match s.scanNext 0 with
  | none => s.scanEnds LNK_TEVT.SCERR
  | some i =>
    if active || !room then s.scanEnds LNK_TEVT.SCERR
    else
      let f := s.get (LNK_CHAN.FREQ i)
      let s := ((s.set (SLC_TUNE.FREQ n) f).set (SLC_CFG.WAVE n) (s.get LNK_SCAN.WAVE)).set (SLC_CFG.MODE n) 2
      let s := s.set (SLC_CFG.CHAIN n) ((chainOf f).getD 0)
      let r := s.get LNK_SCAN.ROUNDS
      s.setScan { slice := n, chan := i, dwell := s.get LNK_SCAN.DWELL, rounds := if r = 0 then none else some r }

/-- R201: where a scan whose dwell has ended goes: the next channel and the rounds left; none where it ends. -/
def State.scanTarget (s : State) (c : Scan) : Option (Nat × Option Nat) :=
  match s.scanNext (c.chan + 1) with
  | some i => some (i, c.rounds)
  | none =>
    match s.scanNext 0, c.rounds with
    | none, _ => none
    | some i, none => some (i, none)
    | some i, some r => if r ≤ 1 then none else some (i, some (r - 1))

/-- R201 at step 5: a start; an ended dwell that ends the scan or moves it to the other band; RUN written 0. -/
def State.scanStep5 (s : State) : State :=
  match s.lnk.scan with
  | none => if s.bit LNK_SCAN.RUN then s.scanStart else s
  | some c =>
    if !s.bit LNK_SCAN.RUN then s.scanStop
    else if 1 < c.dwell then s.setScan { c with dwell := c.dwell - 1 }
    else match s.scanTarget c with
      | none => s.scanEnds LNK_TEVT.SCEND
      | some (i, r) =>
        let f := s.get (LNK_CHAN.FREQ i)
        let x := (chainOf f).getD 0
        if x = s.slcChain c.slice then s.setScan { c with dwell := 0 }
        else
          let s := (s.set (SLC_TUNE.FREQ c.slice) f).set (SLC_CFG.CHAIN c.slice) x
          s.setScan { c with chan := i, dwell := s.get LNK_SCAN.DWELL, rounds := r }

/-- R201 at step 8: a move inside the band, with the tune change of R72. -/
def State.scanStep8 (s : State) : State :=
  match s.lnk.scan with
  | some c =>
    if c.dwell ≠ 0 then s
    else match s.scanTarget c with
      | none => s.scanEnds LNK_TEVT.SCEND
      | some (i, r) =>
        let f := s.get (LNK_CHAN.FREQ i)
        let s := if f = s.get (SLC_TUNE.FREQ c.slice) then s else s.tuneWrite c.slice (BitVec.ofNat 32 f)
        s.setScan { c with chan := i, dwell := s.get LNK_SCAN.DWELL, rounds := r }
  | none => s

/-- SCAN_RUN_WRITE (R201, R204): a write of LNK_SCAN. Both a start and an end act at the next step 5; the end of a running
scan writes its slice OFF at once, effective then. -/
def State.scanWrite (s : State) (w : Word) : State :=
  let wave := if waveOk (fieldOf w 16 4) then fieldOf w 16 4 else 2
  let s := s.setReg LNK_SCAN.addr (w &&& 0xC0F00000#32)
  let s := ((s.set LNK_SCAN.WAVE wave).set LNK_SCAN.DWELL (max 1 (fieldOf w 8 8))).set LNK_SCAN.ROUNDS (fieldOf w 0 8)
  if fieldOf w 31 1 = 0 ∧ s.lnk.scan.isSome then s.scanStop else s

/-- Step 8 of a boundary for LNK (R43, R167, R180, R197, R201, R155). The schedule table is read as it stood before the
writes of this clock (R156). -/
def State.lnkStep8 (s : State) : State :=
  if s.dOn 22 then (((s.applyPend.dupExpire).addUacc.scanStep8).dropStale).onStale State.loadBeat else s

/-! ### The frame of a transmit action (R160, R164, R165, R188 to R191) -/

/-- R188 to R191: the preamble count and the copies of a frame to a taster: none where it is returned with TX_PARAM.
`air` is the airtime in ns of one copy. -/
def State.tasterPlan (s : State) (n x wave air : Nat) : Option (Nat × Nat) :=
  let tint := s.get (nb n 10 0 16)
  let us := 1000 * tint + tasteUs wave + s.get LNK_TSEND.SLACK
  if tint < 20 ∨ 2000 < tint then none
  else if s.bit (nb n 10 23 1) ∨ 5 ≤ wave then some (normalCount wave, ceilDiv (us * 1000) (air + 4000) + 2)
  else
    let set := s.txSet x wave
    let count := if wave = 4 then ceilDiv (us * fskRate set) (fskOctet set * 1000000)
      else ceilDiv us (if wave = 1 then 32 else if wave = 3 then 100 else 25)
    some (count, 1)

/-- What a frame is to be, apart from its bytes. -/
structure TxPlan where
  mcs : Nat
  level : Int
  air : Nat
  copies : Nat
  count : Nat
  mid : Bool
  sec : Bool
  slot : Nat
  deriving DecidableEq, Repr

/-- The neighbour of a frame: 255 for broadcast. -/
def TxAct.peer (a : TxAct) : Nat := if a.kind = 4 then 255 else a.nbr

/-- R106, R160, R188: the plan of a frame for a packet of `len` bytes, or the status that returns it. -/
def State.planFrame (s : State) (a : TxAct) (len : Nat) : Nat ⊕ TxPlan :=
  let n := a.peer
  let bc := decide (n = 255)
  let rated := isMf a.wave || decide (5 ≤ a.wave)
  let mcs := if rated then (if bc then s.get LNK_BCAST.MCS else s.get (nb n 1 28 4)) else 0
  let level := if bc then s.getS LNK_BCAST.LEVEL else s.getS (nb n 1 20 8)
  let sec := if bc then s.bit LNK_BCAST.SEC else s.bit (nb n 0 28 1)
  let slot := if bc then s.get LNK_BCAST.KEYSLOT else s.get (nb n 1 8 8)
  let fcs := s.txFcs a.chain a.wave
  let hdr := if isMf a.wave then 8 else 9
  let aux := if !sec then 0 else if isMf a.wave then 13 else 14
  let psdu := hdr + aux + len + fcs
  let set := s.txSet a.chain a.wave
  let norm := normalCount a.wave
  let mid := midFlag a.wave (s.reg PHY_TXCFG.addr) mcs psdu
  if !txParamOk a.wave mcs psdu fcs norm then .inl 1
  else
    let air := airNs a.wave set mcs norm psdu mid
    if s.get LNK_AIRMAX.AIRMAX * 1000 < air then .inl 0x13
    else
      let taster := !bc && s.bit (nb n 0 30 1)
      match (if taster then s.tasterPlan n a.chain a.wave air else some (norm, 1)) with
      | none => .inl 1
      | some (count, copies) =>
        if !txParamOk a.wave mcs psdu fcs count then .inl 1
        else .inr {
          mcs := mcs, level := level, air := airNs a.wave set mcs count psdu mid,
          copies := copies - 1, count := count, mid := mid, sec := sec, slot := slot }

/-- R184: the ABN of the launch beat written into a beacon. -/
def State.abnMark (s : State) (a : TxAct) (m : List Byte) : List Byte :=
  let o := s.get LNK_BEACON.ABNOFS
  if a.kind = 4 ∧ o + 5 ≤ m.length then m.take o ++ leBytes 5 s.abn ++ m.drop (o + 5) else m

/-- R164, R165, R334: the MPDU of a packet: one kept from an earlier attempt is sent byte for byte (log entry 79); a new frame is
numbered, and secured once. None where its key or the masks refuse it. -/
def State.frameBytes (s : State) (a : TxAct) (q : Nat) (p : Packet) (t : TxPlan) : Option (List Byte × State) :=
  let n := a.peer
  match p.mpdu with
  | some m => some (m, s)
  | none =>
    let key := !t.sec || (s.dOn 24 && s.frameKeyOk t.slot true)
    if !key then none
    else
      let seq := s.get LNK_SEQ.NEXT
      let net := s.get LNK_ADDR.NETID
      let own := s.get LNK_ADDR.ADDR
      let hdr := makeHead a.wave (if a.kind = 4 then 1 else 0) seq net (if n = 255 then 0xFFFF else s.get (nb n 0 0 16)) own
        (decide (n = 255)) a.ackreq t.sec
      let body := s.packetBytes p
      let done (m : List Byte) (s : State) : List Byte × State :=
        (m, (s.set LNK_SEQ.NEXT (seq + 1)).modPkt q p.pid (fun p => { p with seq := some seq, mpdu := some m }))
      if t.sec then
        ((s.blockRead 12 (keyWord t.slot)).maskRun (ccmBlocks (hdr.length + 6) body.length)).map (fun s =>
          let r := s.secureFrame a.wave net own t.slot hdr body (s.abnMark a)
          done r.1 r.2)
      else some (done (s.abnMark a (hdr ++ body)) s)

/-! ### Transmit actions (R153, R158, R161) -/

/-- R178, R247: a look for a candidate: expired packets examined are discarded, nothing is selected. -/
def State.candidate (s : State) (o : Nat) (f : SelFor) : List Nat → State × Bool
  | [] => (s, false)
  | q :: qs =>
    if (s.q q).eligible then
      match s.tryQueue q o f with
      | (s, some _) => (s, true)
      | (s, none) => s.candidate o f qs
    else s.candidate o f qs

/-- R50, R157: the domains a transmit action needs. -/
def State.txDomains (s : State) (a : TxAct) : Bool :=
  s.dOn (20 + a.chain) && s.dOn 19 && s.dOn 23 && (!(a.cca || a.ackreq) || (s.dOn (16 + a.chain) && s.dOn 18))

/-- R74: slices of the chain would show NOSIG, or have no clock. -/
def State.chainDeaf (s : State) (x : Nat) : Bool := decide (s.get (RXF_STAT.MODE x) ≠ 1) || !s.chainClock x

/-- The receive action of the same cell, of a TXRX cell that transmits, is given up (R153). -/
def State.dropRx (s : State) (a : TxAct) : State :=
  { s with lnk := { s.lnk with rx := s.lnk.rx.filter (fun b => b.id ≠ a.id) } }

/-- R122, R158: the carrier is requested and held for the frame. -/
def State.requestCar (s : State) (a : TxAct) (p : Packet) (t : TxPlan) (m : List Byte) : State :=
  let set := (t.copies + 1) * (t.air + 4000) - 4000
  match s.placeCar a.chain a.freq a.wave a.launch (some set) [] with
  | none => ((s.raise TXF_EVT.NOCAR).txOutcome a 2)
  | some (c, lo) =>
    let s := s.hold c lo {
      cell := a.cell, wave := a.wave, freq := a.freq, want := t.level, launch := a.launch,
      ru := s.rampUs a.chain, air := t.air, copies := t.copies, mpdu := m, mcs := t.mcs, count := t.count, mid := t.mid,
      train := decide (0 < t.copies), tc := p.tc }
    s.modTx a.id (fun b => { b with slice := a.slice, pkt := a.pkt, seq := a.seq, wantAck := a.wantAck, carrier := some c })

/-- R157, R158: the slice a transmit action needs, or none where it is skipped. -/
def State.txSlice (s : State) (a : TxAct) : Option (State × TxAct) :=
  if !(a.cca || a.ackreq) then some (s, a)
  else match s.freeSched with
    | none => none
    | some n => if s.chainDeaf a.chain || s.slcWaits n then none else some (s.takeSlice n, { a with slice := some n })

/-- R158: a transmit action with its packet. -/
def State.txPacket (s : State) (a : TxAct) (q : Nat) (p : Packet) : State :=
  let a := { a with pkt := some (q, p.pid) }
  let s := s.modTx a.id (fun _ => a)
  let s := s.corrected (packetWord p)
  match s.eccInPacket p with
  | some e => (s.endTx a).dropEcc q p e
  | none =>
    match s.planFrame a p.len with
    | .inl e => s.txOutcome a e
    | .inr t =>
      match s.frameBytes a q p t with
      | none => (if s.dOn 24 && !s.frameKeyOk t.slot true then s.raise KEY_EVT.FRAMEKEY else s).txOutcome a 1
      | some (m, s) =>
        let seq := (((s.q q).pkts.find? (fun r => r.pid = p.pid)).bind (·.seq)).getD 0
        match s.txSlice { a with seq := seq, wantAck := a.ackreq } with
        | none => s.skipTx a
        | some (s, a) => s.requestCar a p t m

/-- R153, R178, R247: what a transmit action selects. -/
def State.txSelect (s : State) (a : TxAct) : State × Option (Nat × Packet) :=
  if a.kind = 4 then s.selectBeacon (s.get LNK_BEACON.QUEUE) a.launch
  else
    let cnt := s.get (boCNT a.nbr)
    let look := s.candidate a.chain { nbr := a.nbr, launchAt := a.launch, skim := s.get LNK_CTRL.SKIM }
      (s.strictQs a.chain ++ s.weightedQs a.chain)
    if sharedKind a.kind && decide (0 < cnt) then (if look.2 then look.1.set (boCNT a.nbr) (cnt - 1) else look.1, none)
    else s.selectRadio a.chain a.nbr a.launch

/-- TX_CELL_START (R153, R158): the cell start C of a transmit action of this cell. A TXRX cell that finds no packet receives,
whatever domain a transmission would need. -/
def State.txCellStart (s : State) (cell : Nat) : State :=
  match s.lnk.tx.find? (fun a => decide (a.cell = cell) && !a.started) with
  | none => s
  | some a =>
    let a := { a with started := true }
    let s := s.modTx a.id (fun _ => a)
    if a.kind ≠ 3 ∧ !s.txDomains a then s.skipTx a
    else if !s.dOn 23 then s.endTx a
    else match s.txSelect a with
      | (s, none) => s.endTx a
      | (s, some (q, p)) => if s.txDomains a then (s.dropRx a).txPacket a q p else (s.dropRx a).skipTx a

/-- TX_CELL_START. -/
def execTxCellStart (cell : Fin 4096) (s : State) : Host.Outcome State Fault Refusal := .next (s.txCellStart cell.val)

/-- CCA_START (R158, R161): the slice is on its channel and measures. -/
def State.ccaStart (s : State) (cell : Nat) : State :=
  match s.lnk.tx.find? (fun a => decide (a.cell = cell) && a.cca && a.carrier.isSome && !a.sensing) with
  | none => s
  | some a =>
    match a.slice with
    | none => s
    | some n =>
      let s := s.schedTune n a.chain a.wave a.freq
      s.modTx a.id (fun a => { a with sensing := true, busy := s.bit (RXF_STAT.DEAF a.chain) })

/-- CCA_START. -/
def execCcaStart (cell : Fin 4096) (s : State) : Host.Outcome State Fault Refusal := .next (s.ccaStart cell.val)

/-- CCA_END (R161): the mean power at the ball in 0.5 dB. -/
def State.ccaEnd (s : State) (cell : Nat) (power : Int) : State :=
  match s.lnk.tx.find? (fun a => decide (a.cell = cell) && a.sensing) with
  | none => s
  | some a =>
    let s := s.modTx a.id (fun a => { a with sensing := false, cca := false })
    let a := { a with sensing := false, cca := false }
    match a.carrier with
    | none => s
    | some c =>
      if a.busy || decide (2 * s.getS LNK_CCA.THR ≤ s.rssiOf a.chain power) then
        ((s.modTx a.id (fun a => { a with carrier := none })).freeCar c (s.get (TXF_CARSTAT.STATUS c))).txOutcome a 0x12
      else
        let s := s.modCar c (fun k => { k with cca := some (s.tb 0) })
        if a.ackreq then s else (s.modTx a.id (fun a => { a with slice := none })).releaseSlice a.slice

/-- CCA_END. -/
def execCcaEnd (cell : Fin 4096) (power : Int) (s : State) : Host.Outcome State Fault Refusal :=
  .next (s.ccaEnd cell.val power)

/-- ACK_WAIT_TIMEOUT (R158, R175): without SYNC the attempt ends as NOACK. -/
def State.ackTimeout (s : State) (cell : Nat) : State :=
  match s.lnk.tx.find? (fun a => decide (a.cell = cell) && a.waiting) with
  | none => s
  | some a =>
    if a.slice.any (fun n => (vget s.slc n).frame.isSome) then s.modTx a.id (fun a => { a with late := true })
    else s.txOutcome a 0x10

/-- ACK_WAIT_TIMEOUT. -/
def execAckWaitTimeout (cell : Fin 4096) (s : State) : Host.Outcome State Fault Refusal := .next (s.ackTimeout cell.val)

/-! ### Receive actions (R159) -/

/-- RX_WINDOW_OPEN (R159, R157, R144): the slice is taken and tuned, and the window opens. -/
def State.rxOpen (s : State) (cell : Nat) : State :=
  match s.lnk.rx.find? (fun a => decide (a.cell = cell) && !a.opened && !s.lnk.tx.any (fun b => decide (b.id = a.id))) with
  | none => s
  | some a =>
    if !s.dOn (16 + a.chain) || !s.dOn 18 || !s.dOn 19 then s.skipRx a
    else match s.freeSched with
      | none => s.skipRx a
      | some n =>
        if s.chainDeaf a.chain || s.slcWaits n then s.skipRx { a with slice := some n }
        else
          let s := (s.takeSlice n).schedTune n a.chain a.wave a.freq
          let s := s.modRx a.id (fun a => { a with slice := some n, opened := true })
          if s.bit COEX_CTRL.RXREQ then
            { s with lnk := { s.lnk with rxReq := s.lnk.rxReq ++ [a.id] } }.coexWires
          else s

/-- RX_WINDOW_OPEN. -/
def execRxWindowOpen (cell : Fin 4096) (s : State) : Host.Outcome State Fault Refusal := .next (s.rxOpen cell.val)

/-- RX_WINDOW_CLOSE (R159): without SYNC the action ends as RX_IDLE. -/
def State.rxClose (s : State) (cell : Nat) : State :=
  match s.lnk.rx.find? (fun a => decide (a.cell = cell) && a.opened && !a.closed) with
  | none => s
  | some a =>
    if a.slice.any (fun n => s.bit (SLC_STAT.SYNC n)) then s.modRx a.id (fun a => { a with closed := true })
    else s.idleRx a

/-- RX_WINDOW_CLOSE. -/
def execRxWindowClose (cell : Fin 4096) (s : State) : Host.Outcome State Fault Refusal := .next (s.rxClose cell.val)

/-! ### Acceptance (R166 to R169, R194, R198 to R201) -/

/-- R168: a decided frame is this one's twin. -/
def State.isTwin (s : State) (src seq f stamp : Nat) : Bool :=
  s.lnk.recent.any (fun r => decide (r.1 = src) && decide (r.2.1 = seq) && decide (r.2.2.1 = f) &&
    decide ((tbDiff r.2.2.2 stamp).natAbs ≤ 2 * usTb))

/-- R168: the frame is remembered; frames a second apart are never twins. -/
def State.remember (s : State) (src seq f stamp : Nat) : State :=
  let old := s.lnk.recent.filter (fun r => decide ((tbDiff r.2.2.2 stamp).natAbs ≤ 1000000 * usTb))
  { s with lnk := { s.lnk with recent := old ++ [(src, seq, f, stamp)] } }

/-- R165, R334: the key slot under which a frame from index `idx` is opened. -/
def State.openSlot (s : State) (h : Head) (idx : Nat) : Nat :=
  if h.bcast ∨ idx = 255 then s.get LNK_BCAST.KEYSLOT else s.get (nb idx 1 8 8)

/-- R184, R199: the bytes of a frame before its MIC, deciphered where it is secured. -/
def State.carried (s : State) (d : RxDone) (idx : Nat) : List Byte :=
  match headOf d.wave d.mpdu with
  | none => d.mpdu
  | some h =>
    if !h.sec then d.mpdu
    else match auxOf d.wave (d.mpdu.drop h.len), s.openFrame d.wave h (s.openSlot h idx) d.mpdu with
      | some a, some r => d.mpdu.take (h.len + a.2.2.2) ++ r.2
      | _, _ => d.mpdu

/-- R166 step 4, R334: a frame's payload and frame counter, or none where security refuses it. -/
def State.unsecure (s : State) (d : RxDone) (h : Head) (idx : Nat) : State × Option (Option Nat × List Byte) :=
  if h.sec then
    match (if s.dOn 24 then
        (s.blockRead 12 (keyWord (s.openSlot h idx))).maskRun (ccmBlocks (h.len + 6) (d.mpdu.length - h.len)) else none) with
    | none => (s, none)
    | some s => (s, (s.openFrame d.wave h (s.openSlot h idx) d.mpdu).map (fun r => (some r.1, r.2)))
  else if s.bit LNK_CTRL.SECREQ || (decide (idx ≠ 255) && s.bit (nb idx 0 28 1)) then (s, none)
  else (s, some (none, d.mpdu.drop h.len))

/-- R166 step 7: the frame is offered to MSH; what it refuses is RX_NOROOM. -/
def State.offerMesh (s : State) (d : RxDone) (h : Head) (idx : Nat) (payload : List Byte) : Bool × State :=
  if !s.dOn 23 then (false, s)
  else
    let w := fun (v : Nat) => (BitVec.ofNat 32 (tbNs v), BitVec.ofNat 32 (tbSec v % 65536 * 65536 + tbFrac v))
    match s.decidePacket { bytes := payload, stamp := w d.stamp } 0 (some { band := d.chain, nbr := idx, src := h.src.getD 0 }) with
    | (.refused _, s) => (false, s)
    | (_, s) => (true, s)

/-- R166, R168: the status of a frame and its source index, with what deciding it does. -/
def State.judgeFrame (s : State) (d : RxDone) : Nat × Nat × State :=
  match headOf d.wave d.mpdu with
  | none => (0x23, 255, s)
  | some h =>
    let src := h.src.getD 0
    let s := if h.src.isSome then s.nbrScan src else s
    let idx := if h.src.isSome then s.nbrOf src else 255
    if s.isTwin src h.seq d.freq d.stamp then (0x22, idx, s)
    else
      let s := s.remember src h.seq d.freq d.stamp
      if h.type = 2 ∨ h.netid ≠ s.get LNK_ADDR.NETID then (0x23, 255, s)
      else if !h.bcast ∧ h.dst ≠ s.get LNK_ADDR.ADDR then (0x23, 255, s)
      else
        match s.unsecure d h idx with
        | (s, none) => (0x24, idx, s)
        | (s, some (fc, payload)) =>
          if idx ≠ 255 ∧ s.isDup idx h.seq then (0x21, idx, s)
          else if idx ≠ 255 ∧ fc.any (fun v => decide (v ≤ s.get (nb idx 3 0 32))) then (0x24, idx, s)
          else
            match s.offerMesh d h idx payload with
            | (false, s) => (0x25, idx, s)
            | (true, s) =>
              let s := if idx = 255 then s
                else
                  let s := (s.dupPush idx h.seq).inc (nb idx 7 16 16)
                  let s := match fc with
                    | some v => s.set (nb idx 3 0 32) v
                    | none => s
                  s.clearDown idx
              (0x20, idx, (s.inc LNK_RXOKCNT.COUNT).pulse 0x82)

/-- R166, R168, R182: the counters of a decision. -/
def State.countDecision (s : State) (status idx lq : Nat) : State :=
  let s := if idx ≠ 255 then s.set (nb idx 6 24 8) lq else s
  if status = 0x21 ∨ status = 0x22 then
    let s := s.inc LNK_RXERRCNT.DUP
    if idx ≠ 255 then s.inc (nb idx 7 0 16) else s
  else if status = 0x24 then (s.inc LNK_RXERRCNT.SEC).raise LNK_EVT.SEC
  else if status = 0x25 then s.raise LNK_EVT.NOROOM
  else s

/-- R194, R198 to R200: what a decided frame means for the receive action it came in. -/
def State.actionEnds (s : State) (d : RxDone) (status idx : Nat) : State :=
  match d.act with
  | none => s
  | some (_, kind, n, launch) =>
    let ok := decide (status = 0x20) || decide (status = 0x21)
    let o := roundDiv (tbDiff launch d.stamp) (100 * 65536)
    let s := if ok && rxKind kind && decide (idx ≠ 255) then s.contact idx o else s
    if kind ≠ 5 then s
    else
      let from_ := match headOf d.wave d.mpdu with
        | some h => decide (h.type = 1) && decide (n ≠ 255) && decide (h.src = some (s.get (nb n 0 0 16)))
        | none => false
      let s := if ok && from_ then s.timeSource n o (s.carried d idx) (decide (d.steps < s.tsu.steps)) else s
      s.brxEnd n d.held (some (ok && from_))

/-- R169, R192: the acknowledgement is owed; otherwise the frame is done with and its reservation released. -/
def State.oweAck (s : State) (d : RxDone) (status idx : Nat) : State :=
  let owed := match headOf d.wave d.mpdu with
    | some h => h.ackreq && !h.bcast && (decide (status = 0x20) || decide (status = 0x21) || decide (status = 0x25)) &&
        (decide (idx ≠ 255) || s.bit LNK_CTRL.ACKUNK) && !d.more
    | none => false
  if owed then
    { s with lnk := { s.lnk with done := s.lnk.done.map (fun e =>
      if e.fid = d.fid then { e with owed := some (decide (status = 0x25), idx) } else e) } }
  else { s with lnk := { s.lnk with done := s.lnk.done.filter (fun e => e.fid ≠ d.fid) } }.unreserve d.carrier

/-- R166: the oldest undecided frame of slice `n` is decided. -/
def State.decideFrame (s : State) (n : Nat) : State :=
  match s.lnk.done.find? (fun d => decide (d.slice = n) && d.owed.isNone) with
  | none => s
  | some d =>
    match s.judgeFrame d with
    | (status, idx, s) =>
      let s := (s.countDecision status idx d.lq).rxReport status idx n (d.act.map (·.1))
      let s := (s.oweAck d status idx).actionEnds d status idx
      if d.act.isNone && d.scan && (decide (status = 0x20) || decide (status = 0x21)) then
        match headOf d.wave d.mpdu with
        | some h => if h.type = 1 then s.scanMatch n (h.src.getD 0) (s.carried d idx) else s
        | none => s
      else s

/-- R168: the slices below `n` whose frames are decided in this clock as well: their commands wait. -/
def State.alsoDecided (s : State) (n : Nat) : List (Fin 16) :=
  (List.finRange 16).filter (fun m => decide (m.val < n) && s.pending.contains (.frameAcceptance m))

/-- FRAME_ACCEPTANCE (R166, R168): of frames decided in one clock, that of the lowest slice is processed first. -/
def State.frameAcceptance (s : State) (n : Nat) : State :=
  (s.each (s.alsoDecided n) (fun s m => s.decideFrame m.val)).decideFrame n

/-- FRAME_ACCEPTANCE. -/
def execFrameAcceptance (n : Fin 16) (s : State) : Host.Outcome State Fault Refusal := .next (s.frameAcceptance n.val)

/-! ### Radio stop (R15) -/

/-- R15: every frame in reception is abandoned with CLKLOSS, transmissions are cut with TX_CUT, and acknowledgements owed are
not sent. -/
def State.radioStop (s : State) : State :=
  let s := s.each (List.range 16) (fun s n => s.abandon n 9)
  let s := (((s.cutChain 0 5).cutChain 1 5).loseWindow 0).loseWindow 1
  let owed := s.lnk.done.filter (·.owed.isSome)
  let s := s.each owed (fun s d => s.unreserve d.carrier)
  let s := { s with lnk := { s.lnk with done := s.lnk.done.filter (·.owed.isNone) } }
  s.each ((List.range 8).filter (fun c => (s.cr c).any (fun k => k.ack && !k.on && decide (k.phase ≠ .gated))))
    (fun s c => s.freeCar c 5)

end Sys2Proof.Machine
end

