-- ==== Sys2Proof/Machine/Tasting.lean ====
section
/-! DEFINITION. Chapters 3 and 7, the taster's side: taste windows, detection, the awake period, the interval logic and the
continuation test. -/
namespace Sys2Proof.Machine

/-! ### Windows (R77, R78) -/

/-- R77: the lowest-numbered free slice. A slice with a pending mode other than OFF is not free, and none is once the active
slices reach the number the level in force allows (DESIGN CHOICE, log entry 204: R70 calls an OFF slice free, R73 counts a
slice that serves a window as active). -/
def State.freeSlice (s : State) : Option Nat :=
  if !s.dOn 18 || decide (s.slicesNow ≤ (List.range 16).countP s.slcActive) then none
  else (List.range 16).find? (fun n => !s.slcActive n && !s.slcPending n)

/-- R77: START. In FULL its slice runs STATIC on the taste channel and waveform for the window. -/
def State.tasteStart (s : State) (x : Nat) : State :=
  let m := s.get (RXF_STAT.MODE x)
  let w := s.get (RXF_TASTE.WAVE x)
  if (vget s.rxc x).window.isSome then s
  else if m = 0 ∨ s.bit (RXF_STAT.DEAF x) ∨ w = 0 ∨ !s.chainClock x then s.skipTaste x
  else if m = 2 then (s.modRxc x (fun c => { c with window := some none })).set (RXF_STAT.TBUSY x) 1
  else
    match s.freeSlice with
    | none => s.skipTaste x
    | some n =>
      let f := s.get (RXF_TFREQ.FREQ x)
      let s := (s.modRxc x (fun c => { c with window := some (some n) })).set (RXF_STAT.TBUSY x) 1
      let s := ((s.set (SLC_STAT.TASTE n) 1).set (SLC_STAT.MODE n) 2).set (SLC_STAT.CHAIN n) x
      (s.applyTune n f w).showSlices

/-- TASTE_START (R77, R84): a write of RXF_TASTEx. -/
def State.tasteWrite (s : State) (x : Nat) (w : Word) : State :=
  let s := ((s.set (RXF_TASTE.ETHR x) (fieldOf w 24 8)).set (RXF_TASTE.SLICE x) (fieldOf w 20 4)).set
    (RXF_TASTE.GAINIDX x) (fieldOf w 16 4)
  let s := (s.set (RXF_TASTE.PTHR x) (max 1 (fieldOf w 12 4))).set (RXF_TASTE.DETMODE x) (fieldOf w 4 2)
  let s := if 9 ≤ fieldOf w 8 4 then s else s.set (RXF_TASTE.WAVE x) (fieldOf w 8 4)
  let s := if s.get (RXF_STAT.MODE x) = 2 then s.aimGain x (fieldOf w 16 4) else s
  if fieldOf w 0 1 = 1 then s.tasteStart x else s

/-- R78, R186: the awake slice is taken STATIC on the taste channel at once. -/
def State.takeAwake (s : State) (x n : Nat) : State :=
  let f := s.get (RXF_TFREQ.FREQ x)
  let w := s.get (RXF_TASTE.WAVE x)
  let s := ((s.set (SLC_CFG.MODE n) 2).set (SLC_CFG.CHAIN n) x).set (SLC_CFG.WAVE n) w
  let s := ((s.set (SLC_TUNE.FREQ n) f).set (SLC_STAT.MODE n) 2).set (SLC_STAT.CHAIN n) x
  let s := (s.set (SLC_STAT.DEAF n) (s.get (RXF_STAT.DEAF x))).applyTune n f w
  let s := s.modRxc x (fun c => { c with awake := some n, releasing := false })
  (s.set (byChain x LNK_TAWAKE.A LNK_TAWAKE.B) 1).showSlices

/-- R78: the detection rule. -/
def State.tasteDetects (s : State) (x : Nat) (power : Int) (corr : Nat) : Bool :=
  let e := decide (-(2 * (s.get (RXF_TASTE.ETHR x) : Int)) ≤ power)
  let p := decide (s.get (RXF_TASTE.PTHR x) ≤ corr)
  match s.get (RXF_TASTE.DETMODE x) with
  | 0 => e || p
  | 1 => e
  | 2 => p
  | _ => e && p

/-- R78, R422: a detection. -/
def State.tasteDetected (s : State) (x : Nat) : State :=
  let s := ((s.raise (byChain x RXF_EVT.TDETA RXF_EVT.TDETB)).inc (RXF_TCNT.DET x)).pulse (0x80 + x)
  let s := if s.bit (RXF_CTRL.AUTOFULL x) then
      let n := s.get (RXF_TASTE.SLICE x)
      let s := (s.set (RXF_CTRL.MODE x) 1).setChainMode x 1
      if s.slcActive n || decide (s.slicesNow ≤ (List.range 16).countP s.slcActive) then
        s.raise (byChain x RXF_EVT.TNOSLA RXF_EVT.TNOSLB)
      else s.takeAwake x n
    else s
  s.wake ([18, 19] ++ (if s.bit PWR_CTRL.TDETSET then s.wakeSet else [])) 6 x true

/-- TASTE_DECISION (R78). -/
def State.tasteDecision (s : State) (x : Nat) (power : Int) (corr : Nat) : State :=
  if (vget s.rxc x).window.isNone || !s.dOn (16 + x) then s
  else
    let s := s.endWindow x
    if s.tasteDetects x power corr then s.tasteDetected x else s

/-- TASTE_DECISION. -/
def execTasteDecision (x : Fin 2) (power : Int) (corr : Nat) (s : State) : Host.Outcome State Fault Refusal :=
  .next (s.tasteDecision x.val power corr)

/-! ### The interval logic (R185) -/

/-- R185: SLOW ticks between STARTs. -/
def intervalTicks (ms : Nat) : Nat := (roundDiv ((ms * 32768 : Nat) : Int) 1000).toNat

/-- R185, R422: a START of the interval logic; a chain whose domain is not on is woken for it. -/
def State.intervalStart (s : State) (x : Nat) : State :=
  if s.dOn (16 + x) then s.tasteStart x
  else (s.modRxc x (fun c => { c with due := true })).wake [16 + x] 0 0 false

/-- TASTE_INTERVAL_TICK (R185). -/
def State.intervalTick (s : State) (x : Nat) : State :=
  if !s.bit (LNK_TINT.EN x) then s.modRxc x (fun c => { c with ticks := 0 })
  else
    let t := (vget s.rxc x).ticks + 1
    if t < intervalTicks (s.get (LNK_TINT.INTERVAL x)) then s.modRxc x (fun c => { c with ticks := t })
    else (s.modRxc x (fun c => { c with ticks := 0 })).intervalStart x

/-- TASTE_INTERVAL_TICK. -/
def execTasteIntervalTick (x : Fin 2) (s : State) : Host.Outcome State Fault Refusal := .next (s.intervalTick x.val)

/-- R185: the chain's domain is ready for a START that waits for it. -/
def State.dueStart (s : State) (x : Nat) : State :=
  if (vget s.rxc x).due then (s.modRxc x (fun c => { c with due := false })).tasteStart x else s

/-- R78, R186: the slice domain is back: an awake slice that its registers lost is taken again. -/
def State.awakeAgain (s : State) (x : Nat) : State :=
  match (vget s.rxc x).awake with
  | some n => if s.slcActive n then s else s.takeAwake x n
  | none => s

/-! ### The awake period (R186, R187, R192) -/

/-- AWAKE_RELEASE (R187). -/
def State.awakeRelease (s : State) (x : Nat) : State :=
  match (vget s.rxc x).awake with
  | none => s
  | some n =>
    let busy := s.bit (SLC_STAT.SYNC n) || s.lnk.done.any (fun d => decide (d.slice = n)) ||
      (carriersOf x).any (fun c => (s.cr c).any (fun k => k.ack && decide (k.slice = n)))
    if busy || (vget s.rxc x).releasing then s
    else
      let s := (s.modRxc x (fun c => { c with releasing := true })).set (SLC_CFG.MODE n) 0
      (s.set (RXF_CTRL.MODE x) 2).raise LNK_TEVT.TRELEASE

/-- AWAKE_RELEASE. -/
def execAwakeRelease (x : Fin 2) (s : State) : Host.Outcome State Fault Refusal := .next (s.awakeRelease x.val)

/-- R187, at step 5: a released slice that went OFF ends the awake period. -/
def State.awakeEnds (s : State) : State :=
  s.each [0, 1] (fun s x =>
    match (vget s.rxc x).awake with
    | some n =>
      if s.get (SLC_STAT.MODE n) = 0 then
        (s.modRxc x (fun c => { c with awake := none, releasing := false })).set (byChain x LNK_TAWAKE.A LNK_TAWAKE.B) 0
      else s
    | none => s)

/-- CONTINUATION_CHECK (R192): power after the last frame of an awake slice holds its acknowledgement back. -/
def State.continuation (s : State) (n : Nat) (power : Int) : State :=
  match (s.lnk.done.filter (fun d => decide (d.slice = n) && d.awake)).getLast? with
  | none => s
  | some d =>
    let asks := (headOf d.wave d.mpdu).any (·.ackreq)
    let train := !isMf d.wave || bitOf d.flags 1
    if asks && train && !d.more && decide (2 * s.getS LNK_TRX.CTHR ≤ s.rssiOf d.chain power) then
      let s := s.raise LNK_TEVT.TDEFER
      if d.owed.isSome then
        { s with lnk := { s.lnk with done := s.lnk.done.filter (fun e => e.fid ≠ d.fid) } }.unreserve d.carrier
      else
        { s with lnk := { s.lnk with done := s.lnk.done.map (fun e => if e.fid = d.fid then { e with more := true } else e) } }
    else s

/-- CONTINUATION_CHECK. -/
def execContinuationCheck (n : Fin 16) (power : Int) (s : State) : Host.Outcome State Fault Refusal :=
  .next (s.continuation n.val power)

end Sys2Proof.Machine
end

