-- ==== Sys2Proof/Machine/Events.lean ====
section
/-! DEFINITION. Chapter 18: delivery of events to the consumer inputs, events that meet a sleeping consumer, and the
routing check of the recipe commit. -/
namespace Sys2Proof.Machine

/-! ### Consumer inputs (R453) -/

/-- R453: an input is busy from the arrival of an event until the event has acted. -/
def State.inputBusy (s : State) (c : Nat) : Bool :=
  if 0x08 ≤ c ∧ c < 0x30 then s.tmrBusy (c % 8) (c / 8 - 1)
  else if c = 0x50 then (vget s.rxc 0).window.isSome
  else if c = 0x51 then (vget s.rxc 1).window.isSome
  else if c = 0x52 then s.tsu.capPend
  else false

/-- R453: what an event does at a consumer input. An engine's wake input does nothing while its domain is on. -/
def State.inputActs (s : State) (c : Nat) : State :=
  if 0x08 ≤ c ∧ c < 0x30 then s.tmrInput (c % 8) (c / 8 - 1)
  else if c = 0x50 then s.tasteStart 0
  else if c = 0x51 then s.tasteStart 1
  else if c = 0x52 then { s with tsu := { s.tsu with capPend := true } }
  else if 0x60 ≤ c ∧ c < 0x80 then s.padToggle (c - 0x60)
  else s

/-- An event reaches a consumer input. `at_` is the clock it entered its channel in: two that entered in one clock arrive
in one clock and act as one (R455). -/
def State.arrive (s : State) (c at_ : Nat) : State :=
  if aget s.evr.arrived c = some at_ then s.coalesce
  else
    let s := { s with evr := { s.evr with arrived := aput s.evr.arrived c at_ } }
    if s.inputBusy c then s.overrun c else s.inputActs c

/-- R456: an event whose consumer's domain is not on. -/
def State.eventSleeps (s : State) (k c : Nat) (wake : Bool) : State :=
  if wake then
    if s.evHeld k then s.when (s.dOn 28) State.coalesce
    else (s.setHeld k true).wake [consumerDomain c] 5 k true
  else (s.inc EVR_DROPCNT.COUNT).raise EVR_EVT.DROP

/-- The routing word of a channel: its register, or its always-on copy while PER is not on (R456). -/
def State.chRoute (s : State) (k : Nat) : Word :=
  if s.dOn 28 then s.reg (EVR_CHCFG.addr k) else (aget s.evr.routes k).getD 0

/-- EVENT_DELIVERY (R451, R455, R456): the oldest event on channel `k` sets the flag and reaches the consumer input. -/
def State.deliver (s : State) (k : Nat) : State :=
  match s.evr.transit.find? (fun p => p.1 = k) with
  | none => s
  | some p =>
    let s := { s with evr := { s.evr with transit := s.evr.transit.erase p } }
    let w := s.chRoute k
    let c := fieldOf w 0 8
    let s := s.when (s.dOn 28) (·.evFlag k)
    if c = 0 then s
    else if s.dOn (consumerDomain c) then s.arrive c p.2
    else s.eventSleeps k c (fieldOf w 31 1 = 1)

/-- EVENT_DELIVERY. -/
def execEventDelivery (k : Fin 64) (s : State) : Host.Outcome State Fault Refusal := .next (s.deliver k.val)

/-- R456: held events are delivered when their consumer's domain is ready. -/
def State.deliverHeld (s : State) (d : Nat) : State :=
  s.each ((List.range 64).filter s.evHeld) (fun s k =>
    let w := match aget s.evr.routes k with
      | some w => w
      | none => s.reg (EVR_CHCFG.addr k)
    let c := fieldOf w 0 8
    if consumerDomain c = d then (s.setHeld k false).arrive c s.clk else s)

/-- R456: the always-on copies of the WAKE channels taken at the recipe commit. -/
def State.copyRoutes (s : State) : State :=
  let all := (List.range 64).map (fun k => (k, s.reg (EVR_CHCFG.addr k)))
  { s with evr := { s.evr with routes := all.filter (fun r => fieldOf r.2 31 1 = 1) } }

/-! ### The commit check (R458) -/

/-- R452: a producer identifier that is not reserved. -/
def producerOk (p : Nat) : Bool :=
  decide (p ≤ 4) || (decide (0x08 ≤ p) && decide (p < 0x18)) || (decide (0x20 ≤ p) && decide (p ≤ 0x86))

/-- R453: a consumer identifier that is not reserved. -/
def consumerOk (c : Nat) : Bool :=
  decide (c = 0) || (decide (0x08 ≤ c) && decide (c < 0x30)) || (decide (0x40 ≤ c) && decide (c ≤ 0x52)) ||
    (decide (0x60 ≤ c) && decide (c < 0x80))

/-- R457: a selector that is not reserved. -/
def selectorOk (x : Nat) : Bool := decide (x < 0x70) || decide (x = 0x7E) || decide (x = 0x7F)

/-- The four selectors of a cell. -/
def State.selectors (s : State) (c : Nat) : List Nat :=
  [s.get (EVR_PCIN.IN0 c), s.get (EVR_PCIN.IN1 c), s.get (EVR_PCIN.IN2 c), s.get (EVR_PCIN.IN3 c)]

/-- R458: the cells a cell reads, and the channels it taps. -/
def State.cellReads (s : State) (c : Nat) : List Nat :=
  ((s.selectors c).filter (fun x => decide (0x60 ≤ x) && decide (x < 0x70))).map (· - 0x60)

/-- The channels a cell taps. -/
def State.cellTaps (s : State) (c : Nat) : List Nat := (s.selectors c).filter (· < 0x40)

/-- R458: the cell adds no registered stage. -/
def State.cellDirect (s : State) (c : Nat) : Bool :=
  decide (s.get (EVR_PCCFG.REG c) = 0) && decide (s.get (EVR_PCCFG.FILT c) = 0)

/-- The cells that reach one of `l` through cells without a registered stage, in at most `k` steps. -/
def State.feeds (s : State) : Nat → List Nat → List Nat
  | 0, l => l
  | k + 1, l => s.feeds k ((List.range 16).filter (fun c =>
      decide (c ∈ l) || l.any (fun d => decide (c ∈ s.cellReads d) && s.cellDirect c)))

/-- R458: a cell stands on a loop with no registered stage. -/
def State.onLoop (s : State) (c : Nat) : Bool :=
  s.cellDirect c && decide (c ∈ s.feeds 15 ((s.cellReads c).filter s.cellDirect))

/-- R458: an instance a consumer names belongs to the stack partition. -/
def State.consumerOfStack (s : State) (c : Nat) : Bool :=
  if 0x08 ≤ c ∧ c < 0x30 then !bitOf (s.get TMR_OWN.OWN) (c % 8)
  else if 0x40 ≤ c ∧ c < 0x50 then !s.isApp (c - 0x40)
  else if 0x50 ≤ c ∧ c < 0x53 then true
  else if 0x60 ≤ c ∧ c < 0x80 then !bitOf (s.get PAD_OWN.OWN) (c - 0x60)
  else false

/-- R458: an ownership breach of a channel. -/
def State.channelBreach (s : State) (k : Nat) : Bool :=
  s.bit (EVR_CHCFG.OWNER k) &&
    (s.bit (EVR_CHCFG.SEC k) || s.consumerOfStack (s.get (EVR_CHCFG.CONSUMER k)) ||
      decide (s.get (EVR_CHCFG.PRODUCER k) = 0x80) || decide (s.get (EVR_CHCFG.PRODUCER k) = 0x81))

/-- R458: an ownership breach of a cell. -/
def State.cellBreach (s : State) (c : Nat) : Bool :=
  s.bit (EVR_PCCFG.OWNER c) &&
    ((s.cellTaps c).any (fun k => s.bit (EVR_CHCFG.SEC k)) || (s.cellReads c).any (fun d => !s.bit (EVR_PCCFG.OWNER d)))

/-- R458: the breaches as RESULT and INDEX: the codes in ascending order, and for each the channels, then the cells, then
the units (DESIGN CHOICE, log entry 21). -/
def State.evrBreaches (s : State) : List (Nat × Nat) :=
  let ch := List.range 64
  let pc := List.range 16
  let un := List.range 8
  (pc.filter s.onLoop).map (fun c => (2, 0x40 + c)) ++
  (ch.filter (fun k => !(producerOk (s.get (EVR_CHCFG.PRODUCER k)) && consumerOk (s.get (EVR_CHCFG.CONSUMER k))))).map
    (fun k => (3, k)) ++
  (pc.filter (fun c => !(s.selectors c).all selectorOk)).map (fun c => (3, 0x40 + c)) ++
  (un.filter (fun n => decide (4 ≤ s.get (TMR_CFG.CLKSRC n)) || (decide (n % 2 = 1) && s.bit (TMR_CFG.CHAIN n)))).map
    (fun n => (3, 0x80 + n)) ++
  (ch.filter s.channelBreach).map (fun k => (4, k)) ++
  (pc.filter s.cellBreach).map (fun c => (4, 0x40 + c)) ++
  (un.filter (fun n => s.chained n && (bitOf (s.get TMR_OWN.OWN) n != bitOf (s.get TMR_OWN.OWN) (n + 1)))).map
    (fun n => (5, 0x80 + n))

/-- R458: the check at the recipe commit. It passes or records the first breach. -/
def State.evrCheck (s : State) : Bool × State :=
  match s.evrBreaches with
  | [] => (true, (s.set EVR_CHECK.RESULT 1).set EVR_CHECK.INDEX 0)
  | b :: _ => (false, (s.set EVR_CHECK.RESULT b.1).set EVR_CHECK.INDEX b.2)

end Sys2Proof.Machine
end

