-- ==== Sys2Proof/Machine/Memory.lean ====
section
/-! DEFINITION. The memory ranges of the engine view (R18, R19, R22, R23, R29 to R31, R416): what an access meets, and the
bytes it reads and writes. The peripheral range is the bus's. -/
namespace Sys2Proof.Machine

/-- The words of a byte list, little-endian, the last padded with zeros. -/
def wordsOf (n : Nat) (b : List Byte) : List Word := (piecesLe n b).map (fun l => BitVec.ofNat 32 (leNat l))
where
  /-- Pieces of four bytes. -/
  piecesLe : Nat → List Byte → List (List Byte)
    | 0, _ => []
    | _ + 1, [] => []
    | k + 1, b => b.take 4 :: piecesLe k (b.drop 4)

/-- Where an address of the engine view lies (R18), with the offset in the range. -/
inductive Region where
  | imem (off : Nat)
  | dmem (off : Nat)
  | pb (off : Nat)
  | ft (off : Nat)
  | jar (off : Nat)
  | crumb (off : Nat)
  | rom (off : Nat)
  | periph (off : Nat)
  | hole
  deriving DecidableEq, Repr

/-- R18: the map. -/
def regionOf (a : Nat) : Region :=
  if a < 0x10000 then .imem a
  else if a < 0x20000 then .dmem (a % 0x10000)
  else if 0x10000000 ≤ a ∧ a < 0x10400000 then .pb (a % 0x400000)
  else if 0x11000000 ≤ a ∧ a < 0x11040000 then .ft (a % 0x40000)
  else if 0x12000000 ≤ a ∧ a < 0x12008000 then .jar (a % 0x8000)
  else if 0x12008000 ≤ a ∧ a < 0x12010000 then .crumb (a % 0x8000)
  else if 0x1F000000 ≤ a ∧ a < 0x1F020000 then .rom (a % 0x20000)
  else if 0x20000000 ≤ a ∧ a < 0x201A0000 then .periph (a % 0x200000)
  else .hole

/-- The application partition owns queue `q` (R21, R254). -/
def State.appQueue (s : State) (q : Nat) : Bool :=
  if q < 32 then bitOf (s.get QSC_OWNL.OWN) q else bitOf (s.get QSC_OWNH.OWN) (q - 32)

/-- R22, R23, R323: the cell lies in a packet on a queue the application partition owns, or belongs to one of its engines.
-/
def State.appCell (s : State) (c : Nat) : Bool :=
  (List.range 64).any (fun q => s.appQueue q && (s.q q).pkts.any (fun p => p.cells.contains c)) ||
    (List.range 16).any (fun n => s.isApp n && s.holdsCell n c)

/-- What an access is for (R22). -/
inductive Use where
  | read
  | write
  | fetch
  deriving DecidableEq, Repr

/-- R22, R394: the partition's rights forbid the access. -/
def State.denied (s : State) (app : Bool) (u : Use) : Region → Bool
  | .pb off => app && !s.appCell (off / 256)
  | .ft _ => app && decide (u = .write)
  | .jar _ => app
  | .crumb _ => decide (u = .write)
  | .rom _ => app || decide (u ≠ .fetch)
  | _ => false

/-- R416: the domain of the range is not on or not ready. The Jar is always served. -/
def State.regionOff (s : State) (e : Nat) : Region → Bool
  | .imem _ => !s.dOn e
  | .dmem _ => !s.dOn e
  | .pb off => !s.dOn (32 + off / 0x80000)
  | .ft _ => !s.dOn 23
  | .rom _ => !s.clusterOn
  | _ => false

/-- R19, R22, R416: the fault of an access by engine `e`'s view, in a memory range or outside the map. -/
def State.memFault (s : State) (e : Nat) (app : Bool) (u : Use) (a : Nat) : Option AccFault :=
  match regionOf a with
  | .hole => some { cls := 3, block := 0xFF, addr := a }
  | r =>
    if s.regionOff e r then some { cls := 3, block := 0xFF, detail := 2, addr := a }
    else if s.denied app u r then some { cls := 1, block := 0xFF, addr := a }
    else none

/-- The ECC word an address lies in (R29): memory, instance, word. -/
def eccWord (e a : Nat) : Option (Nat × Nat × Nat) :=
  match regionOf a with
  | .imem off => some (0, e, off / 4)
  | .dmem off => some (1, e, off / 4)
  | .pb off => some (2, off / 0x80000, off / 8)
  | .ft off => some (3, 0, off / 8)
  | .jar off => some (0xB, 0, off / 4)
  | .crumb off => some (0xB, 0, (0x8000 + off) / 4)
  | .rom off => some (0xC, 0, off / 4)
  | _ => none

/-- R31: the first uncorrectable word among `n` bytes from `a`. -/
def State.eccBad (s : State) (e a n : Nat) : Option (Nat × Nat × Nat) :=
  (List.range n).findSome? (fun k => match eccWord e (a + k) with
    | some w => if s.ecc.contains w then some w else none
    | none => none)

/-- R30: single-bit errors in the words of `n` bytes from `a` are corrected. -/
def State.viewCorrected (s : State) (e a n : Nat) : State :=
  if s.ecc1.isEmpty then s else s.corrected (fun w => (List.range n).any (fun k => decide (eccWord e (a + k) = some w)))

/-- One byte as engine `e`'s view reads it. -/
def State.viewByte (s : State) (e a : Nat) : Byte :=
  match regionOf a with
  | .imem off => s.lbyte (e * 0x20000 + off)
  | .dmem off => s.lbyte (e * 0x20000 + 0x10000 + off)
  | .pb _ => s.mbyte a
  | .ft _ => s.mbyte a
  | .jar _ => s.mbyte a
  | .crumb _ => s.mbyte a
  | .rom off => BitVec.ofNat 8 ((Config.romWord (off / 4)).toNat / 256 ^ (off % 4))
  | _ => 0

/-- `n` bytes as engine `e`'s view reads them. -/
def State.viewBytes (s : State) (e a n : Nat) : List Byte := readBytes (s.viewByte e) a n

/-- R294: before an instruction byte changes, fetch keeps what it still sees there. -/
def CpuState.keepShadow (c : CpuState) (off : Nat) (old : Byte) : CpuState :=
  if (aget c.shadow off).isSome then c else { c with shadow := (off, old) :: c.shadow }

/-- One byte written through engine `e`'s view. A word that is written holds no error any more (R31). -/
def State.viewPut (s : State) (e a : Nat) (b : Byte) : State :=
  match regionOf a with
  | .imem off =>
    let old := s.lbyte (e * 0x20000 + off)
    (s.modCpu e (fun c => c.keepShadow off old)).setLbyte (e * 0x20000 + off) b
  | .dmem off => s.setLbyte (e * 0x20000 + 0x10000 + off) b
  | .pb _ => s.setMbyte a b
  | .ft _ => s.setMbyte a b
  | .jar _ => s.setMbyte a b
  | _ => s

/-- Bytes written through engine `e`'s view. -/
def State.viewPuts (s : State) (e a : Nat) : List Byte → State
  | [] => s
  | b :: t => (s.viewPut e a b).viewPuts e (a + 1) t

/-! ### Accesses of jobs (R331, R336, R342, R371) -/

/-- A job's access to `n` bytes fails under R19 or R22; the peripheral range is no memory. -/
def State.jobDenied (s : State) (e : Nat) (app : Bool) (u : Use) (a n : Nat) : Bool :=
  (List.range n).any (fun k => (s.memFault e app u (a + k)).isSome || (match regionOf (a + k) with
    | .periph _ => true
    | _ => false))

/-- The bytes a job reads, or none where the read fails under R19, R22 or R31. -/
def State.jobRead (s : State) (e : Nat) (app : Bool) (a n : Nat) : Option (List Byte) :=
  if s.jobDenied e app .read a n || (s.eccBad e a n).isSome then none else some (s.viewBytes e a n)

/-- R30, R31: what a job's read does beside giving its bytes: it corrects what it can, and an uncorrectable word is raised
by block `blk`. -/
def State.jobEcc (s : State) (blk e : Nat) (app : Bool) (a n : Nat) : State :=
  if s.jobDenied e app .read a n then s
  else
    let s := s.viewCorrected e a n
    match s.eccBad e a n with
    | some w => (s.eccReport w).raiseHw 4 blk 0
    | none => s

end Sys2Proof.Machine
end

