-- ==== Sys2Proof/Machine/HostIf.lean ====
section
/-! DEFINITION. Chapter 15: the host interface and the crumb log, and the selections of outlets O2 to O7. -/
namespace Sys2Proof.Machine

/-- R364, R365: the boot ROM is in RESCUE. -/
def State.rescue (s : State) : Bool := decide (s.get UPD_STAT.STATE = 6)

/-- R383: the interface in use: 0 none, 1 SPI, 2 UART. In Auto it is the one the lock shows. -/
def State.ifInUse (s : State) : Nat := if s.get HIF_CTRL.IF = 3 then s.get HIF_STAT.IFSEL else s.get HIF_CTRL.IF

/-- The interface takes frames: its domain is on, it is active, and it is not locked (R391). -/
def State.hifActive (s : State) : Bool := s.dOn 27 && s.bit HIF_CTRL.EN && !s.bit HIF_STAT.LOCK

/-- Words of a FIFO. -/
def fifoWords (l : List (List Word)) : Nat := l.foldl (fun t x => t + x.length) 0

/-- R390: free words of the inbound FIFO. -/
def State.inRoom (s : State) : Nat := 512 - fifoWords s.hif.inbox

/-- R390: words of the outbound FIFO in use or reserved. -/
def State.outUsed (s : State) : Nat :=
  fifoWords s.hif.outbox + (match s.hif.outOpen with
    | some (l, k) => l.length + k
    | none => 0)

/-- R388: an output frame is pending. -/
def State.outPending (s : State) : Bool := s.hif.cur.isSome || !s.hif.notices.isEmpty || !s.hif.outbox.isEmpty

/-- R387: HIF holds a packet that waits for MSH or under NOBUF. -/
def State.hifHolds (s : State) : Bool := !(vget s.msh.ports 4).isEmpty

/-- R400: the status byte. -/
def State.statusByte (s : State) : Nat :=
  b2n (s.bit HIF_STAT.LOCK) * 128 + b2n s.outPending * 64 + b2n (decide (257 ≤ s.inRoom)) * 32 +
    b2n (!s.hifHolds) * 16 + b2n s.rescue * 8 + 2

/-- What HIF_STAT reads. -/
def State.hifStatView (s : State) : Word :=
  BitVec.ofNat 32 (b2n (s.bit HIF_STAT.LOCK) * 2 ^ 31 + s.ifInUse * 2 ^ 29 + s.statusByte)

/-- What HIF_RXSTAT reads. -/
def State.hifRxView (s : State) : Word :=
  BitVec.ofNat 32 (s.hif.inbox.length * 65536 + fifoWords s.hif.inbox * 4 + s.get HIF_RXSTAT.UNDERRUN * 2 +
    b2n s.hif.inbox.isEmpty)

/-- What HIF_TXSTAT reads. -/
def State.hifTxView (s : State) : Word :=
  let left := match s.hif.outOpen with
    | some (_, k) => k
    | none => 0
  BitVec.ofNat 32 (b2n s.hif.outOpen.isSome * 2 ^ 30 + left * 1024 + s.get HIF_TXSTAT.NOSPACE)

/-- Words of the host FIFOs, from `k` on, are written (R29): the inbound FIFO lies in the first half, the outbound one in the
second. -/
def State.hifWrote (s : State) (base k n : Nat) : State :=
  s.each (List.range n) (fun s i => s.wrote (8, 0, base + (k + i) % 512))

/-- R29: the word of the inbound FIFO that a read of HIF_RXDATA meets. -/
def State.hifWord (s : State) : Option (Nat × Nat × Nat) := if s.hif.inbox.isEmpty then none else some (8, 0, s.hif.inPos % 512)

/-- A complete item joins the inbound FIFO. -/
def State.pushItem (s : State) (item : List Word) : State :=
  let s := s.hifWrote 0 (s.hif.inPos + fifoWords s.hif.inbox) item.length
  { s with hif := { s.hif with inbox := s.hif.inbox ++ [item] } }.raise HIF_EVT.ITEM

/-- The header word of an item (R390). -/
def itemHeader (type tag port len : Nat) : Word := BitVec.ofNat 32 (type * 2 ^ 24 + tag * 65536 + port * 4096 + len)

/-- R384: a frame: TYPE, TAG, payload. -/
def hostFrame (type tag : Nat) (payload : List Byte) : List Byte :=
  let body := [BitVec.ofNat 8 type, BitVec.ofNat 8 tag, 0] ++ leBytes 2 payload.length ++ payload
  (0xC6 : Byte) :: body ++ leBytes 4 (crc32 body)

/-! ### Frames from the host (R383 to R387) -/

/-- A frame cut short (R385, R386). -/
def State.hifTrunc (s : State) : State := (s.inc HIF_ERRCNT.TRUNC).raise HIF_EVT.FRAMEERR

/-- R384: LEN lies within the bounds of its TYPE. -/
def hostLenOk (type len : Nat) : Bool :=
  if type = 3 then decide (8 ≤ len) && decide (len ≤ 2048) else decide (2 ≤ len) && decide (len ≤ 1024)

/-- R384: the bytes of a frame, from its LEN field. -/
def hostFrameLen (f : List Byte) : Nat := 10 + leNat ((f.drop 4).take 2)

/-- R384: the frame begins with SOF, and its CRC is correct. -/
def hostCrcOk (f : List Byte) : Bool :=
  let len := leNat ((f.drop 4).take 2)
  decide (f.head? = some 0xC6) && decide (leNat ((f.drop (6 + len)).take 4) = crc32 ((f.drop 1).take (5 + len)))

/-- R387: the frame is not discarded: CRC, TYPE and LEN are right. -/
def hostFrameOk (f : List Byte) : Bool :=
  let type := (f.getD 1 0).toNat
  hostCrcOk f && (decide (type = 1) || decide (type = 3)) && hostLenOk type (leNat ((f.drop 4).take 2))

/-- HOST_FRAME_DECIDE (R387): a frame received whole on interface `port`. -/
def State.hostFrameIn (s : State) (port : Nat) (f : List Byte) : State :=
  let type := (f.getD 1 0).toNat
  let tag := (f.getD 2 0).toNat
  let len := leNat ((f.drop 4).take 2)
  let payload := (f.drop 6).take len
  let crcOk := hostCrcOk f
  let s := if crcOk && decide (s.get HIF_CTRL.IF = 3) && decide (s.get HIF_STAT.IFSEL = 0) then s.set HIF_STAT.IFSEL port else s
  if !hostFrameOk f then
    (s.inc HIF_ERRCNT.CRCERR).raise HIF_EVT.FRAMEERR
  else
    let s := s.inc HIF_FRAMECNT.IN
    if type = 1 then
      if 1 + ceilDiv len 4 ≤ s.inRoom then s.pushItem (itemHeader 1 tag port len :: wordsOf (len + 1) payload)
      else
        ((s.notice tag (Config.noticeCode 0).toNat Config.cmdBusyResult.toNat).inc HIF_DROPCNT.REFUSED).raise HIF_EVT.CMDBUSY
    else if s.hifHolds then s.pktRefused tag 1
    else s.modPort 4 (· ++ [{ bytes := payload, tag := tag }])

/-- The interface listens: it is the one in use, or Auto has not locked yet. -/
def State.hifListens (s : State) (port : Nat) : Bool :=
  s.hifActive && (decide (s.ifInUse = port) || (decide (s.get HIF_CTRL.IF = 3) && decide (s.ifInUse = 0)))

/-- R385, R391: what SPI_MISO carries in a transaction: the status byte, then `n` bytes of a frame and zeros after it; the
status byte alone while HIF is locked, and nothing where SPI is not the interface. -/
def State.setMiso (s : State) (n : Nat) (frame : List Byte) : State :=
  let st := BitVec.ofNat 8 s.statusByte
  let out := if s.bit HIF_STAT.LOCK then List.replicate (n + 1) st else st :: (frame ++ List.replicate n 0).take n
  if !s.dOn 27 || !s.bit HIF_CTRL.EN || decide (s.ifInUse = 2) || decide (s.get HIF_CTRL.IF = 0) then s
  else { s with hif := { s.hif with miso := out } }

/-- SPI_WRITE (R385): one frame, or one cut short by SPI_CS_N. -/
def State.spiWrite (s : State) (b : List Byte) : State :=
  let s := s.setMiso 0 []
  if !s.hifListens 1 then s
  else if b.length < 6 ∨ b.length < hostFrameLen b then s.hifTrunc
  else s.hostFrameIn 1 (b.take (hostFrameLen b))

/-- SPI_WRITE. -/
def execSpiWrite (bytes : List (BitVec 8)) (s : State) : Host.Outcome State Fault Refusal := .next (s.spiWrite bytes)

/-- The UART's partly received frame replaced. -/
def State.setUrx (s : State) (b : List Byte) : State := { s with hif := { s.hif with urx := b } }

/-- R386: the receiver hunts for SOF in the bytes that have arrived. A frame received whole is decided; where it is discarded
the hunt goes on at the byte after its SOF, otherwise after the frame. A frame that is not whole stays. -/
def State.uartHunt (s : State) : Nat → List Byte → State
  | 0, b => s.setUrx b
  | _ + 1, [] => s.setUrx []
  | k + 1, x :: t =>
    if x ≠ 0xC6 then s.uartHunt k t
    else if t.length < 5 ∨ t.length + 1 < hostFrameLen (x :: t) then s.setUrx (x :: t)
    else
      let f := (x :: t).take (hostFrameLen (x :: t))
      (s.hostFrameIn 2 f).uartHunt k (if hostFrameOk f then (x :: t).drop f.length else t)

/-- Bytes arrive, or the hunt begins again in `b`. -/
def State.uartBytes (s : State) (b : List Byte) : State := s.uartHunt (b.length + 1) b

/-- UART_FRAME_RECEIVED (R386). -/
def execUartFrameReceived (bytes : List (BitVec 8)) (s : State) : Host.Outcome State Fault Refusal :=
  .next (if s.hifListens 2 then s.uartBytes (s.hif.urx ++ bytes) else s)

/-- UART_RX_TIMEOUT (R386): the frame being received is discarded, and the hunt begins at the byte after its SOF. -/
def State.uartTimeout (s : State) : State :=
  match s.hif.urx with
  | [] => s
  | _ :: t => s.hifTrunc.uartBytes t

/-- UART_RX_TIMEOUT. -/
def execUartRxTimeout (s : State) : Host.Outcome State Fault Refusal :=
  .next (if s.hifListens 2 then s.uartTimeout else s)

/-! ### Frames to the host (R388, R390) -/

/-- The frame of an outbound item: header word and payload words. -/
def itemFrame (item : List Word) : List Byte :=
  let h := item.headD 0
  let len := fieldOf h 0 12
  hostFrame (fieldOf h 24 8) (fieldOf h 16 8) (((item.drop 1).flatMap (fun w => leBytes 4 w.toNat)).take len)

/-- The frame being sent replaced. -/
def State.setCur (s : State) (c : Option HifFrame) : State := { s with hif := { s.hif with cur := c } }

/-- R248, R388: a selection on O5, which is ready while no notice, item or frame is pending. -/
def State.selectHost (s : State) : State :=
  if !s.dOn 27 || !s.dOn 23 || !s.bit HIF_CTRL.EN || s.bit HIF_STAT.LOCK || s.outPending then s
  else match s.select 5 {} (fun s q p => s.unlinkPkt q p.pid) with
    | (s, none) => s
    | (s, some (q, p)) =>
      let s := s.corrected (packetWord p)
      match s.eccInPacket p with
      | some e => s.dropEcc q p e
      | none =>
        let s := { s with qsc := { s.qsc with sending := vset s.qsc.sending 5 (some { q := q, pkt := p }) } }
        s.setCur (some { bytes := hostFrame 3 Config.meshTag.toNat (s.packetBytes p), src := 2 })

/-- R388: the next output frame is taken up, where none is being sent. -/
def State.nextOutput (s : State) : State :=
  if s.hif.cur.isSome then s
  else match s.hif.notices, s.hif.outbox with
    | (tag, code, result) :: _, _ =>
      s.setCur (some { bytes := hostFrame 4 tag (leBytes 2 code ++ leBytes 2 result), src := 0 })
    | [], item :: _ =>
      let s := s.blockRead 20 (fun e => decide (e.1 = 8) && decide (512 ≤ e.2.2) &&
        decide ((e.2.2 + 512 - s.hif.outPos) % 512 < item.length))
      s.setCur (some { bytes := itemFrame item, src := 1 })
    | [], [] => s.selectHost

/-- R385, R388: the frame has gone out whole and is removed from its source. -/
def State.outputDone (s : State) : State :=
  match s.hif.cur with
  | none => s
  | some f =>
    let s := (s.setCur none).inc HIF_FRAMECNT.OUT
    if f.src = 0 then { s with hif := { s.hif with notices := s.hif.notices.drop 1 } }
    else if f.src = 1 then
      { s with hif := { s.hif with outbox := s.hif.outbox.drop 1, outPos := (s.hif.outPos + (s.hif.outbox.headD []).length) % 512 } }
    else s.sendDone 5

/-- HOST_OUTPUT_FRAME (R388): on the UART the frame before has ended. -/
def State.hostOutput (s : State) : State :=
  if !s.hifActive || decide (s.ifInUse = 0) then s
  else if s.ifInUse = 2 then s.outputDone.nextOutput else s.nextOutput

/-- HOST_OUTPUT_FRAME. -/
def execHostOutputFrame (s : State) : Host.Outcome State Fault Refusal := .next s.hostOutput

/-- SPI_READ (R385): a frame clocked out to its last byte is removed. -/
def State.spiRead (s : State) (clocked : Nat) : State :=
  if !s.hifActive || decide (s.ifInUse ≠ 1) then s.setMiso clocked []
  else
    let r := s.nextOutput
    match r.hif.cur with
    | some f =>
      let r := { r with hif := { r.hif with miso := (s.setMiso clocked f.bytes).hif.miso } }
      if f.bytes.length ≤ clocked then r.outputDone else r
    | none => r.setMiso clocked []

/-- SPI_READ. -/
def execSpiRead (clocked : Nat) (s : State) : Host.Outcome State Fault Refusal := .next (s.spiRead clocked)

/-- A complete item joins the outbound FIFO; one for another interface is discarded (R390). -/
def State.itemOut (s : State) (item : List Word) : State :=
  if fieldOf (item.headD 0) 12 4 ≠ s.ifInUse then s.inc HIF_DROPCNT.NOTICE
  else { s with hif := { s.hif with outbox := s.hif.outbox ++ [item] } }

/-- R29: where the next word of the outbound FIFO goes. -/
def State.outAt (s : State) : Nat :=
  s.hif.outPos + fifoWords s.hif.outbox + ((s.hif.outOpen.map (fun o => o.1.length)).getD 0)

/-- An item written whole to the outbound FIFO. -/
def State.itemWhole (s : State) (item : List Word) : State := (s.hifWrote 512 s.outAt item.length).itemOut item

/-- R390: a write of HIF_TXDATA. -/
def State.txDataWrite (s : State) (w : Word) : State :=
  let at_ := s.outAt
  match s.hif.outOpen with
  | none =>
    let k := ceilDiv (fieldOf w 0 12) 4
    if 512 < s.outUsed + 1 + k then s.raise HIF_TXSTAT.NOSPACE
    else
      let s := s.hifWrote 512 at_ 1
      if k = 0 then s.itemOut [w]
      else { s with hif := { s.hif with outOpen := some ([w], k) } }
  | some (l, k) =>
    let s := s.hifWrote 512 at_ 1
    if k ≤ 1 then { s with hif := { s.hif with outOpen := none } }.itemOut (l ++ [w])
    else { s with hif := { s.hif with outOpen := some (l ++ [w], k - 1) } }

/-- R390: an outbound flush. -/
def State.txFlush (s : State) : State :=
  let keep := match s.hif.cur with
    | some f => if f.src = 1 then 1 else 0
    | none => 0
  { s with hif := { s.hif with outbox := s.hif.outbox.take keep, outOpen := none } }

/-- R390: a read of HIF_RXDATA: the word and the state after. -/
def State.rxDataRead (s : State) : Word × State :=
  match s.hif.inbox with
  | (w :: ws) :: t =>
    (w, { s with hif := { s.hif with inbox := if ws.isEmpty then t else ws :: t, lastIn := w, inPos := (s.hif.inPos + 1) % 512 } })
  | _ => (s.hif.lastIn, s.raise HIF_RXSTAT.UNDERRUN)

/-- R390: an inbound flush. -/
def State.rxFlush (s : State) : State := { s with hif := { s.hif with inbox := [] } }

/-! ### The lock (R391) -/

/-- HIF_LOCK: what the warning does to HIF. A frame partly received is discarded as TRUNC. -/
def State.hifLock (s : State) : State :=
  if !s.dOn 27 then s
  else
    let s := if s.hif.urx.isEmpty then s else s.hifTrunc.setUrx []
    (s.set HIF_STAT.LOCK 1).raise HIF_EVT.LOCK

/-- The lock ends (R409). -/
def State.hifUnlock (s : State) : State := s.set HIF_STAT.LOCK 0

/-! ### O7 and the other outlets (R248, R389) -/

/-- R389: a selection on O7: the packet becomes an item and belongs to the management engine. -/
def State.selectMgmt (s : State) : State :=
  let e := s.get HIF_CTRL.MGMTENG
  if !s.dOn 27 || !s.dOn 23 || decide (s.inRoom < 2) || decide (16 ≤ (s.engOf e).pkts.length) then s
  else match s.select 7 {} (fun s q p => s.unlinkPkt q p.pid) with
    | (s, none) => s
    | (s, some (q, p)) =>
      let s := s.corrected (packetWord p)
      match s.eccInPacket p with
      | some x => s.dropEcc q p x
      | none =>
        let s := s.modEng e (fun g => { g with
          pkts := g.pkts ++ [{ cells := p.cells, buf := p.buf, len := p.len, q := q, outlet := 7 }] })
        let s := { s with links := linkChain s.links p.cells }
        s.pushItem [itemHeader 5 0 3 4, handleWord (p.cells.headD 0) p.len]

/-- OUTLET_SELECT (R248): O0 and O1 select in their cells, O6 at reads of ENG_PKTGETn. -/
def State.outletSelect (s : State) (o : Nat) : State :=
  if o = 2 ∨ o = 3 ∨ o = 4 then (if s.dOn 23 then s.selectWired o else s)
  else if o = 5 then s.selectHost
  else if o = 7 then s.selectMgmt
  else s

/-- OUTLET_SELECT. -/
def execOutletSelect (o : Fin 8) (s : State) : Host.Outcome State Fault Refusal := .next (s.outletSelect o.val)

/-- LAUNCH_TIME_REACHED (R270): a frame that O2 holds for it starts; otherwise the packet has become a candidate, and a ready
outlet selects. -/
def execLaunchTimeReached (q : Fin 64) (s : State) : Host.Outcome State Fault Refusal :=
  .next (s.ethLaunch.outletSelect (s.q q.val).outlet)

/-- OUTLET_SEND_DONE (R248, R254). A packet of O6 or O7 ends with ENG_PKTDONEn, one of O0 or O1 with its outcome. -/
def State.outletDone (s : State) (o : Nat) : State :=
  if o = 5 then (if s.hifActive && s.hif.cur.any (fun f => decide (f.src = 2)) then s.outputDone else s)
  else if o = 2 ∨ o = 3 ∨ o = 4 then s.sendDone o else s

/-- OUTLET_SEND_DONE. -/
def execOutletSendDone (o : Fin 8) (s : State) : Host.Outcome State Fault Refusal := .next (s.outletDone o.val)

/-! ### The crumb log (R394 to R398) -/

/-- R394: engine `n` appends its staged entry. -/
def State.goWrite (s : State) (n : Nat) : State :=
  let seq := s.get JRN_HEAD.SEQ
  let w := s.reg (JRN_WCODE.addr n)
  let r := s.reg (JRN_WRES.addr n)
  let d := leBytes 4 (s.reg (JRN_WDIG0.addr n)).toNat ++ leBytes 4 (s.reg (JRN_WDIG1.addr n)).toNat ++
    leBytes 4 (s.reg (JRN_WDIG2.addr n)).toNat
  (s.journal (fieldOf w 16 8) (fieldOf w 0 16) (fieldOf r 0 16) (fieldOf r 16 16) d).set (JRN_LAST.SEQ n) seq

/-- The flash address of a mirrored entry (R396). -/
def mirrorAddr (seq : Nat) : Nat := 0xA0000 + 32 * (seq % 16384)

/-- R396: the next entry copied to the mirror. -/
def State.mirrorCopy (s : State) : State :=
  let seq := s.get JRN_MIRHEAD.SEQ
  if !s.bit JRN_CTRL.MIREN || s.bit PWR_STAT.PFW || !s.dOn 28 || decide (seq = s.get JRN_HEAD.SEQ) then s
  else
    let a := mirrorAddr seq
    let s := if seq % 2048 = 0 then s.eraseFlash (a / 65536 * 65536) 65536 else s
    let s := s.setFbytes a (s.mbytes (crumbAddr seq) 32)
    s.set JRN_MIRHEAD.SEQ ((seq + 1) % 2 ^ 32)

/-- JOURNAL_MIRROR_COPY. -/
def execJournalMirrorCopy (s : State) : Host.Outcome State Fault Refusal := .next s.mirrorCopy

/-- The sequence number of 32 bytes that hold an entry with a correct CRC (R393). -/
def entrySeq (b : List Byte) : Option Nat :=
  if leNat (b.drop 28) = crc32 (b.take 28) then some (leNat (b.take 4)) else none

/-- The bases of the 32-byte slots of a range in which a memory lists a byte. -/
def listedSlots (m : List Host.Cell) (base size : Nat) : List Nat :=
  ((m.filter (fun c => decide (base ≤ c.1) && decide (c.1 < base + size))).map (fun c => base + (c.1 - base) / 32 * 32)).dedup

/-- Sequence numbers of the valid entries in the Jar ring, and in the mirror. -/
def State.jarSeqs (s : State) : List Nat := (listedSlots s.mem 0x12008000 0x8000).filterMap (fun a => entrySeq (s.mbytes a 32))
def State.mirrorSeqs (s : State) : List Nat :=
  (listedSlots s.flash 0xA0000 0x80000).filterMap (fun a => entrySeq (s.fbytes a 32))

/-- The newest of a list of sequence numbers, by R262. -/
def newestSeq : List Nat → Option Nat
  | [] => none
  | a :: t => some (t.foldl (fun m x => if isAfter 32 x m then x else m) a)

/-- The oldest of a list of sequence numbers, by R262. -/
def oldestSeq : List Nat → Option Nat
  | [] => none
  | a :: t => some (t.foldl (fun m x => if isAfter 32 m x then x else m) a)

/-- JOURNAL_RECOVERY (R397). -/
def State.recoverLog (s : State) : State :=
  let jar := s.jarSeqs
  let mir := s.mirrorSeqs
  let s := match newestSeq (jar ++ mir) with
    | none => (s.set JRN_HEAD.SEQ 0).set JRN_MIRHEAD.SEQ 0
    | some n =>
      let newer := mir.filter (fun q => decide (ageOf 32 n q < 1024) && (match newestSeq jar with
        | some j => isAfter 32 q j
        | none => true))
      let s := s.each newer (fun s q => s.setMbytes (crumbAddr q) (s.fbytes (mirrorAddr q) 32))
      let head := (n + 1) % 2 ^ 32
      let lacks := s.jarSeqs.filter (fun q => decide (ageOf 32 n q < 1024) && !mir.contains q)
      let mh := if mir.contains n then head else (oldestSeq lacks).getD head
      (s.set JRN_HEAD.SEQ head).set JRN_MIRHEAD.SEQ mh
  if s.bit PWR_STAT.JARLOST then (s.set JRN_STAT.JARLOST 1).journalHw 0xF004 0 else s.set JRN_STAT.JARLOST 0

/-! ### Management commands (R392, R395, R398) -/

/-- The command at the head of the inbound FIFO: its port, TAG, code and parameters. A partly read item is none. -/
structure HostCmd where
  port : Nat
  tag : Nat
  code : Nat
  params : List Byte
  deriving DecidableEq, Repr

/-- The head item as a command. -/
def State.headCmd (s : State) : Option HostCmd :=
  match s.hif.inbox with
  | (h :: ws) :: _ =>
    let len := fieldOf h 0 12
    if fieldOf h 24 8 = 1 ∧ ws.length = ceilDiv len 4 then
      let b := (ws.flatMap (fun w => leBytes 4 w.toNat)).take len
      some { port := fieldOf h 12 4, tag := fieldOf h 16 8, code := leNat (b.take 2), params := b.drop 2 }
    else none
  | _ => none

/-- The item is taken from the inbound FIFO. -/
def State.dropHead (s : State) : State :=
  { s with hif := { s.hif with inbox := s.hif.inbox.drop 1, inPos := (s.hif.inPos + (s.hif.inbox.headD []).length) % 512 } }

/-- R393: the digest of parameter bytes. -/
def paramDigest (b : List Byte) : List Byte :=
  if b.isEmpty then [] else (sha256 b).take 12

/-- R395: the entry of a completed command, and then its response. -/
def State.respond (s : State) (c : HostCmd) (result : Nat) (data : List Byte) : State :=
  let s := s.journal c.port c.code result c.tag (paramDigest c.params)
  let b := leBytes 2 c.code ++ leBytes 2 result ++ data
  s.itemWhole (itemHeader 2 c.tag c.port b.length :: wordsOf (b.length + 1) b)

/-- The server has room for a response of `k` data bytes and can work. -/
def State.canServe (s : State) (k : Nat) : Bool :=
  s.dOn 27 && s.dOn 28 && decide (s.outUsed + 1 + ceilDiv (4 + k) 4 ≤ 512)

/-- A command with no long work carried out: the answer gives RESULT and data. -/
def State.serve (s : State) (code : Nat) (k : Nat) (answer : State → HostCmd → Nat × List Byte) : State :=
  match s.headCmd with
  | some c =>
    if c.code = code ∧ s.canServe k = true then
      let r := answer s c
      s.dropHead.respond c r.1 r.2
    else s
  | none => s

/-- PING (R392). -/
def pingAnswer (s : State) (_ : HostCmd) : Nat × List Byte :=
  (0, leBytes 4 (s.reg SYS_PARTID.addr).toNat ++ leBytes 4 (s.reg SYS_STEPID.addr).toNat ++ leBytes 4 (s.reg UPD_STAT.addr).toNat)

/-- JRNSTAT (R392). -/
def jrnstatAnswer (s : State) (_ : HostCmd) : Nat × List Byte :=
  (0, leBytes 4 (s.reg JRN_HEAD.addr).toNat ++ leBytes 4 (s.reg JRN_MIRHEAD.addr).toNat ++ leBytes 4 (s.reg JRN_STAT.addr).toNat)

/-- R398: the entry with sequence number `q`, from the Jar or else from the mirror. -/
def State.crumb (s : State) (q : Nat) : Option (List Byte) :=
  let j := s.mbytes (crumbAddr q) 32
  let m := s.fbytes (mirrorAddr q) 32
  if entrySeq j = some q then some j else if entrySeq m = some q then some m else none

/-- R398: the entries from `q` on, at most `k`, up to HEAD. -/
def State.crumbs (s : State) : Nat → Nat → List Byte
  | 0, _ => []
  | k + 1, q =>
    if q = s.get JRN_HEAD.SEQ then []
    else match s.crumb q with
      | some b => b ++ s.crumbs k ((q + 1) % 2 ^ 32)
      | none => []

/-- JRNREAD (R398). -/
def jrnreadAnswer (s : State) (c : HostCmd) : Nat × List Byte :=
  let k := leNat ((c.params.drop 4).take 2)
  if c.params.length ≠ 6 ∨ k = 0 ∨ 31 < k then (2, [])
  else
    let b := s.crumbs k (leNat (c.params.take 4))
    if b.isEmpty then (2, []) else (0, b)

/-- Codes that the boot ROM serves in RESCUE (R392). -/
def servedCode (c : Nat) : Bool :=
  (decide (1 ≤ c) && decide (c ≤ 3)) || (decide (0x10 ≤ c) && decide (c ≤ 0x16))

/-- R392: in RESCUE the boot ROM answers any other code with UNKNOWN; such a command is not carried out, so no entry is made.
-/
def State.rescueUnknown (s : State) : State :=
  match s.headCmd with
  | some c =>
    if s.rescue && !servedCode c.code && s.canServe 0 then
      s.dropHead.itemWhole (itemHeader 2 c.tag c.port 4 :: wordsOf 8 (leBytes 2 c.code ++ leBytes 2 1))
    else s
  | none => s

/-- PING. -/
def execHostPing (s : State) : Host.Outcome State Fault Refusal := .next (s.serve 0x0001 12 pingAnswer)

/-- JRNSTAT. -/
def execHostJrnstat (s : State) : Host.Outcome State Fault Refusal := .next (s.serve 0x0002 12 jrnstatAnswer)

/-- JRNREAD. -/
def execHostJrnread (s : State) : Host.Outcome State Fault Refusal := .next (s.serve 0x0003 992 jrnreadAnswer)

end Sys2Proof.Machine
end

