-- ==== Sys2Proof/Machine/Cipher.lean ====
section
/-! DEFINITION. Chapter 13: context jobs of pipeline G. A context is 128 bytes; where its fields lie after word 3 is this
model's (DESIGN CHOICE, log entry 17). -/
namespace Sys2Proof.Machine

/-- The running state of a context (R330). -/
structure Ctx where
  iv : List Byte
  mac : List Byte
  aad : Nat
  len : Nat
  mode : Nat
  slot : Nat
  gen : Nat
  /-- The last piece of a CMAC text, held back until more comes. -/
  pend : List Byte
  deriving DecidableEq, Repr

/-- The bytes of a list, padded with zeros or cut to `n`. -/
def padTo (n : Nat) (b : List Byte) : List Byte := (b ++ List.replicate n 0).take n

/-- The 128 bytes of a context. -/
def ctxEncode (c : Ctx) : List Byte :=
  padTo 128 (padTo 16 c.iv ++ padTo 16 c.mac ++ leBytes 4 c.aad ++ leBytes 4 c.len ++
    [BitVec.ofNat 8 c.mode, BitVec.ofNat 8 c.slot, BitVec.ofNat 8 c.gen, BitVec.ofNat 8 c.pend.length] ++ padTo 16 c.pend)

/-- What 128 bytes hold as a context. -/
def ctxDecode (b : List Byte) : Ctx :=
  { iv := b.take 16, mac := (b.drop 16).take 16, aad := leNat ((b.drop 32).take 4), len := leNat ((b.drop 36).take 4),
    mode := (b.getD 40 0).toNat, slot := (b.getD 41 0).toNat, gen := (b.getD 42 0).toNat,
    pend := (b.drop 44).take (min 16 (b.getD 43 0).toNat) }

/-- The address of word `w` of context `n` (R350). -/
def ctxAddr (n w : Nat) : Nat := AES_CTX.addr (32 * n + w)

/-- The bytes of context `n`. -/
def State.ctxBytes (s : State) (n : Nat) : List Byte := (List.range 32).flatMap (fun w => leBytes 4 (s.reg (ctxAddr n w)).toNat)

/-- The ECC words of context `n`. -/
def ctxWord (n : Nat) (e : Nat × Nat × Nat) : Bool := decide (e.1 = 10) && decide (e.2.2 / 32 = n)

/-- The bytes of context `n` replaced. -/
def State.putCtx (s : State) (n : Nat) (b : List Byte) : State :=
  s.each (List.range 32) (fun s w =>
    (s.wrote (10, 0, 32 * n + w)).setReg (ctxAddr n w) (BitVec.ofNat 32 (leNat ((b.drop (4 * w)).take 4))))

/-- R330: the application partition owns the context. -/
def State.ctxApp (s : State) (n : Nat) : Bool :=
  if n < 32 then bitOf (s.get AES_OWNL.OWN) n else bitOf (s.get AES_OWNH.OWN) (n - 32)

/-- What a job of INIT or CONT is to do: its fields of AES_CFGn and AES_LENn (R351). -/
structure AesParam where
  slot : Nat
  mode : Nat
  dec : Bool
  tag : Nat
  nonce : Nat
  aad : Nat
  len : Nat
  deriving DecidableEq, Repr

/-- The parameters of a job. -/
def AesJob.param (j : AesJob) : AesParam :=
  { slot := fieldOf j.cfg 24 8, mode := fieldOf j.cfg 20 4, dec := decide (fieldOf j.cfg 19 1 = 1),
    tag := fieldOf j.cfg 14 5, nonce := fieldOf j.cfg 10 4, aad := fieldOf j.lens 16 16, len := fieldOf j.lens 0 16 }

/-- R330, R331: the parameters are allowed. -/
def aesParamOk (j : AesJob) (p : AesParam) (c : Ctx) : Bool :=
  let tagOk := if p.mode = 3 then decide (4 ≤ p.tag) && decide (p.tag ≤ 16)
    else if p.mode = 4 then decide (4 ≤ p.tag) && decide (p.tag ≤ 16) && decide (p.tag % 2 = 0)
    else if p.mode = 5 then decide (12 ≤ p.tag) && decide (p.tag ≤ 16)
    else if p.mode = 6 then [0, 4, 8, 16].contains p.tag
    else true
  let nonceOk := if p.mode = 4 then decide (7 ≤ p.nonce) && decide (p.nonce ≤ 13) else if p.mode = 6 then decide (p.nonce = 13)
    else true
  let whole := if p.mode = 4 ∨ p.mode = 6 then decide (j.op = 1) && j.last else j.last || decide (p.len % 16 = 0)
  let aadOk := decide (p.aad = 0) || (decide (j.op = 1) && decide (3 ≤ p.mode))
  decide (1 ≤ p.mode) && decide (p.mode ≤ 6) && tagOk && nonceOk && whole && aadOk &&
    (decide (p.mode ≠ 2) || decide (p.len % 16 = 0)) && (decide (j.op = 1) || decide (c.mode = p.mode))

/-- R330, R335, R337: the check of the slot of a job: 3 KEYBAD, 4 SPENT. -/
def State.aesKeyFail (s : State) (j : AesJob) (p : AesParam) (c : Ctx) : Option Nat :=
  let k := p.slot
  let usage := if p.dec ∧ p.mode ≠ 1 then 1 else 0
  if !s.bit (KEY_SATTR.VALID k) || s.erasing k || !(decide (s.get (KEY_SATTR.TYPE k) = 1) || decide (s.get (KEY_SATTR.TYPE k) = 2))
      || decide (s.bit (KEY_SATTR.OWNER k) ≠ s.ctxApp j.n) || !bitOf (s.get (KEY_SATTR.USAGE k)) usage
      || (decide (j.op = 2) && (decide (c.slot ≠ k) || decide (c.gen ≠ s.get (KEY_SATTR.GEN k)))) then some 3
  else if !p.dec && s.bit (KEY_SATTR.SPENT k) then some 4
  else none

/-- Blocks a job enciphers (R328, R329): CTR and CBC one for each of the text, CMAC one more for its subkeys, GCM two more for
its hash key and its tag, a wrap six for each 8 bytes. -/
def aesBlocks (op : Nat) (p : AesParam) : Nat :=
  if op = 3 then 96
  else if op = 4 then 102
  else if op = 5 then 0
  else if p.mode = 4 ∨ p.mode = 6 then ccmBlocks p.aad p.len
  else if p.mode = 3 then 1 + max 1 (ceilDiv (p.aad + p.len) 16)
  else if p.mode = 5 then 2 + ceilDiv p.len 16
  else ceilDiv p.len 16

/-- R331: the head job of pipeline G starts: its parameters, its slot and the masks are checked, and the use is counted. -/
def State.aesStart (s : State) (j : AesJob) : State × AesJob :=
  let p := j.param
  let c := ctxDecode (s.ctxBytes j.n)
  let crypt := decide (j.op = 1) || decide (j.op = 2)
  let fail := if crypt then (if !aesParamOk j p c then some 6 else s.aesKeyFail j p c) else none
  match fail with
  | some f => (s, { j with started := true, fail := some f })
  | none =>
    match s.maskRun (aesBlocks j.op p) with
    | none => (s, { j with started := true, fail := some 7 })
    | some s =>
      if crypt then
        let s := if p.dec then s else s.keyUse p.slot
        let raw := s.keyEcc p.slot || s.ecc.any (ctxWord j.n)
        (s.blockRead 12 (fun e => keyWord p.slot e || ctxWord j.n e),
          { j with started := true, key := s.keyOf p.slot, slot := some p.slot, fail := if raw then some 5 else none })
      else if j.op = 3 then
        (s.blockRead 12 (ctxWord j.n), { j with started := true, fail := if s.ecc.any (ctxWord j.n) then some 5 else none })
      else (s, { j with started := true })

/-- The head job, where it has not started, starts. -/
def State.aesNext (s : State) : State :=
  match s.sec.aes with
  | j :: t =>
    if j.started then s
    else match s.aesStart j with
      | (s, j) => { s with sec := { s.sec with aes := j :: t } }
  | [] => s

/-- R331: a write of AES_CMDn that starts a job; OP 0 and 6 to 15 name none. -/
def State.aesCmd (s : State) (e n : Nat) (w : Word) : State :=
  if s.bit (AES_STATn.BUSY n) then s.raise AES_EVT.BUSYW
  else
    let op := fieldOf w 4 4
    if op = 0 ∨ 5 < op then s
    else
      let j : AesJob := { n := n, op := op, last := decide (fieldOf w 0 1 = 1), eng := e, cfg := s.reg (AES_CFG.addr n),
                          src := (s.reg (AES_SRC.addr n)).toNat, dst := (s.reg (AES_DST.addr n)).toNat,
                          lens := s.reg (AES_LEN.addr n) }
      let s := s.set (AES_STATn.BUSY n) 1
      { s with sec := { s.sec with aes := s.sec.aes ++ [j] } }.aesNext

/-- What a cipher run gives: output, tag, whether a given tag matched, and the context after. -/
structure AesOut where
  out : List Byte
  tag : List Byte := []
  ok : Bool := true
  ctx : Ctx
  deriving DecidableEq, Repr

/-- R330: the cipher run of a job over its authenticated data and text; `given` is a tag to be verified. -/
def aesCompute (key : List Byte) (j : AesJob) (p : AesParam) (c : Ctx) (aad text given : List Byte) : AesOut :=
  let ivw := blockOf c.iv
  let init := decide (j.op = 1)
  let verdict (t : List Byte) : Bool := !(p.dec && j.last) || decide (t = given)
  if p.mode = 1 then
    let r := ctrRun key ivw (blocksOf text)
    { out := r.1, ctx := { c with iv := blockBytes r.2 } }
  else if p.mode = 2 then
    let r := if p.dec then cbcDec key ivw (blocksOf text) else cbcEnc key ivw (blocksOf text)
    { out := r.1, ctx := { c with iv := blockBytes r.2 } }
  else if p.mode = 3 then
    let v : BitVec 128 := if init then 0 else blockOf c.mac
    let data := (if init then [] else c.pend) ++ aad ++ text
    let k := cmacSplit data.length
    let v' := cbcMac key v (data.take k)
    if j.last then
      let t := (blockBytes (cmacLast key v' (data.drop k))).take p.tag
      { out := [], tag := t, ok := verdict t, ctx := { c with mac := blockBytes v', pend := [] } }
    else { out := [], ctx := { c with mac := blockBytes v', pend := data.drop k } }
  else if p.mode = 5 then
    let h := aesEnc key 0
    let j0 := blockOf (c.iv.take 12 ++ [0, 0, 0, 1])
    let v0 : BitVec 128 := if init then ghash h 0 aad else blockOf c.mac
    let n0 := if init then blockOf (c.iv.take 12 ++ [0, 0, 0, 2]) else ivw
    let r := gctr key n0 (blocksOf text)
    let v := ghash h v0 (if p.dec then text else r.1)
    let na := if init then aad.length else c.aad
    let nt := (if init then 0 else c.len) + text.length
    let t := if j.last then (gcmTag key j0 h v na nt).take p.tag else []
    { out := r.1, tag := t, ok := verdict t, ctx := { c with iv := blockBytes r.2, mac := blockBytes v, aad := na, len := nt } }
  else
    let nonce := c.iv.take p.nonce
    if p.dec then
      match ccmOpen key nonce aad text given with
      | some o => { out := o, ctx := c }
      | none => { out := [], ok := false, ctx := c }
    else
      let r := ccmSeal key nonce aad text p.tag
      { out := r.1, tag := r.2, ctx := c }

/-- R331: bytes a job writes: up to the first address that R19 or R22 refuses; whether all were written. -/
def State.jobWrite (s : State) (e : Nat) (app : Bool) (a : Nat) (b : List Byte) : Bool × State :=
  let ok := (List.range b.length).takeWhile (fun k => !s.jobDenied e app .write (a + k) 1)
  (decide (ok.length = b.length), s.viewPuts e a (b.take ok.length))

/-- R331: the work of an INIT or CONT job whose checks passed: its result code and the state after. -/
def State.aesRun (s : State) (j : AesJob) : Nat × State :=
  let p := j.param
  let app := s.ctxApp j.n
  let tagged := decide (3 ≤ p.mode) && j.last
  let n := p.aad + p.len + (if tagged && p.dec then p.tag else 0)
  match s.jobRead j.eng app j.src n with
  | none => (5, s.jobEcc 12 j.eng app j.src n)
  | some b =>
    let c := ctxDecode (s.ctxBytes j.n)
    let r := aesCompute j.key j p c (b.take p.aad) ((b.drop p.aad).take p.len) (b.drop (p.aad + p.len))
    let c' := { r.ctx with mode := p.mode, slot := p.slot, gen := s.get (KEY_SATTR.GEN p.slot) }
    let s := s.putCtx j.n (ctxEncode c')
    let out := if r.ok then r.out else List.replicate (if p.mode = 3 then 0 else p.len) (0 : Byte)
    match s.jobWrite j.eng app j.dst out with
    | (false, s) => (5, s)
    | (true, s) =>
      if !r.ok then (2, s)
      else if tagged && !p.dec then
        if s.jobDenied j.eng app .write (j.dst + p.len) r.tag.length then (5, s)
        else (1, s.viewPuts j.eng (j.dst + p.len) r.tag)
      else (1, s)

/-- A device key of 32 bytes (R333, R339). -/
def deviceKeyBytes (k : Nat) : List Byte := (List.range 32).map (Config.deviceKey k)

/-- R333: SAVEW. -/
def State.aesSave (s : State) (j : AesJob) : Nat × State :=
  let app := s.ctxApp j.n
  let blob := rfcWrap (deviceKeyBytes (b2n app)) (s.ctxBytes j.n)
  match s.jobWrite j.eng app j.dst blob with
  | (false, s) => (5, s)
  | (true, s) => (1, s)

/-- R333: RESTW. -/
def State.aesRestore (s : State) (j : AesJob) : Nat × State :=
  let app := s.ctxApp j.n
  match s.jobRead j.eng app j.src 136 with
  | none => (5, s.jobEcc 12 j.eng app j.src 136)
  | some b =>
    match rfcUnwrap (deviceKeyBytes (b2n app)) b with
    | some t => (1, s.putCtx j.n t)
    | none => (8, s.putCtx j.n [])

/-- R331: the work of a job: its result code and the state after. -/
def State.aesWork (s : State) (j : AesJob) : Nat × State :=
  match j.fail with
  | some f => (f, s)
  | none =>
    if j.op = 3 then s.aesSave j
    else if j.op = 4 then s.aesRestore j
    else if j.op = 5 then (1, s.putCtx j.n [])
    else s.aesRun j

/-- R331, R332: a job ends: result, DONE bit and events. -/
def State.aesResult (s : State) (n r : Nat) : State :=
  let s := (s.set (AES_STATn.BUSY n) 0).set (AES_STATn.RESULT n) r
  let s := if n < 32 then s.raiseBit AES_DONEL.DONE n else s.raiseBit AES_DONEH.DONE (n - 32)
  let s := if r = 2 then s.raise AES_EVT.TAGFAIL else s
  if r = 7 then s.raise AES_EVT.RNGFAIL else s

/-- AES_JOB_END (R331). -/
def State.aesEnd (s : State) : State :=
  match s.sec.aes with
  | [] => s
  | j :: t =>
    let s := { s with sec := { s.sec with aes := t } }
    match s.aesWork j with
    | (r, s) => (s.aesResult j.n r).aesNext

/-- AES_JOB_END. -/
def execAesJobEnd (s : State) : Host.Outcome State Fault Refusal := .next (if s.dOn 24 then s.aesEnd else s)

/-- What AES_STAT reads (R351). -/
def State.aesStatView (s : State) : Word :=
  BitVec.ofNat 32 ((s.sec.aes.length - 1) * 256 + s.get AES_STAT.MASKOLD * 4 + b2n (!s.sec.aes.isEmpty) * 2)

end Sys2Proof.Machine
end

