-- ==== Sys2Proof/Machine/Keys.lean ====
section
/-! DEFINITION. Chapter 13: key slots and their commands, the random-number generator, hashes and signatures, identity and
attestation, parking, the lifecycle and debug tokens. -/
namespace Sys2Proof.Machine

/-! ### Channels of PKA (R336, R338, R342) -/

/-- One channel of PKA changed. -/
def State.modPka (s : State) (c : Nat) (f : PkaChan → PkaChan) : State := { s with sec := { s.sec with pka := vmod s.sec.pka c f } }

/-- R336: the commands that use channel 0 of PKA: ECDH, and GEN of TYPE 3. -/
def KeyJob.curve (c : KeyJob) : Bool := c.fail.isNone && (decide (c.op = 6) || (decide (c.op = 1) && decide (fieldOf c.attr 24 4 = 3)))

/-- R336: such a command waits for channel 0 or uses it. -/
def State.curveCmd (s : State) : Bool := s.sec.cmd.any KeyJob.curve

/-- R335, R342: the slot that ECSIGN names cannot be used: it wants one of the stack partition of TYPE 3 with SIGN usage that is
not spent. -/
def State.signBad (s : State) (key : Nat) : Bool :=
  let k := key % 256
  decide (256 ≤ key) || !s.bit (KEY_SATTR.VALID k) || s.erasing k || decide (s.get (KEY_SATTR.TYPE k) ≠ 3) ||
    s.bit (KEY_SATTR.OWNER k) || !bitOf (s.get (KEY_SATTR.USAGE k)) 6 || s.bit (KEY_SATTR.SPENT k)

/-- The channel starts: its job, or on channel 0 without one the key command that waits for it. -/
def State.pkaStart (s : State) (c : Nat) : State :=
  match (vget s.sec.pka c).job with
  | some j =>
    { s with sec := { s.sec with
        pkaRun := some c, pkaLast := c
        pka := vmod s.sec.pka c (fun p => { p with job := some { j with keyBad := decide (j.op = 6) && s.signBad j.key } }) } }
  | none => { s with sec := { s.sec with pkaRun := some c, pkaLast := c, keyRun := true } }

/-- The channel has something to run. -/
def State.pkaWants (s : State) (c : Nat) : Bool := (vget s.sec.pka c).job.isSome || (decide (c = 0) && s.curveCmd)

/-- R342: the next job to run: the channels are served alternately. -/
def State.pkaNext (s : State) : State :=
  if s.sec.pkaRun.isSome then s
  else if s.pkaWants (1 - s.sec.pkaLast) then s.pkaStart (1 - s.sec.pkaLast)
  else if s.pkaWants s.sec.pkaLast then s.pkaStart s.sec.pkaLast
  else s

/-- R336: the key command leaves channel 0. -/
def State.keyLeave (s : State) : State :=
  if s.sec.keyRun then { s with sec := { s.sec with pkaRun := none, keyRun := false } }.pkaNext else s

/-! ### Key commands (R335 to R338) -/

/-- Bytes of key material of a type (R335). -/
def keyLen (t : Nat) : Nat := if t = 1 then 16 else if t = 2 then 32 else 48

/-- The ECC words of a slot are written (R30 to R32). -/
def State.keyStored (s : State) (k : Nat) : State := s.each (List.range 16) (fun s i => s.wrote (9, 0, 16 * k + i))

/-- R335, R336: a slot loaded: a new GEN, USE 0. -/
def State.loadKey (s : State) (k owner type usage limit : Nat) (b : List Byte) : State :=
  let gen := (s.get (KEY_SATTR.GEN k) + 1) % 256
  let w := 2 ^ 31 + owner * 2 ^ 29 + type * 2 ^ 24 + gen * 65536 + usage
  let s := ((s.setReg (KEY_SATTR.addr k) (BitVec.ofNat 32 w)).setReg (KEY_SUSE.addr k) 0).set (KEY_SLIMIT.LIMIT k) limit
  let s := s.keyStored k
  { s with sec := { s.sec with keys := aput s.sec.keys k (padTo (keyLen type) b) } }

/-- R336: a slot zeroed. Its GEN stays, so that a later load differs (DEDUCED from R333, log entry 18). -/
def State.eraseKey (s : State) (k : Nat) : State :=
  let gen := s.get (KEY_SATTR.GEN k)
  let s := if s.bit (KEY_SATTR.VALID k) then s.keyStored k else s
  let s := ((s.setReg (KEY_SATTR.addr k) (BitVec.ofNat 32 (gen * 65536))).setReg (KEY_SUSE.addr k) 0).setReg (KEY_SLIMIT.addr k) 0
  { s with sec := { s.sec with keys := adel s.sec.keys k } }

/-- R336: the check of WSLOT for a usage bit and a set of types: 3 EMPTY, 4 USAGE, 5 SPENT. -/
def State.wslotFail (s : State) (k usage : Nat) (types : List Nat) : Option Nat :=
  if !s.bit (KEY_SATTR.VALID k) || s.erasing k then some 3
  else if !bitOf (s.get (KEY_SATTR.USAGE k)) usage || !types.contains (s.get (KEY_SATTR.TYPE k)) then some 4
  else if s.bit (KEY_SATTR.SPENT k) then some 5
  else none

/-- R336: what the checks of a command give: RESULT of KEY_STAT, or none. -/
def State.keyCmdFail (s : State) (c : KeyJob) : Option Nat :=
  let type := fieldOf c.attr 24 4
  let loads := [1, 2, 3, 5, 6].contains c.op
  if c.op = 0 ∨ 8 < c.op then some 9
  else if loads && (s.bit (KEY_SATTR.VALID c.slot) || s.erasing c.slot) then some 2
  else if (c.op = 1 ∨ c.op = 2) ∧ (type = 0 ∨ 4 < type) then some 9
  else if c.op = 1 then (if s.rngReady then none else some 8)
  else if c.op = 2 then none
  else if c.op = 3 then s.wslotFail c.wslot 4 [1, 2]
  else if c.op = 4 then
    if !s.bit (KEY_SATTR.VALID c.slot) || s.erasing c.slot then some 3
    else if !bitOf (s.get (KEY_SATTR.USAGE c.slot)) 8 || bitOf (s.get (KEY_SATTR.USAGE c.slot)) 2 then some 4
    else s.wslotFail c.wslot 3 [1, 2]
  else if c.op = 5 then (if type = 1 ∨ type = 2 then s.wslotFail c.wslot 5 [1, 2] else some 9)
  else if c.op = 6 then s.wslotFail c.wslot 7 [3]
  else if c.op = 8 then (if s.bit (KEY_SATTR.VALID c.slot) then none else some 3)
  else none

/-- R336: a write of KEY_CMD. While a lifecycle move runs, and in RETIRED, commands are refused with STATE (R348). -/
def State.keyCmd (s : State) (e : Nat) (w : Word) : State :=
  if s.bit KEY_STAT.BUSY then s
  else if s.bit KEY_STAT.LCBUSY || decide (s.sec.lc = 3) then s.set KEY_STAT.RESULT 10
  else
    let data := (List.range 12).flatMap (fun i => leBytes 4 (s.reg (KEY_DATA.addr i)).toNat)
    let c : KeyJob := {
      op := fieldOf w 24 4, slot := fieldOf w 0 8, wslot := fieldOf w 8 8, attr := s.reg KEY_ATTRIN.addr,
      limit := s.get KEY_LIMITIN.LIMIT, addr := (s.reg KEY_ADDR.addr).toNat, data := data, eng := e }
    let c := { c with fail := s.keyCmdFail c }
    ({ s with sec := { s.sec with cmd := some c } }.set KEY_STAT.BUSY 1).pkaNext

/-- The plaintext of a 72-byte blob (R336); the places of its attributes are this model's (DESIGN CHOICE, log entry 19). -/
def blobText (type usage limit : Nat) (key : List Byte) : List Byte :=
  leBytes 4 type ++ leBytes 4 usage ++ leBytes 4 limit ++ List.replicate 4 0 ++ padTo 48 key

/-- A job that uses a slot and has started (R338): of pipeline G, or ECSIGN. -/
def State.slotBusy (s : State) (k : Nat) : Bool :=
  s.sec.aes.any (fun j => j.started && decide (j.slot = some k)) ||
    (decide (s.sec.pkaRun = some 0) && !s.sec.keyRun &&
      (vget s.sec.pka 0).job.any (fun j => decide (j.op = 6) && !j.keyBad && decide (j.key % 256 = k)))

/-- R337: SETLIMIT. -/
def State.setLimit (s : State) (k limit : Nat) : State :=
  let s := s.set (KEY_SLIMIT.LIMIT k) limit
  if limit ≠ 0 ∧ limit ≤ s.get (KEY_SUSE.USE k) then (s.set (KEY_SATTR.SPENT k) 1).raise KEY_EVT.SPENT else s

/-- The slots whose material a command reads: WSLOT, and for WRAP the slot itself. -/
def KeyJob.reads (c : KeyJob) (e : Nat × Nat × Nat) : Bool :=
  ([3, 4, 5, 6].contains c.op && keyWord c.wslot e) || (decide (c.op = 4) && keyWord c.slot e)

/-- R336: the work of a command whose checks passed and whose material can be read: RESULT and the state after. -/
def State.keyAct (s : State) (c : KeyJob) : Nat × State :=
  let owner := fieldOf c.attr 29 1
  let type := fieldOf c.attr 24 4
  let usage := fieldOf c.attr 0 9
  if c.op = 1 then
    if !s.rngReady then (8, s)
    else
      let r := if type = 3 then s.rngScalar else s.rngRequest
      (1, r.2.loadKey c.slot owner type usage c.limit r.1)
  else if c.op = 2 then
    let s := s.loadKey c.slot owner type usage c.limit c.data
    (1, s.each (List.range 12) (fun s i => s.setReg (KEY_DATA.addr i) 0))
  else if c.op = 3 then
    match s.jobRead c.eng false c.addr 72 with
    | none => (7, s.jobEcc 14 c.eng false c.addr 72)
    | some b =>
      let s := s.keyUse c.wslot
      match rfcUnwrap (s.keyOf c.wslot) b with
      | none => (6, s)
      | some t =>
        let ty := leNat (t.take 4)
        if ty = 0 ∨ 4 < ty then (9, s)
        else (1, s.loadKey c.slot owner ty (leNat ((t.drop 4).take 4) % 512) (leNat ((t.drop 8).take 4)) (t.drop 16))
  else if c.op = 4 then
    if s.jobDenied c.eng false .write c.addr 72 then (7, s)
    else
      let t := blobText (s.get (KEY_SATTR.TYPE c.slot)) (s.get (KEY_SATTR.USAGE c.slot)) (s.get (KEY_SLIMIT.LIMIT c.slot))
        (s.keyOf c.slot)
      let b := rfcWrap (s.keyOf c.wslot) t
      (1, (s.keyUse c.wslot).viewPuts c.eng c.addr b)
  else if c.op = 5 then
    match s.jobRead c.eng false c.addr 48 with
    | none => (7, s.jobEcc 14 c.eng false c.addr 48)
    | some b =>
      let key := kdf108 (s.keyOf c.wslot) (b.take 16) (b.drop 16) (keyLen type)
      (1, (s.keyUse c.wslot).loadKey c.slot owner type usage c.limit key)
  else if c.op = 6 then
    match s.jobRead c.eng false c.addr 96 with
    | none => (7, s.jobEcc 14 c.eng false c.addr 96)
    | some b =>
      if !onCurve b then (9, s)
      else
        let key := ecdh (s.keyOf c.wslot) b
        (1, (s.keyUse c.wslot).loadKey c.slot owner 4 usage c.limit key)
  else if c.op = 7 then (1, s.eraseKey c.slot)
  else (1, s.setLimit c.slot c.limit)

/-- R31, R336: the work of a command whose checks passed; material that holds an uncorrectable word ends it with ACCESS. -/
def State.keyWork (s : State) (c : KeyJob) : Nat × State :=
  if s.ecc.any c.reads then (7, s.blockRead 14 c.reads) else (s.blockRead 14 c.reads).keyAct c

/-- KEY_COMMAND_DONE (R336, R338): an erase ends once the jobs that use the slot have ended; ECDH and GEN of TYPE 3 end only
where they run on channel 0 of PKA. -/
def State.keyDone (s : State) : State :=
  match s.sec.cmd with
  | none => s
  | some c =>
    if (c.fail.isNone && decide (c.op = 7) && s.slotBusy c.slot) || (c.curve && !s.sec.keyRun) then s
    else
      let r : Nat × State := match c.fail with
        | some f => (f, s)
        | none => s.keyWork c
      let s := { r.2 with sec := { r.2.sec with cmd := none } }
      ((s.set KEY_STAT.BUSY 0).set KEY_STAT.RESULT r.1).keyLeave

/-- KEY_COMMAND_DONE. -/
def execKeyCommandDone (s : State) : Host.Outcome State Fault Refusal := .next (if s.dOn 24 then s.keyDone else s)

/-! ### Hashes and signatures (R342 to R346) -/

/-- R342: a write of PKA_OPc. -/
def State.pkaOp (s : State) (e c : Nat) (w : Word) : State :=
  if s.bit (PKA_STAT.BUSY c) then s
  else
    let j : PkaJob := {
      op := fieldOf w 0 4, first := decide (fieldOf w 6 1 = 1), last := decide (fieldOf w 7 1 = 1),
      src := (s.reg (PKA_SRC.addr c)).toNat, len := s.get (PKA_LEN.LEN c), key := (s.reg (PKA_KEY.addr c)).toNat,
      sig := (s.reg (PKA_SIG.addr c)).toNat, dst := (s.reg (PKA_DST.addr c)).toNat, eng := e }
    ((s.modPka c (fun p => { p with job := some j })).set (PKA_STAT.BUSY c) 1).pkaNext

/-- What a job ends with: RESULT, ECFAIL, HSSFAIL. -/
structure PkaEnd where
  res : Nat
  ec : Bool := false
  hss : Bool := false
  deriving DecidableEq, Repr

/-- A read of a PKA job. -/
def State.pkaRead (s : State) (j : PkaJob) (a n : Nat) : Option (List Byte) := s.jobRead j.eng (s.isApp j.eng) a n

/-- The output of a PKA job: ACCESS where it cannot be written. -/
def State.pkaWrite (s : State) (j : PkaJob) (b : List Byte) : PkaEnd × State :=
  if s.jobDenied j.eng (s.isApp j.eng) .write j.dst b.length then ({ res := 5 }, s)
  else ({ res := 1 }, s.viewPuts j.eng j.dst b)

/-- R342: a hash job: FIRST starts a new state, LAST writes the digest. -/
def State.pkaHash (s : State) (c : Nat) (j : PkaJob) : PkaEnd × State :=
  let ch := vget s.sec.pka c
  if !j.first && decide (ch.hop ≠ j.op) then ({ res := 4 }, s)
  else match s.pkaRead j j.src j.len with
    | none => ({ res := 5 }, s.jobEcc 13 j.eng (s.isApp j.eng) j.src j.len)
    | some b =>
      let m := (if j.first then [] else ch.msg) ++ b
      let s := s.modPka c (fun p => { p with hop := j.op, msg := m })
      if !j.last then ({ res := 1 }, s)
      else s.pkaWrite j (if j.op = 1 then sha256 m else sha384 m)

/-- R343: VERIFY2 of a message under a key block and a signature block: the ECDSA and the HSS verdict. -/
def verify2 (keys sigs msg : List Byte) : Bool × Bool :=
  (onCurve (keys.take 96) && ecVerify (keys.take 96) (sigs.take 96) msg,
    hssTypes (keys.drop 96) (sigs.drop 96) && hssVerify (keys.drop 96) (sigs.drop 96) msg)

/-- R343: a verification job. -/
def State.pkaVerify (s : State) (j : PkaJob) : PkaEnd × State :=
  let kn := if j.op = 3 then 96 else if j.op = 4 then 60 else 156
  let sn := if j.op = 3 then 96 else if j.op = 4 then 5076 else 5172
  match s.pkaRead j j.src j.len, s.pkaRead j j.key kn, s.pkaRead j j.sig sn with
  | some m, some k, some g =>
    if j.op = 3 then
      if !onCurve k then ({ res := 3 }, s)
      else if ecVerify k g m then ({ res := 1 }, s)
      else ({ res := 2, ec := true }, s)
    else if j.op = 4 then
      if !hssTypes k g then ({ res := 4 }, s)
      else if hssVerify k g m then ({ res := 1 }, s)
      else ({ res := 2, hss := true }, s)
    else
      let v := verify2 k g m
      ({ res := if v.1 && v.2 then 1 else 2, ec := !v.1, hss := !v.2 }, s)
  | _, _, _ =>
    let app := s.isApp j.eng
    ({ res := 5 }, ((s.jobEcc 13 j.eng app j.src j.len).jobEcc 13 j.eng app j.key kn).jobEcc 13 j.eng app j.sig sn)

/-- R343: the number a signature takes, 48 bytes. -/
def State.nonce (s : State) : List Byte := Config.scalarBytes (Config.nonceLess s.drawn).val

/-- R335, R342: ECSIGN with a slot that could be used when the job started (R338). -/
def State.pkaSign (s : State) (j : PkaJob) : PkaEnd × State :=
  let k := j.key % 256
  if j.keyBad then ({ res := 3 }, s)
  else if s.keyEcc k then ({ res := 5 }, s.blockRead 13 (keyWord k))
  else
    let s := s.blockRead 13 (keyWord k)
    match s.pkaRead j j.src j.len with
    | none => ({ res := 5 }, s.jobEcc 13 j.eng (s.isApp j.eng) j.src j.len)
    | some m => (s.draw.keyUse k).pkaWrite j (ecSign (s.keyOf k) m s.nonce)

/-- R345: the index the next ATTEST uses, whether a bit of ATTBLK must be programmed for it, or none when all are used. -/
def State.attIndex (s : State) : Option (Nat × Bool) :=
  let q := s.get KEY_ATTNEXT.Q
  if s.bit KEY_ATTNEXT.VALID && decide (q % 64 ≠ 0) then some (q, false)
  else if s.sec.attBlk < 16384 then some (64 * s.sec.attBlk, true)
  else none

/-- R345: PKA_ATTLEFT. -/
def State.attLeft (s : State) : Nat :=
  let q := s.get KEY_ATTNEXT.Q
  (16384 - s.sec.attBlk) * 64 + (if s.bit KEY_ATTNEXT.VALID && decide (q % 64 ≠ 0) then 64 - q % 64 else 0)

/-- The security version of the running recipe (R382). -/
def State.runVer (s : State) : Nat := s.get UPD_STAT.RUNVER + 128 * s.get UPD_SECVER.RUNVER7

/-- R346: the header of an attestation report. -/
def State.attHeader (s : State) (q : Nat) : List Byte :=
  [1, BitVec.ofNat 8 s.sec.lc, BitVec.ofNat 8 s.runVer, 0] ++ (List.range 4).flatMap (fun i => leBytes 4 (Config.uid i).toNat) ++
    leBytes 5 s.abn ++ [0, 0, 0] ++ leBytes 4 q

/-- Seed and identifier of a tree as one number. -/
def LmsSecret.number (k : LmsSecret) : Nat := leNat (k.seed ++ k.id)

/-- R345: the lower tree under leaf `u` of the top tree. -/
def LmsSecret.lower (k : LmsSecret) (u : Nat) : LmsSecret :=
  { seed := (List.range 32).map (Config.lowerTree k.number u), id := (List.range 16).map (fun i => Config.lowerTree k.number u (32 + i)) }

/-- The randomizer of leaf `q` of a tree. -/
def LmsSecret.rand (k : LmsSecret) (q : Nat) : List Byte := (List.range 32).map (Config.randomizer k.number q)

/-- R345: the HSS signature with index `q`: leaf floor(q / 1,024) of the top tree, leaf q mod 1,024 of the lower. -/
def LmsSecret.attest (top : LmsSecret) (q : Nat) (msg : List Byte) : List Byte :=
  let u := q / 1024
  let l := q % 1024
  hssSign top (top.lower u) u l (top.rand u) ((top.lower u).rand l) msg

/-- R348: identity and attestation are there. -/
def State.hasIdentity (s : State) : Bool := decide (s.sec.lc = 1) || decide (s.sec.lc = 2)

/-- R345, R346: ATTEST. -/
def State.pkaAttest (s : State) (j : PkaJob) : PkaEnd × State :=
  if !s.hasIdentity then ({ res := 8 }, s)
  else if 1024 < j.len then ({ res := 4 }, s)
  else match s.attIndex with
    | none => ({ res := 7 }, s)
    | some (q, burn) =>
      if burn && s.bit PWR_STAT.PFW then ({ res := 8 }, s)
      else match s.pkaRead j j.src j.len with
        | none => ({ res := 5 }, s.jobEcc 13 j.eng (s.isApp j.eng) j.src j.len)
        | some b =>
          let s := if burn then { s with sec := { s.sec with attBlk := s.sec.attBlk + 1 } } else s
          let s := (s.set KEY_ATTNEXT.Q (q + 1)).set KEY_ATTNEXT.VALID 1
          let m := s.attHeader q ++ b
          let id := s.sec.identity.getD default
          s.draw.pkaWrite j (m ++ ecSign id.scalar m s.nonce ++ id.top.attest q m)

/-- R344: IDPUB. -/
def State.pkaIdpub (s : State) (j : PkaJob) : PkaEnd × State :=
  if !s.hasIdentity then ({ res := 8 }, s)
  else
    let id := s.sec.identity.getD default
    s.pkaWrite j (ecPublic id.scalar ++ hssPublic id.top)

/-- R342: the work of a job. -/
def State.pkaWork (s : State) (c : Nat) (j : PkaJob) : PkaEnd × State :=
  if j.op = 1 ∨ j.op = 2 then s.pkaHash c j
  else if j.op = 3 ∨ j.op = 4 ∨ j.op = 5 then s.pkaVerify j
  else if j.op = 6 ∨ j.op = 8 ∨ j.op = 9 then
    if c ≠ 0 then ({ res := 6 }, s)
    else if j.op = 6 then s.pkaSign j
    else if j.op = 8 then s.pkaAttest j
    else s.pkaIdpub j
  else ({ res := 4 }, s)

/-- PKA_JOB_END (R342). -/
def State.pkaDone (s : State) : State :=
  match s.sec.pkaRun with
  | none => s
  | some c =>
    if s.sec.keyRun then s else
    match (vget s.sec.pka c).job with
    | none => s
    | some j =>
      let r := s.pkaWork c j
      let s := { r.2 with sec := { r.2.sec with pkaRun := none, pkaLast := c } }
      let s := s.modPka c (fun p => { p with job := none })
      let s := (((s.set (PKA_STAT.BUSY c) 0).set (PKA_STAT.RESULT c) r.1.res).set (PKA_STAT.ECFAIL c) (b2n r.1.ec)).set
        (PKA_STAT.HSSFAIL c) (b2n r.1.hss)
      (s.raiseBit PKA_EVT.DONE c).pkaNext

/-- PKA_JOB_END. -/
def execPkaJobEnd (s : State) : Host.Outcome State Fault Refusal := .next (if s.dOn 24 then s.pkaDone else s)

/-! ### Lifecycle and debug tokens (R348, R349) -/

/-- R348: the move is in the table and its condition holds. What the hardware can see of the root hashes is that they are
not blank (DEDUCED, log entry 20). -/
def State.moveOk (s : State) (to_ : Nat) : Bool :=
  let half (a : Nat) : Bool := (List.range 12).any (fun i => decide (s.reg (KEY_ROOT.addr (a + i)) ≠ 0))
  if s.sec.lc = 0 ∧ to_ = 1 then half 0 && half 12
  else if s.sec.lc = 1 ∧ to_ = 2 then s.bit GLZ_STAT.SEALED
  else decide ((s.sec.lc = 1 ∨ s.sec.lc = 2) ∧ to_ = 3)

/-- R348: a write of KEY_LCCMD. -/
def State.lcCmd (s : State) (w : Word) : State :=
  if fieldOf w 16 16 ≠ 0xC6A0 then s
  else if s.bit KEY_STAT.LCBUSY || !s.moveOk (fieldOf w 0 2) || s.bit PWR_STAT.PFW then s.raise KEY_EVT.LCERR
  else { s with sec := { s.sec with lcMove := some (fieldOf w 0 2) } }.set KEY_STAT.LCBUSY 1

/-- R348, R381, R354: the registers that read one-time-programmable bits. -/
def State.showOtp (s : State) : State :=
  let s := (s.set KEY_LC.STATE s.sec.lc).set UPD_SECVER.COUNTER s.upd.counter
  s.each (List.range 24) (fun s i => s.setReg (KEY_ROOT.addr i) (s.sec.roots.getD i 0))

/-- R344: the identity drawn and the roots kept: the scalar from one request, the seed and the identifier from the next. -/
def State.drawIdentity (s : State) : State :=
  let a := s.rngScalar
  let b := a.2.rngRequest
  let s := b.2
  { s with sec := { s.sec with
      roots := (List.range 24).map (fun i => s.reg (KEY_ROOT.addr i)),
      identity := some { scalar := a.1, top := { seed := b.1.take 32, id := (b.1.drop 32).take 16 } } } }

/-- LIFECYCLE_MOVE_DONE (R344, R348): the marker is programmed. The move to PROVISIONED draws the identity and waits until output
of the DRBG can be used (R340). -/
def State.lcDone (s : State) : State :=
  match s.sec.lcMove with
  | none => s
  | some t =>
    if t = 1 ∧ !s.rngReady then s else
    let s := { s with sec := { s.sec with lcMove := none, lc := t } }
    let s := if t = 1 then s.drawIdentity
      else if t = 3 then
        let s := s.each (List.range 256) State.eraseKey
        s.set KEY_PARKCNT.COUNT (s.get KEY_PARKCNT.COUNT + 1)
      else s
    ((s.set KEY_LC.STATE t).set KEY_STAT.LCBUSY 0).raise KEY_EVT.LCDONE

/-- LIFECYCLE_MOVE_DONE. -/
def execLifecycleMoveDone (s : State) : Host.Outcome State Fault Refusal := .next (if s.dOn 24 then s.lcDone else s)

/-- R325, R348: a debugger reaches the engine: opened by a token, or every engine in BLANK. -/
def State.dbgOpen (s : State) (n : Nat) : Bool := bitOf (s.get ENG_DBGSTAT.OPEN) n || decide (s.sec.lc = 0)

/-- The SHA-384 of a key as root words (R348). -/
def rootWords (b : List Byte) : List Word := wordsOf 13 (sha384 b)

/-- The hashes of a block of signer keys, laid out as KEY_ROOTn. -/
def keyHashes (keys : List Byte) : List Word := rootWords (keys.take 96) ++ rootWords (keys.drop 96)

/-- R349: the signer keys hash to the owner's roots, or in RETIRED to the Uzoten root. -/
def State.signerOk (s : State) (keys : List Byte) : Bool :=
  decide (keyHashes keys = s.sec.roots) || (decide (s.sec.lc = 3) && decide (keyHashes keys = (List.range 24).map Config.romRoot))

/-- R349: the token is accepted. -/
def State.tokenOk (s : State) (t : List Byte) : Bool :=
  let flags := leNat ((t.drop 2).take 2)
  let uid := (List.range 4).flatMap (fun i => leBytes 4 (Config.uid i).toNat)
  let chal := (List.range 4).flatMap (fun i => leBytes 4 (Config.challenge s.sec.chal i).toNat)
  let any := bitOf flags 1 && decide (s.sec.lc = 1)
  let v := verify2 ((t.drop 40).take 156) ((t.drop 196).take 5172) (t.take 40)
  decide (t.length = 5368) && decide (leNat (t.take 2) = 1) && decide ((t.drop 24).take 16 = chal) &&
    (any || decide ((t.drop 8).take 16 = uid)) && s.signerOk ((t.drop 40).take 156) && v.1 && v.2

/-- DBGTOKEN (R349). The TAP holds its state under a power-fail warning (R407). -/
def execKeyDbgtoken (bytes : List (BitVec 8)) (s : State) : Host.Outcome State Fault Refusal :=
  .next (if s.dOn 24 && !s.bit PWR_STAT.PFW then { s with sec := { s.sec with token := some bytes } } else s)

/-- DEBUG_TOKEN_VERDICT (R349): the token is judged, and a new challenge is drawn. -/
def State.tokenVerdict (s : State) : State :=
  match s.sec.token with
  | none => s
  | some t =>
    if s.sec.pkaRun = some 0 then s
    else
      let ok := s.tokenOk t
      let stack := bitOf (leNat ((t.drop 2).take 2)) 0
      let mask := leNat ((t.drop 4).take 2)
      let s := { s with sec := { s.sec with token := none, chal := s.sec.chal + 1 } }
      if !ok then s
      else s.each ((List.range 16).filter (fun n => bitOf mask n && (s.isApp n || stack))) (fun s n =>
        s.putBit ENG_DBGSTAT.OPEN n true)

/-- DEBUG_TOKEN_VERDICT. -/
def execDebugTokenVerdict (s : State) : Host.Outcome State Fault Refusal := .next (if s.dOn 24 then s.tokenVerdict else s)

/-! ### Parking (R339) -/

/-- The plaintext of a parked slot; the places of its fields are this model's (DESIGN CHOICE, log entry 19). -/
def State.parkText (s : State) (k : Nat) : List Byte :=
  leBytes 4 k ++ leBytes 4 (s.reg (KEY_SATTR.addr k)).toNat ++ leBytes 4 (s.get (KEY_SUSE.USE k)) ++
    leBytes 4 (s.get (KEY_SLIMIT.LIMIT k)) ++ List.replicate 8 0 ++ padTo 48 (s.keyOf k)

/-- R339: every valid slot is parked, under the header. -/
def State.park (s : State) : State :=
  if !s.bit KEY_CTRL.PARKEN then s
  else
    let s := s.blockRead 14 (fun e => decide (e.1 = 9))
    let slots := (List.range 256).filter (fun k => s.bit (KEY_SATTR.VALID k))
    let head := leBytes 4 (s.get KEY_PARKCNT.COUNT) ++ leBytes 4 slots.length
    let blobs := slots.flatMap (fun k => rfcWrap (deviceKeyBytes 2) (s.parkText k))
    s.setMbytes (0x12000000 + s.get KEY_CTRL.PARKBASE) (head ++ blobs)

/-- The parked slots, where every blob unwraps. -/
def unwrapAll : List (List Byte) → Option (List (List Byte))
  | [] => some []
  | b :: t => match rfcUnwrap (deviceKeyBytes 2) b, unwrapAll t with
    | some x, some r => some (x :: r)
    | _, _ => none

/-- A parked slot loaded as it was. -/
def State.unparkSlot (s : State) (t : List Byte) : State :=
  let k := leNat (t.take 4) % 256
  let attr := leNat ((t.drop 4).take 4)
  let s := ((s.setReg (KEY_SATTR.addr k) (BitVec.ofNat 32 attr)).set (KEY_SUSE.USE k) (leNat ((t.drop 8).take 4))).set
    (KEY_SLIMIT.LIMIT k) (leNat ((t.drop 12).take 4))
  let s := s.keyStored k
  { s with sec := { s.sec with keys := aput s.sec.keys k ((t.drop 24).take (keyLen (attr / 2 ^ 24 % 16))) } }

/-- KEY_UNPARK (R339): the region is accepted once; on a mismatch every slot starts empty. -/
def State.unpark (s : State) : State :=
  if !s.bit KEY_CTRL.PARKEN then s
  else
    let a := 0x12000000 + s.get KEY_CTRL.PARKBASE
    let head := s.mbytes a 8
    let n := leNat (head.drop 4)
    let r := if leNat (head.take 4) = s.get KEY_PARKCNT.COUNT ∧ n ≤ 256 then
        unwrapAll ((List.range n).map (fun i => s.mbytes (a + 8 + 80 * i) 80)) else none
    match r with
    | some l => (s.each l State.unparkSlot).set KEY_PARKCNT.COUNT (s.get KEY_PARKCNT.COUNT + 1)
    | none => s.raise KEY_EVT.PARKBAD

/-- The domain SEC loses what it holds beside its registers (R339, R350, R352, R354). -/
def State.clearSec (s : State) : State :=
  { s with sec := { s.sec with
      keys := [], rng := {}, aes := [], cmd := none, pka := Vector.replicate 2 {}, pkaRun := none, pkaLast := 1,
      keyRun := false, lcMove := none, token := none } }

end Sys2Proof.Machine
end

