-- ==== Sys2Proof/Machine/Reset.lean ====
section
/-! DEFINITION. Chapters 1 and 16: what a domain loses when it is reset or goes off, and the warm reset and the cold reset
(R9, R10, R34 to R36, R419). -/
namespace Sys2Proof.Machine

/-- A register after a reset of the domain it lies in: the bits that the always-on domain keeps, and for the others the
reset value (R10). -/
def resetWord (r : RegRow) (v : Word) : Word :=
  (v &&& BitVec.ofNat 32 r.keep) ||| (BitVec.ofNat 32 r.reset &&& ~~~BitVec.ofNat 32 r.keep)

/-- The registers that `p` selects after a reset; `keep`, with the bits that the always-on domain keeps. What hardware raised
before it in this clock is gone (R8). -/
def State.resetRegs (s : State) (p : RegRow → Bool) (keep : Bool) : State :=
  { s with hot := [], regs := smap regReset (fun a v => match findRow a with
      | some r => if p r then (if keep then resetWord r v else BitVec.ofNat 32 r.reset) else v
      | none => v) s.regs }

/-- A register lies in domain `d`: the registers that two chains share lie in both. -/
def inDomain (d : Nat) (r : RegRow) : Bool :=
  decide (r.dom = d) || (decide (r.dom = 41) && (decide (d = 16) || decide (d = 17))) ||
    (decide (r.dom = 42) && (decide (d = 20) || decide (d = 21)))

/-! ### What lies beside the registers -/

/-- The receive chain without its front end's work; the interval logic is always-on (R185). -/
def RxChain.cleared (c : RxChain) : RxChain := { ticks := c.ticks, due := c.due, awake := c.awake, releasing := c.releasing }

/-- What PER holds beside its registers goes; scrubber places stay (R33), and TSU keeps what R260 and R272 keep. -/
def State.clearPer (s : State) : State :=
  let tsu : TsuState := {
    tb := vset (vset s.tsu.tb 1 {}) 2 {}
    sleep := s.tsu.sleep
    resetEdge := s.tsu.resetEdge
    edgeRate := s.tsu.edgeRate
    steps := s.tsu.steps }
  { s with
    sys := { scrub := s.sys.scrub }
    beat := {}
    evr := { routes := s.evr.routes }
    tmr := Vector.replicate 8 {}
    tsu := tsu }

/-- R255: every queue is emptied and every cell freed, whoever holds it. -/
def State.clearFab (s : State) : State :=
  { s with
    qsc := { nextId := s.qsc.nextId }
    msh := {}
    links := []
    eng := s.eng.map (fun e => { e with alloc := [], pkts := [], sel := none, stalled := none })
    jjl := s.jjl.map (fun j => { j with heldM := [], heldD := [], oweM := 0, oweD := 0 }) }

/-- What domain `d` holds beside its registers goes. -/
def State.clearDomain (s : State) (d : Nat) : State :=
  if d < 16 then s.clearEngine d
  else if d < 18 then s.modRxc (d - 16) RxChain.cleared
  else if d = 18 then { s with slc := Vector.replicate 16 {} }
  else if d = 19 then { s with phy := { nextFid := s.phy.nextFid } }
  else if d < 22 then
    let x := d - 20
    let s := s.each (carriersOf x) (fun s c => s.setCar c none)
    ({ s with txc := vmod s.txc x (fun t => { tj := t.tj, lastTj := t.tj }) }).set (syLock x) 0
  else if d = 22 then
    { s with
      lnk := { nextAct := s.lnk.nextAct }
      rxc := s.rxc.map (fun c => { c with awake := none, releasing := false }) }
  else if d = 23 then s.clearFab
  else if d = 24 then { s.clearSec with upd := { s.upd with cmd := none } }
  else if d = 25 then { s with eth := {} }
  else if d = 26 then { s with jjl := Vector.replicate 2 {} }
  else if d = 27 then { s with hif := {} }
  else if d = 28 then s.clearPer
  else s

/-- R181, R255, R332, R390: the memories that a reset of domain `d` empties hold no error; no word of them is written. -/
def State.clearedTables (s : State) (d : Nat) : State :=
  s.unwrite (fun e => (decide (d < 16) && decide (e.1 = 7) && decide (e.2.1 = d)) || (decide (d = 22) && (decide (e.1 = 5) || decide (e.1 = 6))) ||
    (decide (d = 23) && decide (e.1 = 4)) || (decide (d = 24) && (decide (e.1 = 9) || decide (e.1 = 10))) || (decide (d = 27) && decide (e.1 = 8)))

/-- R32: the memories of a domain that goes off are unwritten, and read zero. Those of the cluster go with the last engine. -/
def State.dropMemory (s : State) (d : Nat) : State :=
  if d < 16 then
    let last := !(List.range 16).any (fun k => decide (k ≠ d) && s.dOn k)
    { s.unwrite (fun e => (decide (e.1 ≤ 1) && decide (e.2.1 = d)) || (last && decide (e.1 = 7))) with
      lmem := sdrop (fun a => decide (a / 0x20000 = d)) s.lmem }
  else if d = 23 then
    { s.unwrite (fun e => decide (e.1 = 3) || decide (e.1 = 4)) with
      mem := sdrop (fun a => decide (a / 0x1000000 = 0x11)) s.mem }
  else if 32 ≤ d then
    { s.unwrite (fun e => decide (e.1 = 2) && decide (e.2.1 = d - 32)) with
      mem := sdrop (fun a => decide (a / 0x1000000 = 0x10) && decide (a % 0x1000000 / 0x80000 = d - 32)) s.mem }
  else s.clearedTables d

/-- R15, R408, R419: work in progress in domain `d` is abandoned as by a loss of its clock. -/
def State.stopWork (s : State) (d : Nat) : State :=
  if d = 16 ∨ d = 17 then (s.each (s.slicesOf (d - 16)) (fun s n => s.abandon n 9)).loseWindow (d - 16)
  else if d = 18 ∨ d = 19 then ((s.each (List.range 16) (fun s n => s.abandon n 9)).loseWindow 0).loseWindow 1
  else if d = 20 ∨ d = 21 then s.cutChain (d - 20) 5
  else if d = 22 then s.radioStop
  else if d = 25 then s.ethDown
  else if d = 26 then (s.jjDown 0).jjDown 1
  else s

/-- R381: of UPD_STAT.STATE only ARMED and TRIAL are kept in the always-on domain. -/
def State.keepUpdState (s : State) : State :=
  let st := s.get UPD_STAT.STATE
  if st = 4 ∨ st = 5 then s else s.set UPD_STAT.STATE 0

/-- What shows in a domain's registers although they were reset: one-time-programmable values, detectors and modes. -/
def State.showLive (s : State) (d : Nat) : State :=
  if d = 18 then s.showSlices
  else if d = 20 ∨ d = 21 then s.glazeReload
  else if d = 24 then s.keepUpdState.showOtp
  else s

/-- The registers of domain `d` and what lies beside them take their reset values. -/
def State.resetDomain (s : State) (d : Nat) : State :=
  (((s.clearDomain d).clearedTables d).resetRegs (inDomain d) true).showLive d

/-- R419: a domain reset. Of an engine it is an engine reset. After the commit some are refused. -/
def State.domainReset (s : State) (w : Word) : State :=
  let d := fieldOf w 0 6
  if fieldOf w 16 16 ≠ 0xC6A0 ∨ d ∉ allDomains then s
  else if s.upd.locked ∧ d ∈ [22, 23, 24, 27, 28] then s.raise PWR_EVT.REFUSED
  else if d < 16 then s.engineReset d
  else (s.stopWork d).resetDomain d

/-! ### Warm reset (R9, R419) -/

/-- What the blocks outside the always-on domain hold beside their registers after a warm reset. -/
def State.warmClear (s : State) : State :=
  let s := s.clearPer.clearSec
  let glz : GlazeState := { s.glz with burning := none }
  let lnk : LnkState := { nextAct := s.lnk.nextAct }
  let pwr : PwrState := { onVbak := s.pwr.onVbak, holdTimer := s.pwr.holdTimer, wakeSets := s.pwr.wakeSets, lastWake := s.pwr.lastWake }
  let pad : PadState := { s.pad with gpioHold := none, feHold := Vector.replicate 2 none, coexHold := none, flPulse := true }
  let tsu : TsuState := { s.tsu with resetEdge := s.tsu.sleep.isNone, edgeRate := s.tsu.edgeRate.or (some (s.reg (TSU_RATE.addr 0))) }
  { s with
    pwr := pwr, pad := pad, tsu := tsu, evr := {}
    rxc := s.rxc.map (fun c => { ticks := c.ticks })
    slc := Vector.replicate 16 {}
    phy := { nextFid := s.phy.nextFid }
    car := Vector.replicate 8 none
    txc := s.txc.map (fun t => { tj := t.tj, lastTj := t.tj })
    glz := glz, lnk := lnk
    qsc := { nextId := s.qsc.nextId }
    msh := {}
    jjl := Vector.replicate 2 {}
    eth := {}
    eng := Vector.replicate 16 {}
    takeover := none, links := []
    upd := { s.upd with cmd := none, locked := false, deferred := false }
    hif := {} }

/-- R9, R419: a warm reset. Every block outside the always-on domain is reset and every domain is on. `act` says that it
carries out an activation: another one fails the work that the queues offered (R53). -/
def State.warmReset (s : State) (act : Bool) : State :=
  let out := !act && s.workOffered
  let s := if s.get (PWR_DSTAT.STATE 24) = 2 then s else s.park
  let s := [22, 23, 24, 27].foldl State.clearedTables (s.warmClear.resetRegs (fun r => r.dom ≠ 62) true)
  let s := ((s.set PWR_STAT.VTCXO 1).set PWR_STAT.GPIOHELD 0).set PWR_BUCK.RUN 15
  let s := s.keepUpdState
  let s := { s with
    sec := { s.sec with chal := s.sec.chal + 1 }
    beat := { s.beat with outage := out } }
  s.showOtp.unpark.glazeReload.wakeReady

/-- R395, R467: a warm reset begins. It waits while VIOOK is 0. The entry of it tells SYS_RSTCAUSE; after a cold reset the
boot ROM writes that entry once the log is recovered (R397; DEDUCED, log entry 24). -/
def State.beginWarm (s : State) (act : Bool) : State :=
  if !s.pad.vioOk then { s with pwr := { s.pwr with warmHeld := true, heldAct := act } }
  else
    let s := s.warmReset act
    if s.upd.cold then s else s.journalHw 0xF001 (s.reg SYS_RSTCAUSE.addr).toNat

/-! ### Cold reset (R9, R35) -/

/-- The always-on domain takes its reset values (R10). The detectors and the RTC stay as they are; the bases restart (R260);
calibration, latches, recorded wakes, held events and the update state go (R271, R377, R424, R456). -/
def State.coldClear (s : State) : State :=
  let was := s
  let s := s.resetRegs (fun r => r.dom ≠ 62) false
  let s := ((s.set PWR_STAT.VMAINOK (was.get PWR_STAT.VMAINOK)).set PWR_STAT.PFW (was.get PWR_STAT.PFW)).set PWR_STAT.VBAKLOW
    (was.get PWR_STAT.VBAKLOW)
  let s := (s.set PWR_STAT.VTCXO (was.get PWR_STAT.VTCXO)).set PWR_STAT.JARLOST 0
  let s := s.setReg SYS_RSTCAUSE.addr 0
  let tsu : TsuState := { steps := s.tsu.steps }
  { s with
    tsu := tsu
    pwr := { s.pwr with wakeSets := [], lastWake := none }
    rxc := Vector.replicate 2 {}
    evr := {}
    upd := { s.upd with deadline := 0, cold := true, rescueBank := none } }

/-- A cold reset, with the warm reset that it causes. `cause` sets the bit of SYS_RSTCAUSE. The buckets are filled (R142). -/
def State.coldReset (s : State) (cause : Loc) : State :=
  (((s.coldClear.raise cause).glazeReload).fillDuty).beginWarm false

/-- RESET_N_PULSE (R466): a low of 1 us or longer makes a cold reset, one of 0.2 us or shorter never does; in between the
chip makes one or none, which is open. -/
def execResetNPulse (widthNs : Nat) (s : State) : Host.Outcome State Fault Refusal :=
  .next (
    if s.pwr.aoDown || decide (widthNs ≤ 200) then s
    else if 1000 ≤ widthNs || Config.resetTaken s.drawn then s.draw.coldReset SYS_RSTCAUSE.PIN
    else s.draw)

/-- R413: the always-on domain powered up: everything takes its reset value but the flash, the one-time-programmable bits
and what stands on the balls. `vbak`: on VBAK alone, with every other domain off. -/
def State.coldStart (s : State) (vbak : Bool) : State :=
  let sec : SecState := {
    attBlk := s.sec.attBlk, lc := s.sec.lc, roots := s.sec.roots, identity := s.sec.identity, chal := s.sec.chal + 1 }
  let glz : GlazeState := { otp := s.glz.otp }
  let pad : PadState := { ext := s.pad.ext, vioOk := s.pad.vioOk, viosel := s.pad.viosel, gnt := s.pad.gnt, flPulse := !vbak }
  let tsu : TsuState := { steps := s.tsu.steps, resetEdge := true }
  let t := { State.reset with
    pending := s.pending, rdata := s.rdata, clk := s.clk, drawn := s.drawn, flash := s.flash
    sec := sec, glz := glz, pad := pad, tsu := tsu
    upd := { counter := s.upd.counter }
    pwr := { onVbak := vbak, warmHeld := !s.pad.vioOk && !vbak } }
  let t := t.glazeReload.fillDuty.showOtp
  if vbak then
    let t := t.each allDomains (fun t d => t.setReg (PWR_DSTAT.addr d) 2)
    let t := (t.each (List.range 16) (fun t n => t.setEstate n stOff))
    ((t.set PWR_STAT.VMAINOK 0).set PWR_STAT.VTCXO 0).set PWR_BUCK.RUN 0
  else t

end Sys2Proof.Machine
end

