-- ==== Sys2Proof/Machine/Clocks.lean ====
section
/-! DEFINITION. Chapters 1 and 2: the reference monitor, loss of reference and of lock, holdover and its exit, SERPLL, and
the scrubbers (R14 to R17, R29 to R33, R55). -/
namespace Sys2Proof.Machine

/-! ### Holdover (R15, R55) -/

/-- R15: what loss of the reference or of CPLLA, CPLLB or SYSPLL does. In holdover already, nothing is left to stop. -/
def State.enterHoldover (s : State) : State :=
  if s.holdover then s
  else (s.radioStop.set SYS_CLKSTAT.SYSPLL_LOCK 0).tsuHold.set SYS_CLKSTAT.HOLDOVER 1 |>.showPhase.showSlices

/-- R15: the reference is lost. The converter PLLs and the synthesisers run on it. -/
def State.refLoss (s : State) : State :=
  let s := (s.set SYS_CLKSTAT.REFOK 0).enterHoldover
  let s := (s.set SYS_CLKSTAT.CPLLA_LOCK 0).set SYS_CLKSTAT.CPLLB_LOCK 0
  let s := s.each [0, 1] (fun s x => (s.set (syLock x) 0).set (TXF_STAT.LOCK x) 0)
  { s with sys := { s.sys with goodWindows := 0, returnDeclared := false } }.raiseHw 7 0 0

/-- R14: loss is declared; one that is declared already is not declared again, but the count of good windows restarts. -/
def State.declareLoss (s : State) : State :=
  if s.bit SYS_CLKSTAT.REFOK then s.refLoss
  else { s with sys := { s.sys with goodWindows := 0, returnDeclared := false } }

/-- REF_EDGE_TIMEOUT (R14): no REF edge for 1 us. -/
def execRefEdgeTimeout (s : State) : Host.Outcome State Fault Refusal := .next (if s.dOn 28 then s.declareLoss else s)

/-- R14: whether a window lies inside the band. -/
def State.inBand (s : State) (ppm : Int) (gap : Bool) : Bool :=
  let dev := max 100 (s.get SYS_REFMON.DEVPPM)
  !gap && decide (ppm.natAbs ≤ dev + if s.holdover then 5000 else 0)

/-- REFMON_WINDOW_END (R14): a window is judged; 16 consecutive good ones declare return. -/
def State.windowEnd (s : State) (ppm : Int) (gap : Bool) : State :=
  if !s.inBand ppm gap then s.declareLoss
  else if s.bit SYS_CLKSTAT.REFOK then s
  else
    let k := s.sys.goodWindows + 1
    if k < 16 then { s with sys := { s.sys with goodWindows := k } }
    else { s with sys := { s.sys with goodWindows := 0, returnDeclared := true } }.set SYS_CLKSTAT.REFOK 1

/-- REFMON_WINDOW_END. -/
def execRefmonWindowEnd (ppm : Int) (gap : Bool) (s : State) : Host.Outcome State Fault Refusal :=
  .next (if s.dOn 28 then s.windowEnd ppm gap else s)

/-- The lock bit of a PLL. -/
def pllLock : Pll → Loc
  | .cplla => SYS_CLKSTAT.CPLLA_LOCK
  | .cpllb => SYS_CLKSTAT.CPLLB_LOCK
  | .syspll => SYS_CLKSTAT.SYSPLL_LOCK

/-- PLL_UNLOCK (R15): loss of lock causes holdover. Where the reference is there, holdover ends at the next boundary. -/
def State.pllUnlock (s : State) (p : Pll) : State :=
  if !s.bit (pllLock p) then s
  else
    let s := (s.enterHoldover.set (pllLock p) 0).raiseHw 8 0 0
    { s with sys := { s.sys with returnDeclared := s.bit SYS_CLKSTAT.REFOK } }

/-- PLL_UNLOCK. -/
def execPllUnlock (p : Pll) (s : State) : Host.Outcome State Fault Refusal := .next (if s.dOn 28 then s.pllUnlock p else s)

/-- R43 step 4, R55: a pending exit from holdover. The PLLs start relocking and the synthesisers calibrate. -/
def State.holdExit (s : State) : State :=
  if !(s.holdover && s.sys.returnDeclared) then s
  else
    let s := ((s.set SYS_CLKSTAT.HOLDOVER 0).raise BEAT_STAT.HOLDEXIT).tsuUnhold
    let s := { s with sys := { s.sys with returnDeclared := false, goodWindows := 0 } }
    let s := ((s.set SYS_CLKSTAT.SYSPLL_LOCK 0).set SYS_CLKSTAT.CPLLA_LOCK 0).set SYS_CLKSTAT.CPLLB_LOCK 0
    s.each [0, 1] (fun s x => if s.dOn (20 + x) then s.calRun x else s)

/-- PLL_RELOCK (R55): a PLL locks, where the reference is there and the chip is out of holdover. -/
def execPllRelock (p : Pll) (s : State) : Host.Outcome State Fault Refusal :=
  .next (if s.dOn 28 && s.bit SYS_CLKSTAT.REFOK && !s.holdover then (s.set (pllLock p) 1).showSlices else s)

/-! ### SERPLL (R17) -/

/-- SERPLL_UNLOCK: both SerDes stop. -/
def State.serUnlock (s : State) : State :=
  if !s.serLocked then s
  else
    let s := s.set SYS_CLKSTAT.SERPLL_LOCK 0
    (((s.jjDown 0).jjDown 1).ethDown).raiseHw 8 0 0

/-- SERPLL_UNLOCK. -/
def execSerpllUnlock (s : State) : Host.Outcome State Fault Refusal := .next (if s.dOn 28 then s.serUnlock else s)

/-- SERPLL_RELOCK (R17): the ports train again from DOWN. -/
def execSerpllRelock (s : State) : Host.Outcome State Fault Refusal :=
  .next (if s.dOn 28 then s.set SYS_CLKSTAT.SERPLL_LOCK 1 else s)

/-! ### Scrubbers (R29 to R33) -/

/-- R29: the ECC words of one instance of a memory; the packet buffer is one memory, in eight domains. -/
def eccWords (m : Nat) : Nat :=
  if m ≤ 1 then 16384
  else if m = 2 then 524288
  else if m = 3 then 32768
  else if m = 4 then 16384
  else if m = 5 then 4096
  else if m = 6 then 8192
  else if m = 7 then 64
  else if m = 8 then 1024
  else if m = 9 then 4096
  else if m = 10 then 2048
  else if m = 11 then 16384
  else 32768

/-- R29: whether instance `i` of memory `m` exists and its domain is on. -/
def State.memOn (s : State) (m i : Nat) : Bool :=
  if m ≤ 1 then s.dOn i
  else if m = 2 then decide (i = 0) && (List.range 8).any (fun k => s.dOn (32 + k))
  else if m = 7 then s.clusterOn
  else if i ≠ 0 then false
  else if m ≤ 4 then s.dOn 23
  else if m ≤ 6 then s.dOn 22
  else if m = 8 then s.dOn 27
  else if m ≤ 10 then s.dOn 24
  else if m = 11 then !s.pwr.aoDown
  else s.clusterOn

/-- The ECC word as SYS_ECCADDR and the marks name it: the packet buffer's words are counted over its domains. -/
def eccEntry (m i w : Nat) : Nat × Nat × Nat := if m = 2 then (2, w / 65536, w) else (m, i, w)

/-- R33: where the scrubber of the packet buffer reads next: it passes over domains that are not on. -/
def State.scrubAt (s : State) (m w : Nat) : Nat :=
  if m ≠ 2 then w
  else (List.range 8).foldr (fun k r =>
    let v := if k = 0 then w else ((w / 65536 + k) % 8) * 65536
    if s.dOn (32 + v / 65536) then v else r) w

/-- R32: the word has been written. The boot ROM holds what it holds. -/
def State.isWritten (s : State) (e : Nat × Nat × Nat) : Bool := decide (e.1 = 0xC) || s.written.contains e

/-- R30 to R32: what a scrubber's read of ECC word `e` meets; the upset is what the read finds beside an error that is
already there. An unwritten word reads zero without an error. SYS, where the fault record lies, stands as the raising block
of a scrubber's fault (DESIGN CHOICE, log entry 193). -/
def State.scrubWord (s : State) (e : Nat × Nat × Nat) (u : Upset) : State :=
  if !s.isWritten e then s
  else match if s.ecc.contains e then Upset.double else u with
    | .clean => s.corrected (fun x => decide (x = e))
    | .single =>
      { s with ecc1 := if s.ecc1.contains e then s.ecc1 else s.ecc1 ++ [e] }.corrected (fun x => decide (x = e))
    | .double =>
      let s := { s with ecc := if s.ecc.contains e then s.ecc else s.ecc ++ [e] }
      (s.eccReport e).raiseHw 4 0 0

/-- SCRUB_READ (R33): a scrubber reads the next word of its memory. -/
def State.scrubRead (s : State) (m i : Nat) (u : Upset) : State :=
  let en := if m = 11 then s.bit SYS_SCRUB.JAREN else s.bit SYS_SCRUB.EN
  if !en || !s.memOn m i then s
  else
    let k := 16 * m + i
    let w := s.scrubAt m ((aget s.sys.scrub k).getD 0)
    let s := { s with sys := { s.sys with scrub := aput s.sys.scrub k ((w + 1) % eccWords m) } }
    s.scrubWord (eccEntry m i w) u

/-- SCRUB_READ. -/
def execScrubRead (mem : Fin 13) (inst : Fin 16) (upset : Upset) (s : State) : Host.Outcome State Fault Refusal :=
  .next (s.scrubRead mem.val inst.val upset)

end Sys2Proof.Machine
end

