-- ==== Sys2Proof/Machine/Power.lean ====
section
/-! DEFINITION. Chapter 16 and the pads of chapter 19: save records, how a domain leaves on and comes back through its
stages, changes at step 6, shedding, and the supply events. -/
namespace Sys2Proof.Machine

/-! ### Save records (R425, R426) -/

/-- R425: slot and byte offset of the record of domain `d`. -/
def saveSlot (d : Nat) : Option (Nat × Nat) :=
  if d = 16 then some (0, 0) else if d = 17 then some (1, 0x20) else if d = 20 then some (2, 0x40)
  else if d = 21 then some (3, 0x140) else if d = 22 then some (4, 0x240) else if d = 23 then some (5, 0x260)
  else if d = 24 then some (6, 0x280) else if d = 27 then some (7, 0x300) else if d = 28 then some (8, 0x310) else none

/-- Consecutive registers of an array. -/
def regRange (f : Nat → Nat) (lo n : Nat) : List Nat := (List.range n).map (fun i => f (lo + i))

/-- R425: the registers of the record of domain `d`, in order. -/
def saveRegs (d : Nat) : List Nat :=
  if d = 16 ∨ d = 17 then
    let x := d - 16
    [RXF_CTRL.addr x, RXF_AGC.addr x, RXF_CAL.addr x, RXF_TASTE.addr x, RXF_TFREQ.addr x]
  else if d = 20 ∨ d = 21 then
    let x := d - 20
    [TXF_CTRL.addr x, TXF_LO.addr x, TXF_FE.addr x, TXF_SHAPE.addr, TXF_MASKSEL.addr] ++ regRange TXF_COEF.addr 36 36 ++
      regRange TXF_MASK.addr 0 16
  else if d = 22 then [LNK_TXOFS.addr, LNK_AIRMAX.addr, COEX_CTRL.addr]
  else if d = 23 then [QSC_OWNL.addr, QSC_OWNH.addr, QSC_POLOWN.addr]
  else if d = 24 then [AES_OWNL.addr, AES_OWNH.addr] ++ regRange UPD_ENTRY.addr 0 16
  else if d = 27 then [HIF_CTRL.addr]
  else if d = 28 then
    [BEAT_CTRL.addr, BEAT_TASKEN.addr, BEAT_RESLIM.addr] ++ regRange BEAT_BUDGET.addr 0 16 ++
      [SYS_FAULTENG.addr, BEAT_PLCUR.addr, TMR_OWN.addr] ++ regRange TMR_CFG.addr 0 8 ++ regRange EVR_CHCFG.addr 0 64 ++
      regRange EVR_PCIN.addr 0 16 ++ regRange EVR_PCCFG.addr 0 16 ++ [PAD_OWN.addr]
  else []

/-- Word 0 of a record. -/
def saveHead (d : Nat) : Nat := d * 2 ^ 24 + 0xA5 * 2 ^ 16 + (saveRegs d).length

/-- R426: the record of domain `d` is written. -/
def State.saveRecord (s : State) (d : Nat) : State :=
  match saveSlot d with
  | none => s
  | some (slot, ofs) =>
    let body := (BitVec.ofNat 32 (saveHead d) :: (saveRegs d).map s.reg).flatMap (fun w => leBytes 4 w.toNat)
    let s := s.setMbytes (0x12000000 + s.get PWR_SAVEBASE.BASE + ofs) (body ++ leBytes 4 (crc32 body))
    s.set ⟨PWR_SAVESTAT.addr, slot, 1⟩ 1

/-- R426: the registers of an accepted record that are written: the shared ones only while the other chain is not on. -/
def State.restorable (s : State) (d : Nat) (a : Nat) : Bool :=
  !((decide (d = 20) && s.dOn 21 || decide (d = 21) && s.dOn 20) && decide (a ≠ TXF_CTRL.addr (d - 20)) &&
    decide (a ≠ TXF_LO.addr (d - 20)) && decide (a ≠ TXF_FE.addr (d - 20)))

/-- SAVE_RECORD_RESTORE (R426): a record is accepted only with its marker, domain, count and CRC correct; one that a warm reset has
invalidated is not (R419). -/
def State.restoreRecord (s : State) (d : Nat) : State :=
  match saveSlot d with
  | none => s
  | some (slot, ofs) =>
    let n := (saveRegs d).length
    let b := s.mbytes (0x12000000 + s.get PWR_SAVEBASE.BASE + ofs) (4 * (n + 2))
    let body := b.take (4 * (n + 1))
    if s.bit ⟨PWR_SAVESTAT.addr, slot, 1⟩ = true ∧ leNat (b.take 4) = saveHead d ∧ leNat (b.drop (4 * (n + 1))) = crc32 body then
      let ws := wordsOf n (body.drop 4)
      let s := s.set ⟨PWR_SAVESTAT.addr, 16 + slot, 1⟩ 0
      ((saveRegs d).zip ws).foldl (fun s p => if s.restorable d p.1 then s.setReg p.1 p.2 else s) s
    else (s.set ⟨PWR_SAVESTAT.addr, 16 + slot, 1⟩ 1).raise PWR_EVT.SAVEBAD

/-! ### Bucks and the TCXO (R404, R421) -/

/-- R404: the buck that feeds a domain. -/
def buckOf (d : Nat) : Nat := if d < 16 then 0 else if d = 18 then 1 else if d = 16 ∨ d = 17 ∨ d = 20 ∨ d = 21 then 3 else 2

/-- PWR_BUCK: a buck runs while any of its domains is on or in retention, or comes on and is past its regulator stage. BK0 feeds
the cluster part ENG too, which goes off only at power fail (R415). -/
def State.showBucks (s : State) : State :=
  s.set PWR_BUCK.RUN (((List.range 4).map (fun b =>
    2 ^ b * b2n (decide (b = 0) || allDomains.any (fun d =>
      decide (buckOf d = b) && (decide (s.get (PWR_DSTAT.STATE d) ≠ 2) || s.bit (PWR_DSTAT.REGRDY d)))))).sum)

/-- R421: the clocks of a chain whose domain is off stop; with VTCXOAUTO and every domain off or in retention the TCXO supply
is switched off, and with it the PLLs. -/
def State.clocksAway (s : State) : State :=
  let s := if s.get (PWR_DSTAT.STATE 16) = 2 then s.set SYS_CLKSTAT.CPLLA_LOCK 0 else s
  let s := if s.get (PWR_DSTAT.STATE 17) = 2 then s.set SYS_CLKSTAT.CPLLB_LOCK 0 else s
  if s.bit PWR_CTRL.VTCXOAUTO && allDomains.all (fun d => decide (s.get (PWR_DSTAT.STATE d) ≠ 0) && !s.bit (PWR_DSTAT.TRANS d)) then
    let s := ((s.set PWR_STAT.VTCXO 0).set SYS_CLKSTAT.SYSPLL_LOCK 0).set SYS_CLKSTAT.REFOK 0
    (s.set SYS_CLKSTAT.CPLLA_LOCK 0).set SYS_CLKSTAT.CPLLB_LOCK 0
  else s

/-! ### Pad latches (R427) -/

/-- R427: the latches of domain `d` freeze its pads; `fail`, at power fail and shedding, the transmit pads inactive. -/
def State.latchPads (s : State) (d : Nat) (fail : Bool) : State :=
  if d = 28 then
    { s with pad := { s.pad with gpioHold := some (s.padOut, (List.range 32).map s.padCfg) } }.set PWR_STAT.GPIOHELD 1
  else if d = 20 ∨ d = 21 then
    let x := d - 20
    let l := s.feLevels x
    let l := if fail then (s.bit (TXF_FE.SWPOL x), l.2.1, s.bit (TXF_FE.PAPOL x)) else l
    { s with pad := { s.pad with feHold := vset s.pad.feHold x (some l) } }
  else if d = 22 then
    let req := xor (s.bit COEX_STAT.REQ && !fail) (s.bit COEX_CTRL.REQPOL)
    let pri := xor (s.bit COEX_STAT.PRI && !fail) (s.bit COEX_CTRL.PRIPOL)
    { s with pad := { s.pad with coexHold := some (s.pad.coexHold.getD (req, pri)) } }
  else s

/-- R427: the GPIO latches release. -/
def State.releaseGpio (s : State) : State :=
  s.withPads (fun s => { s with pad := { s.pad with gpioHold := none } }.set PWR_STAT.GPIOHELD 0)

/-- R427: the latches of domain `d` release at its logic stage. -/
def State.releasePads (s : State) (d : Nat) : State :=
  if d = 28 then (if s.bit PWR_CTRL.GPIOAUTO then s.releaseGpio else s)
  else if d = 20 ∨ d = 21 then { s with pad := { s.pad with feHold := vset s.pad.feHold (d - 20) none } }
  else if d = 22 then { s with pad := { s.pad with coexHold := none } }
  else s

/-! ### Leaving on (R417, R418, R426) -/

/-- What else a domain does as its clocks stop: links go down (R414), engines stop (R309), a synthesiser loses lock. -/
def State.clocksStop (s : State) (d : Nat) (off : Bool) : State :=
  if d < 16 then s.engineLeaves d off
  else if d = 25 then s.ethDown
  else if d = 26 then (s.jjDown 0).jjDown 1
  else if d = 20 ∨ d = 21 then s.set (syLock (d - 20)) 0
  else s

/-- The domain is in state `t`: 1 retention, 2 off. `save` writes the save record of a domain that was on; power fail saves
nothing (R411). The registers of a domain that is off take their reset values. -/
def State.enterState (s : State) (d t : Nat) (save : Bool) : State :=
  let was := s.dOn d
  let s := s.clocksStop d (t = 2)
  let s := if t ≠ 2 then s
    else
      let s := if save && was then s.saveRecord d else s
      let s := if d = 24 && save then s.park else s
      let shared := decide (d = 16) && s.dOn 17 || decide (d = 17) && s.dOn 16 || decide (d = 20) && s.dOn 21 ||
        decide (d = 21) && s.dOn 20
      let clk := s.reg SYS_CLKSTAT.addr
      let s := if d < 16 then s else s.clearDomain d
      let s := (s.resetRegs (if shared then (fun r => decide (r.dom = d)) else inDomain d) true).dropMemory d
      s.setReg SYS_CLKSTAT.addr clk
  let s := s.setReg (PWR_DSTAT.addr d) (BitVec.ofNat 32 t)
  let s := ((s.set (PWR_REQ.PEND d) 0).set (PWR_REQ.WAIT d) 0)
  (s.clocksAway.showBucks).when (decide (d = 16 ∨ d = 17)) State.showSlices

/-- R417, R427: a domain leaves on at a boundary or by shedding. PER waits for its E0 edge (R272). -/
def State.leave (s : State) (d t : Nat) (fail : Bool) : State :=
  if d = 28 then { s with pwr := { s.pwr with leaving := aput s.pwr.leaving 28 t } }.set (PWR_DSTAT.TRANS 28) 1
  else (if s.dOn d then s.latchPads d fail else s).enterState d t true

/-- R418: the condition under which a domain that is on may leave it for state `t`. -/
def State.mayLeave (s : State) (d t : Nat) : Bool :=
  let sync := (List.range 16).any (fun n => s.bit (SLC_STAT.SYNC n))
  if !s.dOn d then true
  else if d = 16 ∨ d = 17 then
    (vget s.rxc (d - 16)).window.isNone && !(s.slicesOf (d - 16)).any (fun n => s.bit (SLC_STAT.SYNC n))
  else if d = 18 then !sync
  else if d = 19 then
    !sync && s.phy.queue.isEmpty && s.phy.dec.toList.all (·.isNone) &&
      !(List.range 8).any (fun c => (s.cr c).any Carrier.on)
  else if d = 20 ∨ d = 21 then s.chainIdle (d - 20)
  else if d = 22 then
    let b := s.spanning
    decide ((s.lnk.rx.filter (·.opened)).length = 0) && decide (b.tx 0 + b.tx 1 = 0) && (vget s.rxc 0).awake.isNone &&
      (vget s.rxc 1).awake.isNone
  else if d = 23 then t = 1 || (!s.bit QSC_CTRL.EN && !s.bit MSH_CTRL.EN && s.qsc.alloc.isEmpty)
  else if d = 24 then s.sec.aes.isEmpty && s.sec.cmd.isNone && s.sec.pka.toList.all (·.job.isNone) && s.sec.lcMove.isNone
  else if 32 ≤ d then !bitOf s.pbUse (d - 32)
  else if d = 28 then !allDomains.any (fun k => decide (k ≠ 28) && s.bit (PWR_REQ.PEND k))
  else true

/-- R417: a pending change is tried. -/
def State.tryChange (s : State) (d : Nat) : State :=
  let t := s.get (PWR_REQ.TARGET d)
  if !s.bit (PWR_REQ.PEND d) || decide (t = 0) then s
  else if s.mayLeave d t then s.leave d t false
  else s.set (PWR_REQ.WAIT d) 1

/-- R43 step 6, R417: pending changes to on, then those to retention or off in ascending order, with PER last. -/
def State.powerStep (s : State) : State :=
  let s := s.each (allDomains.filter (fun d => s.bit (PWR_REQ.PEND d) && decide (s.get (PWR_REQ.TARGET d) = 0))) State.turnOn
  s.each ((allDomains.filter (· ≠ 28)) ++ [28]) State.tryChange

/-- DOMAIN_REQUEST (R417): a write of PWR_REQd. -/
def State.reqWrite (s : State) (d : Nat) (w : Word) : State :=
  let t := fieldOf w 0 2
  if t = 3 ∨ d ∉ allDomains then s
  else
    let s := (s.set (PWR_REQ.TARGET d) t).set (PWR_REQ.WAIT d) 0
    s.set (PWR_REQ.PEND d) (b2n (decide (t ≠ s.get (PWR_DSTAT.STATE d))))

/-- SLEEP_ENTRY_LATCH (R272): the E0 edge. PER leaves on with it where a change of it waits; R423: a wake meanwhile starts
once the entry is complete. -/
def State.sleepEntry (s : State) (slow : Bool) : State :=
  match aget s.pwr.leaving 28 with
  | some t =>
    let again := s.pwr.wakeAfter.contains 28
    let s := { s with pwr := { s.pwr with leaving := adel s.pwr.leaving 28, wakeAfter := s.pwr.wakeAfter.filter (· ≠ 28) } }
    let s := ((s.latchE0 slow).latchPads 28 false).enterState 28 t true
    if again then s.turnOn 28 else s
  | none => if s.tsu.resetEdge then s.latchE0 slow else s

/-- SLEEP_ENTRY_LATCH. -/
def execSleepEntryLatch (slow : Bool) (s : State) : Host.Outcome State Fault Refusal :=
  .next (if s.pwr.aoDown then s else s.sleepEntry slow)

/-! ### Coming on (R420) -/

/-- R450: the timers that follow the SLOW clock are advanced once PER is back and E1 has given n. -/
def State.timersBack (s : State) : State :=
  if s.tsu.tmrDue && s.tsu.sleep.isNone && s.dOn 28 then
    let n := s.get TSU_SLPTICKHI.N * 2 ^ 32 + s.get TSU_SLPTICKLO.N
    let s := { s with tsu := { s.tsu with tmrDue := false } }
    s.each (List.range 8) (fun s u => s.tmrSleepAdvance u n)
  else s

/-- SLEEP_EXIT_ADVANCE (R272, R273): the E1 edge, once the oscillator stage of PER is ready. -/
def execSleepExitAdvance (slow : Bool) (s : State) : Host.Outcome State Fault Refusal :=
  .next (if s.bit (PWR_DSTAT.OSCRDY 28) && s.tsu.sleep.isSome then (s.exitE1 slow).timersBack else s)

/-- A stage of a waking domain is ready, where the stage before it is. -/
def State.stageReady (s : State) (d : Nat) (l prev : Nat → Loc) (first : Bool) : State :=
  if (aget s.pwr.waking d).isSome && (first || s.bit (prev d)) then s.set (l d) 1 else s

/-- REGULATOR_READY. -/
def execRegulatorReady (d : Fin 40) (s : State) : Host.Outcome State Fault Refusal :=
  .next (if (aget s.pwr.waking d.val).isSome then
    (s.stageReady d.val PWR_DSTAT.REGRDY PWR_DSTAT.REGRDY true).set ⟨PWR_BUCK.addr, buckOf d.val, 1⟩ 1 else s)

/-- R420, R421: the oscillator stage: the TCXO and SYSPLL run, and the converter PLL of a receive chain. -/
def State.oscReady (s : State) (d : Nat) : State :=
  if !((aget s.pwr.waking d).isSome && s.bit (PWR_DSTAT.REGRDY d)) then s
  else
    let s := s.set (PWR_DSTAT.OSCRDY d) 1
    let s := if s.bit PWR_STAT.VTCXO then s
      else
        let s := s.set PWR_STAT.VTCXO 1
        if s.holdover then s
        else
          let s := (s.set SYS_CLKSTAT.SYSPLL_LOCK 1).set SYS_CLKSTAT.REFOK 1
          let s := if s.get (PWR_DSTAT.STATE 16) = 1 then s.set SYS_CLKSTAT.CPLLA_LOCK 1 else s
          if s.get (PWR_DSTAT.STATE 17) = 1 then s.set SYS_CLKSTAT.CPLLB_LOCK 1 else s
    if s.holdover then s
    else if d = 16 then s.set SYS_CLKSTAT.CPLLA_LOCK 1
    else if d = 17 then s.set SYS_CLKSTAT.CPLLB_LOCK 1
    else s

/-- OSCILLATOR_READY. -/
def execOscillatorReady (d : Fin 40) (s : State) : Host.Outcome State Fault Refusal := .next (s.oscReady d.val)

/-- MEMORY_READY. -/
def execMemoryReady (d : Fin 40) (s : State) : Host.Outcome State Fault Refusal :=
  .next (s.stageReady d.val PWR_DSTAT.MEMRDY PWR_DSTAT.OSCRDY false)

/-- R39: the beat period in force at a boundary; codes 5 to 7 leave it. -/
def State.periodOf (s : State) : Nat :=
  let p := s.get BEAT_CTRL.PERIOD
  if p ≤ 4 then p else s.beat.period

/-- What a domain does at its logic stage beside the restore: TSU (R260), the units of chapters 10 to 18. `off` says that it
came from off. A receive mode restored from its record is in force at once (DEDUCED, log entry 25). -/
def State.comeBack (s : State) (d : Nat) (off : Bool) : State :=
  if d < 16 then s.engineOn d off
  else if d < 18 then
    let x := d - 16
    let s := if off then s.setChainMode x (s.get (RXF_CTRL.MODE x)) else s.showSlices
    s.dueStart x
  else if d = 18 then ((if off then s.showSlices else s).awakeAgain 0).awakeAgain 1
  else if d = 20 ∨ d = 21 then
    let x := d - 20
    let s := if off then s.glazeReload else s
    if s.get (TXF_LO.FREQ x) = 0 then s else s.calRun x
  else if d = 22 then (if off then s else { s with lnk := { s.lnk with uaccDue := true } })
  else if d = 24 then (if off then (s.keepUpdState.showOtp).unpark else s)
  else if d = 28 then
    let tsu : TsuState := if off then { s.tsu with tb := vset (vset s.tsu.tb 1 {}) 2 {} } else { s.tsu with tmrDue := true }
    let s := { s with tsu := tsu, beat := { s.beat with period := if off then s.periodOf else s.beat.period } }
    let s := (((s.setValid 1 false).setValid 2 false).setArm 1 true).setArm 2 true
    (s.set TSU_STAT.HOLD (b2n s.holdover)).timersBack
  else s

/-- LOGIC_READY (R420): reset released, the save record restored, latches released, held events delivered. -/
def State.logicReady (s : State) (d : Nat) : State :=
  match aget s.pwr.waking d with
  | none => s
  | some off =>
    if !s.bit (PWR_DSTAT.MEMRDY d) then s
    else
      let s := { s with pwr := { s.pwr with waking := adel s.pwr.waking d } }
      let s := if off then s.restoreRecord d else s
      let s := s.setReg (PWR_DSTAT.addr d) 0xF0
      let s := (s.releasePads d).comeBack d off
      (s.deliverHeld d).wakeReady

/-- LOGIC_READY. -/
def execLogicReady (d : Fin 40) (s : State) : Host.Outcome State Fault Refusal := .next (s.logicReady d.val)

/-! ### Supply events (R406 to R413) -/

/-- LOAD_SHED (R408): the shed domains go off at once, with their save records. PER cannot be shed. -/
def State.shed (s : State) : State :=
  if !s.bit PWR_CTRL.SHEDEN then s
  else
    let ds := (domainsOf (s.get PWR_SHEDL.DOM) (s.get PWR_SHEDH.PB)).filter (· ≠ 28)
    s.each ds (fun s d =>
      if s.get (PWR_DSTAT.STATE d) = 2 then s
      else
        let s := { s with pwr := { s.pwr with waking := adel s.pwr.waking d } }
        (if s.dOn d then s.stopWork d else s).leave d 2 true)

/-- POWER_FAIL_WARNING (R407). -/
def State.pfWarning (s : State) : State :=
  if s.pwr.aoDown || s.pwr.onVbak || s.bit PWR_STAT.PFW then s
  else
    let s := ((s.set PWR_STAT.PFW 1).raise PWR_EVT.PFW).hifLock
    let s := ((s.journalHw 0xF002 0).raiseHw 0xA 1 0).stopBurn
    s.shed

/-- POWER_FAIL_WARNING. -/
def execPowerFailWarning (s : State) : Host.Outcome State Fault Refusal := .next s.pfWarning

/-- R409: the warning clears. -/
def State.pfClear (s : State) : State :=
  if !s.bit PWR_STAT.PFW then s
  else (((s.set PWR_STAT.PFW 0).raise PWR_EVT.PFWCLR).hifUnlock).journalHw 0xF003 0

/-- POWER_FAIL_CLEAR: VMAIN rises through VMAIN valid before power fail. -/
def execPowerFailClear (s : State) : Host.Outcome State Fault Refusal :=
  .next (if s.pwr.aoDown || s.pwr.onVbak then s else s.pfClear)

/-- POWER_FAIL (R411): every domain other than AO goes off without quiescing and without saving. -/
def State.powerFail (s : State) : State :=
  if s.pwr.aoDown || s.pwr.onVbak then s
  else
    let s := (s.radioStop).stopBurn
    let s := s.each [20, 21, 22, 28] (fun s d => if s.dOn d then s.latchPads d true else s)
    let per := s.dOn 28
    let rate := s.reg (TSU_RATE.addr 0)
    let s := s.each allDomains (fun s d => s.enterState d 2 false)
    let s := ((s.set PWR_STAT.VMAINOK 0).set PWR_STAT.VTCXO 0).set PWR_BUCK.RUN 0
    let pwr : PwrState := { onVbak := true, lastWake := s.pwr.lastWake }
    { s with
      pwr := pwr
      takeover := none
      tsu := { s.tsu with resetEdge := s.tsu.resetEdge || per, edgeRate := if per then some rate else s.tsu.edgeRate } }.resetRegs (fun r => r.dom = 40) false

/-- POWER_FAIL. -/
def execPowerFail (s : State) : Host.Outcome State Fault Refusal := .next s.powerFail

/-- SUPPLY_RETURN (R412): VMAIN valid with the AO domain powered: a warm reset, recorded as wake cause 2. -/
def State.supplyReturn (s : State) : State :=
  if s.pwr.aoDown || !s.pwr.onVbak then s
  else
    let s := { s with pwr := { s.pwr with onVbak := false, holdTimer := false, wakeSets := s.pwr.wakeSets ++ [allDomains] } }
    let s := (s.set PWR_STAT.VMAINOK 1).pfClear
    let s := ((s.inc PWR_LASTWAKE.COUNT).set PWR_LASTWAKE.CAUSE 2).set PWR_LASTWAKE.DETAIL 0
    s.beginWarm false

/-- SUPPLY_RETURN. -/
def execSupplyReturn (s : State) : Host.Outcome State Fault Refusal := .next s.supplyReturn

/-- VBAK_LOW (R413). -/
def execVbakLow (s : State) : Host.Outcome State Fault Refusal :=
  .next (if s.pwr.aoDown then s
    else
      let s := (s.set PWR_STAT.VBAKLOW 1).raise PWR_EVT.VBAKLOW
      if s.pwr.onVbak then { s with pwr := { s.pwr with holdTimer := true } } else s)

/-- VBAK_LOW_CLEAR (R406, R431): VBAK rises through 1.80 V. The hold timer goes on. -/
def execVbakLowClear (s : State) : Host.Outcome State Fault Refusal :=
  .next (if s.pwr.aoDown then s else s.set PWR_STAT.VBAKLOW 0)

/-- VBAK_HOLD_EXPIRY (R413): the AO domain is reset and powered down. The Jar is lost with it. -/
def execVbakHoldExpiry (s : State) : Host.Outcome State Fault Refusal :=
  .next (if s.pwr.holdTimer then
      let t := s.coldStart true
      { t with pwr := { t.pwr with aoDown := true } }
    else s)

/-- VBAK_COLD_START (R413): the AO domain cold-starts on VBAK and keeps every other domain off. -/
def execVbakColdStart (s : State) : Host.Outcome State Fault Refusal := .next (if s.pwr.aoDown then s.coldStart true else s)

/-- POWER_ON (R413, R422): a cold start from a powered-down AO domain with VMAIN valid. -/
def execPowerOn (s : State) : Host.Outcome State Fault Refusal := .next (if s.pwr.aoDown then s.coldStart false else s)

/-! ### Wakes and pads (R422, R427, R467, R469) -/

/-- GPIO_WAKE (R422, R467): an enabled GPIO at its wake level, sampled on a SLOW tick. -/
def State.gpioWake (s : State) (k : Nat) : State :=
  let lvl := s.gpioLevel k
  let low := bitOf (s.get PWR_GPIOPOL.LOW) k
  if s.pad.vioOk && !s.pwr.aoDown && s.bit PWR_WAKEEN.GPIO && bitOf (s.get PWR_GPIOWAKE.EN) k && (lvl != low) then
    s.wake s.wakeSet 4 k true
  else s

/-- GPIO_WAKE. -/
def execGpioWake (k : Fin 32) (s : State) : Host.Outcome State Fault Refusal := .next (s.gpioWake k.val)

/-- VIO_DETECT (R467): the detector's VIOOK. A warm reset that waited for it begins. -/
def State.vioDetect (s : State) (ok : Bool) : State :=
  if s.pwr.aoDown then { s with pad := { s.pad with vioOk := ok } }
  else
    let s := s.withPads (fun s => { s with pad := { s.pad with vioOk := ok } })
    if ok && s.pwr.warmHeld then { s with pwr := { s.pwr with warmHeld := false } }.beginWarm s.pwr.heldAct else s

/-- VIO_DETECT. -/
def execVioDetect (ok : Bool) (s : State) : Host.Outcome State Fault Refusal := .next (s.vioDetect ok)

/-- FLASH_RESET_PULSE (R469): the pulse of a warm reset, driven once no flash command runs. -/
def execFlashResetPulse (s : State) : Host.Outcome State Fault Refusal :=
  .next { s with pad := { s.pad with flPulse := false } }

end Sys2Proof.Machine
end

