-- ==== Sys2Proof/Machine/Update.lean ====
section
/-! DEFINITION. Chapter 14: the flash layout, the boot record, the recipe and its checks, stored settings, the budget and
schedule checks of chapter 2, the commands of UPD, and the recipe commit. -/
namespace Sys2Proof.Machine

/-! ### The boot record (R357, R358) -/

/-- What a boot record says. -/
structure BootRec where
  seq : Nat
  active : Nat
  trial : Nat
  scur : Nat
  tabn : Nat
  deriving DecidableEq, Repr

/-- R358: copy `c` of the record, where it is valid. -/
def State.recCopy (s : State) (c : Nat) : Option BootRec :=
  let b := s.fbytes (0x10000 * c) 64
  let at_ (i n : Nat) : Nat := leNat ((b.drop i).take n)
  if at_ 0 4 = 0xC6A04252 ∧ at_ 60 4 = crc32 (b.take 60) then
    some { seq := at_ 4 4, active := at_ 8 1 % 2, trial := at_ 9 1, scur := at_ 10 1 % 2, tabn := at_ 12 5 }
  else none

/-- R358: the newest valid record and its copy. -/
def State.newestRec (s : State) : Option (Nat × BootRec) :=
  match s.recCopy 0, s.recCopy 1 with
  | some a, some b => if isAfter 32 b.seq a.seq then some (1, b) else some (0, a)
  | some a, none => some (0, a)
  | none, some b => some (1, b)
  | none, none => none

/-- R358: the record the boot ROM goes by: bank A and settings copy S0 where neither copy is valid. -/
def State.bootRec (s : State) : BootRec :=
  (s.newestRec.map (·.2)).getD { seq := 0, active := 0, trial := 0, scur := 0, tabn := 0 }

/-- The 64 bytes of a record. -/
def BootRec.bytes (r : BootRec) : List Byte :=
  let b := leBytes 4 0xC6A04252 ++ leBytes 4 r.seq ++ leBytes 1 r.active ++ leBytes 1 r.trial ++ leBytes 1 r.scur ++
    leBytes 1 0 ++ leBytes 5 r.tabn ++ List.replicate 43 0
  b ++ leBytes 4 (crc32 b)

/-- R358: a record is written to the copy that does not hold the newest, with SEQ one higher; where neither copy is valid,
to copy 0 with SEQ 0 (DESIGN CHOICE, log entry 27). -/
def State.writeRec (s : State) (r : BootRec) : State :=
  match s.newestRec with
  | some (c, o) => s.setFbytes (0x10000 * (1 - c)) { r with seq := (o.seq + 1) % 2 ^ 32 }.bytes
  | none => s.setFbytes 0 { r with seq := 0 }.bytes

/-- The base of a bank, and of the staging data. -/
def bankBase (b : Nat) : Nat := if b = 0 then 0x400000 else 0xC00000
def stagingBase : Nat := 0x1410000

/-! ### The recipe (R359 to R361) -/

/-- R359: the header. -/
structure RecipeHead where
  total : Nat
  manofs : Nat
  manlen : Nat
  sigofs : Nat
  deriving DecidableEq, Repr

/-- R360: an engine of the manifest. -/
structure EngEntry where
  entry : Nat
  budget : Nat
  run : Bool
  task : Bool
  wd : Bool
  app : Bool
  deriving DecidableEq, Repr, Inhabited

/-- R360: an image of the manifest. -/
structure ImgEntry where
  kind : Nat
  target : Nat
  gver : Nat
  dest : Nat
  ofs : Nat
  len : Nat
  digest : List Byte
  deriving DecidableEq, Repr, Inhabited

/-- R360: the manifest. -/
structure Manifest where
  format : Nat
  secver : Nat
  period : Nat
  engpl : Nat
  chnpl : Nat
  spare : Nat
  nimg : Nat
  startms : Nat
  engs : List EngEntry
  imgs : List ImgEntry
  deriving DecidableEq, Repr

/-- A field of `n` bytes at offset `o` of a recipe, little-endian. -/
def recipeField (f : Nat → Byte) (o n : Nat) : Nat := leNat (readBytes f o n)

/-- R364 check 1: the header, where it is good. -/
def recipeHead (f : Nat → Byte) : Option RecipeHead :=
  let h : RecipeHead := ⟨recipeField f 8 4, recipeField f 12 4, recipeField f 16 4, recipeField f 20 4⟩
  if recipeField f 0 4 = 0xC6A05243 ∧ recipeField f 4 2 = 1 ∧ h.total % 512 = 0 ∧ h.total ≤ 8323072 ∧
      h.manofs + h.manlen ≤ h.total ∧ h.sigofs + 5328 ≤ h.total then some h
  else none

/-- R360: the manifest at offset `o`. -/
def manifestAt (f : Nat → Byte) (o : Nat) : Manifest :=
  let nimg := recipeField f (o + 7) 1
  let eng (n : Nat) : EngEntry :=
    let a := o + 16 + 16 * n
    let w := recipeField f (a + 8) 4
    {
      entry := recipeField f a 4, budget := recipeField f (a + 4) 4, run := bitOf w 0, task := bitOf w 1, wd := bitOf w 2,
      app := bitOf w 3 }
  let img (n : Nat) : ImgEntry :=
    let a := o + 272 + 64 * n
    {
      kind := recipeField f a 1, target := recipeField f (a + 1) 1, gver := recipeField f (a + 2) 1,
      dest := recipeField f (a + 4) 4, ofs := recipeField f (a + 8) 4, len := recipeField f (a + 12) 4,
      digest := readBytes f (a + 16) 48 }
  {
    format := recipeField f o 2, secver := recipeField f (o + 2) 1, period := recipeField f (o + 3) 1,
    engpl := recipeField f (o + 4) 1, chnpl := recipeField f (o + 5) 1, spare := recipeField f (o + 6) 1, nimg := nimg,
    startms := recipeField f (o + 12) 2, engs := (List.range 16).map eng, imgs := (List.range nimg).map img }

/-- Two images of one memory that overlap. -/
def ImgEntry.clash (a b : ImgEntry) : Bool :=
  decide (a.kind = b.kind) && decide (a.kind ≤ 2) && decide (a.target = b.target) && decide (a.dest < b.dest + b.len) &&
    decide (b.dest < a.dest + a.len)

/-- No two of the images are related by `r`. -/
def noPair (r : ImgEntry → ImgEntry → Bool) : List ImgEntry → Bool
  | [] => true
  | a :: l => l.all (fun b => !r a b) && noPair r l

/-- The image is one for a local memory. -/
def ImgEntry.mem (i : ImgEntry) : Bool := decide (i.kind = 1) || decide (i.kind = 2)

/-- R360, R361: the manifest is well formed in a recipe of `total` bytes. -/
def Manifest.ok (m : Manifest) (total manlen : Nat) : Bool :=
  let code (n : Nat) : List ImgEntry := m.imgs.filter (fun i => decide (i.kind = 1) && decide (i.target = n))
  decide (1 ≤ m.nimg) && decide (m.nimg ≤ 96) && decide (manlen = 272 + 64 * m.nimg) &&
    m.imgs.all (fun i => !i.mem || (decide (i.target < 16) && decide (i.dest + i.len ≤ 0x10000))) && noPair ImgEntry.clash m.imgs &&
    !(code 0).isEmpty && !((m.engs[0]?.map (·.app)).getD true) &&
    (List.range 16).all (fun n => match m.engs[n]? with
      | some e => !e.run || (code n).any (fun i => decide (i.dest ≤ e.entry) && decide (e.entry < i.dest + i.len))
      | none => true) &&
    decide ((m.imgs.filter (·.kind = 3)).length ≤ 1) && m.imgs.all (fun i => decide (i.kind ≠ 3) || decide (i.len ≤ 0x40000)) &&
    noPair (fun a b => decide (a.kind = 5) && decide (b.kind = 5) && decide (a.target = b.target)) m.imgs &&
    m.imgs.all (fun i => decide (i.kind ≠ 5) || (decide (4 ≤ i.len) && decide (i.len ≤ 4096))) &&
    m.imgs.all (fun i => decide (i.ofs + i.len ≤ total)) &&
    decide (m.period ≤ 4) && decide (m.engpl ≤ 3) && decide (m.chnpl ≤ 2)

/-- R364 checks 1 to 4: the first that fails, with R372's three kinds told apart (0 header, 1 signature, 2 rollback), or the
manifest. -/
def State.checkRecipe (s : State) (f : Nat → Byte) : (Nat × Nat) ⊕ Manifest :=
  match recipeHead f with
  | none => .inl (1, 0)
  | some h =>
    let keys := readBytes f h.sigofs 156
    let m := manifestAt f h.manofs
    let v := verify2 keys (readBytes f (h.sigofs + 156) 5172) (readBytes f h.manofs h.manlen)
    if s.sec.lc ≠ 0 ∧ keyHashes keys ≠ s.sec.roots then .inl (2, 1)
    else if v.1 = false ∨ v.2 = false then .inl (3, 1)
    else if m.format ≠ 1 ∨ m.ok h.total h.manlen = false then .inl (4, 0)
    else if m.secver < s.upd.counter then .inl (4, 2)
    else .inr m

/-- R364 check 5, R372: the digest of an image compares. -/
def imageOk (f : Nat → Byte) (i : ImgEntry) : Bool :=
  decide (i.digest = sha384 (readBytes f i.ofs i.len))

/-- R364 check 2: what a recipe checked in BLANK shows. -/
def State.markUnrooted (s : State) : State := if s.sec.lc = 0 then s.set UPD_STAT.UNROOTED 1 else s

/-! ### Stored settings (R363, R379) -/

/-- One record of a settings copy. -/
structure SetRec where
  group : Nat
  gver : Nat
  crc : Nat
  data : List Byte
  deriving DecidableEq, Repr

/-- The base of a settings copy. -/
def setBase (c : Nat) : Nat := 0x20000 + 0x40000 * c

/-- The records of a copy from offset `o` on, and where they end: at the first head that is no record. -/
def State.setRecs (s : State) (c : Nat) : Nat → Nat → List SetRec × Nat
  | 0, o => ([], o)
  | fuel + 1, o =>
    let a := setBase c + o
    let n := leNat (s.fbytes (a + 2) 2)
    if 0x40000 < o + 8 + n ∨ n < 4 ∨ 4096 < n then ([], o)
    else
      let r : SetRec := {
        group := leNat (s.fbytes a 1), gver := leNat (s.fbytes (a + 1) 1), crc := leNat (s.fbytes (a + 4) 4),
        data := s.fbytes (a + 8) n }
      let t := s.setRecs c fuel (o + 8 + n)
      (r :: t.1, t.2)

/-- All records of a copy, and the bytes they take. -/
def State.settings (s : State) (c : Nat) : List SetRec × Nat := s.setRecs c 21846 0

/-- R363: the newest record of a group. -/
def newestSet (l : List SetRec) (g : Nat) : Option SetRec := l.reverse.find? (fun r => decide (r.group = g))

/-- The bytes of a record. -/
def SetRec.bytes (r : SetRec) : List Byte :=
  leBytes 1 r.group ++ leBytes 1 r.gver ++ leBytes 2 r.data.length ++ leBytes 4 r.crc ++ r.data

/-- A record as it is made for content. -/
def makeSet (group gver : Nat) (data : List Byte) : SetRec := { group := group, gver := gver, crc := crc32 data, data := data }

/-- R363: a stored value is sound for an image of type 5. -/
def SetRec.sound (r : SetRec) (i : ImgEntry) : Bool :=
  decide (r.crc = crc32 r.data) && decide (r.data.length = i.len) && decide (r.gver = i.gver)

/-- A record appended to a copy; none where it has no room. -/
def State.appendSet (s : State) (c : Nat) (r : SetRec) : Option State :=
  let o := (s.settings c).2
  if 0x40000 < o + r.bytes.length then none else some (s.setFbytes (setBase c + o) r.bytes)

/-- R374, R379: copy `c` is erased and takes the newest record of each group that `keep` names, from the other copy. -/
def State.fillCopy (s : State) (c : Nat) (keep : Nat → Bool) : State :=
  let l := (s.settings (1 - c)).1
  let rs := ((List.range 256).filter keep).filterMap (newestSet l)
  (s.eraseFlash (setBase c) 0x40000).setFbytes (setBase c) (rs.flatMap SetRec.bytes)

/-- R379: a record is stored, with compaction outside TRIAL: the result code. -/
def State.storeSet (s : State) (r : SetRec) : Nat × State :=
  match s.appendSet s.upd.scur r with
  | some t => (1, t)
  | none =>
    if s.get UPD_STAT.STATE = 5 then (15, s)
    else
      let c := 1 - s.upd.scur
      let s := (s.fillCopy c (fun _ => true)).writeRec { s.bootRec with scur := c }
      let s := { s with upd := { s.upd with scur := c } }
      match s.appendSet c r with
      | some t => (1, t)
      | none => (15, s)

/-! ### The budget and schedule checks (R46, R47) -/

/-- R46: the largest budget at engine level `pl`. -/
def State.budgetLimit (s : State) (pl : Nat) : Nat := 180 * (pl + 1) * (s.beatNs / 1000 - 50)

/-- Engines that run a beat task. -/
def State.taskEngines (s : State) : List Nat := (List.range 16).filter (fun n => bitOf (s.get BEAT_TASKEN.EN) n)

/-- R46: the engine of the first budget that fails. -/
def State.budgetFail (s : State) : Option Nat :=
  let lim := s.budgetLimit (s.get BEAT_PLCUR.ENGPL)
  let high (n : Nat) : Bool := decide (lim < s.get (BEAT_BUDGET.CYCLES n))
  match s.taskEngines.find? high with
  | some n => some n
  | none =>
    let sp := s.get ENG_SPARE.ENGINE
    if s.bit ENG_SPARE.EN && s.taskEngines.any (fun n => high n && decide (s.isApp n = s.isApp sp)) then some sp else none

/-- The frequencies the hop sequence of a cell names. -/
def State.hopFreqs (s : State) (c : Nat) : List Nat :=
  let h := s.get (cellHop c)
  (List.range (s.hopLen h)).map (fun e => s.get (LNK_CHAN.FREQ (s.hopEntry h e)))

/-- R160: the template of a cell fits on every chain its hop sequence can reach, with the larger RUMAX of them. -/
def State.cellFits (s : State) (c : Nat) : Bool :=
  let k := s.get (cellKind c)
  let w := s.get (cellWave c)
  let xs := [0, 1].filter (fun x => (s.hopFreqs c).any (fun f => decide (chainOf f = some x)))
  let ru := (xs.map s.ruMax).foldl max 2
  decide (5 < k) || (waveOk w && (if xs.isEmpty then [0] else xs).all (fun x =>
    s.templateFits k w (s.get (cellStart c)) (s.bit (cellCca c)) ru (s.ackAir x w) (s.txSet x w)))

/-- R47, R155: what a cell takes in a beat: receive actions, transmit actions on each band, slices. A transmit cell counts on
every band its hop sequence reaches (DEDUCED, log entry 28). -/
def State.cellTakes (s : State) (c : Nat) : Nat × Nat × Nat × Nat :=
  let k := s.get (cellKind c)
  let n := s.get (cellNbr c)
  let w := s.get (cellWave c)
  let xs := (s.hopFreqs c).filterMap (fun f => chanChain f w (fun x => s.reg (PHY_TXFSK.addr x)))
  if 5 < k ∨ xs = [] then (0, 0, 0, 0)
  else
    let ack := s.bit (cellAckreq c) && decide (n ≠ 255) && decide (k ≠ 4)
    (b2n (rxKind k), b2n (txKind k && xs.contains 0), b2n (txKind k && xs.contains 1), b2n (rxKind k || s.bit (cellCca c) || ack))

/-- R47: the cell at which the actions of a beat first break a limit. -/
def overLimit (slices : Nat) (takes : Nat → Nat × Nat × Nat × Nat) : Nat × Nat × Nat × Nat → List Nat → Option Nat
  | _, [] => none
  | (r, a, b, l), c :: cs =>
    let t := takes c
    let u := (r + t.1, a + t.2.1, b + t.2.2.1, l + t.2.2.2)
    if 16 < u.1 ∨ 4 < u.2.1 ∨ 4 < u.2.2.1 ∨ slices < u.2.2.2 then some c else overLimit slices takes u cs

/-- The number of beats after which the slotframes repeat together. -/
def State.schedPeriod (s : State) : Nat :=
  ((List.range 8).filter (fun f => s.bit (LNK_SF.EN f))).foldl (fun l f => Nat.lcm l (s.get (LNK_SF.LENGTH f))) 1

/-- R47: the cell at which the schedule first fails: a template that does not fit the beat, or a beat over its limits. -/
def State.scheduleFail (s : State) : Option Nat :=
  match s.validCells.find? (fun c => !s.cellFits c) with
  | some c => some c
  | none => (List.range s.schedPeriod).findSome? (fun a => overLimit s.slicesNow s.cellTakes (0, 0, 0, 0) (s.firing a))

/-- R364 check 8: the checks, with BEAT_BOOTCHK. -/
def State.bootCheck (s : State) : Bool × State :=
  let put (r e c : Nat) : State :=
    ((s.set BEAT_BOOTCHK.RESULT r).set BEAT_BOOTCHK.ENGINE e).set BEAT_BOOTCHK.SLOT c
  match s.budgetFail with
  | some n => (false, put 2 n 0)
  | none => match s.scheduleFail with
    | some c => (false, put 3 0 c)
    | none => (true, put 1 0 0)

/-! ### The recipe commit (R366) -/

/-- R311: the rules of the spare and of the application outlet, for the RUN bits the recipe would take. -/
def State.r311 (s : State) (run : Nat) : Bool :=
  let sp := s.get ENG_SPARE.ENGINE
  let o6 (n : Nat) : List Nat := s.o6Queues n
  let app (q : Nat) : Bool := bitOf (s.get QSC_OWNL.OWN + 2 ^ 32 * s.get QSC_OWNH.OWN) q
  (!s.bit ENG_SPARE.EN || (!bitOf run sp && !bitOf (s.get BEAT_TASKEN.EN) sp && !bitOf (s.get ENG_WDEN.EN) sp &&
    (o6 sp).isEmpty)) && (List.range 16).all (fun n => (o6 n).all (fun q => decide (app q = s.isApp n)))

/-- R366: every condition of the commit but the routing check. -/
def State.commitOk (s : State) : Bool :=
  decide (s.get BEAT_CTRL.PERIOD ≤ 4) && decide (s.get BEAT_BOOTCHK.RESULT = 1) && s.r311 s.upd.runBits &&
    !s.isApp (s.get SYS_FAULTENG.ENGINE) && !s.isApp 0 && !s.isApp (s.get HIF_CTRL.MGMTENG)

/-- R366, R367: ENG_RUN takes the RUN bits: the other engines start, and E0 leaves the boot ROM for its ENTRY. -/
def State.commitRun (s : State) : State :=
  let run := s.upd.runBits
  let s := s.set ENG_RUN.EN run
  let s := s.each ((List.range 16).filter (fun n => decide (n ≠ 0) && bitOf run n)) State.startEngine
  if bitOf run 0 then s.modCpu 0 (fun c => { c with pc := s.resetAddr 0 }) else s.engineReset 0

/-- RECIPE_COMMIT (R366, R3): a write of UPD_COMMIT. -/
def State.commitWrite (s : State) (w : Word) : State :=
  if fieldOf w 16 16 ≠ 0xC6A0 ∨ fieldOf w 0 1 = 0 ∨ s.upd.locked = true then s
  else
    let r := s.evrCheck
    if r.1 && r.2.commitOk then
      let s : State := { r.2 with upd := { r.2.upd with locked := true } }
      let s : State := (((s.set UPD_STAT.COMMITTED 1).copyRoutes).firstStarts (s.reg BEAT_TASKEN.addr)).commitRun
      if s.get UPD_STAT.STATE = 5 then s.raise UPD_EVT.ACTIVATED else s
    else r.2

/-! ### Commands of UPD (R370 to R379) -/

/-- The state of the update: the sub-state while RESCUE lasts. -/
def State.updState (s : State) : Nat := if s.rescue then s.upd.sub else s.get UPD_STAT.STATE

/-- The update moves to state `v`. -/
def State.setUpdState (s : State) (v : Nat) : State :=
  if s.rescue then { s with upd := { s.upd with sub := v } } else s.set UPD_STAT.STATE v

/-- R380: a command ends with a code. -/
def State.updResult (s : State) (c : UpdCmd) (code : Nat) : State :=
  let s := ((s.set UPD_RESULT.OP c.op).set UPD_RESULT.CODE code).raise UPD_EVT.DONE
  match c.host with
  | some (tag, port, params) =>
    s.respond { port := port, tag := tag, code := 0x0F + c.op, params := params } (0x1000 + code) []
  | none => s

/-- R370: the states in which the table allows a command. -/
def updAllowed (op st : Nat) : Bool :=
  match op with
  | 1 => decide (st = 0) || decide (st = 1) || decide (st = 3)
  | 2 => decide (st = 1)
  | 3 => decide (st = 1)
  | 4 => decide (st = 3)
  | 5 => decide (st = 4) || decide (st = 3) || decide (st = 1)
  | 6 => decide (st = 5)
  | 7 => decide (st = 0) || decide (st = 1) || decide (st = 3) || decide (st = 4) || decide (st = 5)
  | _ => false

/-- R370, R373, R378: a command is taken or ends at once. -/
def State.updStart (s : State) (c : UpdCmd) : State :=
  if s.bit UPD_STAT.BUSY then s.updResult c 2
  else if s.bit PWR_STAT.PFW then s.updResult c 4
  else if !updAllowed c.op s.updState || (s.rescue && decide (6 ≤ c.op)) then s.updResult c 3
  else if c.op = 1 ∧ (c.total = 0 ∨ 16256 < c.total) then s.updResult c 11
  else if c.op = 4 ∧ s.rescue = false ∧ wrapDiff 40 c.abn s.abn < 2 then s.updResult c 14
  else
    let s := { s with upd := { s.upd with cmd := some c } }.set UPD_STAT.BUSY 1
    if c.op = 3 then s.setUpdState 2 else s

/-- R370: a write of UPD_CMD by engine `e`. -/
def State.updCmdWrite (s : State) (e : Nat) (w : Word) : State :=
  if fieldOf w 16 16 ≠ 0xC6A0 then s
  else s.updStart {
    op := fieldOf w 0 4, bundle := s.get UPD_BUNDLE.ID, total := s.get UPD_MTOTAL.N, index := s.get UPD_MORSEL.N,
    addr := s.get UPD_MADDR.ADDR, abn := s.get UPD_ACTLO.ABN + 2 ^ 32 * s.get UPD_ACTHI.ABN,
    setctl := (s.reg UPD_SETCTL.addr).toNat, eng := e }

/-- R392: the parameters of a host's UPD command as the registers it reads; none where their length is wrong. -/
def hostUpd (op : Nat) (c : HostCmd) : Option UpdCmd :=
  let p (i : Nat) : Nat := leNat ((c.params.drop i).take 4)
  let n := c.params.length
  let base : UpdCmd := { op := op, host := some (c.tag, c.port, c.params) }
  match op with
  | 1 => if n = 8 then some { base with bundle := p 0, total := p 4 % 2 ^ 14 } else none
  | 2 => if n = 516 then some { base with index := leNat (c.params.take 2) % 2 ^ 14, data := some (c.params.drop 4) } else none
  | 4 => if n = 8 then some { base with abn := p 0 + 2 ^ 32 * (p 4 % 256) } else none
  | 7 => if n = 8 then some { base with setctl := p 4, addr := p 0 } else none
  | _ => if n = 0 then some base else none

/-- HOST_BEGIN to HOST_SAVESET (R392): the management engine, or the boot ROM in RESCUE, carries out the command at the head
of the inbound FIFO. -/
def State.serveUpd (s : State) (op : Nat) : State :=
  match s.headCmd with
  | some c =>
    if c.code = 0x0F + op ∧ s.canServe 0 = true ∧ s.dOn 24 = true then
      match hostUpd op c with
      | some u => s.dropHead.updStart u
      | none => s.dropHead.respond c 2 []
    else s
  | none => s

/-- The BUSY command ends. -/
def State.updEnd (s : State) (c : UpdCmd) (code : Nat) : State :=
  ({ s with upd := { s.upd with cmd := none } }.set UPD_STAT.BUSY 0).updResult c code

/-- R370: the bytes of the staging header (log entry 26): MAGIC, bundle, count, BAD, bitmap. -/
def stagingHead : Nat := 0x1400000

/-- R370: the bit of morsel `i` is still 1: it is missing. -/
def State.missing (s : State) (i : Nat) : Bool := bitOf (s.fbyte (stagingHead + 16 + i / 8)).toNat (i % 8)

/-- The morsels the header counts, and those received. -/
def State.stagedCount (s : State) : Nat := leNat (s.fbytes (stagingHead + 8) 4)
def State.received (s : State) : Nat := ((List.range s.stagedCount).filter (fun i => !s.missing i)).length

/-- BAD is set in the header: its word is programmed to 0. -/
def State.stagedBad (s : State) : Bool := decide (leNat (s.fbytes (stagingHead + 12) 4) = 0)
def State.markBad (s : State) : State := (s.setFbytes (stagingHead + 12) (leBytes 4 0)).raise UPD_EVT.FLASHERR

/-- BEGIN (R370): resume, or erase the staging area and write a new header. -/
def State.beginDone (s : State) (c : UpdCmd) : State :=
  let head := leBytes 4 0xC6A05354 ++ leBytes 4 c.bundle ++ leBytes 4 c.total
  let s := if s.fbytes stagingHead 12 = head then s else (s.eraseFlash stagingHead 0x800000).setFbytes stagingHead head
  ((s.set UPD_MCOUNT.N s.received).setUpdState 1).updEnd c 1

/-- The bytes a command takes from memory: what came with it, or what the stack partition reads at its address. -/
def State.updBytes (s : State) (c : UpdCmd) (n : Nat) : Option (List Byte) :=
  match c.data with
  | some b => some b
  | none => s.jobRead c.eng false c.addr n

/-- MORSEL (R371). `flash`: the read-back compares. -/
def State.morselDone (s : State) (c : UpdCmd) (flash : Bool) : State :=
  if s.stagedCount ≤ c.index then s.updEnd c 11
  else if !s.missing c.index then s.updEnd c 12
  else match s.updBytes c 512 with
    | none => s.updEnd c (Config.updUnreadable c.op).toNat
    | some b =>
      let s := s.setFbytes (stagingBase + 512 * c.index) b
      if !flash then s.markBad.updEnd c 13
      else
        let a := stagingHead + 16 + c.index / 8
        let s := s.setFbyte a (s.fbyte a &&& ~~~(1#8 <<< (c.index % 8)))
        (s.set UPD_MCOUNT.N s.received).updEnd c 1

/-- ACTIVATE (R373; R370 in RESCUE). -/
def State.activateDone (s : State) (c : UpdCmd) : State :=
  let r := s.bootRec
  if s.rescue then
    let s := s.writeRec { r with active := 1 - r.active, trial := 0 }
    ({ s with upd := { s.upd with rescueBank := some (1 - r.active) } }.setUpdState 4).updEnd c 1
  else
    let s := s.writeRec { r with trial := 1, tabn := c.abn }
    ({ s with upd := { s.upd with deadline := c.abn, deferred := false } }.setUpdState 4).updEnd c 1

/-- CANCEL (R370, R373). -/
def State.cancelDone (s : State) (c : UpdCmd) : State :=
  let s := if s.updState = 4 ∧ s.rescue = false then s.writeRec { s.bootRec with trial := 0 } else s
  ({ s with upd := { s.upd with rescueBank := none } }.setUpdState 1).updEnd c 1

/-- CONFIRM (R375, R369). -/
def State.confirmDone (s : State) (c : UpdCmd) : State :=
  let n := max s.upd.counter s.runVer
  let r := s.bootRec
  let s := s.writeRec { r with active := 1 - r.active, trial := 0, scur := s.upd.scur }
  let s := ({ s with upd := { s.upd with counter := n } }.set UPD_SECVER.COUNTER n).raise UPD_EVT.CONFIRMED
  let s := (s.set UPD_STAT.WINDOW 0).setUpdState 0
  (s.journalHw 0xF012 n).updEnd c 1

/-- The manifest of the recipe that runs, from the bank booted (R379). -/
def State.running (s : State) : Option Manifest :=
  let f (o : Nat) : Byte := s.fbyte (bankBase (s.get UPD_STAT.ACTIVE) + o)
  (recipeHead f).map (fun h => manifestAt f h.manofs)

/-- SAVESET (R379). -/
def State.savesetDone (s : State) (c : UpdCmd) : State :=
  let g := c.setctl / 2 ^ 24 % 256
  let n := c.setctl % 2 ^ 13
  match s.running.bind (fun m => m.imgs.find? (fun i => decide (i.kind = 5) && decide (i.target = g) && decide (i.len = n))) with
  | none => s.updEnd c 11
  | some i => match s.updBytes c n with
    | none => s.updEnd c (Config.updUnreadable c.op).toNat
    | some b =>
      let r := s.storeSet (makeSet g i.gver b)
      r.2.updEnd c r.1

end Sys2Proof.Machine
end

