-- ==== Sys2Proof/Machine/Beat.lean ====
section
/-! DEFINITION. Chapter 2: the beat boundary and its nine steps, performance levels, and the end of beat tasks. -/
namespace Sys2Proof.Machine

/-! ### Performance levels (R43 to R45) -/

/-- R45, R46: every running engine's budget passes at engine level `pl`. Which states of R309 count as running is not said:
every state but RESET, OFF and REPLACED does (DESIGN CHOICE, log entry 194). -/
def State.budgetsPass (s : State) (pl : Nat) : Bool :=
  s.taskEngines.all (fun n => decide (s.estate n = stReset) || decide (s.estate n = stOff) || decide (s.estate n = stReplaced) ||
    decide (s.get (BEAT_BUDGET.CYCLES n) ≤ s.budgetLimit pl))

/-- R45: the request for engine level `e` and channelizer level `c` is not refused. -/
def State.levelOk (s : State) (e c : Option Nat) : Bool :=
  let cur := s.get BEAT_PLCUR.CHNPL
  let eng := s.beat.engRaise.getD (s.get BEAT_PLCUR.ENGPL)
  (match c with
    | some c => decide (c ≠ 3) && (decide (cur ≤ c) || decide ((List.range 16).countP s.slcPending ≤ slicesAt c))
    | none => true) &&
  (match e with
    | some e => decide (eng ≤ e) || s.budgetsPass e
    | none => true)

/-- R43: the channelizer level is in force at once; after a raise the slices that only it permits wait for VSLC. -/
def State.setChnLevel (s : State) (c : Nat) : State :=
  let cur := s.get BEAT_PLCUR.CHNPL
  let s := { s with beat := { s.beat with slcSettling := if cur < c then some (slicesAt cur) else none } }
  s.set BEAT_PLCUR.CHNPL c

/-- R43: the engine level: lowered at once, raised once the voltage has settled. -/
def State.setEngLevel (s : State) (e : Nat) : State :=
  if s.get BEAT_PLCUR.ENGPL < e then { s with beat := { s.beat with engRaise := some e } }
  else { s with beat := { s.beat with engRaise := none } }.set BEAT_PLCUR.ENGPL e

/-- R43 step 5: the pending request is judged and applied, or discarded. -/
def State.levelStep (s : State) : State :=
  let e := if s.bit BEAT_PLREQ.ENGPEND then some (s.get BEAT_PLREQ.ENGPL) else none
  let c := if s.bit BEAT_PLREQ.CHNPEND then some (s.get BEAT_PLREQ.CHNPL) else none
  let ok := s.levelOk e c
  let s := (s.set BEAT_PLREQ.ENGPEND 0).set BEAT_PLREQ.CHNPEND 0
  if !ok then s.raise BEAT_STAT.LVLREF
  else
    let s := match c with
      | some c => s.setChnLevel c
      | none => s
    match e with
    | some e => s.setEngLevel e
    | none => s

/-- PERF_LEVEL_REQUEST (R44): a write of BEAT_PLREQ. Before the commit it is judged at the write and applies at once. -/
def State.plreqWrite (s : State) (w : Word) : State :=
  let s := s.setReg BEAT_PLREQ.addr (w &&& 0xC000000F#32)
  if s.upd.locked then s
  else
    let s := s.levelStep
    let e := s.beat.engRaise.getD (s.get BEAT_PLCUR.ENGPL)
    { s with beat := { s.beat with engRaise := none, slcSettling := none } }.set BEAT_PLCUR.ENGPL e

/-- RAIL_VOLTAGE_SETTLED (R43). -/
def State.railSettled (s : State) (chan : Bool) : State :=
  if chan then { s with beat := { s.beat with slcSettling := none } }.showSlices
  else match s.beat.engRaise with
    | some e => { s with beat := { s.beat with engRaise := none } }.set BEAT_PLCUR.ENGPL e
    | none => s

/-- RAIL_VOLTAGE_SETTLED. -/
def execRailVoltageSettled (chan : Bool) (s : State) : Host.Outcome State Fault Refusal := .next (s.railSettled chan)

/-- BEAT_PERIOD_WRITE (R39): the period in force is that of the last valid code. -/
def State.periodWrite (s : State) (w : Word) : State :=
  let s := s.setReg BEAT_CTRL.addr (w &&& 7#32)
  { s with beat := { s.beat with period := s.periodOf } }

/-- BEAT_DONE (R48): engine `e` ends its task. -/
def State.doneWrite (s : State) (e : Nat) (w : Word) : State :=
  if bitOf w.toNat e then s.putBit BEAT_DONE.DONE e true else s

/-! ### The boundary (R40, R41, R43) -/

/-- R40, R41, R222: ABN takes its value, and each Jajor port sends its BAS. -/
def State.enterBeat (s : State) : State :=
  let abn := s.tb 0 / (s.beatNs * 65536) % 2 ^ 40
  let s := (s.set BEAT_ABNLO.ABN (abn % 2 ^ 32)).set BEAT_ABNHI.ABN (abn / 2 ^ 32)
  (s.raise BEAT_STAT.BOUNDARY).basBoundary

/-- The marks of the beat that ends are taken away. -/
def State.clearMarks (s : State) : State := { s with beat := { s.beat with stepped := false, outage := false } }

/-- Step 1 (R40, R41): ABN takes its value; an outage of the beat that ends is counted once (R53); the window to confirm
(R375). -/
def State.step1 (s : State) : State :=
  let s := s.enterBeat
  let s := if s.beat.stepped then s.raise BEAT_STAT.STEP else s
  let s := if s.beat.outage then s.inc BEAT_OUTAGE.COUNT else s
  let s := s.clearMarks
  let s := if s.get UPD_STAT.STATE = 5 then s.set UPD_STAT.WINDOW (min 127 (wrapDiff 40 s.upd.deadline s.abn).toNat) else s
  s.pulse 1

/-- R373, R374, R376, R370: what step 3 would do at this boundary: an activation, an abandonment, or the boot that an ACTIVATE
in RESCUE asks for. -/
inductive UpdAct where
  | activate
  | abandon
  | rescue
  deriving DecidableEq, Repr

/-- R374: reached means not before the boundary's ABN. In a holdover the activation waits for its end. -/
def State.updDue (s : State) : Option UpdAct :=
  let reached := decide (0 ≤ wrapDiff 40 s.abn s.upd.deadline)
  if s.rescue then (if s.upd.rescueBank.isSome then some .rescue else none)
  else if s.get UPD_STAT.STATE = 4 ∧ reached = true ∧ s.holdover = false then some .activate
  else if s.get UPD_STAT.STATE = 5 ∧ reached = true then some .abandon
  else none

/-- R50, R374: under a power-fail warning an activation that is due waits; its deferral is recorded once. -/
def State.deferAct (s : State) : State :=
  if s.upd.deferred then s
  else ({ s with upd := { s.upd with deferred := true } }.raise UPD_EVT.DEFERRED).journalHw 0xF011 0

/-- R374, R376: the work of step 3 before its warm reset. -/
def State.beginUpd (s : State) (a : UpdAct) : State :=
  let s := s.raise SYS_RSTCAUSE.UPDATE
  match a with
  | .activate =>
    let d := (s.upd.deadline + 64) % 2 ^ 40
    let s := s.journalHw 0xF010 (1 - s.bootRec.active)
    ({ s with upd := { s.upd with deadline := d } }.set UPD_STAT.STATE 5).set UPD_STAT.WINDOW 64
  | .abandon => s
  | .rescue => { s with upd := { s.upd with rescueBank := none } }

/-- Steps 2 and 3 (R36, R50, R374, R376): the state after a reset that they make, where they make one. A warm reset and an
activation at one boundary are one reset. -/
def State.resetStep (s : State) : Option State :=
  let warm := s.sys.warmReq
  if s.sys.coldReq then
    let s := { s with sys := { s.sys with warmReq := false, coldReq := false } }
    let s := s.coldReset SYS_RSTCAUSE.SWCOLD
    some (if warm then s.raise SYS_RSTCAUSE.SWWARM else s)
  else
    let due := if s.bit PWR_STAT.PFW then none else s.updDue
    if !warm && due.isNone then none
    else
      let s := { s with sys := { s.sys with warmReq := false } }
      let s := if warm then s.raise SYS_RSTCAUSE.SWWARM else s
      match due with
      | some a => some ((s.beginUpd a).beginWarm (decide (a ≠ .abandon)))
      | none => some (s.beginWarm false)

/-- Step 5 (R43, R73, R187, R201): levels, then the scan, then the slices. -/
def State.step5 (s : State) : State := (s.levelStep.scanStep5).assignSlices.awakeEnds

/-- R131: a chain with no carrier sending or reserved recalibrates after Tj moved more than 25 degrees C. -/
def State.recalibrate (s : State) : State :=
  s.each [0, 1] (fun s x =>
    let t := vget s.txc x
    if s.dOn (20 + x) && decide (s.get (TXF_LO.FREQ x) ≠ 0) && decide (25 < (t.tj - t.lastTj).natAbs) && s.chainIdle x then
      s.calRun x
    else s)

/-- R48 at step 9: one engine that runs a beat task. -/
def State.taskStep (s : State) (n : Nat) : State :=
  let st := s.estate n
  if !bitOf (s.get BEAT_TASKEN.EN) n then s
  else if !vget s.beat.running n then
    if st = stReset ∨ st = stOff ∨ st = stStopped ∨ st = stReplaced then s
    else { s with beat := { s.beat with running := vset s.beat.running n true } }.beatStart n
  else if bitOf (s.get BEAT_DONE.DONE) n then (s.putBit BEAT_DONE.DONE n false).beatStart n
  else
    let s := ((s.inc (BEAT_OVR.COUNT n)).raiseBit BEAT_OVRSTAT.OVR n).raiseHw 9 2 0
    if s.isApp n then s else s.failWork

/-- Step 9 (R48, R314, R324): watchdog, beat tasks, takeovers. -/
def State.step9 (s : State) : State :=
  let s := { s with beat := { s.beat with lastDone := some s.abn } }
  let r := s.watchdog
  (r.2.each (List.range 16) State.taskStep).each r.1 State.takeOver

/-- R41: the boundary repeats one at which step 9 ran. -/
def State.repeated (s : State) : Bool :=
  match s.beat.lastDone with
  | some a => !isAfter 40 s.abn a
  | none => false

/-- Steps 4 to 9. -/
def State.stepsOn (s : State) : State :=
  let s := (s.holdExit.step5.powerStep).applyChainModes
  let s := s.recalibrate
  if s.repeated then s else ((s.qscStep7.reasmTimeout).lnkStep8).step9

/-- BEAT_BOUNDARY (R43). `tj` is the junction temperature. -/
def State.boundary (s : State) (tj : Int) : State :=
  let txc := s.txc.map (fun (t : TxChain) => { t with tj := tj })
  let s := State.step1 { s with txc := txc }
  let s := if s.bit PWR_STAT.PFW && decide (s.updDue = some .activate) then s.deferAct else s
  match s.resetStep with
  | some t => t
  | none => s.stepsOn

/-- BEAT_BOUNDARY: where PER is on, and no warm reset is held (R467). -/
def execBeatBoundary (tj : Int) (s : State) : Host.Outcome State Fault Refusal :=
  .next (if s.dOn 28 && !s.pwr.warmHeld then s.boundary tj else s)

end Sys2Proof.Machine
end

