-- ==== Sys2Proof/Machine/Flags.lean ====
section
/-! DEFINITION. Interrupt lines (R24, R26, R303, R316): what sets the line of each block, where it goes, and what an engine
sees in IPEND. -/
namespace Sys2Proof.Machine

/-- Some bit of `evt` is set whose enable in the register at `ien` is set. -/
def State.flagged (s : State) (evt ien mask : Nat) : Bool :=
  decide (s.reg evt &&& s.reg ien &&& BitVec.ofNat 32 mask ≠ 0)

/-- Some bit of the register is set. -/
def State.anyBit (s : State) (a : Nat) : Bool := decide (s.reg a ≠ 0)

/-- R58: the BEAT line. -/
def State.beatLine (s : State) : Bool :=
  s.flagged BEAT_STAT.addr BEAT_IEN.addr 0xF || (bitOf (s.get BEAT_IEN.IEN) 2 && s.anyBit BEAT_OVRSTAT.addr)

/-- R439: the RTC line: bits 3 and 4 of the enable stand for BADDATE and CENTURY_WRAP. -/
def State.rtcLine (s : State) : Bool :=
  let e := s.get RTC_IEN.IEN
  s.flagged RTC_EVT.addr RTC_IEN.addr 7 || (bitOf e 3 && s.bit RTC_STAT.BADDATE) || (bitOf e 4 && s.bit RTC_STAT.CENTURY_WRAP)

/-- R462: the EVR line. -/
def State.evrLine (s : State) : Bool :=
  s.flagged EVR_EVT.addr EVR_IEN.addr 7 ||
    (s.bit EVR_IEN.FLAGS && (decide (s.reg EVR_FLAGL.addr &&& s.reg EVR_FLAGENL.addr ≠ 0) ||
      decide (s.reg EVR_FLAGH.addr &&& s.reg EVR_FLAGENH.addr ≠ 0)))

/-- R327: the ENG line. -/
def State.engLine (s : State) : Bool :=
  (s.bit ENG_IEN.TK && (s.bit ENG_TKSTAT.DONE || s.bit ENG_TKSTAT.FAIL)) ||
    (s.bit ENG_IEN.STOP && decide (s.get ENG_EVT.STOP ≠ 0)) || (s.bit ENG_IEN.WD && decide (s.get ENG_EVT.WD ≠ 0))

/-- The interrupt line of block `n` (R20, R24) is asserted. PAD and the blocks that name no source never assert theirs. -/
def State.irqLine (s : State) (n : Nat) : Bool :=
  match n with
  | 0 => s.bit SYS_FAULTREC.VALID
  | 1 => s.flagged PWR_EVT.addr PWR_IEN.addr 0x3F
  | 2 => s.beatLine
  | 3 => s.flagged RXF_EVT.addr RXF_IEN.addr 0x3FF
  | 4 => s.flagged SLC_EVT.addr SLC_IEN.addr 7
  | 5 => s.flagged PHY_EVT.addr PHY_IEN.addr 3
  | 6 => s.flagged TXF_EVT.addr TXF_IEN.addr 0x1FF
  | 7 => s.flagged GLZ_EVT.addr GLZ_IEN.addr 7
  | 8 => s.flagged LNK_EVT.addr LNK_IEN.addr 0xFF || s.flagged LNK_TEVT.addr LNK_TIEN.addr 0xFF
  | 9 => s.flagged MSH_EVT.addr MSH_IEN.addr 0x3F
  | 10 => s.flagged QSC_EVT.addr QSC_IEN.addr 0x3F
  | 11 => s.flagged TSU_EVT.addr TSU_IEN.addr 0x7F
  | 12 => s.flagged AES_EVT.addr AES_IEN.addr 7 || (s.bit AES_IEN.DONE && (s.anyBit AES_DONEL.addr || s.anyBit AES_DONEH.addr))
  | 13 => s.flagged PKA_EVT.addr PKA_IEN.addr 3
  | 14 => s.flagged KEY_EVT.addr KEY_IEN.addr 0x3F
  | 15 => s.flagged UPD_EVT.addr UPD_IEN.addr 0x7F
  | 16 => s.flagged JRN_EVT.addr JRN_IEN.addr 3
  | 17 => s.rtcLine
  | 18 => s.flagged TMR_EVT.addr TMR_IEN.addr 0xFFFFFF
  | 19 => s.evrLine
  | 20 => s.flagged HIF_EVT.addr HIF_IEN.addr 0x1F
  | 21 => s.flagged ETH_EVT.addr ETH_IEN.addr 0xF
  | 22 => [0, 1].any (fun p => s.flagged (JJL_EVT.addr p) (JJL_IEN.addr p) 0x3F)
  | 24 => s.flagged COEX_EVT.addr COEX_IEN.addr 3
  | 25 => s.engLine
  | _ => false

/-- R24: the engine that line `n` goes to, where it is delivered. Line 0 always goes to the fault engine. -/
def State.irqTarget (s : State) (n : Nat) : Option Nat :=
  if n = 0 then some (s.get SYS_FAULTENG.ENGINE)
  else if s.bit (SYS_IRQMAP.EN n) then some (s.get (SYS_IRQMAP.TARGET n))
  else none

/-- R303, R316: IPEND of engine `e`: inputs 0 to 25 the block lines, 26 to 30 the sources of the cluster. -/
def State.ipend (s : State) (e : Nat) : Word :=
  let lines := (List.range 26).foldl (fun w n => if s.irqLine n && decide (s.irqTarget n = some e) then w + 2 ^ n else w) 0
  let cl := s.get (ENG_IRQSTAT.BEAT e) + 2 * s.get (ENG_IRQSTAT.MBOX e) + 4 * b2n (s.o6Level e) +
    8 * s.get (ENG_IRQSTAT.SUBDONE e) + 16 * s.get (ENG_IRQSTAT.WDWARN e)
  BitVec.ofNat 32 (lines + 2 ^ 26 * cl)

end Sys2Proof.Machine
end

