-- ==== Sys2Proof/Machine/Operands.lean ====
section
/-! DEFINITION. What a written word stores where a field does not take every value (the "stores" and "ignored" clauses of
the field tables), and the words of two-register values (R7). -/
namespace Sys2Proof.Machine

/-- The field is stored between two limits. -/
def within (l : Loc) (lo hi : Nat) (w : Word) : Word := putField w l.lo l.w (min hi (max lo (fieldOf w l.lo l.w)))

/-- The field stores `v` where its value satisfies `p`. -/
def storeFor (l : Loc) (p : Nat → Bool) (v : Nat) (w : Word) : Word :=
  if p (fieldOf w l.lo l.w) then putField w l.lo l.w v else w

/-- The field keeps its value in `old` where the written one satisfies `p`. -/
def ignoreFor (l : Loc) (p : Nat → Bool) (old w : Word) : Word :=
  storeFor l p (fieldOf old l.lo l.w) w

/-- A signed field is stored between −`m` and `m`. -/
def withinS (l : Loc) (m : Int) (w : Word) : Word :=
  putField w l.lo l.w (unsign l.w (min m (max (-m) (signed l.w (fieldOf w l.lo l.w)))))

/-- R82: RXF_AGCx: HIGH at most 6, LOW at least HIGH + 6, HOLD at least 1. -/
def agcWord (w : Word) : Word :=
  let w := within (RXF_AGC.HIGH 0) 0 6 w
  within (RXF_AGC.HOLD 0) 1 255 (within (RXF_AGC.LOW 0) (fieldOf w 0 8 + 6) 255 w)

/-- SUN-FSK settings words (PHY_TXFSKx, PHY_FSKn). -/
def fskWord (w : Word) : Word :=
  within (PHY_FSK.RATE 0) 100 10000 (within (PHY_FSK.INDEX 0) 4 40 (storeFor (PHY_FSK.FEC 0) (· = 3) 0 w))

/-- PHY_SYNCn: no threshold is 0. -/
def syncWord (w : Word) : Word :=
  within (PHY_SYNC.SOTHR 0) 1 15 (within (PHY_SYNC.FSKTHR 0) 1 15 (within (PHY_SYNC.OQTHR 0) 1 15
    (within (PHY_SYNC.MFTHR 0) 1 15 w)))

/-- TXF_SHAPE: each of the eight sets at most 7. -/
def shapeWord (w : Word) : Word :=
  (List.range 8).foldl (fun w k => within ⟨0, 4 * k, 4⟩ 0 7 w) w

/-- LNK_HOPLEN: each length from 1 to 128. -/
def hopLenWord (w : Word) : Word :=
  (List.range 4).foldl (fun w k => within ⟨0, 8 * k, 8⟩ 1 128 w) w

/-- LNK_GLIM: GMAX at least GMIN. -/
def glimWord (w : Word) : Word := within LNK_GLIM.GMAX (fieldOf w 0 12) 4095 w

/-- What a write of `w` stores at offset `off` of a block whose register holds `old`, in blocks 0 to 8. -/
def storedLow (blk off : Nat) (old w : Word) : Word :=
  match blk with
  | 0 => if off = 0x44 then within SYS_REFMON.DEVPPM 100 1023 w else if off = 0x5C then within SYS_SCRUB.INTERVAL 64 0xFFFF w else w
  | 1 => if off = 0x30 then ignoreFor PWR_SAVEBASE.BASE (fun v => decide (31440 < v) || decide (v % 8 ≠ 0)) old w else w
  | 2 => if off = 0x2C then within BEAT_RESLIM.BEATS 1 0xFFFF w else w
  | 3 => if off = 0x10 ∨ off = 0x14 then agcWord w else w
  | 4 => if 0x100 ≤ off ∧ off % 32 = 0x10 then within (SLC_AGC.TARGET 0) 6 30 w else w
  | 5 =>
    if off = 0x14 ∨ off = 0x18 ∨ (0x100 ≤ off ∧ off % 32 = 4) then fskWord w
    else if 0x100 ≤ off ∧ off % 32 = 8 then syncWord w
    else w
  | 6 =>
    if off < 8 then withinS (TXF_CTRL.AUTOOFS 0) 17 (within (TXF_CTRL.MAXN 0) 0 4 w)
    else if off = 0x20 then shapeWord w
    else if off = 0x24 then w &&& 0xBBBBBBBB#32
    else if 0x400 ≤ off ∧ off < 0x520 ∧ (off - 0x400) / 4 % 9 = 8 then w &&& 0xFFFF#32
    else w
  | 7 => if 0x100 ≤ off ∧ off < 0x300 ∧ off % 32 = 0x18 then within (GLZ_SBDUTY.WIN 0) 0 3600 w else w
  | 8 =>
    if off = 0 then within LNK_CTRL.SKIM 1 8 (storeFor LNK_CTRL.ACKMCS (fun v => decide (10 ≤ v)) 9 w)
    else if 0x80 ≤ off ∧ off < 0xA0 then within (LNK_SF.LENGTH 0) 1 4096 w
    else if off = 0xA0 then hopLenWord w
    else if off = 0x104 then glimWord w
    else if off = 0x108 then within LNK_TRACK.LOSTN 1 15 w
    else if off = 0x110 then within LNK_TRX.LINGER 1 4095 w
    else if off = 0x200 ∨ off = 0x204 then within (LNK_TINT.INTERVAL 0) 20 2000 w
    else if 0x8000 ≤ off then (if off % 8 = 0 then w &&& 0xFFFFFFF8#32 else w &&& 0xFFF80FFF#32)
    else w
  | _ => w

/-- The same in blocks 9 to 25. -/
def storedHigh (blk off : Nat) (old w : Word) : Word :=
  match blk with
  | 9 =>
    if off = 0 then within MSH_CTRL.FLOODAGE 1 255 w
    else if off = 0xC then within MSH_FRAG.MAXB 24 2048 (within MSH_FRAG.MAXA 24 2048 w)
    else if off = 0x10 then within MSH_REASM.CELLS 8 0xFFFF (within MSH_REASM.TO 1 255 w)
    else w
  | 10 =>
    if 0x1000 ≤ off ∧ off < 0x2000 then
      let r := off % 64
      if r = 4 then within (QSC_WEIGHT.WEIGHT 0) 1 0xFFFF w
      else if r = 8 then within (QSC_RATE.RATE 0) 0 4000000 w
      else if r = 0xC then within (QSC_BURST.BURST 0) 2048 1048576 w
      else if r = 0x10 then within (QSC_QBYTES.QUOTA 0) 0 4194304 w
      else if r = 0x14 then within (QSC_QPKTS.QUOTA 0) 0 16384 w
      else w
    else if 0x2000 ≤ off then
      let r := off % 32
      if r = 4 then within (QSC_POLCIR.CIR 0) 1 4000000 w
      else if r = 8 then within (QSC_POLCBS.CBS 0) 2048 1048576 w
      else if r = 0xC then within (QSC_POLEBS.EBS 0) 0 1048576 w
      else w
    else w
  | 11 => if off = 0x14 then within TSU_SERVO.OFSMAX 1 4095 (within TSU_SERVO.SLEW 1 255 w) else w
  | 14 =>
    if off = 0x30 then ignoreFor KEY_CTRL.PARKBASE (fun v => decide (12280 < v) || decide (v % 8 ≠ 0)) old w else w
  | 18 =>
    if 0x100 ≤ off ∧ off % 64 = 0 then
      storeFor (TMR_CFG.GATESRC 0) (· = 3) 0 (storeFor (TMR_CFG.CAPSRC 0) (· = 3) 0 w)
    else w
  | 20 =>
    if off = 0 then within HIF_CTRL.RXTO 1 255 w
    else if off = 8 then within HIF_BAUD.DIV 2134 0xFFFF w
    else w
  | 21 =>
    if off = 0x14 then within ETH_PAUSE.THR 0 8192 w
    else if off = 0x1C then within ETH_MDIOCFG.DIV 7 255 w
    else w
  | _ => w

/-- What a write of `w` stores in the register at `a`, which holds `old`. -/
def storedWord (a : Nat) (old w : Word) : Word :=
  let blk := a / 0x10000 % 0x1000
  let off := a % 0x10000
  if blk < 9 then storedLow blk off old w else storedHigh blk off old w

/-- R7: the upper word of the two-register value whose lower word is at `a` (log entry 29 lists the values): the ABN, the
activation ABN, the ticks of the last sleep, MAC addresses, stamp records, and the values of a chained timer pair (R449). -/
def State.upperOf (s : State) (a : Nat) : Option Nat :=
  let pairTmr (f : Nat → Nat) : Option Nat :=
    ([0, 2, 4, 6].find? (fun n => decide (a = f n) && s.bit (TMR_CFG.CHAIN n))).map (fun n => f (n + 1))
  let two (lo : Nat → Nat) (hi : Nat → Nat) (n : Nat) : Option Nat :=
    ((List.range n).find? (fun i => decide (a = lo i))).map hi
  if a = BEAT_ABNLO.addr then some BEAT_ABNHI.addr
  else if a = TSU_SLPTICKLO.addr then some TSU_SLPTICKHI.addr
  else if a = UPD_ACTLO.addr then some UPD_ACTHI.addr
  else if a = ETH_MACLO.addr then some ETH_MACHI.addr
  else if a = TSU_ETHRXST0.addr then some TSU_ETHRXST1.addr
  else if a = TSU_ETHTXST0.addr then some TSU_ETHTXST1.addr
  else (two TSU_RXST0.addr TSU_RXST1.addr 16).orElse fun _ => (two TSU_TXST0.addr TSU_TXST1.addr 8).orElse fun _ =>
    (two ENG_PKTST0.addr ENG_PKTST1.addr 16).orElse fun _ => (two ETH_PEERLO.addr ETH_PEERHI.addr 16).orElse fun _ => (pairTmr TMR_CNT.addr).orElse fun _ =>
    (pairTmr TMR_PERIOD.addr).orElse fun _ => (pairTmr TMR_CMP.addr).orElse fun _ => (pairTmr TMR_CAPR.addr).orElse fun _ =>
    (pairTmr TMR_CAPF.addr).orElse fun _ => pairTmr TMR_WIDTH.addr

/-- R7: the lower word of the value whose upper word is at `a`. -/
def State.lowerOf (s : State) (a : Nat) : Option Nat :=
  [4, 0x40].findSome? (fun d => if s.upperOf (a - d) = some a then some (a - d) else none)

end Sys2Proof.Machine
end

