-- ==== Sys2Proof/Machine/Views.lean ====
section
/-! DEFINITION. What a read of a register returns where it is not the word stored (R3, R5, R7 and the registers that show
other state), and what the read itself changes. -/
namespace Sys2Proof.Machine

/-- The block of a peripheral address (R20): 64 KiB each from 0x2000_0000. -/
def blockOfAddr (a : Nat) : Nat := a / 0x10000 % 0x1000

/-- R24: what SYS_IRQMAP0 reads. -/
def State.irqmap0View (s : State) : Word := BitVec.ofNat 32 (2 ^ 31 + s.get SYS_FAULTENG.ENGINE)

/-- R58: TB0 nanoseconds since the last boundary, 0 where TB0 lies before it. -/
def State.phaseView (s : State) : Word :=
  let d := tbDiff (s.tb 0) (s.boundaryOf s.abn)
  BitVec.ofNat 32 (min (2 ^ 25 - 1) ((max 0 d).toNat / 65536))

/-- QSC_QSTATq (R256). -/
def State.qstatView (s : State) (q : Nat) : Word :=
  let u := s.q q
  let strict := (s.strictQs u.outlet).contains q
  let fl := u.pkts.countP (·.inflight)
  BitVec.ofNat 32 (b2n (u.eligible && !strict) * 2 ^ 31 + b2n u.shaped * 2 ^ 30 + b2n u.move.isSome * 2 ^ 29 + b2n strict * 2 ^ 28 +
    min 15 fl * 2 ^ 24 + u.pkts.length % 32768)

/-- QSC registers that show other state: offset in the block. -/
def State.qscView (s : State) (off : Nat) (w : Word) : Word :=
  if off = 4 then BitVec.ofNat 32 (s.unusedSum * 65536 + s.freeCount)
  else if off = 0xC then BitVec.ofNat 32 s.pbUse
  else if 0x40 ≤ off ∧ off < 0x60 then putField w 16 15 (s.ctlUsed ((off - 0x40) / 4))
  else if 0x60 ≤ off ∧ off < 0x80 then BitVec.ofNat 32 (vget s.qsc.vtime ((off - 0x60) / 4) / 65536)
  else if 0x1000 ≤ off ∧ off < 0x2000 then
    let q := (off - 0x1000) / 64
    let r := off % 64
    if r = 0x18 then BitVec.ofNat 32 (s.q q).bytes
    else if r = 0x1C then s.qstatView q
    else if r = 0x20 then BitVec.ofNat 32 (unsign 32 (s.q q).token)
    else w
  else w

/-- TSU registers that show a time base (R259): TB3 has no step registers and its RATE reads 0 (R275). -/
def State.tsuView (s : State) (off : Nat) (w : Word) : Word :=
  if 0x100 ≤ off ∧ off < 0x200 then
    let n := (off - 0x100) / 64
    let r := off % 64
    let v := s.tb n
    if r = 0 then BitVec.ofNat 32 (tbFrac v)
    else if r = 4 then BitVec.ofNat 32 (tbNs v)
    else if r = 8 then BitVec.ofNat 32 (tbSec v)
    else if r = 0xC then BitVec.ofNat 32 (tbSec v / 2 ^ 32)
    else if n = 3 ∧ (r = 0x10 ∨ 0x20 ≤ r) then 0
    else w
  else w

/-- TMR registers that show a count or a gate. -/
def State.tmrView (s : State) (off : Nat) (w : Word) : Word :=
  if 0x100 ≤ off ∧ off < 0x300 then
    let n := (off - 0x100) / 64
    let r := off % 64
    if r = 0xC then s.tmrCountRead n
    else if r = 8 then putField w 1 1 (b2n (!s.gateOpen n))
    else w
  else w

/-- PAD registers: the levels of the pads, PAD_OUT under its two other names, and the straps (R484). -/
def State.padView (s : State) (off : Nat) (w : Word) : Word :=
  if off = 4 then BitVec.ofNat 32 ((List.range 32).foldl (fun t k => t + b2n (s.gpioLevel k) * 2 ^ k) 0)
  else if off = 0xC ∨ off = 0x10 then s.reg PAD_OUT.addr
  else if off = 0x14 then putField (putField w 2 1 (b2n s.pad.vioOk)) 1 1 (b2n s.pad.viosel)
  else w

/-- ENG registers of engine `n` that show other state. -/
def State.engView (s : State) (off : Nat) (w : Word) : Word :=
  if 0x100 ≤ off ∧ off < 0x500 then
    let n := (off - 0x100) / 64
    let r := off % 64
    if r = 0x30 then s.linkRead n
    else if r = 0x14 then putField w 2 1 (b2n (s.o6Level n))
    else w
  else w

/-- GLZ registers that show other state. -/
def State.glzView (s : State) (off : Nat) (w : Word) : Word :=
  if off = 0x10 then BitVec.ofNat 32 (glazeCrc s.glazeWords)
  else if 0x400 ≤ off ∧ off < 0x440 then BitVec.ofNat 32 (s.dutyUsed ((off - 0x400) / 4))
  else w

/-- HIF registers that show other state. -/
def State.hifView (s : State) (off : Nat) (w : Word) : Word :=
  if off = 4 then s.hifStatView
  else if off = 0x18 then s.hifRxView
  else if off = 0x20 then s.hifTxView
  else w

/-- What a read of register `a` shows, before what the read itself does; `w` is the stored word. -/
def State.viewOf (s : State) (a : Nat) (w : Word) : Word :=
  let off := a % 0x10000
  match blockOfAddr a with
  | 0 =>
    if 0x10 ≤ off ∧ off < 0x20 then Config.uid ((off - 0x10) / 4)
    else if off = 0x100 then s.irqmap0View
    else w
  | 2 => if off = 0xC then s.phaseView else w
  | 6 => if 0x400 ≤ off ∧ off < 0x490 then Config.shapeRom ((off - 0x400) / 4) else w
  | 7 => s.glzView off w
  | 8 => if 0x4000 ≤ off ∧ off < 0x8000 ∧ off % 64 < 8 then s.nbrRead a else w
  | 10 => s.qscView off w
  | 11 => s.tsuView off w
  | 12 =>
    if off = 0 then s.aesStatView
    else if 0x1000 ≤ off ∧ off < 0x3000 ∧ s.bit (AES_STATn.BUSY ((off - 0x1000) / 128)) then 0
    else w
  | 13 => if off = 8 then BitVec.ofNat 32 s.attLeft else w
  | 14 => if 0xE0 ≤ off ∧ off < 0xF0 then Config.challenge s.sec.chal ((off - 0xE0) / 4) else w
  | 18 => s.tmrView off w
  | 19 => if 0x400 ≤ off ∧ off < 0x500 ∧ off % 16 = 0xC then putField w 0 4 (s.pcIndex ((off - 0x400) / 16)) else w
  | 20 => s.hifView off w
  | 23 => s.padView off w
  | 25 => s.engView off w
  | _ => w

/-- R3, R5: a register's read value: its view with write-only bits zero, and zero at a reserved offset. -/
def State.regView (s : State) (a : Nat) : Word :=
  match findRow a with
  | some r => s.viewOf a (s.reg a) &&& ~~~ BitVec.ofNat 32 r.wo
  | none => 0

/-- R451, R462: what the application partition sees of EVR: nothing of a SEC channel. -/
def State.appEvrView (s : State) (off : Nat) (w : Word) : Word :=
  let sec (k : Nat) : Bool := s.bit (EVR_CHCFG.SEC k)
  let hide (k0 : Nat) : Word := (List.range 32).foldl (fun v j => if sec (k0 + j) then putField v j 1 0 else v) w
  if off = 0x20 ∨ off = 0x30 then hide 0
  else if off = 0x24 ∨ off = 0x34 then hide 32
  else if 0x100 ≤ off ∧ off < 0x300 ∧ off % 8 = 0 ∧ sec ((off - 0x100) / 8) then 0
  else w

/-- R446: a read of a running unit's count returns the latch and marks it stale. -/
def State.countRead (s : State) (n : Nat) : State :=
  let head := if s.tmrFollower n then n - 1 else n
  if s.bit (TMR_CTRL.RUN head) then s.set (TMR_STAT.STALE head) 1 else s

/-- R448: a read of CAPR or CAPF clears its VALID bit; of a pair, the even unit's (R449). -/
def State.captureRead (s : State) (n : Nat) (rising : Bool) : State :=
  let head := if s.tmrFollower n then n - 1 else n
  s.set (if rising then TMR_STAT.RVALID head else TMR_STAT.FVALID head) 0

/-- What a read does beside returning its word: the latches of R259, R435 and R7, and the marks of R446 and R448. -/
def State.readActs (s : State) (a : Nat) : State :=
  let off := a % 0x10000
  match blockOfAddr a with
  | 11 => if 0x100 ≤ off ∧ off < 0x200 ∧ off % 64 = 0 then s.fracRead ((off - 0x100) / 64) else s
  | 17 => if off = 0xC then s.subsecRead else s
  | 18 =>
    if 0x100 ≤ off ∧ off < 0x300 then
      let n := (off - 0x100) / 64
      if off % 64 = 0xC then s.countRead n
      else if off % 64 = 0x18 then s.captureRead n true
      else if off % 64 = 0x1C then s.captureRead n false
      else s
    else s
  | _ => s

/-- R7: a read of a register with no queue behind it. A latched half is returned once; a read of a lower word latches the
upper one. -/
def State.plainRead (s : State) (a : Nat) : Word × State :=
  match aget s.sys.latched a with
  | some v => (v, State.readActs { s with sys := { s.sys with latched := adel s.sys.latched a } } a)
  | none =>
    let v := s.regView a
    let s := match s.upperOf a with
      | some hi => s.latchAt hi (s.regView hi)
      | none => s
    (v, s.readActs a)

/-- A read of the register at `a` by engine `e`. Those with a queue behind them take from it; of another engine's
ENG registers the stored word is returned and nothing is taken. -/
def State.regRead (s : State) (e a : Nat) : Word × State :=
  if a = HIF_RXDATA.addr then s.rxDataRead
  else if a = KEY_RNG.addr then s.rngRead
  else if a = ENG_RXDATA.addr e then s.mailRead e
  else if a = ENG_PKTGET.addr e then s.pktGet e
  else if a = ENG_ALLOC.addr e then s.cellAlloc e
  else s.plainRead a

end Sys2Proof.Machine
end

