-- ==== Sys2Proof/Machine/Bus.lean ====
section
/-! DEFINITION. An access through the engine view (R3 to R8, R18 to R25): its check, what a write may change, what each
register's write does, and what a read returns. The commands of the table that are writes and reads of registers are this
one access at one register. -/
namespace Sys2Proof.Machine

/-! ### Rights (R20, R21) -/

/-- What an application engine may do with a register. `bits m`: it may write the bits of `m`; `quiet m`: the same, and
the other bits are kept without a fault. -/
inductive AppRight where
  | none
  | read
  | full
  | bits (m : Word)
  | quiet (m : Word)
  | refused
  deriving DecidableEq, Repr

/-- Full access where it is the application's own. -/
def ownRight (b : Bool) : AppRight := if b then .full else .read

/-- The flag bits of channels 0 to 31 or 32 to 63 that the application partition owns. -/
def State.ownFlags (s : State) (k0 : Nat) : Word :=
  BitVec.ofNat 32 ((List.range 32).foldl (fun t j => t + b2n (s.bit (EVR_CHCFG.OWNER (k0 + j))) * 2 ^ j) 0)

/-- Event channels and praline cells of the application partition (R462). -/
def State.evrRight (s : State) (off : Nat) : AppRight :=
  if off = 0x20 ∨ off = 0x28 then .bits (s.ownFlags 0)
  else if off = 0x24 ∨ off = 0x2C then .bits (s.ownFlags 32)
  else if 0x100 ≤ off ∧ off < 0x300 then ownRight (s.bit (EVR_CHCFG.OWNER ((off - 0x100) / 8)))
  else if 0x400 ≤ off ∧ off < 0x500 then ownRight (s.bit (EVR_PCCFG.OWNER ((off - 0x400) / 16)))
  else .read

/-- R326: only En itself reaches its registers and its kick, except that the stack partition may read them. -/
def engOwn (off : Nat) : Option Nat :=
  if 0x80 ≤ off ∧ off < 0xC0 then some ((off - 0x80) / 4)
  else if 0x100 ≤ off ∧ off < 0x500 then some ((off - 0x100) / 64)
  else none

/-- R20, R21: the right of application engine `e` at offset `off` of block `blk`. -/
def State.appRight (s : State) (e blk off : Nat) : AppRight :=
  match blk with
  | 2 => if off = 0x10 then .full else .read
  | 3 => .none
  | 6 => .none
  | 10 =>
    if 0x1000 ≤ off ∧ off < 0x2000 then ownRight (s.appQueue ((off - 0x1000) / 64))
    else if 0x2000 ≤ off ∧ off < 0x2400 then ownRight (bitOf (s.get QSC_POLOWN.OWN) ((off - 0x2000) / 32))
    else .read
  | 11 => ownRight (decide (0x180 ≤ off) && decide (off < 0x1C0))
  | 12 =>
    if 0x100 ≤ off ∧ off < 0x900 then ownRight (s.ctxApp ((off - 0x100) / 32))
    else if 0x1000 ≤ off ∧ off < 0x3000 then ownRight (s.ctxApp ((off - 0x1000) / 128))
    else .read
  | 13 => ownRight (decide (0x140 ≤ off) && decide (off < 0x180))
  | 15 => .none
  | 17 => ownRight (decide (off = 0x38) || decide (off = 0x3C))
  | 18 => if 0x100 ≤ off ∧ off < 0x300 then ownRight (bitOf (s.get TMR_OWN.OWN) ((off - 0x100) / 64)) else .read
  | 19 => s.evrRight off
  | 20 => .none
  | 23 =>
    if 8 ≤ off ∧ off ≤ 0x10 then .quiet (s.reg PAD_OWN.addr)
    else if 0x100 ≤ off ∧ off < 0x180 then ownRight (bitOf (s.get PAD_OWN.OWN) ((off - 0x100) / 4))
    else .read
  | 25 => if engOwn off = none then .read else if engOwn off = some e then .full else .refused
  | _ => .read

/-- The right of engine `e` at a register: the stack partition's are full, but for the per-engine registers of others,
where it may read, and flush the mailbox (R326). -/
def State.rightOf (s : State) (e blk off : Nat) : AppRight :=
  if s.isApp e then s.appRight e blk off
  else if blk = 25 ∧ engOwn off ≠ none ∧ engOwn off ≠ some e then
    if 0x100 ≤ off ∧ off % 64 = 0x10 then .bits 0x80000000#32 else .read
  else .full

/-! ### The check of an access (R6, R19, R416) -/

/-- The domain of a register, or at a reserved offset that of its block's first register. -/
def domainOfReg (a : Nat) : Nat :=
  match findRow a with
  | some r => r.dom
  | none => ((blockRows (blockOfAddr a)).head?.map (·.dom)).getD 63

/-- R292: an access or jump that is not aligned: ALIGN, with the block of a peripheral address (R37). -/
def alignFault (a : Nat) : AccFault :=
  { cls := 2, addr := a, block := match regionOf a with
      | .periph _ => blockOfAddr a
      | _ => 0xFF }

/-- The fault of an access before rights and effect: alignment, an unmapped address, a domain that is not on. -/
def State.accessFault (s : State) (e : Nat) (u : Use) (size a : Nat) : Option AccFault :=
  match regionOf a with
  | .periph _ =>
    if size ≠ 4 ∨ a % 4 ≠ 0 then some (alignFault a)
    else if s.domOn (domainOfReg a) then none
    else some { cls := 3, block := blockOfAddr a, detail := 2, addr := a }
  | _ =>
    if a % size ≠ 0 then some (alignFault a)
    else s.memFault e (s.isApp e) u a

/-! ### The write gate (R4) -/

/-- The bits of a row that some write can reach. -/
def RegRow.writable (r : RegRow) : Word := BitVec.ofNat 32 (r.rw ||| r.rwl ||| r.w1c ||| r.w1s ||| r.wo)

/-- R4: among the refused bits, those whose value the write would change: a stored field that would take another value, a
set bit that would be cleared, a clear bit that would be set, a write-only field written other than zero. -/
def State.wouldChange (s : State) (r : RegRow) (a : Nat) (w refused : Word) : Word :=
  let old := s.reg a
  let keep := (old ^^^ storedWord a old w) &&& BitVec.ofNat 32 (r.rw ||| r.rwl)
  let clr := w &&& old &&& BitVec.ofNat 32 r.w1c
  let st := w &&& ~~~old &&& BitVec.ofNat 32 r.w1s
  (keep ||| clr ||| st ||| (w &&& BitVec.ofNat 32 r.wo)) &&& refused

/-- What the gate lets through: the word as the register's write sees it (none: no field may be written), and the fault. -/
structure Gated where
  word : Option Word
  fault : Option AccFault
  deriving DecidableEq, Repr

/-- R4: the gate for a writer to whom the bits of `ps` are refused by partition and, after the commit, the RWL fields. -/
def State.gate (s : State) (r : RegRow) (a : Nat) (ps : Word) (w : Word) : Gated :=
  let lock := if s.upd.locked then BitVec.ofNat 32 r.rwl else 0
  let ps := ps &&& r.writable
  let refused := ps ||| lock
  let none_ := decide (refused ≠ 0) && decide (r.writable &&& ~~~refused = 0)
  let f (cls : Nat) : AccFault := { cls := cls, block := blockOfAddr a, addr := a }
  let fault :=
    if s.wouldChange r a w ps ≠ 0 ∨ (none_ = true ∧ ps ≠ 0) then some (f 1)
    else if s.wouldChange r a w lock ≠ 0 ∨ (none_ = true ∧ lock ≠ 0) then some (f 5)
    else none
  let w' := (s.reg a &&& refused &&& BitVec.ofNat 32 (r.rw ||| r.rwl)) ||| (w &&& ~~~refused)
  { word := if none_ then none else some w', fault := fault }

/-- The bits refused to engine `e` by partition at a register of row `r`, or none where the whole access is refused. TB2's
registers are RW to their owner (R275). -/
def State.psBits (s : State) (e a : Nat) (r : RegRow) : Option Word :=
  let off := a % 0x10000
  let ps := BitVec.ofNat 32 (if blockOfAddr a = 11 ∧ 0x180 ≤ off ∧ off < 0x1C0 then 0 else r.ps)
  match s.rightOf e (blockOfAddr a) off with
  | .full => some (if s.isApp e then ps else 0)
  | .bits m => some (~~~m ||| (if s.isApp e then ps else 0))
  | .quiet _ => some 0
  | _ => none

/-! ### What a write does -/

/-- R8: what hardware raised in this clock at register `a`, in fields that `m` lets software change, is applied to the word
that software has stored. -/
def State.reheat (s : State) (a : Nat) (m : Word) : State :=
  s.each (s.hot.filter (fun h => decide (h.1.addr = a) && m.getLsbD h.1.lo)) (fun s h => s.lift h.1 h.2)

/-- R3, R8: the fields of a register take the word by their access codes. -/
def State.plainStore (s : State) (a : Nat) (r : RegRow) (w : Word) : State :=
  let old := s.reg a
  let rw := BitVec.ofNat 32 (r.rw ||| r.rwl)
  let v := (old &&& ~~~rw) ||| (storedWord a old w &&& rw)
  let v := v &&& ~~~(w &&& BitVec.ofNat 32 r.w1c)
  (s.setReg a (v ||| (w &&& BitVec.ofNat 32 r.w1s))).reheat a (rw ||| BitVec.ofNat 32 r.w1c)

/-- R36: a write of SYS_RSTCTL. -/
def State.rstctlWrite (s : State) (w : Word) : State :=
  if fieldOf w 16 16 ≠ 0xC6A0 then s
  else match fieldOf w 0 4 with
    | 1 => { s with sys := { s.sys with warmReq := true } }
    | 2 => { s with sys := { s.sys with coldReq := true } }
    | 3 => s.swEngineReset (fieldOf w 4 4)
    | _ => s

/-- R24, R8: a write of SYS_FAULTREC: 1 to VALID clears the record, unless it was latched in this clock. -/
def State.faultrecWrite (s : State) (w : Word) : State :=
  if fieldOf w 31 1 = 1 ∧ s.sys.faultClk ≠ some s.clk then
    let s := (s.setReg SYS_FAULTREC.addr 0).setReg SYS_FAULTADDR.addr 0
    { s with sys := { s.sys with faultClk := none } }
  else s

/-- Writes in SYS, PWR and BEAT by engine `e`. -/
def State.wrCore (s : State) (e a : Nat) (r : RegRow) (w : Word) : State :=
  let off := a % 0x10000
  match blockOfAddr a with
  | 0 =>
    if off = 0x24 then s.rstctlWrite w
    else if off = 0x30 then s.faultrecWrite w
    else s.plainStore a r w
  | 1 =>
    if off = 0 then (s.plainStore a r w).clocksAway
    else if off = 0x38 then (if fieldOf w 0 1 = 1 then s.releaseGpio else s)
    else if off = 0x3C then s.domainReset w
    else if 0x100 ≤ off ∧ off < 0x1A0 then s.reqWrite ((off - 0x100) / 4) w
    else s.plainStore a r w
  | _ =>
    if off = 0 then s.periodWrite w
    else if off = 0x10 then s.doneWrite e w
    else if off = 0x24 then s.plreqWrite w
    else if off = 0x14 then (s.plainStore a r w).firstStarts (w &&& ~~~(s.reg a))
    else s.plainStore a r w

/-- R71, R82: a write of RXF_TFREQx that is invalid for the taste waveform is ignored. For SUN-FSK the rate is that of the
chain's transmit settings PHY_TXFSKx (DESIGN CHOICE, log entry 205: the spec names no rate for a taste). -/
def State.tfreqWrite (s : State) (x : Nat) (w : Word) : State :=
  if tuneOk x (s.get (RXF_TASTE.WAVE x)) (s.reg (PHY_TXFSK.addr x)) w.toNat then s.setReg (RXF_TFREQ.addr x) w else s

/-- Writes in the radio blocks RXF, SLC, TXF and GLZ. The contents of the glaze are written while it is neither sealed nor
being programmed (R139). -/
def State.wrRadio (s : State) (a : Nat) (r : RegRow) (w : Word) : State :=
  let off := a % 0x10000
  match blockOfAddr a with
  | 3 =>
    if off < 8 then s.rxfCtrlWrite (off / 4) w
    else if 0x20 ≤ off ∧ off < 0x28 then s.tasteWrite ((off - 0x20) / 4) w
    else if 0x28 ≤ off ∧ off < 0x30 then s.tfreqWrite ((off - 0x28) / 4) w
    else s.plainStore a r w
  | 4 =>
    if 0x100 ≤ off ∧ off % 32 = 0 then s.cfgWrite ((off - 0x100) / 32) w
    else if 0x100 ≤ off ∧ off % 32 = 4 then s.tuneWrite ((off - 0x100) / 32) w
    else s.plainStore a r w
  | 6 =>
    if 8 ≤ off ∧ off < 0x10 then s.loWrite ((off - 8) / 4) w
    else if 0x400 ≤ off ∧ off < 0x490 then s
    else if 0x600 ≤ off ∧ off < 0x640 then (s.plainStore a r w).maskWritten ((off - 0x600) / 16)
    else s.plainStore a r w
  | 7 =>
    if off = 4 then s.sealWrite w
    else if (off = 8 ∨ off = 0xC ∨ (0x100 ≤ off ∧ off < 0x300)) ∧ (s.bit GLZ_STAT.SEALED ∨ s.glz.burning.isSome) then s
    else s.plainStore a r w
  | _ => s.plainStore a r w

/-- Writes in LNK: words 0 and 1 of a neighbour entry are held for step 8 (R180). -/
def State.wrLnk (s : State) (a : Nat) (r : RegRow) (w : Word) : State :=
  let off := a % 0x10000
  if off = 0x114 then s.scanWrite w
  else if 0x4000 ≤ off ∧ off < 0x8000 then
    if off % 64 < 8 then s.nbrWrite ((off - 0x4000) / 64) (off % 64 / 4) w
    else (s.wrote (5, 0, (off - 0x4000) / 4)).plainStore a r w
  else if 0x8000 ≤ off then ((s.keepFresh a).wrote (6, 0, (off - 0x8000) / 4)).plainStore a r w
  else s.plainStore a r w

/-- R252: a write of QSC_QCFGq: the word is stored for step 7, and FLUSH 1 asks for a flush there. -/
def State.qcfgWrite (s : State) (q a : Nat) (r : RegRow) (w : Word) : State :=
  let s := s.plainStore a r w
  if fieldOf w 30 1 = 1 then s.modQ q (fun u => { u with flush := true }) else s

/-- R237: an application write of QSC_QCFGq that would leave POLEN at 1 over a policer that is not the application's. -/
def State.polBreach (s : State) (w : Word) : Bool :=
  decide (fieldOf w 6 1 = 1) && !bitOf (s.get QSC_POLOWN.OWN) (fieldOf w 0 5)

/-- Writes in the fabric and wired-link blocks MSH, QSC, ETH and JJL. -/
def State.wrFabric (s : State) (a : Nat) (r : RegRow) (w : Word) : State :=
  let off := a % 0x10000
  match blockOfAddr a with
  | 9 => if 0x100 ≤ off ∧ off < 0x120 then s.downWrite ((off - 0x100) / 4) w else s.plainStore a r w
  | 10 =>
    if 0x40 ≤ off ∧ off < 0x60 then s.rsvWrite ((off - 0x40) / 4) w
    else if 0x1000 ≤ off ∧ off < 0x2000 ∧ off % 64 = 0 then s.qcfgWrite ((off - 0x1000) / 64) a r w
    else s.plainStore a r w
  | 21 => if off = 0x18 then s.mdioWrite w else s.plainStore a r w
  | _ => if off % 64 = 0 then s.jjCtrlWrite (off / 64) w else s.plainStore a r w

/-- Writes in TSU, RTC and TMR. -/
def State.wrTime (s : State) (a : Nat) (r : RegRow) (w : Word) : State :=
  let off := a % 0x10000
  match blockOfAddr a with
  | 11 =>
    if off = 0x10 then s.captureMask (fieldOf w 0 4)
    else if 0x100 ≤ off ∧ off < 0x200 then
      if off % 64 = 0x2C then s.stepCmd ((off - 0x100) / 64) w
      else if 0x1C0 ≤ off then s
      else if off = 0x110 then (s.plainStore a r w).rateReheat
      else s.plainStore a r w
    else s.plainStore a r w
  | 17 =>
    if off = 0x20 then s.rtcCmd w
    else if off = 0x24 then s.rtcShiftCmd w
    else s.plainStore a r w
  | _ =>
    if 0x100 ≤ off ∧ off < 0x300 then
      let n := (off - 0x100) / 64
      if off % 64 = 4 then s.tmrCtrl n w
      else if off % 64 = 0xC then s.tmrCountWrite n w
      else if off % 64 = 8 then
        let s := if fieldOf w 6 1 = 1 then s.set (TMR_STAT.SLPWRAP n) 0 else s
        s.plainStore a r w
      else s.plainStore a r w
    else s.plainStore a r w

/-- Writes in the security and update blocks AES, PKA, KEY, UPD and JRN by engine `e`. -/
def State.wrSec (s : State) (e a : Nat) (r : RegRow) (w : Word) : State :=
  let off := a % 0x10000
  match blockOfAddr a with
  | 12 =>
    if 0x100 ≤ off ∧ off < 0x900 ∧ off % 32 = 0x10 then s.aesCmd e ((off - 0x100) / 32) w
    else if 0x1000 ≤ off ∧ off < 0x3000 then
      if s.bit (AES_STATn.BUSY ((off - 0x1000) / 128)) then s
      else (s.wrote (10, 0, (off - 0x1000) / 4)).plainStore a r w
    else s.plainStore a r w
  | 13 => if 0x100 ≤ off ∧ off % 64 = 0 then s.pkaOp e ((off - 0x100) / 64) w else s.plainStore a r w
  | 14 =>
    if off = 4 then s.lcCmd w
    else if off = 8 then s.keyCmd e w
    else if off = 0x2C then s.rngRestart w
    else if 0x40 ≤ off ∧ off < 0x70 then s.setReg a w
    else if 0x80 ≤ off ∧ off < 0xE0 then (if s.sec.lc = 0 then s.plainStore a r w else s)
    else s.plainStore a r w
  | 15 =>
    if off = 4 then s.updCmdWrite e w
    else if off = 0x3C then s.commitWrite w
    else s.plainStore a r w
  | _ => if 0x100 ≤ off ∧ off % 32 = 0x14 then s.goWrite ((off - 0x100) / 32) else s.plainStore a r w

/-- Writes in EVR, HIF, PAD and COEX; `m` is the mask of PAD_OUT bits the writer may change. -/
def State.wrPins (s : State) (a : Nat) (r : RegRow) (m w : Word) : State :=
  let off := a % 0x10000
  match blockOfAddr a with
  | 19 => if 0x100 ≤ off ∧ off < 0x300 ∧ off % 8 = 4 then s.chctl ((off - 0x100) / 8) w else s.plainStore a r w
  | 20 =>
    if off = 0x18 then (s.plainStore a r w).when (decide (fieldOf w 31 1 = 1)) State.rxFlush
    else if off = 0x1C then s.txDataWrite w
    else if off = 0x20 then (s.plainStore a r w).when (decide (fieldOf w 31 1 = 1)) State.txFlush
    else s.withPads (fun s => s.plainStore a r w)
  | 23 =>
    if off = 8 then s.padWrite m w
    else if off = 0xC then s.padWrite (m &&& w) 0xFFFFFFFF#32
    else if off = 0x10 then s.padWrite (m &&& w) 0
    else if 0x100 ≤ off ∧ off < 0x180 then s.withPads (fun s => s.plainStore a r (padCfgWord w))
    else s.plainStore a r w
  | _ => if off = 0 then (s.plainStore a r w).coexWires else s.plainStore a r w

/-- Writes in ENG by engine `e`: the per-engine registers at their engine. -/
def State.wrEng (s : State) (a : Nat) (r : RegRow) (w : Word) : State :=
  let off := a % 0x10000
  if off = 8 then s.runWrite w
  else if off = 0xC then (s.plainStore a r w).unwatch
  else match engOwn off with
    | none => s.plainStore a r w
    | some n =>
      if off < 0xC0 then s.kick n
      else match off % 64 with
        | 0x00 => s.mailOpen n w
        | 0x04 => s.mailWrite n w
        | 0x10 => (s.plainStore a r w).when (decide (fieldOf w 31 1 = 1)) (fun s => s.mailFlush n)
        | 0x24 => s.pktDone n w
        | 0x2C => s.cellFreeWrite n w
        | 0x30 => s.linkWrite n w
        | 0x34 => s.submitWrite n w
        | _ => s.plainStore a r w

/-- The effect of a write of `w` to the register at `a` by engine `e`. -/
def State.writeEffect (s : State) (e a : Nat) (r : RegRow) (w : Word) : State :=
  let blk := blockOfAddr a
  if blk < 3 then s.wrCore e a r w
  else if blk < 8 then s.wrRadio a r w
  else if blk = 8 then s.wrLnk a r w
  else if blk = 11 ∨ blk = 17 ∨ blk = 18 then s.wrTime a r w
  else if 12 ≤ blk ∧ blk ≤ 16 then s.wrSec e a r w
  else if blk = 19 ∨ blk = 20 ∨ blk = 23 ∨ blk = 24 then
    s.wrPins a r (match s.rightOf e blk (a % 0x10000) with | .quiet m => m | _ => 0xFFFFFFFF#32) w
  else if blk = 25 then s.wrEng a r w
  else s.wrFabric a r w

/-- R7: the write of one half of a two-register value: the lower word is held; the upper word brings both in. The count of
a timer pair has its own rule (R449). -/
def State.halfWrite (s : State) (e a : Nat) (r : RegRow) (w : Word) : State :=
  if blockOfAddr a = 18 ∧ a % 64 = 0xC then s.writeEffect e a r w
  else if (s.upperOf a).isSome ∧ r.writable ≠ 0 then { s with sys := { s.sys with held := aput s.sys.held a w } }
  else match s.lowerOf a with
    | none => s.writeEffect e a r w
    | some lo => match aget s.sys.held lo with
      | none => s.writeEffect e a r w
      | some v =>
        let s := { s with sys := { s.sys with held := adel s.sys.held lo } }
        (match findRow lo with
          | some rl => s.writeEffect e lo rl v
          | none => s).writeEffect e a r w

/-- The fault a write raises for what its word names, though the writer may write the register: R25, R58, R320. Where
`true` stands with it the write has no effect. -/
def State.wordFault (s : State) (e a : Nat) (w : Word) : Option (AccFault × Bool) :=
  let off := a % 0x10000
  let blk := blockOfAddr a
  let f (d : Nat) : AccFault := { cls := 1, block := blk, detail := d, addr := a }
  if blk = 0 ∧ 0x104 ≤ off ∧ off < 0x168 then
    if (off - 0x100) / 4 ∈ [3, 6, 15, 20] ∧ s.isApp (fieldOf w 0 4) then some (f 1, true) else none
  else if blk = 2 ∧ off = 0x10 then
    if w &&& 0xFFFF#32 &&& ~~~ BitVec.ofNat 32 (2 ^ e) ≠ 0 then some (f 0, false) else none
  else if blk = 25 ∧ 0x100 ≤ off ∧ off < 0x500 ∧ off % 64 = 0 then
    if s.maySend e (fieldOf w 16 4) then none else some (f 0, true)
  else none

/-- A write of `w` to the aligned register at `a` by engine `e`, whose domain is on (R4, R5, R21). -/
def State.regWrite (s : State) (e a : Nat) (w : Word) : State × Option AccFault :=
  let perm : AccFault := { cls := 1, block := blockOfAddr a, addr := a }
  match findRow a with
  | none =>
    match s.rightOf e (blockOfAddr a) (a % 0x10000) with
    | .none => (s, some perm)
    | .refused => (s, some perm)
    | .read => (s, some perm)
    | _ => (s, none)
  | some r =>
    match s.psBits e a r with
    | none => (s, some perm)
    | some ps =>
      let g := s.gate r a ps w
      match g.word with
      | none => (s, g.fault)
      | some w' =>
        if blockOfAddr a = 10 ∧ 0x1000 ≤ a % 0x10000 ∧ a % 0x10000 < 0x2000 ∧ a % 64 = 0 ∧ s.isApp e ∧ s.polBreach w' then
          (s.halfWrite e a r (putField w' 6 1 0), some perm)
        else match s.wordFault e a w' with
          | some (f, true) => (s, some f)
          | some (f, false) => (s.halfWrite e a r w', some (g.fault.getD f))
          | none => (s.halfWrite e a r w', g.fault)

/-- A store of the low `size` bytes of `v` at `a` by engine `e`: the state, and the fault raised. In reset of AO below
VBAK valid (R413) nothing acts. -/
def State.busWrite (s : State) (e size a : Nat) (v : Word) : State × Option AccFault :=
  match s.accessFault e .write size a with
  | some f => (s, some f)
  | none => match regionOf a with
    | .periph _ => s.regWrite e a v
    | _ => (s.viewPuts e a (leBytes size v.toNat), none)

/-! ### Reads -/

/-- R29: the ECC word that a read of a register by engine `e` meets: of the neighbour and schedule tables, the cipher
contexts, its mailbox, the inbound host FIFO and the cell links. -/
def State.tableWord (s : State) (e a : Nat) : Option (Nat × Nat × Nat) :=
  let off := a % 0x10000
  if blockOfAddr a = 8 ∧ 0x4000 ≤ off ∧ off < 0x8000 then some (5, 0, (off - 0x4000) / 4)
  else if blockOfAddr a = 8 ∧ 0x8000 ≤ off then some (6, 0, (off - 0x8000) / 4)
  else if blockOfAddr a = 12 ∧ 0x1000 ≤ off ∧ off < 0x3000 then some (10, 0, (off - 0x1000) / 4)
  else if a = ENG_RXDATA.addr e then s.mailWord e
  else if a = HIF_RXDATA.addr then s.hifWord
  else if a = ENG_LINK.addr e then (s.engOf e).sel.map (fun c => (4, 0, c))
  else none

/-- A read of the register at `a` by engine `e`: the word, the state after, and the fault. -/
def State.regAccess (s : State) (e a : Nat) : Word × State × Option AccFault :=
  let blk := blockOfAddr a
  let perm : AccFault := { cls := 1, block := blk, addr := a }
  match s.rightOf e blk (a % 0x10000) with
  | .none => (0, s, some perm)
  | .refused => (0, s, some perm)
  | _ =>
    let m := s.tableWord e a
    let s := s.corrected (fun w => decide (m = some w))
    match m.filter s.ecc.contains with
    | some m => (0, s.eccReport m, some { cls := 4, block := blk, addr := a })
    | none =>
      let r := s.regRead e a
      (if s.isApp e ∧ blk = 19 then s.appEvrView (a % 0x10000) r.1 else r.1, r.2, none)

/-- A load of `size` bytes at `a` by engine `e`, zero-extended: the word, the state after, and the fault. -/
def State.busRead (s : State) (e size a : Nat) : Word × State × Option AccFault :=
  match s.accessFault e .read size a with
  | some f => (0, s, some f)
  | none => match regionOf a with
    | .periph _ => s.regAccess e a
    | _ =>
      let s := s.viewCorrected e a size
      match s.eccBad e a size with
      | some m => (0, s.eccReport m, some { cls := 4, block := 0xFF, addr := a })
      | none => (BitVec.ofNat 32 (leNat (s.viewBytes e a size)), s, none)

end Sys2Proof.Machine
end

