-- ==== Sys2Proof/Machine/Strudel.lean ====
section
/-! DEFINITION. Strudel syllables (R277, R284 to R300): fields, legality, the A, M and B units' results, the return stack
and the special registers. What an engine does with a bundle is Issue.lean's. -/
namespace Sys2Proof.Machine

/-! ### Fields (R277, R284) -/

/-- Field [27:22]. -/
def sylOp (w : Word) : Nat := fieldOf w 22 6
/-- Field [30:28]. -/
def sylUnit (w : Word) : Nat := fieldOf w 28 3
/-- The stop bit. -/
def sylStop (w : Word) : Bool := decide (fieldOf w 31 1 = 1)
/-- Field d. -/
def sylD (w : Word) : Nat := fieldOf w 17 5
/-- Field a. -/
def sylA (w : Word) : Nat := fieldOf w 12 5
/-- Field b. -/
def sylB (w : Word) : Nat := fieldOf w 7 5
/-- imm12 as a number. -/
def sylImm (w : Word) : Nat := fieldOf w 0 12
/-- imm12 sign-extended. -/
def sylImmS (w : Word) : Word := (BitVec.ofNat 12 (sylImm w)).signExtend 32
/-- imm17 as a number. -/
def sylImm17 (w : Word) : Nat := fieldOf w 0 17

/-! ### Legality (R284, R285, R288, R291, R295, R298, R299) -/

/-- F1 with nothing in [6:0]. -/
def f1 (w : Word) : Bool := decide (fieldOf w 0 7 = 0)

/-- An A-unit syllable is legal. -/
def legalA (w : Word) : Bool :=
  let op := sylOp w
  if op ≤ 0x11 ∨ op = 0x19 then f1 w
  else if op ≤ 0x18 then f1 w && decide (sylB w = 0)
  else if 0x20 ≤ op ∧ op ≤ 0x23 ∨ op = 0x28 ∨ op = 0x29 then true
  else if 0x24 ≤ op ∧ op ≤ 0x27 then decide (fieldOf w 5 7 = 0)
  else if 0x2A ≤ op ∧ op ≤ 0x2C then decide (fieldOf w 10 2 = 0) && decide (fieldOf w 0 5 + fieldOf w 5 5 + 1 ≤ 32)
  else if op = 0x30 then true
  else if op = 0x31 ∨ op = 0x32 then decide (fieldOf w 16 1 = 0)
  else false

/-- An M-unit syllable is legal. -/
def legalM (w : Word) : Bool :=
  let op := sylOp w
  if op ≤ 4 ∨ (8 ≤ op ∧ op ≤ 0xB) then f1 w
  else if 0x10 ≤ op ∧ op ≤ 0x13 ∨ op = 0x15 then f1 w && decide (sylD w = 0)
  else if op = 0x14 then decide (sylA w = 0) && decide (fieldOf w 6 6 = 0)
  else false

/-- An L-unit syllable is legal. -/
def legalL (w : Word) : Bool :=
  let op := sylOp w
  if op ≤ 4 ∨ (8 ≤ op ∧ op ≤ 0xA) then true
  else if op = 5 ∨ op = 0xB ∨ (0x10 ≤ op ∧ op ≤ 0x12) then f1 w
  else false

/-- A B-unit syllable is legal. -/
def legalB (w : Word) : Bool :=
  let op := sylOp w
  if op ≤ 1 ∨ (8 ≤ op ∧ op ≤ 0xF) then true
  else if op = 2 ∨ op = 3 then decide (sylD w = 0) && decide (sylImm w = 0)
  else if op = 4 then decide (fieldOf w 0 22 = 0)
  else false

/-- R299: the numbers of the special registers. -/
def specialNumbers : List Nat := [0, 1, 2, 3, 4, 5, 6, 7, 8, 0x10, 0x11, 0x12, 0x13, 0x18, 0x19]

/-- R299: those MTS may write. -/
def specialWritable : List Nat := [0, 1, 2, 5, 7, 8, 0x18, 0x19]

/-- An X-unit syllable is legal. -/
def legalX (w : Word) : Bool :=
  let imm := sylImm w
  match sylOp w with
  | 0 => decide (sylA w = 0) && specialNumbers.contains imm
  | 1 => decide (sylD w = 0) && specialWritable.contains imm
  | 7 => decide (sylD w = 0) && decide (sylA w = 0)
  | 9 => decide (sylD w ≤ 1) && decide (sylA w = 0)
  | 0xA => decide (sylD w ≤ 1) && decide (imm = 0)
  | 0xC => decide (sylD w = 0) && decide (imm = 0)
  | 0xD => decide (sylA w = 0) && decide (imm = 0)
  | op => decide (2 ≤ op) && decide (op ≤ 8) && decide (fieldOf w 0 22 = 0)

/-- A syllable is legal by itself. -/
def legalSyl (w : Word) : Bool :=
  match sylUnit w with
  | 0 => legalA w
  | 1 => legalA w
  | 2 => legalM w
  | 3 => legalL w
  | 4 => legalB w
  | 5 => legalX w
  | _ => false

/-- R279: the register a syllable writes, none where it is g0 or there is none. -/
def sylDest (w : Word) : Option Nat :=
  let op := sylOp w
  let writes := match sylUnit w with
    | 0 => true
    | 1 => true
    | 2 => decide (op ≤ 0xB) || decide (op = 0x14)
    | 3 => decide (op ≤ 5) || decide (0x10 ≤ op)
    | 5 => decide (op = 0) || decide (op = 0xD)
    | _ => false
  if writes && decide (sylD w ≠ 0) then some (sylD w) else none

/-! ### Results of the A and M units -/

/-- A result and what a checked operation found (R287). -/
structure AluOut where
  v : Word
  ovf : Bool := false
  dz : Bool := false
  deriving DecidableEq, Repr

/-- R287: a signed result: narrowed, and whether it fits. -/
def checked (i : Int) : AluOut := { v := BitVec.ofInt 32 i, ovf := decide (i < -2147483648) || decide (2147483647 < i) }

/-- R286: a logical shift by the whole value of b. -/
def shiftBy (f : Word → Nat → Word) (a : Word) (n : Nat) : Word := if n < 32 then f a n else 0

/-- R286: SRA. -/
def sraBy (a : Word) (n : Nat) : Word := a.sshiftRight (min 31 n)

/-- Leading zero bits. -/
def clz32 (a : Word) : Nat := ((List.range 32).find? (fun i => bitOf a.toNat (31 - i))).getD 32

/-- R285: an A-unit instruction on the old values of a, b and d. -/
def aluA (w a b d : Word) : AluOut :=
  let im := sylImmS w
  let sh := fieldOf w 0 5
  let wid := fieldOf w 5 5 + 1
  let part := fieldOf a sh wid
  match sylOp w with
  | 0x00 => { v := a + b }
  | 0x01 => { v := a - b }
  | 0x02 => { v := a &&& b }
  | 0x03 => { v := a ||| b }
  | 0x04 => { v := a ^^^ b }
  | 0x05 => { v := a &&& ~~~b }
  | 0x06 => { v := shiftBy (· <<< ·) a b.toNat }
  | 0x07 => { v := shiftBy (· >>> ·) a b.toNat }
  | 0x08 => { v := sraBy a b.toNat }
  | 0x09 => { v := a.rotateRight (b.toNat % 32) }
  | 0x0A => { v := if a.toInt < b.toInt then 1 else 0 }
  | 0x0B => { v := if a.toNat < b.toNat then 1 else 0 }
  | 0x0C => { v := if b.toInt < a.toInt then b else a }
  | 0x0D => { v := if a.toInt < b.toInt then b else a }
  | 0x0E => { v := if b.toNat < a.toNat then b else a }
  | 0x0F => { v := if a.toNat < b.toNat then b else a }
  | 0x10 => checked (a.toInt + b.toInt)
  | 0x11 => checked (a.toInt - b.toInt)
  | 0x12 => checked (-a.toInt)
  | 0x13 => { v := BitVec.ofNat 32 (clz32 a) }
  | 0x14 => { v := BitVec.ofNat 32 ((List.range 32).countP (bitOf a.toNat)) }
  | 0x15 => { v := BitVec.ofNat 32 (beNat (leBytes 4 a.toNat)) }
  | 0x16 => { v := (a.setWidth 8).signExtend 32 }
  | 0x17 => { v := (a.setWidth 16).signExtend 32 }
  | 0x18 => { v := (a.setWidth 16).setWidth 32 }
  | 0x19 => { v := if b = 0 then d else a }
  | 0x20 => { v := a + im }
  | 0x21 => { v := a &&& im }
  | 0x22 => { v := a ||| im }
  | 0x23 => { v := a ^^^ im }
  | 0x24 => { v := a <<< sh }
  | 0x25 => { v := a >>> sh }
  | 0x26 => { v := sraBy a sh }
  | 0x27 => { v := a.rotateRight sh }
  | 0x28 => { v := if a.toInt < im.toInt then 1 else 0 }
  | 0x29 => { v := if a.toNat < im.toNat then 1 else 0 }
  | 0x2A => { v := BitVec.ofNat 32 part }
  | 0x2B => { v := BitVec.ofInt 32 (signed wid part) }
  | 0x2C => { v := putField d sh wid (fieldOf a 0 wid) }
  | 0x30 => { v := (BitVec.ofNat 17 (sylImm17 w)).signExtend 32 }
  | 0x31 => { v := BitVec.ofNat 32 (sylImm17 w * 65536) }
  | 0x32 => { v := d ||| BitVec.ofNat 32 (sylImm17 w) }
  | _ => { v := 0 }

/-- R287, R289: division. -/
def aluDiv (op : Nat) (a b : Word) : AluOut :=
  if op = 8 then
    if b = 0 then { v := 0, dz := true } else checked (a.toInt.tdiv b.toInt)
  else if op = 9 then { v := if b = 0 then 0 else BitVec.ofNat 32 (a.toNat / b.toNat) }
  else if op = 0xA then
    if b = 0 then { v := a, dz := true } else { v := BitVec.ofInt 32 (a.toInt.tmod b.toInt) }
  else { v := if b = 0 then a else BitVec.ofNat 32 (a.toNat % b.toNat) }

/-- R288, R289: the M-unit instructions that write d. -/
def aluM (w a b : Word) (acc : BitVec 64) : AluOut :=
  match sylOp w with
  | 0x00 => { v := a * b }
  | 0x01 => { v := BitVec.ofInt 32 (a.toInt * b.toInt / 2 ^ 32) }
  | 0x02 => { v := BitVec.ofNat 32 (a.toNat * b.toNat / 2 ^ 32) }
  | 0x03 => { v := BitVec.ofInt 32 (a.toInt * b.toNat / 2 ^ 32) }
  | 0x04 => checked (a.toInt * b.toInt)
  | 0x14 => { v := (acc.sshiftRight (fieldOf w 0 6)).setWidth 32 }
  | op => aluDiv op a b

/-- R288, R290: the accumulator after an M-unit instruction, and whether MACS limited it. -/
def accM (w a b : Word) (acc : BitVec 64) : BitVec 64 × Bool :=
  match sylOp w with
  | 0x10 => (acc + BitVec.ofInt 64 (a.toInt * b.toInt), false)
  | 0x11 => (acc + BitVec.ofNat 64 (a.toNat * b.toNat), false)
  | 0x12 => (acc - BitVec.ofInt 64 (a.toInt * b.toInt), false)
  | 0x13 =>
    let i := acc.toInt + a.toInt * b.toInt
    let c := clampS 64 i
    (BitVec.ofInt 64 c, decide (c ≠ i))
  | 0x15 => (BitVec.ofNat 64 (b.toNat * 2 ^ 32 + a.toNat), false)
  | _ => (acc, false)

/-! ### The B unit (R295) -/

/-- The condition of BEQ to BBC on d, a and the a field. -/
def branchTaken (w d a : Word) : Bool :=
  match sylOp w with
  | 0x08 => decide (d = a)
  | 0x09 => decide (d ≠ a)
  | 0x0A => decide (d.toInt < a.toInt)
  | 0x0B => decide (a.toInt ≤ d.toInt)
  | 0x0C => decide (d.toNat < a.toNat)
  | 0x0D => decide (a.toNat ≤ d.toNat)
  | 0x0E => bitOf d.toNat (sylA w)
  | 0x0F => !bitOf d.toNat (sylA w)
  | _ => false

/-- The target of BR and CALL, or of a branch. -/
def branchTarget (pc w : Word) : Word :=
  if sylOp w ≤ 1 then pc + (BitVec.ofNat 22 (fieldOf w 0 22)).signExtend 32 * 4#32 else pc + sylImmS w * 4#32

/-! ### Registers of an engine (R280, R296, R299, R300) -/

/-- A general register; g0 reads zero. -/
def CpuState.gpr (c : CpuState) (r : Nat) : Word := if r = 0 then 0 else vget c.g r

/-- A write of a general register; one of g0 is discarded. -/
def CpuState.setGpr (c : CpuState) (r : Nat) (v : Word) : CpuState := if r = 0 then c else { c with g := vset c.g r v }

/-- A one-bit field of STATUS. -/
def CpuState.flag (c : CpuState) (i : Nat) : Bool := decide (fieldOf c.status i 1 = 1)

/-- STATUS as it reads: with the depth of the return stack. -/
def CpuState.statusView (c : CpuState) : Word := putField c.status 11 5 c.rstack.length

/-- R296: an address pushed: none where RSOVF is raised. -/
def CpuState.push (c : CpuState) (v : Word) : Option CpuState :=
  if c.rstack.length < 16 then some { c with rstack := v :: c.rstack }
  else if c.flag 2 then some { c with rstack := (v :: c.rstack).take 16, status := c.status ||| 0x40#32 }
  else none

/-- R296: a pop: none where RSUND is raised. -/
def CpuState.pop (c : CpuState) : Option (Word × CpuState) :=
  match c.rstack with
  | v :: t => some (v, { c with rstack := t })
  | [] => none

/-- R299: ENGID. -/
def State.engId (s : State) (n : Nat) : Word := BitVec.ofNat 32 (n + b2n (!s.isApp n) * 256)

/-- R299: what MFS of a special register of engine `n` reads. -/
def State.special (s : State) (n k : Nat) : Word :=
  let c := (s.engOf n).cpu
  match k with
  | 0 => c.statusView
  | 1 => c.epc
  | 2 => c.estat
  | 3 => c.cause
  | 4 => c.eval
  | 5 => c.vbase
  | 6 => s.ipend n
  | 7 => c.imask
  | 8 => c.rcnt
  | 0x10 => BitVec.ofNat 32 c.cyc
  | 0x11 => c.cychi.getD (BitVec.ofNat 32 (c.cyc / 2 ^ 32))
  | 0x12 => BitVec.ofNat 32 c.bcyc
  | 0x13 => s.engId n
  | 0x18 => c.scr0
  | 0x19 => c.scr1
  | _ => 0

/-- R299, R7: a read of CYCLO latches the half that the next read of CYCHI returns. -/
def CpuState.specialRead (c : CpuState) (k : Nat) : CpuState :=
  if k = 0x10 then { c with cychi := some (BitVec.ofNat 32 (c.cyc / 2 ^ 32)) }
  else if k = 0x11 then { c with cychi := none }
  else c

/-- R299, R300: a write of a special register. -/
def CpuState.setSpecial (c : CpuState) (k : Nat) (v : Word) : CpuState :=
  match k with
  | 0 => { c with status := (c.status &&& ~~~0x77#32) ||| (v &&& 0x77#32) }
  | 1 => { c with epc := v &&& ~~~3#32 }
  | 2 => { c with estat := v &&& 0xFF77#32 }
  | 5 => { c with vbase := v &&& ~~~0x7F#32 }
  | 7 => { c with imask := v }
  | 8 => { c with rcnt := v }
  | 0x18 => { c with scr0 := v }
  | 0x19 => { c with scr1 := v }
  | _ => c

end Sys2Proof.Machine
end

