-- ==== Sys2Proof/Machine/Issue.lean ====
section
/-! DEFINITION. What an engine does (R278 to R283, R290 to R308, R325): fetching a bundle, its checks and its commit,
exceptions, interrupts, REP, WFI and the debugger. -/
namespace Sys2Proof.Machine

/-! ### Exceptions and interrupts (R301 to R305) -/

/-- R301: CAUSE of an exception. -/
def causeWord (code unit len : Nat) : Word := BitVec.ofNat 32 (len * 4096 + unit * 256 + code)

/-- R302: what entry does to STATUS: EXC 1, IE 0, and no REP body repeats in the handler. -/
def entryStatus (st : Word) : Word := (st &&& ~~~0x601#32) ||| 0x100#32

/-- R302, R307: entry of engine state `c`: ESTAT, EPC, CAUSE and EVAL are written and fetch goes to `pc`. An interrupted
or failing REP leaves its runs in RCNT. -/
def CpuState.enter (c : CpuState) (cause eval pc : Word) : CpuState :=
  { c with
    estat := c.statusView, epc := c.pc &&& ~~~3#32, cause := cause, eval := eval, status := entryStatus c.status, pc := pc,
    rcnt := if c.flag 9 then BitVec.ofNat 32 c.left else c.rcnt, left := 0 }

/-- R305, R309: the engine stops. -/
def State.stopEngine (s : State) (n : Nat) : State := (s.setEstate n stStopped).raiseBit ENG_EVT.STOP n

/-- R302, R305: an exception of engine `n` with CAUSE and EVAL: entry at VBASE, or in a handler a double fault. -/
def State.takeExc (s : State) (n : Nat) (cause eval : Word) : State :=
  if (s.engOf n).cpu.flag 8 then (s.modCpu n (fun c => { c with cause := cause, eval := eval })).stopEngine n
  else s.modCpu n (fun c => c.enter cause eval c.vbase)

/-- R301: the exception code of a synchronous fault class (R27). -/
def excOfClass (cls : Nat) : Nat :=
  match cls with
  | 1 => 4
  | 2 => 5
  | 3 => 6
  | 4 => 7
  | _ => 0xF

/-- A synchronous fault of engine `n`: recorded (R28), and delivered as an exception with the unit and length given. -/
def State.faultExc (s : State) (n : Nat) (f : AccFault) (unit len : Nat) : State :=
  (s.recordSync n f).takeExc n (causeWord (excOfClass f.cls) unit len) (BitVec.ofNat 32 f.addr)

/-- R303: the interrupt inputs that are pending and enabled. -/
def State.irqPending (s : State) (n : Nat) : Word := s.ipend n &&& (s.engOf n).cpu.imask

/-- R303: an interrupt may be taken between two bundles. -/
def State.irqTakable (s : State) (n : Nat) : Bool :=
  let c := (s.engOf n).cpu
  c.flag 0 && !c.flag 8 && !(c.flag 9 && c.flag 10) && decide (s.irqPending n ≠ 0)

/-- R303: the highest-numbered input of a word that is not zero. -/
def highestBit (w : Word) : Nat := 31 - clz32 w

/-- INTERRUPT_ENTRY (R303): between two bundles, in RUN with nothing stalled. -/
def State.interruptEntry (s : State) (n : Nat) : State :=
  if s.estate n = stRun ∧ (s.engOf n).stalled = none ∧ s.irqTakable n then
    let w := BitVec.ofNat 32 (2 ^ 31 + highestBit (s.irqPending n) * 65536)
    s.modCpu n (fun c => c.enter w 0 (c.vbase + 0x80#32))
  else s

/-! ### Fetch (R283, R294) -/

/-- The word fetch sees at local address `a`: a byte stored since the last FENCE is seen as it was before. -/
def State.fetchWord (s : State) (n a : Nat) : Word :=
  match regionOf a with
  | .imem off =>
    let sh := (s.engOf n).cpu.shadow
    BitVec.ofNat 32 (leNat (readBytes (fun x => (aget sh x).getD (s.lbyte (n * 0x20000 + x))) off 4))
  | _ => BitVec.ofNat 32 (leNat (s.viewBytes n a 4))

/-- What a fetch gives. `fail`: the exception code, the fetch address, the fault to record, the ECC word to report. -/
inductive Fetched where
  | ok (w : Word)
  | fail (code addr : Nat) (f : Option AccFault) (ecc : Option (Nat × Nat × Nat))
  deriving DecidableEq, Repr

/-- R283: the fetch of one syllable; `first`: the first of its bundle. One that runs past the end of its memory is IFETCH. -/
def State.fetchOne (s : State) (n a : Nat) (first : Bool) : Fetched :=
  let r := regionOf a
  let code := match r with
    | .imem _ => true
    | .rom _ => true
    | _ => false
  let past := match r, regionOf (a + 3) with
    | .imem _, .imem _ => false
    | .rom _, .rom _ => false
    | .imem _, _ => true
    | .rom _, _ => true
    | _, _ => false
  if (!first && !code) || past then .fail 3 a none none
  else match s.memFault n (s.isApp n) .fetch a with
    | some f => if code || decide (f.cls ≠ 3) || decide (r = .hole) then .fail (excOfClass f.cls) a (some f) none else .fail 3 a none none
    | none =>
      if !code then .fail 3 a none none
      else match s.eccBad n a 4 with
        | some m => .fail 7 a (some { cls := 4, block := 0xFF, addr := a }) (some m)
        | none => .ok (s.fetchWord n a)

/-- A bundle as fetched: its syllables, and whether the last one stops it. -/
structure Bundle where
  syls : List Word
  stop : Bool
  deriving DecidableEq, Repr

/-- R278: syllables are fetched up to the stop bit, or up to one whose UNIT is not above the one before. -/
def State.fetchFrom (s : State) (n : Nat) : Nat → Nat → List Word → Fetched ⊕ Bundle
  | 0, _, acc => .inr ⟨acc.reverse, false⟩
  | k + 1, a, acc =>
    match s.fetchOne n a acc.isEmpty with
    | .fail c x f m => .inl (.fail c x f m)
    | .ok w =>
      let up := match acc with
        | p :: _ => decide (sylUnit p < sylUnit w)
        | [] => true
      if sylStop w then .inr ⟨(w :: acc).reverse, true⟩
      else if !up then .inr ⟨(w :: acc).reverse, false⟩
      else s.fetchFrom n k (a + 4) (w :: acc)

/-- The bundle at the address engine `n` fetches next. -/
def State.fetchBundle (s : State) (n : Nat) (pc : Word) : Fetched ⊕ Bundle := s.fetchFrom n 9 pc.toNat []

/-! ### Legality (R279, R306) -/

/-- A list holds no element twice. -/
def noRepeat (l : List Nat) : Bool := decide l.Nodup

/-- The bundle has a syllable of `unit` whose OP satisfies `p`. -/
def Bundle.has (b : Bundle) (unit : Nat) (p : Nat → Bool) : Bool := b.syls.any (fun w => decide (sylUnit w = unit) && p (sylOp w))

/-- R306: a bundle that may not be a REP body. -/
def Bundle.badBody (b : Bundle) : Bool := b.has 4 (fun _ => true) || b.has 5 (fun op => decide (op ≠ 6))

/-- R279: the rules on the bundle as a whole, its syllables being legal and in order. -/
def Bundle.breaks (b : Bundle) (body : Bool) : Bool :=
  !noRepeat (b.syls.filterMap sylDest) ||
    (b.has 5 (fun op => decide (op = 4)) && b.has 4 (fun _ => true)) ||
    (b.has 5 (fun op => decide (op = 9) || decide (op = 0xA)) && decide (1 < b.syls.length)) ||
    (body && b.badBody)

/-- R281 step 2: the first failure: CAUSE without its length, and EVAL. In order of syllables, an UNIT not above the one
before is BUNDLE, an illegal syllable ILLEGAL; the rules on the whole bundle come last. -/
def legalityOf (prev : Option Nat) (first : Word) : List Word → Option (Nat × Nat × Word)
  | [] => none
  | w :: t =>
    if prev.any (fun p => decide (sylUnit w ≤ p)) then some (2, sylUnit first, first)
    else if !legalSyl w then some (1, sylUnit w, w)
    else legalityOf (some (sylUnit w)) first t

/-- LEN, 1 to 6: known once the stop bit is found. -/
def Bundle.len (b : Bundle) : Nat := if b.stop && decide (b.syls.length ≤ 6) then b.syls.length else 0

/-- R281 step 2 on a bundle. -/
def Bundle.illegal (b : Bundle) (body : Bool) : Option (Nat × Nat × Word) :=
  let first := b.syls.headD 0
  match legalityOf none first b.syls with
  | some e => some e
  | none => if b.breaks body then some (2, sylUnit first, first) else none

/-! ### The A, M, B and X syllables (R281 step 3) -/

/-- What the syllables of a bundle give: the engine's program state after the bundle (its pc included), and what follows
the bundle. `rd` is the state they read (R280). -/
structure Work where
  cpu : CpuState
  /-- Sticky flags set by the bundle (R300). -/
  sticky : Word := 0
  /-- MTS STATUS, EI or DI: the value STATUS takes after the bundle. -/
  setStatus : Option Word := none
  eret : Bool := false
  wfi : Bool := false
  fence : Bool := false
  /-- REP: runs and mode. -/
  rep : Option (Nat × Bool) := none
  /-- BREAK in an opened engine. -/
  halt : Bool := false
  deriving DecidableEq, Repr

/-- A failure of a syllable: exception code, unit, EVAL. -/
abbrev Fail := Nat × Nat × Word

/-- R287: a result written to d, or the failure it raises. -/
def Work.result (k : Work) (rd : CpuState) (unit d : Nat) (o : AluOut) : Fail ⊕ Work :=
  if rd.flag 1 && o.ovf then .inl (8, unit, 0)
  else if rd.flag 1 && o.dz then .inl (9, unit, 0)
  else
    let f := (if o.ovf then 0x10#32 else 0) ||| (if o.dz then 0x20#32 else 0)
    .inr { k with cpu := k.cpu.setGpr d o.v, sticky := k.sticky ||| f }

/-- An M-unit syllable. -/
def Work.unitM (k : Work) (rd : CpuState) (w : Word) : Fail ⊕ Work :=
  let a := rd.gpr (sylA w)
  let b := rd.gpr (sylB w)
  let op := sylOp w
  if (0x10 ≤ op ∧ op ≤ 0x13) ∨ op = 0x15 then
    let r := accM w a b rd.acc
    .inr { k with cpu := { k.cpu with acc := r.1 }, sticky := k.sticky ||| (if r.2 then 0x10#32 else 0) }
  else k.result rd 2 (sylD w) (aluM w a b rd.acc)

/-- A push of `v`, or RSOVF. -/
def Work.push (k : Work) (rd : CpuState) (unit : Nat) (v : Word) : Fail ⊕ Work :=
  match CpuState.push { k.cpu with status := rd.status } v with
  | some c => .inr { k with
      cpu := { k.cpu with rstack := c.rstack }, sticky := k.sticky ||| (if k.cpu.rstack.length < 16 then 0 else 0x40#32) }
  | none => .inl (0xA, unit, v)

/-- A jump to `t`, which must be aligned (R295). -/
def Work.jump (k : Work) (t : Word) : Fail ⊕ Work :=
  if t &&& 3#32 ≠ 0 then .inl (5, 4, t) else .inr { k with cpu := { k.cpu with pc := t } }

/-- A B-unit syllable of the bundle at `pc`, which ends before `nxt` (R295 to R297). -/
def Work.unitB (k : Work) (rd : CpuState) (pc nxt w : Word) : Fail ⊕ Work :=
  let a := rd.gpr (sylA w)
  let d := rd.gpr (sylD w)
  match sylOp w with
  | 0 => k.jump (branchTarget pc w)
  | 1 => match k.push rd 4 nxt with
    | .inr k => k.jump (branchTarget pc w)
    | .inl e => .inl e
  | 2 => k.jump a
  | 3 => match k.jump a with
    | .inl e => .inl e
    | .inr k => k.push rd 4 nxt
  | 4 => match k.cpu.pop with
    | some (v, c) => .inr { k with cpu := { c with pc := v } }
    | none => .inl (0xB, 4, 0)
  | _ => if branchTaken w d a then k.jump (branchTarget pc w) else .inr k

/-- An X-unit syllable of engine `n` (R298); `opened`: a debugger holds the engine. -/
def State.unitX (s : State) (n : Nat) (k : Work) (rd : CpuState) (opened : Bool) (w : Word) : Fail ⊕ Work :=
  let a := rd.gpr (sylA w)
  let imm := sylImm w
  match sylOp w with
  | 0 => .inr { k with cpu := (k.cpu.setGpr (sylD w) (s.special n imm)).specialRead imm }
  | 1 =>
    if imm = 0 then .inr { k with setStatus := some ((rd.status &&& ~~~0x77#32) ||| (a &&& 0x77#32)) }
    else .inr { k with cpu := k.cpu.setSpecial imm a }
  | 2 => .inr { k with setStatus := some (rd.status ||| 1#32) }
  | 3 => .inr { k with setStatus := some (rd.status &&& ~~~1#32) }
  | 4 => if rd.flag 8 then .inr { k with eret := true } else .inl (1, 5, w)
  | 5 => .inr { k with wfi := true }
  | 6 => .inr { k with fence := true }
  | 7 => .inl (0xD, 5, BitVec.ofNat 32 imm)
  | 8 => if opened then .inr { k with halt := true } else .inl (0xE, 5, 0)
  | 9 => .inr { k with rep := some (imm + 1, decide (sylD w = 1)) }
  | 0xA => if 4096 < a.toNat then .inl (1, 5, w) else .inr { k with rep := some (a.toNat, decide (sylD w = 1)) }
  | 0xC => k.push rd 5 a
  | _ => match k.cpu.pop with
    | some (v, c) => .inr { k with cpu := c.setGpr (sylD w) v }
    | none => .inl (0xB, 5, 0)

/-- One syllable of the units A0, A1, M, B and X; the L syllable waits. -/
def State.unitStep (s : State) (n : Nat) (rd : CpuState) (opened : Bool) (pc nxt : Word) (k : Work) (w : Word) : Fail ⊕ Work :=
  match sylUnit w with
  | 2 => k.unitM rd w
  | 3 => .inr k
  | 4 => k.unitB rd pc nxt w
  | 5 => s.unitX n k rd opened w
  | u => k.result rd u (sylD w) (aluA w (rd.gpr (sylA w)) (rd.gpr (sylB w)) (rd.gpr (sylD w)))

/-- R281 step 3: in ascending order of UNIT; the first failure ends it. -/
def State.unitsRun (s : State) (n : Nat) (rd : CpuState) (opened : Bool) (pc nxt : Word) (k : Work) :
    List Word → Fail ⊕ Work
  | [] => .inr k
  | w :: t => match s.unitStep n rd opened pc nxt k w with
    | .inl e => .inl e
    | .inr k => s.unitsRun n rd opened pc nxt k t

/-! ### The L syllable (R291 to R294) -/

/-- R291: the address of the access. -/
def memAddr (rd : CpuState) (w : Word) : Nat :=
  let a := rd.gpr (sylA w)
  let op := sylOp w
  if op = 5 ∨ op = 0xB then (a + rd.gpr (sylB w)).toNat
  else if 0x10 ≤ op then a.toNat
  else (a + sylImmS w).toNat

/-- Bytes of the access. -/
def memSize (op : Nat) : Nat := if op ≤ 1 ∨ op = 8 then 1 else if op ≤ 3 ∨ op = 9 then 2 else 4

/-- What an L access gives: the state, and the value loaded; or the failure with the fault it records. -/
inductive MemOut where
  | done (s : State) (v : Option Word)
  | failed (s : State) (f : AccFault)
  | atomic (a : Nat)
  deriving Repr

/-- R293: CAS, AMOADD and SWAP. -/
def State.atomicAccess (s : State) (n : Nat) (rd : CpuState) (w : Word) (a : Nat) : MemOut :=
  let no := match regionOf a with
    | .imem _ => true
    | .periph _ => true
    | _ => false
  if a % 4 ≠ 0 then .failed s (alignFault a)
  else if no then .atomic a
  else match s.accessFault n .write 4 a with
    | some f => .failed s f
    | none =>
      let s := s.viewCorrected n a 4
      match s.eccBad n a 4 with
      | some m => .failed (s.eccReport m) { cls := 4, block := 0xFF, addr := a }
      | none =>
        let old := BitVec.ofNat 32 (leNat (s.viewBytes n a 4))
        let b := rd.gpr (sylB w)
        let put (v : Word) : State := s.viewPuts n a (leBytes 4 v.toNat)
        match sylOp w with
        | 0x10 => .done (if old = rd.gpr (sylD w) then put b else s) (some old)
        | 0x11 => .done (put (old + b)) (some old)
        | _ => .done (put b) (some old)

/-- The access of an L syllable. -/
def State.memAccess (s : State) (n : Nat) (rd : CpuState) (w : Word) : MemOut :=
  let a := memAddr rd w
  let op := sylOp w
  if 0x10 ≤ op then s.atomicAccess n rd w a
  else if 8 ≤ op then
    match s.busWrite n (memSize op) a (rd.gpr (sylD w)) with
    | (s, some f) => .failed s f
    | (s, none) => .done s none
  else
    match s.busRead n (memSize op) a with
    | (_, s, some f) => .failed s f
    | (v, s, none) =>
      let v := if op = 0 then (v.setWidth 8).signExtend 32 else if op = 2 then (v.setWidth 16).signExtend 32 else v
      .done s (some v)

/-! ### A bundle (R281, R304, R306, R307) -/

/-- R304, R307: ERET: STATUS from ESTAT with the live depth, fetch at EPC, and a REP body resumed or skipped. `bodyLen`
is the number of syllables of the bundle at EPC, where it could be fetched. -/
def CpuState.eret (c : CpuState) (bodyLen : Option Nat) : CpuState :=
  let st := c.estat &&& 0x777#32
  let rep := decide (fieldOf c.estat 9 1 = 1)
  if rep && decide (c.rcnt ≠ 0) then { c with status := st, pc := c.epc, left := c.rcnt.toNat }
  else
    let skip := if rep then 4 * bodyLen.getD 0 else 0
    { c with status := if rep then st &&& ~~~0x600#32 else st, pc := c.epc + BitVec.ofNat 32 skip, left := 0 }

/-- R306: the end of a run of a REP body. -/
def CpuState.runEnds (c : CpuState) (pc nxt : Word) : CpuState :=
  if c.left ≤ 1 then { c with left := 0, pc := nxt, status := c.status &&& ~~~0x600#32 }
  else { c with left := c.left - 1, pc := pc }

/-- R306: REP: the next bundle runs `k` times, or is skipped. -/
def CpuState.startRep (c : CpuState) (k : Nat) (atomic : Bool) (body : Word) (bodyLen : Option Nat) : CpuState :=
  if k = 0 then { c with pc := body + BitVec.ofNat 32 (4 * bodyLen.getD 0) }
  else { c with pc := body, left := k, status := (c.status &&& ~~~0x400#32) ||| 0x200#32 ||| (if atomic then 0x400#32 else 0) }

/-- Syllables of the bundle at `a`, where it can be fetched with its stop bit. -/
def State.bundleLen (s : State) (n : Nat) (a : Word) : Option Nat :=
  match s.fetchBundle n a with
  | .inr b => if b.stop then some b.syls.length else none
  | .inl _ => none

/-- The program state a bundle leaves, before the access of its L syllable. -/
def State.commitCpu (s : State) (n : Nat) (k : Work) (pc nxt : Word) : CpuState :=
  let c := k.cpu
  let st := (k.setStatus.getD c.status) ||| k.sticky
  let c := { c with status := st }
  if k.eret then c.eret (s.bundleLen n c.epc)
  else if c.flag 9 then c.runEnds pc nxt
  else match k.rep with
    | some (m, atomic) => c.startRep m atomic nxt (s.bundleLen n nxt)
    | none => c

/-- A failure of a bundle of `len` syllables: recorded where it is a fault of R27, and its exception taken. -/
def State.failBundle (s : State) (n len : Nat) (e : Fail) : State :=
  let s := if e.1 = 5 then s.recordSync n (alignFault e.2.2.toNat) else s
  s.takeExc n (causeWord e.1 e.2.1 len) e.2.2

/-- The engine is held by the debugger (R309, R325). -/
def State.haltEngine (s : State) (n resume : Nat) : State :=
  ((s.modEng n (fun e => { e with resume := resume })).setEstate n stHalted).putBit ENG_DBGSTAT.HALT n true

/-- R281, R308: the commit of a bundle whose units passed, and its access. A failing access undoes it. A wait begins after the
bundle. -/
def State.commitBundle (s : State) (n : Nat) (old : CpuState) (b : Bundle) (k : Work) (nxt : Word) : State :=
  let c := s.commitCpu n k old.pc nxt
  let s1 := s.modCpu n (fun _ => c)
  let undo (t : State) : State := t.modCpu n (fun _ => old)
  let wait (t : State) : State := if k.wfi && decide (t.estate n = stRun) then t.setEstate n stWait else t
  let done (t : State) : State := wait (if k.fence then t.modCpu n (fun c => { c with shadow := [] }) else t)
  match b.syls.find? (fun w => decide (sylUnit w = 3)) with
  | none => done s1
  | some w =>
    match s1.memAccess n old w with
    | .done t v => done (match v with
      | some v => t.modCpu n (fun c => c.setGpr (sylD w) v)
      | none => t)
    | .failed t f => (undo t).faultExc n f 3 b.len
    | .atomic a => (undo s1).takeExc n (causeWord 0xC 3 b.len) (BitVec.ofNat 32 a)

/-- R306: a REP whose body may not be one raises BUNDLE. -/
def State.repBodyBad (s : State) (n : Nat) (b : Bundle) (nxt : Word) : Bool :=
  b.has 5 (fun op => decide (op = 9) || decide (op = 0xA)) &&
    (match s.fetchBundle n nxt with
      | .inr t => t.badBody
      | .inl _ => false)

/-- A legal bundle: the units, then the commit. -/
def State.runBundle (s : State) (n : Nat) (b : Bundle) : State :=
  let old := (s.engOf n).cpu
  let nxt := old.pc + BitVec.ofNat 32 (4 * b.syls.length)
  match s.unitsRun n old (s.dbgOpen n) old.pc nxt { cpu := { old with pc := nxt } } b.syls with
  | .inl e => s.failBundle n b.len e
  | .inr k =>
    if k.halt then (s.modCpu n (fun c => { c with pc := nxt })).haltEngine n stRun
    else s.commitBundle n old b k nxt

/-- R30: the words of the bundle at the address engine `n` fetches next are corrected. -/
def State.fetchCorrected (s : State) (n : Nat) (pc : Word) : State :=
  s.viewCorrected n pc.toNat (match s.fetchBundle n pc with
    | .inr b => 4 * b.syls.length
    | .inl (.fail _ a _ _) => a - pc.toNat
    | .inl (.ok _) => 0)

/-- One bundle of engine `n`: fetch, legality, units, access. -/
def State.issue (s : State) (n : Nat) : State :=
  let c := (s.engOf n).cpu
  let s := s.fetchCorrected n c.pc
  match s.fetchBundle n c.pc with
  | .inl (.fail code a f m) =>
    let s := match m with
      | some m => s.eccReport m
      | none => s
    let s := match f with
      | some f => s.recordSync n f
      | none => s
    s.takeExc n (causeWord code 0 0) (BitVec.ofNat 32 a)
  | .inl (.ok _) => s
  | .inr b =>
    match b.illegal (c.flag 9) with
    | some e => s.takeExc n (causeWord e.1 e.2.1 b.len) e.2.2
    | none =>
      if s.repBodyBad n b (c.pc + BitVec.ofNat 32 (4 * b.syls.length)) then
        s.takeExc n (causeWord 2 (sylUnit (b.syls.headD 0)) b.len) (b.syls.headD 0)
      else s.runBundle n b

/-- BUNDLE_ISSUE: an engine in RUN that is not stalled and has no interrupt to take first issues one bundle. -/
def execBundleIssue (n : Fin 16) (s : State) : Host.Outcome State Fault Refusal :=
  .next (if s.estate n = stRun ∧ (s.engOf n).stalled = none ∧ !s.irqTakable n then s.issue n else s)

/-- INTERRUPT_ENTRY. -/
def execInterruptEntry (n : Fin 16) (s : State) : Host.Outcome State Fault Refusal := .next (s.interruptEntry n)

/-- WFI_WAKE (R308): the engine leaves WAIT. -/
def execWfiWake (n : Fin 16) (s : State) : Host.Outcome State Fault Refusal :=
  .next (if s.estate n = stWait ∧ s.irqPending n ≠ 0 then s.setEstate n stRun else s)

/-! ### The debugger (R325) -/

/-- DEBUG_HALT: an opened engine that runs or waits is held. -/
def execDebugHalt (n : Fin 16) (s : State) : Host.Outcome State Fault Refusal :=
  .next (if s.dbgOpen n ∧ (s.estate n = stRun ∨ s.estate n = stWait) then s.haltEngine n (s.estate n) else s)

/-- One bundle of a held engine, which is then held again unless the bundle stopped it. -/
def State.debugStep (s : State) (n : Nat) : State :=
  let s := (s.set (ENG_ESTAT.STATE n) stRun).issue n
  if s.estate n = stRun then s.haltEngine n stRun
  else if s.estate n = stWait then s.haltEngine n stWait
  else if s.estate n = stHalted then s
  else s.putBit ENG_DBGSTAT.HALT n false

/-- DEBUG_STEP. -/
def execDebugStep (n : Fin 16) (s : State) : Host.Outcome State Fault Refusal :=
  .next (if s.dbgOpen n ∧ s.estate n = stHalted ∧ (s.engOf n).stalled = none then s.debugStep n else s)

/-- What the debugger reads. -/
def State.debugRead (s : State) (n : Nat) (what : DbgReg) : Word :=
  match what with
  | .gpr r => (s.engOf n).cpu.gpr r
  | .special r => s.special n r.toNat
  | .mem a => BitVec.ofNat 32 (leNat (s.viewBytes n (a.toNat / 4 * 4) 4))

/-- What the debugger writes; a read-only special register keeps its value. -/
def State.debugWrite (s : State) (n : Nat) (what : DbgReg) (v : Word) : State :=
  match what with
  | .gpr r => s.modCpu n (fun c => c.setGpr r v)
  | .special r => s.modCpu n (fun c => c.setSpecial r.toNat v)
  | .mem a => s.viewPuts n (a.toNat / 4 * 4) (leBytes 4 v.toNat)

/-- DEBUG_ACCESS: of an opened engine whose domain is on. -/
def execDebugAccess (n : Fin 16) (what : DbgReg) (write : Bool) (value : Word) (s : State) : Host.Outcome State Fault Refusal :=
  .next (if !s.dbgOpen n ∨ !s.dOn n then s
    else if write then s.debugWrite n what value
    else { s with rdata := s.debugRead n what })

/-- DEBUG_RELEASE: the engine goes on in the state it held before. -/
def execDebugRelease (n : Fin 16) (s : State) : Host.Outcome State Fault Refusal :=
  .next (if s.estate n = stHalted then (s.setEstate n (s.engOf n).resume).putBit ENG_DBGSTAT.HALT n false else s)

/-! ### The commands that are one access by an engine -/

/-- A fault of an access by engine `e`: recorded, and delivered as an exception where the engine runs. -/
def State.deliverFault (s : State) (e : Nat) (f : Option AccFault) : State :=
  match f with
  | none => s
  | some f => if s.estate e = stRun then s.faultExc e f 3 0 else s.recordSync e f

/-- A write by engine `e`, with its fault delivered. Nothing acts while the always-on domain is down (R413). -/
def State.writeBy (s : State) (e size a : Nat) (v : Word) : State :=
  if s.pwr.aoDown then s
  else
    let r := s.busWrite e size a v
    r.1.deliverFault e r.2

/-- A read by engine `e`, with its fault delivered: the word it returns is the reader's. -/
def State.readBy (s : State) (e size a : Nat) : State :=
  if s.pwr.aoDown then s
  else
    let r := s.busRead e size a
    { r.2.1.deliverFault e r.2.2 with rdata := r.1 }

end Sys2Proof.Machine
end

