-- ==== Sys2Proof/Machine/Boot.lean ====
section
/-! DEFINITION. The boot ROM (R364, R365, R374, R376, R377) and the end of the commands of UPD (R370 to R375, R379). -/
namespace Sys2Proof.Machine

/-! ### A recipe applied (R361 to R364) -/

/-- R361: the bits of the engines that satisfy `p`. -/
def Manifest.mask (m : Manifest) (p : EngEntry → Bool) : Nat :=
  (List.range 16).foldl (fun t n => if (m.engs[n]?.map p).getD false then t + 2 ^ n else t) 0

/-- R361: the manifest's values become register values; RUN waits for the commit. -/
def State.putManifest (s : State) (m : Manifest) : State :=
  let s : State := { s with upd := { s.upd with runBits := m.mask (·.run) } }
  let s := (s.set BEAT_TASKEN.EN (m.mask (·.task))).each (List.range 16) (fun s n =>
    s.set (BEAT_BUDGET.CYCLES n) ((m.engs[n]?.map (·.budget)).getD 0))
  let s := ((s.set ENG_WDEN.EN (m.mask (·.wd))).set ENG_PART.EN (m.mask (·.app))).set ENG_SPARE.EN (m.spare / 128)
  let s := (s.set ENG_SPARE.ENGINE m.spare).periodWrite (BitVec.ofNat 32 m.period)
  let s := s.plreqWrite (BitVec.ofNat 32 (2 ^ 31 + 2 ^ 30 + m.engpl * 4 + m.chnpl))
  s.each (List.range 16) (fun s n => s.set (UPD_ENTRY.ENTRY n) ((m.engs[n]?.map (·.entry)).getD 0 / 4))

/-- R362: the records of a register list from its bytes. -/
def regRecords (f : Nat → Byte) (i : ImgEntry) : List (Nat × Nat) :=
  (List.range (i.len / 8)).map (fun k => (recipeField f (i.ofs + 8 * k) 4, recipeField f (i.ofs + 8 * k + 4) 4))

/-- R362: one record written with the rights of the stack partition, and whether it went without a fault. -/
def State.putRecord (s : State) (r : Nat × Nat) : Bool × State :=
  if r.1 < 0x20000000 ∨ 0x201A0000 ≤ r.1 then (false, s)
  else
    let t := s.busWrite 0 4 r.1 (BitVec.ofNat 32 r.2)
    (t.2.isNone, t.1)

/-- R362: the records of the list in order, up to the first that fails. -/
def State.putRecords (s : State) : List (Nat × Nat) → Bool × State
  | [] => (true, s)
  | r :: t =>
    let x := s.putRecord r
    if x.1 then x.2.putRecords t else (false, x.2)

/-- The register lists of a recipe, in the order of its images. -/
def recipeRecords (f : Nat → Byte) (m : Manifest) : List (Nat × Nat) :=
  (m.imgs.filter (fun i => decide (i.kind = 4))).flatMap (regRecords f)

/-- R364 check 5: an image written to its local memory. -/
def State.putImage (s : State) (f : Nat → Byte) (i : ImgEntry) : State :=
  if i.mem then
    let a := i.dest + (if i.kind = 1 then 0 else 0x10000)
    s.setLbytes (i.target * 0x20000 + a) (readBytes f i.ofs i.len)
  else s

/-- R363: a setting placed at DEST: the stored value of copy `c` where it is sound, else the recipe's default, which is
appended where the stored one is older, missing or damaged. Bytes past the data memory are dropped. -/
def State.putSetting (s : State) (f : Nat → Byte) (c : Nat) (i : ImgEntry) : State :=
  let e := i.dest / 2 ^ 28
  let o := i.dest % 0x10000
  let put (s : State) (b : List Byte) : State := s.setLbytes (e * 0x20000 + 0x10000 + o) (b.take (0x10000 - o))
  let dflt := readBytes f i.ofs i.len
  let add (s : State) : State := (s.appendSet c (makeSet i.target i.gver dflt)).getD s
  match newestSet (s.settings c).1 i.target with
  | none => add (put s dflt)
  | some r =>
    if r.sound i then put s r.data
    else if decide (r.crc = crc32 r.data) && decide (i.gver < r.gver) then put s dflt
    else add (put s dflt)

/-- R364 check 6: the microcode and the settings. -/
def State.putSettings (s : State) (f : Nat → Byte) (m : Manifest) (c : Nat) : State :=
  let uc := (m.imgs.find? (fun i => decide (i.kind = 3))).map (fun i => readBytes f i.ofs i.len)
  let s : State := { s with upd := { s.upd with ucode := uc.getD [] } }
  s.each (m.imgs.filter (fun i => decide (i.kind = 5))) (fun s i => s.putSetting f c i)

/-- R364 checks 5 to 9 on a recipe that passed checks 1 to 4, from bank `b` with settings copy `c`: the check that failed,
or 0 with the commit made. -/
def State.applyRecipe (s : State) (f : Nat → Byte) (m : Manifest) (b c : Nat) : Nat × State :=
  if m.imgs.all (imageOk f) then
    let s := (s.each m.imgs (fun s i => s.putImage f i)).putSettings f m c
    let t := (s.putManifest m).putRecords (recipeRecords f m)
    if !t.1 then (7, t.2)
    else
      let k := t.2.bootCheck
      if !k.1 then (8, k.2)
      else
        let s := ((k.2.set UPD_STAT.ACTIVE b).set UPD_STAT.RUNVER m.secver).set UPD_SECVER.RUNVER7 (m.secver / 128)
        let s := State.commitWrite { s with upd := { s.upd with scur := c } } 0xC6A00001#32
        if s.upd.locked then (0, s) else (9, s)
  else (5, s)

/-- R364: bank `b` tried. A refusal after images were written clears the engine memories and what it wrote; the results of
the checks (BEAT_BOOTCHK, EVR_CHECK) and what the flash took stay. -/
def State.tryBank (s : State) (b c : Nat) (flash : Bool) : Nat × State :=
  if !flash then (10, s)
  else
    let f (o : Nat) : Byte := s.fbyte (bankBase b + o)
    match s.checkRecipe f with
    | .inl e => (e.1, if 2 ≤ e.1 then s.markUnrooted else s)
    | .inr m =>
      let s := s.markUnrooted
      let r := s.applyRecipe f m b c
      if r.1 = 0 then r
      else
        let t : State := { s.unwrite (fun e => decide (e.1 < 2)) with flash := r.2.flash, lmem := [] }
        let t := if 8 ≤ r.1 then t.setReg BEAT_BOOTCHK.addr (r.2.reg BEAT_BOOTCHK.addr) else t
        (r.1, if r.1 = 9 then t.setReg EVR_CHECK.addr (r.2.reg EVR_CHECK.addr) else t)

/-! ### The boot (R365, R374, R376, R377) -/

/-- What a boot came to: the bank booted, if any, the check that refused the first bank and the outcome of both tries. -/
structure BootEnd where
  s : State
  bank : Option Nat
  first : Nat
  second : Nat
  check : Nat

/-- Two banks tried in order, each with its settings copy. -/
def State.tryTwo (s : State) (a b : Nat × Nat) (flash : Bool) (between : State → State) : BootEnd :=
  let x := s.tryBank a.1 a.2 flash
  if x.1 = 0 then ⟨x.2, some a.1, 1, 0, 0⟩
  else
    let y := (between x.2).tryBank b.1 b.2 flash
    if y.1 = 0 then ⟨y.2, some b.1, 2, 1, x.1⟩ else ⟨y.2, none, 2, 2, x.1⟩

/-- R376, R377: the record and the registers of an abandonment; its journal entry follows the boot. -/
def State.abandonTrial (s : State) (r : BootRec) : State :=
  let s := (s.writeRec { r with trial := 0 }).set UPD_STAT.STATE 0
  ((s.set UPD_STAT.WINDOW 0).set UPD_STAT.ABANDONED 1).raise UPD_EVT.ABANDONED

/-- R374: before the trial bank is first read: TRIAL 2, and the other settings copy filled for the new manifest's groups. -/
def State.beginTrial (s : State) (r : BootRec) : State :=
  let s := s.writeRec { r with trial := 2 }
  let f (o : Nat) : Byte := s.fbyte (bankBase (1 - r.active) + o)
  let imgs : List ImgEntry := match recipeHead f with
    | some h => (manifestAt f h.manofs).imgs
    | none => []
  let groups := (imgs.filter (fun i => decide (i.kind = 5))).map (·.target)
  s.fillCopy (1 - r.scur) (fun g => groups.contains g)

/-- R365: ACTIVE, then the other bank. -/
def State.bootActive (s : State) (r : BootRec) (flash : Bool) : BootEnd :=
  let e := s.tryTwo (r.active, r.scur) (1 - r.active, r.scur) flash id
  if e.second = 1 then { e with s := e.s.set UPD_STAT.FALLBACK 1 } else e

/-- The bank named in a 0xF013 entry. -/
def BootEnd.abandoned (e : BootEnd) (r : BootRec) : BootEnd := { e with s := e.s.journalHw 0xF013 (e.bank.getD r.active) }

/-- R365, R374, R376, R377: the banks tried, by the boot record and the state kept in the always-on domain. -/
def State.bootBanks (s : State) (flash : Bool) : BootEnd :=
  let r := s.bootRec
  let st := s.get UPD_STAT.STATE
  let late := decide (0 ≤ wrapDiff 40 s.abn s.upd.deadline)
  if st = 5 ∧ r.trial = 2 ∧ late then (((s.abandonTrial r).bootActive { r with trial := 0 } flash)).abandoned r
  else if st = 5 ∧ r.trial ≠ 0 then
    let s := if r.trial = 1 then s.beginTrial r else s
    let e := s.tryTwo (1 - r.active, 1 - r.scur) (r.active, r.scur) flash (fun s => s.abandonTrial r)
    if e.first = 2 then e.abandoned r else e
  else if st = 4 then s.bootActive r flash
  else if r.trial = 1 then
    let s := (s.writeRec { r with trial := 0 }).raise UPD_EVT.CANCELLED
    (s.journalHw 0xF014 0).bootActive { r with trial := 0 } flash
  else if r.trial ≠ 0 then ((s.abandonTrial r).bootActive { r with trial := 0 } flash).abandoned r
  else (s.set UPD_STAT.STATE 0).bootActive r flash

/-- R365: every bank tried was refused: E0 stays in the boot ROM. -/
def State.enterRescue (s : State) : State :=
  { s with upd := { s.upd with sub := 0, runBits := 1, rescueBank := none } }.set UPD_STAT.STATE 6

/-- BOOT_ROM_START (R364): E0 runs the boot ROM. `time`: TIME, in 10 µs units; `flash`: the flash answers. -/
def State.bootRom (s : State) (flash : Bool) (time : BitVec 16) : State :=
  let s := if s.estate 0 = stReset then s.startEngine 0 else s
  let s := if s.upd.cold then
      let s := s.recoverLog.journalHw 0xF001 ((s.reg SYS_RSTCAUSE.addr).toNat % 65536)
      { s with upd := { s.upd with cold := false } }
    else s
  let e := s.bootBanks flash
  let s := ((e.s.set UPD_BOOT.FIRST e.first).set UPD_BOOT.SECOND e.second).set UPD_BOOT.CHECK e.check
  match e.bank with
  | some _ => s.set UPD_BOOT.TIME time.toNat
  | none => s.enterRescue

/-- E0 stands in the boot ROM with nothing tried since the last warm reset, and what it needs is there. -/
def State.bootReady (s : State) : Bool :=
  !s.upd.locked && !s.rescue && decide (s.estate 0 ≤ stRun) && s.bit (⟨ENG_RUN.addr, 0, 1⟩) && s.dOn 0 && s.dOn 24 && s.dOn 28 &&
    !s.pad.flPulse && !s.pwr.aoDown && !s.pwr.warmHeld

/-- BOOT_ROM_START. -/
def execBootRomStart (flash : Bool) (time : BitVec 16) (s : State) : Host.Outcome State Fault Refusal :=
  .next (if s.bootReady then s.bootRom flash time else s)

/-! ### The end of a command of UPD -/

/-- R372 step 4: the checks of R46 and R47 on the manifest and its register list, from the values of a reset. -/
def State.verifyBudget (s : State) (f : Nat → Byte) (m : Manifest) : Bool :=
  let t : State := { s.resetRegs (fun r => r.dom ≠ 62) true with upd := { s.upd with locked := false } }
  let t := (t.putManifest m).each (recipeRecords f m) (fun t r => (t.putRecord r).2)
  decide (m.startms ≤ 190) && t.bootCheck.1

/-- VERIFY (R372). `flash`: what was copied reads back. -/
def State.verifyDone (s : State) (c : UpdCmd) (flash : Bool) : State :=
  let f (o : Nat) : Byte := s.fbyte (stagingBase + o)
  let back (s : State) (code : Nat) : State := (s.setUpdState 1).updEnd c code
  if (List.range s.stagedCount).any s.missing then back s 10
  else if s.stagedBad then back s 13
  else match s.checkRecipe f with
    | .inl (k, kind) => back (if 2 ≤ k then s.markUnrooted else s) (5 + kind)
    | .inr m =>
      let s := s.markUnrooted
      if !m.imgs.all (imageOk f) then back s 8
      else if !s.verifyBudget f m then back s 9
      else
        let b := bankBase (1 - s.bootRec.active)
        let s := (s.eraseFlash b 0x800000).setFbytes b (readBytes f 0 (recipeField f 8 4))
        let g (o : Nat) : Byte := s.fbyte (b + o)
        if !flash || !m.imgs.all (imageOk g) then back (s.raise UPD_EVT.FLASHERR) 13
        else ((s.set UPD_SECVER.STAGED m.secver).setUpdState 3).updEnd c 1

/-- UPD_COMMAND_DONE (R370): the command that runs ends. Under a power-fail warning only a boot record write goes on
(R378). -/
def State.updDone (s : State) (flash : Bool) : State :=
  match s.upd.cmd with
  | none => s
  | some c =>
    if s.bit PWR_STAT.PFW && !(decide (4 ≤ c.op) && decide (c.op ≤ 6)) then s
    else match c.op with
      | 1 => s.beginDone c
      | 2 => s.morselDone c flash
      | 3 => s.verifyDone c flash
      | 4 => s.activateDone c
      | 5 => s.cancelDone c
      | 6 => s.confirmDone c
      | _ => s.savesetDone c

/-- UPD_COMMAND_DONE. -/
def execUpdCommandDone (flash : Bool) (s : State) : Host.Outcome State Fault Refusal := .next (s.updDone flash)

end Sys2Proof.Machine
end

