-- ==== Sys2Proof/Machine/Writes.lean ====
section
/-! DEFINITION. The rows of the table that are one write or read of a register by an engine: system, beat, radio, fabric and time bases. -/
namespace Sys2Proof.Machine

/-- The bytes of an access. -/
def accBytes (z : AccSize) : Nat :=
  match z with
  | .byte => 1
  | .half => 2
  | .word => 4

/-- REGISTER_WRITE (R4): a write of a register that has no row of its own, or of memory. -/
def execRegisterWrite (e : Fin 16) (size : AccSize) (addr value : Word) (s : State) : Host.Outcome State Fault Refusal :=
  .next (s.writeBy e (accBytes size) addr.toNat value)

/-- LOW_WORD_READ (R7). -/
def execLowWordRead (e : Fin 16) (addr : Word) (s : State) : Host.Outcome State Fault Refusal :=
  .next (s.readBy e 4 addr.toNat)

/-- LOW_WORD_WRITE (R7). -/
def execLowWordWrite (e : Fin 16) (addr value : Word) (s : State) : Host.Outcome State Fault Refusal :=
  .next (s.writeBy e 4 addr.toNat value)

/-- UPPER_WORD_WRITE (R7). -/
def execUpperWordWrite (e : Fin 16) (addr value : Word) (s : State) : Host.Outcome State Fault Refusal :=
  .next (s.writeBy e 4 addr.toNat value)

/-- FAULTREC_CLEAR (R24). -/
def execFaultrecClear (e : Fin 16) (s : State) : Host.Outcome State Fault Refusal :=
  .next (s.writeBy e 4 SYS_FAULTREC.addr 0x80000000#32)

/-- IRQMAP_WRITE (R24, R25). -/
def execIrqmapWrite (e : Fin 16) (n : Fin 26) (value : Word) (s : State) : Host.Outcome State Fault Refusal :=
  .next (s.writeBy e 4 (SYS_IRQMAP.addr n) value)

/-- SW_WARM_RESET_REQUEST (R36). -/
def execSwWarmResetRequest (e : Fin 16) (s : State) : Host.Outcome State Fault Refusal :=
  .next (s.writeBy e 4 SYS_RSTCTL.addr 0xC6A00001#32)

/-- SW_COLD_RESET_REQUEST (R36). -/
def execSwColdResetRequest (e : Fin 16) (s : State) : Host.Outcome State Fault Refusal :=
  .next (s.writeBy e 4 SYS_RSTCTL.addr 0xC6A00002#32)

/-- SW_ENGINE_RESET (R36). -/
def execSwEngineReset (e n : Fin 16) (s : State) : Host.Outcome State Fault Refusal :=
  .next (s.writeBy e 4 SYS_RSTCTL.addr (BitVec.ofNat 32 (0xC6A00003 + 16 * n.val)))

/-- PERF_LEVEL_REQUEST (R44). -/
def execPerfLevelRequest (e : Fin 16) (value : Word) (s : State) : Host.Outcome State Fault Refusal :=
  .next (s.writeBy e 4 BEAT_PLREQ.addr value)

/-- BEAT_PERIOD_WRITE (R39). -/
def execBeatPeriodWrite (e : Fin 16) (value : Word) (s : State) : Host.Outcome State Fault Refusal :=
  .next (s.writeBy e 4 BEAT_CTRL.addr value)

/-- BEAT_DONE (R48). -/
def execBeatDone (e : Fin 16) (value : Word) (s : State) : Host.Outcome State Fault Refusal :=
  .next (s.writeBy e 4 BEAT_DONE.addr value)

/-- QUEUE_FLUSH (R252): a write of QSC_QCFGq with FLUSH 1. -/
def execQueueFlush (e : Fin 16) (q : Fin 64) (value : Word) (s : State) : Host.Outcome State Fault Refusal :=
  .next (s.writeBy e 4 (QSC_QCFG.addr q) (putField value 30 1 1))

/-- MANUAL_GAIN_WRITE (R65). -/
def execManualGainWrite (e : Fin 16) (x : Fin 2) (value : Word) (s : State) : Host.Outcome State Fault Refusal :=
  .next (s.writeBy e 4 (RXF_CTRL.addr x) value)

/-- SLICE_RETUNE (R72). -/
def execSliceRetune (e : Fin 16) (n : Fin 16) (cfg : Bool) (value : Word) (s : State) : Host.Outcome State Fault Refusal :=
  .next (s.writeBy e 4 (if cfg then SLC_CFG.addr n else SLC_TUNE.addr n) value)

/-- SLICE_ASSIGN_WRITE (R73). -/
def execSliceAssignWrite (e : Fin 16) (n : Fin 16) (value : Word) (s : State) : Host.Outcome State Fault Refusal :=
  .next (s.writeBy e 4 (SLC_CFG.addr n) value)

/-- TASTE_START (R77): a write of RXF_TASTEx with START 1. -/
def execTasteStart (e : Fin 16) (x : Fin 2) (value : Word) (s : State) : Host.Outcome State Fault Refusal :=
  .next (s.writeBy e 4 (RXF_TASTE.addr x) (putField value 0 1 1))

/-- LO_WRITE (R123). -/
def execLoWrite (e : Fin 16) (x : Fin 2) (value : Word) (s : State) : Host.Outcome State Fault Refusal :=
  .next (s.writeBy e 4 (TXF_LO.addr x) value)

/-- GLAZE_SEAL (R139). -/
def execGlazeSeal (e : Fin 16) (value : Word) (s : State) : Host.Outcome State Fault Refusal :=
  .next (s.writeBy e 4 GLZ_SEAL.addr value)

/-- NBR_TABLE_WRITE (R180): `word`: of word 1, else of word 0. -/
def execNbrTableWrite (e : Fin 16) (n : Fin 256) (word : Bool) (value : Word) (s : State) : Host.Outcome State Fault Refusal :=
  .next (s.writeBy e 4 (if word then LNK_NBR1.addr n else LNK_NBR0.addr n) value)

/-- SCAN_RUN_WRITE (R201). -/
def execScanRunWrite (e : Fin 16) (value : Word) (s : State) : Host.Outcome State Fault Refusal :=
  .next (s.writeBy e 4 LNK_SCAN.addr value)

/-- MSH_DOWN_CLEAR (R212). -/
def execMshDownClear (e : Fin 16) (n : Fin 8) (value : Word) (s : State) : Host.Outcome State Fault Refusal :=
  .next (s.writeBy e 4 (MSH_DOWN.addr n) value)

/-- RESERVATION_WRITE (R240). -/
def execReservationWrite (e : Fin 16) (o : Fin 8) (value : Word) (s : State) : Host.Outcome State Fault Refusal :=
  .next (s.writeBy e 4 (QSC_RSV.addr o) value)

/-- MDIO_START (R226): a write of ETH_MDIO with GO 1. -/
def execMdioStart (e : Fin 16) (value : Word) (s : State) : Host.Outcome State Fault Refusal :=
  .next (s.writeBy e 4 ETH_MDIO.addr (putField value 31 1 1))

/-- TB_SNAPSHOT (R259). -/
def execTbSnapshot (e : Fin 16) (value : Word) (s : State) : Host.Outcome State Fault Refusal :=
  .next (s.writeBy e 4 TSU_SNAP.addr value)

/-- TB_FRAC_READ (R259). -/
def execTbFracRead (e : Fin 16) (n : Fin 4) (s : State) : Host.Outcome State Fault Refusal :=
  .next (s.readBy e 4 (TSU_TBFRAC.addr n))

/-- TB_STEP (R261): a write of TSU_STEPnCMD with STEP 1. -/
def execTbStep (e : Fin 16) (n : Fin 4) (value : Word) (s : State) : Host.Outcome State Fault Refusal :=
  .next (s.writeBy e 4 (TSU_STEPCMD.addr n) (putField value 0 1 1))

/-- TB_ARM (R261): a write of TSU_STEPnCMD with ARM 1. -/
def execTbArm (e : Fin 16) (n : Fin 4) (value : Word) (s : State) : Host.Outcome State Fault Refusal :=
  .next (s.writeBy e 4 (TSU_STEPCMD.addr n) (putField value 2 1 1))

/-- TB_CAPTURE (R259): a write of TSU_STEPnCMD with CAP 1. -/
def execTbCapture (e : Fin 16) (n : Fin 4) (value : Word) (s : State) : Host.Outcome State Fault Refusal :=
  .next (s.writeBy e 4 (TSU_STEPCMD.addr n) (putField value 3 1 1))

end Sys2Proof.Machine
end

