-- ==== Sys2Proof/Machine/Controls.lean ====
section
/-! DEFINITION. The rows that are one write or read of a register by an engine: engines, power, RTC, timers and events. -/
namespace Sys2Proof.Machine

/-- ENGINE_RUN_WRITE (R310). -/
def execEngineRunWrite (e : Fin 16) (value : Word) (s : State) : Host.Outcome State Fault Refusal :=
  .next (s.writeBy e 4 ENG_RUN.addr value)

/-- WATCHDOG_KICK (R314). -/
def execWatchdogKick (e n : Fin 16) (value : Word) (s : State) : Host.Outcome State Fault Refusal :=
  .next (s.writeBy e 4 (ENG_KICK.addr n) value)

/-- MAILBOX_OPEN (R317, R320). -/
def execMailboxOpen (e n : Fin 16) (value : Word) (s : State) : Host.Outcome State Fault Refusal :=
  .next (s.writeBy e 4 (ENG_TXDEST.addr n) value)

/-- MAILBOX_WRITE (R317). -/
def execMailboxWrite (e n : Fin 16) (value : Word) (s : State) : Host.Outcome State Fault Refusal :=
  .next (s.writeBy e 4 (ENG_TXDATA.addr n) value)

/-- MAILBOX_READ (R318). -/
def execMailboxRead (e n : Fin 16) (s : State) : Host.Outcome State Fault Refusal :=
  .next (s.readBy e 4 (ENG_RXDATA.addr n))

/-- MAILBOX_FLUSH (R319): a write of ENG_RXSTATn with FLUSH 1. -/
def execMailboxFlush (e n : Fin 16) (value : Word) (s : State) : Host.Outcome State Fault Refusal :=
  .next (s.writeBy e 4 (ENG_RXSTAT.addr n) (putField value 31 1 1))

/-- PACKET_GET (R321). -/
def execPacketGet (e n : Fin 16) (s : State) : Host.Outcome State Fault Refusal :=
  .next (s.readBy e 4 (ENG_PKTGET.addr n))

/-- PACKET_DONE (R322). -/
def execPacketDone (e n : Fin 16) (value : Word) (s : State) : Host.Outcome State Fault Refusal :=
  .next (s.writeBy e 4 (ENG_PKTDONE.addr n) value)

/-- CELL_ALLOC (R323). -/
def execCellAlloc (e n : Fin 16) (s : State) : Host.Outcome State Fault Refusal :=
  .next (s.readBy e 4 (ENG_ALLOC.addr n))

/-- CELL_LINK (R323): a write of ENG_LINKn with SET 1. -/
def execCellLink (e n : Fin 16) (value : Word) (s : State) : Host.Outcome State Fault Refusal :=
  .next (s.writeBy e 4 (ENG_LINK.addr n) (putField value 31 1 1))

/-- CELL_SELECT (R323): a write of ENG_LINKn with SET 0. -/
def execCellSelect (e n : Fin 16) (value : Word) (s : State) : Host.Outcome State Fault Refusal :=
  .next (s.writeBy e 4 (ENG_LINK.addr n) (putField value 31 1 0))

/-- CELL_FREE (R323). -/
def execCellFree (e n : Fin 16) (value : Word) (s : State) : Host.Outcome State Fault Refusal :=
  .next (s.writeBy e 4 (ENG_FREE.addr n) value)

/-- PACKET_SUBMIT (R323). -/
def execPacketSubmit (e n : Fin 16) (value : Word) (s : State) : Host.Outcome State Fault Refusal :=
  .next (s.writeBy e 4 (ENG_SUBMIT.addr n) value)

/-- DOMAIN_REQUEST (R417). -/
def execDomainRequest (e : Fin 16) (d : Fin 40) (value : Word) (s : State) : Host.Outcome State Fault Refusal :=
  .next (s.writeBy e 4 (PWR_REQ.addr d) value)

/-- DOMAIN_RESET (R419). -/
def execDomainReset (e : Fin 16) (value : Word) (s : State) : Host.Outcome State Fault Refusal :=
  .next (s.writeBy e 4 PWR_DRST.addr value)

/-- PAD_RELEASE (R427). -/
def execPadRelease (e : Fin 16) (s : State) : Host.Outcome State Fault Refusal :=
  .next (s.writeBy e 4 PWR_PADREL.addr 1#32)

/-- RTC_SET (R435). -/
def execRtcSet (e : Fin 16) (value : Word) (s : State) : Host.Outcome State Fault Refusal :=
  .next (s.writeBy e 4 RTC_CMD.addr value)

/-- RTC_SHIFT (R436). -/
def execRtcShift (e : Fin 16) (value : Word) (s : State) : Host.Outcome State Fault Refusal :=
  .next (s.writeBy e 4 RTC_SHIFT.addr value)

/-- RTC_SUBSEC_READ (R435). -/
def execRtcSubsecRead (e : Fin 16) (s : State) : Host.Outcome State Fault Refusal :=
  .next (s.readBy e 4 RTC_SUBSEC.addr)

/-! ### A tick and the writes of its clock (R447) -/

/-- The registers of unit `n` whose writes a tick in the same clock is judged against; of a pair, the odd unit's too. -/
def tmrMeets (n a : Nat) : Bool :=
  [n, n + 1].any (fun k => decide (a = TMR_PERIOD.addr k) || decide (a = TMR_CMP.addr k)) || decide (a = TMR_CTRL.addr n)

/-- A waiting command as a write of one of them: engine, size, address and word. -/
def tmrWriteOf (n : Nat) : Instr → Option (Nat × Nat × Nat × Word)
  | .registerWrite e size a v => if tmrMeets n a.toNat then some (e.val, accBytes size, a.toNat, v) else none
  | .timerClear e k v => if k.val = n then some (e.val, 4, TMR_CTRL.addr n, putField v 1 1 1) else none
  | _ => none

/-- The writes of the clock that still wait: no clock ends while commands wait (log entry 34). -/
def State.tmrWrites (s : State) (n : Nat) : List (Nat × Nat × Nat × Word) := s.pending.filterMap (tmrWriteOf n)

/-- PERIOD and CMP as the writes of the clock leave them. -/
def State.tmrLimits (s : State) (n : Nat) : Nat × Nat :=
  let t := s.each (s.tmrWrites n) (fun t w => t.writeBy w.1 w.2.1 w.2.2.1 w.2.2.2)
  (t.tmrPeriod n, t.tmrCmp n)

/-- One of the writes of the clock clears the unit: the count becomes 0 with no event. -/
def State.tmrCleared (s : State) (n : Nat) : Bool :=
  (s.tmrWrites n).any (fun w => decide (w.2.2.1 = TMR_CTRL.addr n) && decide (fieldOf w.2.2.2 1 1 = 1) &&
    decide (((s.setCount n 1).writeBy w.1 w.2.1 w.2.2.1 w.2.2.2).tmrCount n = 0))

/-- TIMER_TICK (R443, R447). -/
def State.timerTick (s : State) (n : Nat) : State :=
  if !s.tmrSource n || s.tmrCleared n then s
  else s.tmrSourcePeriod n (s.tmrLimits n).1 (s.tmrLimits n).2

/-- TIMER_TICK. -/
def execTimerTick (n : Fin 8) (s : State) : Host.Outcome State Fault Refusal := .next (s.timerTick n.val)

/-- TIMER_START (R444): a write of TMR_CTRLn with RUN 1. -/
def execTimerStart (e : Fin 16) (n : Fin 8) (value : Word) (s : State) : Host.Outcome State Fault Refusal :=
  .next (s.writeBy e 4 (TMR_CTRL.addr n) (putField value 31 1 1))

/-- TIMER_STOP (R444): a write of TMR_CTRLn with RUN 0. -/
def execTimerStop (e : Fin 16) (n : Fin 8) (value : Word) (s : State) : Host.Outcome State Fault Refusal :=
  .next (s.writeBy e 4 (TMR_CTRL.addr n) (putField value 31 1 0))

/-- TIMER_CLEAR (R444): a write of TMR_CTRLn with CLR 1. -/
def execTimerClear (e : Fin 16) (n : Fin 8) (value : Word) (s : State) : Host.Outcome State Fault Refusal :=
  .next (s.writeBy e 4 (TMR_CTRL.addr n) (putField value 1 1 1))

/-- TIMER_SNAP (R444): a write of TMR_CTRLn with SNAP 1. -/
def execTimerSnap (e : Fin 16) (n : Fin 8) (value : Word) (s : State) : Host.Outcome State Fault Refusal :=
  .next (s.writeBy e 4 (TMR_CTRL.addr n) (putField value 2 1 1))

/-- TIMER_COUNT_WRITE (R444). -/
def execTimerCountWrite (e : Fin 16) (n : Fin 8) (value : Word) (s : State) : Host.Outcome State Fault Refusal :=
  .next (s.writeBy e 4 (TMR_CNT.addr n) value)

/-- TIMER_CAPTURE_READ (R448). -/
def execTimerCaptureRead (e : Fin 16) (n : Fin 8) (rising : Bool) (s : State) : Host.Outcome State Fault Refusal :=
  .next (s.readBy e 4 (if rising then TMR_CAPR.addr n else TMR_CAPF.addr n))

/-- EVENT_FIRE (R454): a write of EVR_CHCTLk with FIRE 1. -/
def execEventFire (e : Fin 16) (k : Fin 64) (value : Word) (s : State) : Host.Outcome State Fault Refusal :=
  .next (s.writeBy e 4 (EVR_CHCTL.addr k) (putField value 0 1 1))

end Sys2Proof.Machine
end

