-- ==== Sys2Proof/Machine/Jobs.lean ====
section
/-! DEFINITION. The rows that are one write or read of a register by an engine: security, update, host and journal; and the commands of the host that UPD carries out. -/
namespace Sys2Proof.Machine

/-- AES_INIT (R331): a write of AES_CMDn with OP 1. -/
def execAesInit (e : Fin 16) (n : Fin 64) (value : Word) (s : State) : Host.Outcome State Fault Refusal :=
  .next (s.writeBy e 4 (AES_CMD.addr n) (putField value 4 4 1))

/-- AES_CONT (R331): a write of AES_CMDn with OP 2. -/
def execAesCont (e : Fin 16) (n : Fin 64) (value : Word) (s : State) : Host.Outcome State Fault Refusal :=
  .next (s.writeBy e 4 (AES_CMD.addr n) (putField value 4 4 2))

/-- AES_SAVEW (R331): a write of AES_CMDn with OP 3. -/
def execAesSavew (e : Fin 16) (n : Fin 64) (value : Word) (s : State) : Host.Outcome State Fault Refusal :=
  .next (s.writeBy e 4 (AES_CMD.addr n) (putField value 4 4 3))

/-- AES_RESTW (R331): a write of AES_CMDn with OP 4. -/
def execAesRestw (e : Fin 16) (n : Fin 64) (value : Word) (s : State) : Host.Outcome State Fault Refusal :=
  .next (s.writeBy e 4 (AES_CMD.addr n) (putField value 4 4 4))

/-- AES_CLEAR (R331): a write of AES_CMDn with OP 5. -/
def execAesClear (e : Fin 16) (n : Fin 64) (value : Word) (s : State) : Host.Outcome State Fault Refusal :=
  .next (s.writeBy e 4 (AES_CMD.addr n) (putField value 4 4 5))

/-- KEY_GEN (R336): a write of KEY_CMD with OP 1. -/
def execKeyGen (e : Fin 16) (value : Word) (s : State) : Host.Outcome State Fault Refusal :=
  .next (s.writeBy e 4 KEY_CMD.addr (putField value 24 4 1))

/-- KEY_IMPORT (R336): a write of KEY_CMD with OP 2. -/
def execKeyImport (e : Fin 16) (value : Word) (s : State) : Host.Outcome State Fault Refusal :=
  .next (s.writeBy e 4 KEY_CMD.addr (putField value 24 4 2))

/-- KEY_UNWRAP (R336): a write of KEY_CMD with OP 3. -/
def execKeyUnwrap (e : Fin 16) (value : Word) (s : State) : Host.Outcome State Fault Refusal :=
  .next (s.writeBy e 4 KEY_CMD.addr (putField value 24 4 3))

/-- KEY_WRAP (R336): a write of KEY_CMD with OP 4. -/
def execKeyWrap (e : Fin 16) (value : Word) (s : State) : Host.Outcome State Fault Refusal :=
  .next (s.writeBy e 4 KEY_CMD.addr (putField value 24 4 4))

/-- KEY_DERIVE (R336): a write of KEY_CMD with OP 5. -/
def execKeyDerive (e : Fin 16) (value : Word) (s : State) : Host.Outcome State Fault Refusal :=
  .next (s.writeBy e 4 KEY_CMD.addr (putField value 24 4 5))

/-- KEY_ECDH (R336): a write of KEY_CMD with OP 6. -/
def execKeyEcdh (e : Fin 16) (value : Word) (s : State) : Host.Outcome State Fault Refusal :=
  .next (s.writeBy e 4 KEY_CMD.addr (putField value 24 4 6))

/-- KEY_ERASE (R336): a write of KEY_CMD with OP 7. -/
def execKeyErase (e : Fin 16) (value : Word) (s : State) : Host.Outcome State Fault Refusal :=
  .next (s.writeBy e 4 KEY_CMD.addr (putField value 24 4 7))

/-- KEY_SETLIMIT (R336): a write of KEY_CMD with OP 8. -/
def execKeySetlimit (e : Fin 16) (value : Word) (s : State) : Host.Outcome State Fault Refusal :=
  .next (s.writeBy e 4 KEY_CMD.addr (putField value 24 4 8))

/-- RNG_READ (R341). -/
def execRngRead (e : Fin 16) (s : State) : Host.Outcome State Fault Refusal :=
  .next (s.readBy e 4 KEY_RNG.addr)

/-- RNG_RESTART (R341): a write of KEY_RNGCTL with RESTART 1. -/
def execRngRestart (e : Fin 16) (value : Word) (s : State) : Host.Outcome State Fault Refusal :=
  .next (s.writeBy e 4 KEY_RNGCTL.addr (putField value 0 1 1))

/-- HASH256 (R342): a write of PKA_OPc with OP 1. -/
def execPkaHash256 (e : Fin 16) (c : Fin 2) (value : Word) (s : State) : Host.Outcome State Fault Refusal :=
  .next (s.writeBy e 4 (PKA_OP.addr c) (putField value 0 4 1))

/-- HASH384 (R342): a write of PKA_OPc with OP 2. -/
def execPkaHash384 (e : Fin 16) (c : Fin 2) (value : Word) (s : State) : Host.Outcome State Fault Refusal :=
  .next (s.writeBy e 4 (PKA_OP.addr c) (putField value 0 4 2))

/-- ECVERIFY (R342): a write of PKA_OPc with OP 3. -/
def execPkaEcverify (e : Fin 16) (c : Fin 2) (value : Word) (s : State) : Host.Outcome State Fault Refusal :=
  .next (s.writeBy e 4 (PKA_OP.addr c) (putField value 0 4 3))

/-- HSSVERIFY (R342): a write of PKA_OPc with OP 4. -/
def execPkaHssverify (e : Fin 16) (c : Fin 2) (value : Word) (s : State) : Host.Outcome State Fault Refusal :=
  .next (s.writeBy e 4 (PKA_OP.addr c) (putField value 0 4 4))

/-- VERIFY2 (R342): a write of PKA_OPc with OP 5. -/
def execPkaVerify2 (e : Fin 16) (c : Fin 2) (value : Word) (s : State) : Host.Outcome State Fault Refusal :=
  .next (s.writeBy e 4 (PKA_OP.addr c) (putField value 0 4 5))

/-- ECSIGN (R342): a write of PKA_OPc with OP 6. -/
def execPkaEcsign (e : Fin 16) (c : Fin 2) (value : Word) (s : State) : Host.Outcome State Fault Refusal :=
  .next (s.writeBy e 4 (PKA_OP.addr c) (putField value 0 4 6))

/-- ATTEST (R342): a write of PKA_OPc with OP 8. -/
def execPkaAttest (e : Fin 16) (c : Fin 2) (value : Word) (s : State) : Host.Outcome State Fault Refusal :=
  .next (s.writeBy e 4 (PKA_OP.addr c) (putField value 0 4 8))

/-- IDPUB (R342): a write of PKA_OPc with OP 9. -/
def execPkaIdpub (e : Fin 16) (c : Fin 2) (value : Word) (s : State) : Host.Outcome State Fault Refusal :=
  .next (s.writeBy e 4 (PKA_OP.addr c) (putField value 0 4 9))

/-- LC_TO_PROVISIONED (R348): a write of KEY_LCCMD with TARGET 1. -/
def execLcToProvisioned (e : Fin 16) (value : Word) (s : State) : Host.Outcome State Fault Refusal :=
  .next (s.writeBy e 4 KEY_LCCMD.addr (putField value 0 2 1))

/-- LC_TO_SEALED (R348): a write of KEY_LCCMD with TARGET 2. -/
def execLcToSealed (e : Fin 16) (value : Word) (s : State) : Host.Outcome State Fault Refusal :=
  .next (s.writeBy e 4 KEY_LCCMD.addr (putField value 0 2 2))

/-- LC_TO_RETIRED (R348): a write of KEY_LCCMD with TARGET 3. -/
def execLcToRetired (e : Fin 16) (value : Word) (s : State) : Host.Outcome State Fault Refusal :=
  .next (s.writeBy e 4 KEY_LCCMD.addr (putField value 0 2 3))

/-- RECIPE_COMMIT (R366): a write of UPD_COMMIT with GO 1. -/
def execRecipeCommit (e : Fin 16) (value : Word) (s : State) : Host.Outcome State Fault Refusal :=
  .next (s.writeBy e 4 UPD_COMMIT.addr (putField value 0 1 1))

/-- BEGIN (R370): a write of UPD_CMD with OP 1. -/
def execUpdBegin (e : Fin 16) (value : Word) (s : State) : Host.Outcome State Fault Refusal :=
  .next (s.writeBy e 4 UPD_CMD.addr (putField value 0 4 1))

/-- MORSEL (R370): a write of UPD_CMD with OP 2. -/
def execUpdMorsel (e : Fin 16) (value : Word) (s : State) : Host.Outcome State Fault Refusal :=
  .next (s.writeBy e 4 UPD_CMD.addr (putField value 0 4 2))

/-- VERIFY (R370): a write of UPD_CMD with OP 3. -/
def execUpdVerify (e : Fin 16) (value : Word) (s : State) : Host.Outcome State Fault Refusal :=
  .next (s.writeBy e 4 UPD_CMD.addr (putField value 0 4 3))

/-- ACTIVATE (R370): a write of UPD_CMD with OP 4. -/
def execUpdActivate (e : Fin 16) (value : Word) (s : State) : Host.Outcome State Fault Refusal :=
  .next (s.writeBy e 4 UPD_CMD.addr (putField value 0 4 4))

/-- CANCEL (R370): a write of UPD_CMD with OP 5. -/
def execUpdCancel (e : Fin 16) (value : Word) (s : State) : Host.Outcome State Fault Refusal :=
  .next (s.writeBy e 4 UPD_CMD.addr (putField value 0 4 5))

/-- CONFIRM (R370): a write of UPD_CMD with OP 6. -/
def execUpdConfirm (e : Fin 16) (value : Word) (s : State) : Host.Outcome State Fault Refusal :=
  .next (s.writeBy e 4 UPD_CMD.addr (putField value 0 4 6))

/-- SAVESET (R370): a write of UPD_CMD with OP 7. -/
def execUpdSaveset (e : Fin 16) (value : Word) (s : State) : Host.Outcome State Fault Refusal :=
  .next (s.writeBy e 4 UPD_CMD.addr (putField value 0 4 7))

/-- HOST_BEGIN (R392): the UPD command of OP 1 at the head of the inbound FIFO is taken. -/
def execHostBegin (s : State) : Host.Outcome State Fault Refusal := .next (s.serveUpd 1)

/-- HOST_MORSEL (R392): the UPD command of OP 2 at the head of the inbound FIFO is taken. -/
def execHostMorsel (s : State) : Host.Outcome State Fault Refusal := .next (s.serveUpd 2)

/-- HOST_VERIFY (R392): the UPD command of OP 3 at the head of the inbound FIFO is taken. -/
def execHostVerify (s : State) : Host.Outcome State Fault Refusal := .next (s.serveUpd 3)

/-- HOST_ACTIVATE (R392): the UPD command of OP 4 at the head of the inbound FIFO is taken. -/
def execHostActivate (s : State) : Host.Outcome State Fault Refusal := .next (s.serveUpd 4)

/-- HOST_CANCEL (R392): the UPD command of OP 5 at the head of the inbound FIFO is taken. -/
def execHostCancel (s : State) : Host.Outcome State Fault Refusal := .next (s.serveUpd 5)

/-- HOST_CONFIRM (R392): the UPD command of OP 6 at the head of the inbound FIFO is taken. -/
def execHostConfirm (s : State) : Host.Outcome State Fault Refusal := .next (s.serveUpd 6)

/-- HOST_SAVESET (R392): the UPD command of OP 7 at the head of the inbound FIFO is taken. -/
def execHostSaveset (s : State) : Host.Outcome State Fault Refusal := .next (s.serveUpd 7)

/-- HIF_INBOUND_READ (R390). -/
def execHifInboundRead (e : Fin 16) (s : State) : Host.Outcome State Fault Refusal :=
  .next (s.readBy e 4 HIF_RXDATA.addr)

/-- HIF_OUTBOUND_WRITE (R390). -/
def execHifOutboundWrite (e : Fin 16) (value : Word) (s : State) : Host.Outcome State Fault Refusal :=
  .next (s.writeBy e 4 HIF_TXDATA.addr value)

/-- HIF_INBOUND_FLUSH (R390): a write of HIF_RXSTAT with FLUSH 1. -/
def execHifInboundFlush (e : Fin 16) (value : Word) (s : State) : Host.Outcome State Fault Refusal :=
  .next (s.writeBy e 4 HIF_RXSTAT.addr (putField value 31 1 1))

/-- HIF_OUTBOUND_FLUSH (R390): a write of HIF_TXSTAT with FLUSH 1. -/
def execHifOutboundFlush (e : Fin 16) (value : Word) (s : State) : Host.Outcome State Fault Refusal :=
  .next (s.writeBy e 4 HIF_TXSTAT.addr (putField value 31 1 1))

/-- JOURNAL_APPEND (R394). -/
def execJournalAppend (e n : Fin 16) (value : Word) (s : State) : Host.Outcome State Fault Refusal :=
  .next (s.writeBy e 4 (JRN_GO.addr n) value)

end Sys2Proof.Machine
end

