-- ==== Sys2Proof/Machine/Dispatch.lean ====
section
/-! DEFINITION. The meaning of a command: one arm per constructor of `Instr`, each a direct call of its meaning. -/
namespace Sys2Proof.Machine

/-- The effect of one command on everything but the queue of waiting commands. -/
def exec (i : Instr) (s : State) : Host.Outcome State Fault Refusal :=
  match i with
  | .registerWrite e size addr value => Sys2Proof.Machine.execRegisterWrite e size addr value s
  | .lowWordRead e addr => Sys2Proof.Machine.execLowWordRead e addr s
  | .lowWordWrite e addr value => Sys2Proof.Machine.execLowWordWrite e addr value s
  | .upperWordWrite e addr value => Sys2Proof.Machine.execUpperWordWrite e addr value s
  | .faultrecClear e => Sys2Proof.Machine.execFaultrecClear e s
  | .irqmapWrite e n value => Sys2Proof.Machine.execIrqmapWrite e n value s
  | .swWarmResetRequest e => Sys2Proof.Machine.execSwWarmResetRequest e s
  | .swColdResetRequest e => Sys2Proof.Machine.execSwColdResetRequest e s
  | .swEngineReset e n => Sys2Proof.Machine.execSwEngineReset e n s
  | .scrubRead mem inst upset => Sys2Proof.Machine.execScrubRead mem inst upset s
  | .refEdgeTimeout => Sys2Proof.Machine.execRefEdgeTimeout s
  | .refmonWindowEnd ppm gap => Sys2Proof.Machine.execRefmonWindowEnd ppm gap s
  | .pllUnlock p => Sys2Proof.Machine.execPllUnlock p s
  | .serpllUnlock => Sys2Proof.Machine.execSerpllUnlock s
  | .serpllRelock => Sys2Proof.Machine.execSerpllRelock s
  | .beatBoundary tj => Sys2Proof.Machine.execBeatBoundary tj s
  | .pllRelock p => Sys2Proof.Machine.execPllRelock p s
  | .railVoltageSettled chan => Sys2Proof.Machine.execRailVoltageSettled chan s
  | .perfLevelRequest e value => Sys2Proof.Machine.execPerfLevelRequest e value s
  | .beatPeriodWrite e value => Sys2Proof.Machine.execBeatPeriodWrite e value s
  | .beatDone e value => Sys2Proof.Machine.execBeatDone e value s
  | .queueFlush e q value => Sys2Proof.Machine.execQueueFlush e q value s
  | .takeoverCopyDone => Sys2Proof.Machine.execTakeoverCopyDone s
  | .chainAgcWindow x below => Sys2Proof.Machine.execChainAgcWindow x below s
  | .manualGainWrite e x value => Sys2Proof.Machine.execManualGainWrite e x value s
  | .sliceValidAgain n => Sys2Proof.Machine.execSliceValidAgain n s
  | .sliceRetune e n cfg value => Sys2Proof.Machine.execSliceRetune e n cfg value s
  | .sliceSettled n => Sys2Proof.Machine.execSliceSettled n s
  | .sliceAssignWrite e n value => Sys2Proof.Machine.execSliceAssignWrite e n value s
  | .rssiWindow n power gain => Sys2Proof.Machine.execRssiWindow n power gain s
  | .tasteStart e x value => Sys2Proof.Machine.execTasteStart e x value s
  | .tasteDecision x power corr => Sys2Proof.Machine.execTasteDecision x power corr s
  | .tasteIntervalTick x => Sys2Proof.Machine.execTasteIntervalTick x s
  | .awakeRelease x => Sys2Proof.Machine.execAwakeRelease x s
  | .continuationCheck n power => Sys2Proof.Machine.execContinuationCheck n power s
  | .frameSync n marker seen => Sys2Proof.Machine.execFrameSync n marker seen s
  | .headerReceived n h head rssi => Sys2Proof.Machine.execHeaderReceived n h head rssi s
  | .codewordReady n symbols => Sys2Proof.Machine.execCodewordReady n symbols s
  | .codewordDecoded d => Sys2Proof.Machine.execCodewordDecoded d s
  | .frameVerdict n body => Sys2Proof.Machine.execFrameVerdict n body s
  | .frameAcceptance n => Sys2Proof.Machine.execFrameAcceptance n s
  | .ackLaunch n => Sys2Proof.Machine.execAckLaunch n s
  | .txCellStart cell => Sys2Proof.Machine.execTxCellStart cell s
  | .ccaStart cell => Sys2Proof.Machine.execCcaStart cell s
  | .ccaEnd cell power => Sys2Proof.Machine.execCcaEnd cell power s
  | .txGate c grant => Sys2Proof.Machine.execTxGate c grant s
  | .txLateExpiry c => Sys2Proof.Machine.execTxLateExpiry c s
  | .rampUpStart c => Sys2Proof.Machine.execRampUpStart c s
  | .frameLaunch c => Sys2Proof.Machine.execFrameLaunch c s
  | .lastSample c => Sys2Proof.Machine.execLastSample c s
  | .rampDownEnd c => Sys2Proof.Machine.execRampDownEnd c s
  | .ackWaitTimeout cell => Sys2Proof.Machine.execAckWaitTimeout cell s
  | .rxWindowOpen cell => Sys2Proof.Machine.execRxWindowOpen cell s
  | .rxWindowClose cell => Sys2Proof.Machine.execRxWindowClose cell s
  | .maskCheckEnd c bins => Sys2Proof.Machine.execMaskCheckEnd c bins s
  | .glazeCut c level => Sys2Proof.Machine.execGlazeCut c level s
  | .loWrite e x value => Sys2Proof.Machine.execLoWrite e x value s
  | .retuneHeldStart x => Sys2Proof.Machine.execRetuneHeldStart x s
  | .synthCalibrationEnd x => Sys2Proof.Machine.execSynthCalibrationEnd x s
  | .synthLock x => Sys2Proof.Machine.execSynthLock x s
  | .synthUnlock x => Sys2Proof.Machine.execSynthUnlock x s
  | .coexRequestAssert c => Sys2Proof.Machine.execCoexRequestAssert c s
  | .coexGrantDrop => Sys2Proof.Machine.execCoexGrantDrop s
  | .glazeSeal e value => Sys2Proof.Machine.execGlazeSeal e value s
  | .glazeProgramDone => Sys2Proof.Machine.execGlazeProgramDone s
  | .dutyBucketRoll => Sys2Proof.Machine.execDutyBucketRoll s
  | .nbrTableWrite e n word value => Sys2Proof.Machine.execNbrTableWrite e n word value s
  | .scanRunWrite e value => Sys2Proof.Machine.execScanRunWrite e value s
  | .mshDecision => Sys2Proof.Machine.execMshDecision s
  | .mshDownClear e n value => Sys2Proof.Machine.execMshDownClear e n value s
  | .nobufReoffer port => Sys2Proof.Machine.execNobufReoffer port s
  | .outletSelect o => Sys2Proof.Machine.execOutletSelect o s
  | .outletSendDone o => Sys2Proof.Machine.execOutletSendDone o s
  | .policerTick n => Sys2Proof.Machine.execPolicerTick n s
  | .reservationWrite e o value => Sys2Proof.Machine.execReservationWrite e o value s
  | .jajorAlign p => Sys2Proof.Machine.execJajorAlign p s
  | .jajorUp p crd => Sys2Proof.Machine.execJajorUp p crd s
  | .jajorDown p => Sys2Proof.Machine.execJajorDown p s
  | .jajorFrameReceived p body ending => Sys2Proof.Machine.execJajorFrameReceived p body ending s
  | .jajorCreditReturn p crd => Sys2Proof.Machine.execJajorCreditReturn p crd s
  | .jajorBasReceived p bas arr => Sys2Proof.Machine.execJajorBasReceived p bas arr s
  | .jajorBfuReceived p bfu => Sys2Proof.Machine.execJajorBfuReceived p bfu s
  | .ethLinkUp speed => Sys2Proof.Machine.execEthLinkUp speed s
  | .ethLinkDown => Sys2Proof.Machine.execEthLinkDown s
  | .ethFrameReceived frame ago => Sys2Proof.Machine.execEthFrameReceived frame ago s
  | .ethPauseReceived quanta => Sys2Proof.Machine.execEthPauseReceived quanta s
  | .mdioStart e value => Sys2Proof.Machine.execMdioStart e value s
  | .mdioDone data => Sys2Proof.Machine.execMdioDone data s
  | .tbSnapshot e value => Sys2Proof.Machine.execTbSnapshot e value s
  | .tbFracRead e n => Sys2Proof.Machine.execTbFracRead e n s
  | .tbStep e n value => Sys2Proof.Machine.execTbStep e n value s
  | .tbArm e n value => Sys2Proof.Machine.execTbArm e n value s
  | .tbCapture e n value => Sys2Proof.Machine.execTbCapture e n value s
  | .tbSecondRollover n => Sys2Proof.Machine.execTbSecondRollover n s
  | .servoOffset src o before => Sys2Proof.Machine.execServoOffset src o before s
  | .slewComplete => Sys2Proof.Machine.execSlewComplete s
  | .launchTimeReached q => Sys2Proof.Machine.execLaunchTimeReached q s
  | .slowCalWindow meanPeriod => Sys2Proof.Machine.execSlowCalWindow meanPeriod s
  | .sleepEntryLatch slow => Sys2Proof.Machine.execSleepEntryLatch slow s
  | .sleepExitAdvance slow => Sys2Proof.Machine.execSleepExitAdvance slow s
  | .bundleIssue n => Sys2Proof.Machine.execBundleIssue n s
  | .interruptEntry n => Sys2Proof.Machine.execInterruptEntry n s
  | .wfiWake n => Sys2Proof.Machine.execWfiWake n s
  | .engineRunWrite e value => Sys2Proof.Machine.execEngineRunWrite e value s
  | .watchdogKick e n value => Sys2Proof.Machine.execWatchdogKick e n value s
  | .watchdogWarn => Sys2Proof.Machine.execWatchdogWarn s
  | .mailboxOpen e n value => Sys2Proof.Machine.execMailboxOpen e n value s
  | .mailboxWrite e n value => Sys2Proof.Machine.execMailboxWrite e n value s
  | .mailboxRead e n => Sys2Proof.Machine.execMailboxRead e n s
  | .mailboxFlush e n value => Sys2Proof.Machine.execMailboxFlush e n value s
  | .packetGet e n => Sys2Proof.Machine.execPacketGet e n s
  | .packetDone e n value => Sys2Proof.Machine.execPacketDone e n value s
  | .cellAlloc e n => Sys2Proof.Machine.execCellAlloc e n s
  | .cellLink e n value => Sys2Proof.Machine.execCellLink e n value s
  | .cellSelect e n value => Sys2Proof.Machine.execCellSelect e n value s
  | .cellFree e n value => Sys2Proof.Machine.execCellFree e n value s
  | .packetSubmit e n value => Sys2Proof.Machine.execPacketSubmit e n value s
  | .debugHalt n => Sys2Proof.Machine.execDebugHalt n s
  | .debugStep n => Sys2Proof.Machine.execDebugStep n s
  | .debugAccess n what write value => Sys2Proof.Machine.execDebugAccess n what write value s
  | .debugRelease n => Sys2Proof.Machine.execDebugRelease n s
  | .aesInit e n value => Sys2Proof.Machine.execAesInit e n value s
  | .aesCont e n value => Sys2Proof.Machine.execAesCont e n value s
  | .aesSavew e n value => Sys2Proof.Machine.execAesSavew e n value s
  | .aesRestw e n value => Sys2Proof.Machine.execAesRestw e n value s
  | .aesClear e n value => Sys2Proof.Machine.execAesClear e n value s
  | .aesJobEnd => Sys2Proof.Machine.execAesJobEnd s
  | .keyGen e value => Sys2Proof.Machine.execKeyGen e value s
  | .keyImport e value => Sys2Proof.Machine.execKeyImport e value s
  | .keyUnwrap e value => Sys2Proof.Machine.execKeyUnwrap e value s
  | .keyWrap e value => Sys2Proof.Machine.execKeyWrap e value s
  | .keyDerive e value => Sys2Proof.Machine.execKeyDerive e value s
  | .keyEcdh e value => Sys2Proof.Machine.execKeyEcdh e value s
  | .keyErase e value => Sys2Proof.Machine.execKeyErase e value s
  | .keySetlimit e value => Sys2Proof.Machine.execKeySetlimit e value s
  | .keyCommandDone => Sys2Proof.Machine.execKeyCommandDone s
  | .rngHealthFail samples => Sys2Proof.Machine.execRngHealthFail samples s
  | .rngStartupDone samples => Sys2Proof.Machine.execRngStartupDone samples s
  | .rngRead e => Sys2Proof.Machine.execRngRead e s
  | .rngRestart e value => Sys2Proof.Machine.execRngRestart e value s
  | .pkaHash256 e c value => Sys2Proof.Machine.execPkaHash256 e c value s
  | .pkaHash384 e c value => Sys2Proof.Machine.execPkaHash384 e c value s
  | .pkaEcverify e c value => Sys2Proof.Machine.execPkaEcverify e c value s
  | .pkaHssverify e c value => Sys2Proof.Machine.execPkaHssverify e c value s
  | .pkaVerify2 e c value => Sys2Proof.Machine.execPkaVerify2 e c value s
  | .pkaEcsign e c value => Sys2Proof.Machine.execPkaEcsign e c value s
  | .pkaAttest e c value => Sys2Proof.Machine.execPkaAttest e c value s
  | .pkaIdpub e c value => Sys2Proof.Machine.execPkaIdpub e c value s
  | .pkaJobEnd => Sys2Proof.Machine.execPkaJobEnd s
  | .lcToProvisioned e value => Sys2Proof.Machine.execLcToProvisioned e value s
  | .lcToSealed e value => Sys2Proof.Machine.execLcToSealed e value s
  | .lcToRetired e value => Sys2Proof.Machine.execLcToRetired e value s
  | .lifecycleMoveDone => Sys2Proof.Machine.execLifecycleMoveDone s
  | .keyDbgtoken bytes => Sys2Proof.Machine.execKeyDbgtoken bytes s
  | .debugTokenVerdict => Sys2Proof.Machine.execDebugTokenVerdict s
  | .bootRomStart flash time => Sys2Proof.Machine.execBootRomStart flash time s
  | .recipeCommit e value => Sys2Proof.Machine.execRecipeCommit e value s
  | .updBegin e value => Sys2Proof.Machine.execUpdBegin e value s
  | .updMorsel e value => Sys2Proof.Machine.execUpdMorsel e value s
  | .updVerify e value => Sys2Proof.Machine.execUpdVerify e value s
  | .updActivate e value => Sys2Proof.Machine.execUpdActivate e value s
  | .updCancel e value => Sys2Proof.Machine.execUpdCancel e value s
  | .updConfirm e value => Sys2Proof.Machine.execUpdConfirm e value s
  | .updSaveset e value => Sys2Proof.Machine.execUpdSaveset e value s
  | .updCommandDone flash => Sys2Proof.Machine.execUpdCommandDone flash s
  | .spiWrite bytes => Sys2Proof.Machine.execSpiWrite bytes s
  | .spiRead clocked => Sys2Proof.Machine.execSpiRead clocked s
  | .uartFrameReceived bytes => Sys2Proof.Machine.execUartFrameReceived bytes s
  | .uartRxTimeout => Sys2Proof.Machine.execUartRxTimeout s
  | .hostOutputFrame => Sys2Proof.Machine.execHostOutputFrame s
  | .hostPing => Sys2Proof.Machine.execHostPing s
  | .hostJrnstat => Sys2Proof.Machine.execHostJrnstat s
  | .hostJrnread => Sys2Proof.Machine.execHostJrnread s
  | .hostBegin => Sys2Proof.Machine.execHostBegin s
  | .hostMorsel => Sys2Proof.Machine.execHostMorsel s
  | .hostVerify => Sys2Proof.Machine.execHostVerify s
  | .hostActivate => Sys2Proof.Machine.execHostActivate s
  | .hostCancel => Sys2Proof.Machine.execHostCancel s
  | .hostConfirm => Sys2Proof.Machine.execHostConfirm s
  | .hostSaveset => Sys2Proof.Machine.execHostSaveset s
  | .hifInboundRead e => Sys2Proof.Machine.execHifInboundRead e s
  | .hifOutboundWrite e value => Sys2Proof.Machine.execHifOutboundWrite e value s
  | .hifInboundFlush e value => Sys2Proof.Machine.execHifInboundFlush e value s
  | .hifOutboundFlush e value => Sys2Proof.Machine.execHifOutboundFlush e value s
  | .journalAppend e n value => Sys2Proof.Machine.execJournalAppend e n value s
  | .journalMirrorCopy => Sys2Proof.Machine.execJournalMirrorCopy s
  | .powerFailWarning => Sys2Proof.Machine.execPowerFailWarning s
  | .powerFailClear => Sys2Proof.Machine.execPowerFailClear s
  | .powerFail => Sys2Proof.Machine.execPowerFail s
  | .supplyReturn => Sys2Proof.Machine.execSupplyReturn s
  | .vbakLow => Sys2Proof.Machine.execVbakLow s
  | .vbakHoldExpiry => Sys2Proof.Machine.execVbakHoldExpiry s
  | .vbakColdStart => Sys2Proof.Machine.execVbakColdStart s
  | .powerOn => Sys2Proof.Machine.execPowerOn s
  | .domainRequest e d value => Sys2Proof.Machine.execDomainRequest e d value s
  | .domainReset e value => Sys2Proof.Machine.execDomainReset e value s
  | .regulatorReady d => Sys2Proof.Machine.execRegulatorReady d s
  | .oscillatorReady d => Sys2Proof.Machine.execOscillatorReady d s
  | .memoryReady d => Sys2Proof.Machine.execMemoryReady d s
  | .logicReady d => Sys2Proof.Machine.execLogicReady d s
  | .gpioWake k => Sys2Proof.Machine.execGpioWake k s
  | .padRelease e => Sys2Proof.Machine.execPadRelease e s
  | .vioDetect ok => Sys2Proof.Machine.execVioDetect ok s
  | .rtcTick => Sys2Proof.Machine.execRtcTick s
  | .rtcSet e value => Sys2Proof.Machine.execRtcSet e value s
  | .rtcShift e value => Sys2Proof.Machine.execRtcShift e value s
  | .rtcSubsecRead e => Sys2Proof.Machine.execRtcSubsecRead e s
  | .slowLoss => Sys2Proof.Machine.execSlowLoss s
  | .timerTick n => Sys2Proof.Machine.execTimerTick n s
  | .timerStart e n value => Sys2Proof.Machine.execTimerStart e n value s
  | .timerStop e n value => Sys2Proof.Machine.execTimerStop e n value s
  | .timerClear e n value => Sys2Proof.Machine.execTimerClear e n value s
  | .timerSnap e n value => Sys2Proof.Machine.execTimerSnap e n value s
  | .timerCountWrite e n value => Sys2Proof.Machine.execTimerCountWrite e n value s
  | .timerCapture n rising => Sys2Proof.Machine.execTimerCapture n rising s
  | .timerCaptureRead e n rising => Sys2Proof.Machine.execTimerCaptureRead e n rising s
  | .gpioEdge k level => Sys2Proof.Machine.execGpioEdge k level s
  | .eventDelivery k => Sys2Proof.Machine.execEventDelivery k s
  | .eventFire e k value => Sys2Proof.Machine.execEventFire e k value s
  | .pralineOutputChange c => Sys2Proof.Machine.execPralineOutputChange c s
  | .resetNPulse widthNs => Sys2Proof.Machine.execResetNPulse widthNs s
  | .flashResetPulse => Sys2Proof.Machine.execFlashResetPulse s
  | .pauseQuantaExpiry => Sys2Proof.Machine.execPauseQuantaExpiry s
  | .vbakLowClear => Sys2Proof.Machine.execVbakLowClear s
  | .slowClockReturn => Sys2Proof.Machine.execSlowClockReturn s

end Sys2Proof.Machine
end

