-- ==== Sys2Proof/Machine/Idle.lean ====
section
/-! DEFINITION. What a step does when no command waits: one REF cycle passes (DESIGN CHOICE, log entry 30). -/
namespace Sys2Proof.Machine

/-- R453: the capture of the four bases that an event asked for is made. -/
def State.dueCapture (s : State) : State :=
  if s.tsu.capPend && s.dOn 28 then { s.captureMask 15 with tsu := { s.tsu with capPend := false } } else s

/-- BEAT_PHASE is past half the period (R315). -/
def State.pastHalf (s : State) : Bool := decide (s.beatNs ≤ 2 * s.phaseView.toNat)

/-- R261, R315: the steps asked for are carried out at the REF edge. A step of TB0 that carries BEAT_PHASE past half the
period makes the half-beat test. -/
def State.dueSteps (s : State) : State :=
  let due := s.tsu.stepDue
  let s := { s with tsu := { s.tsu with stepDue := [] } }
  if !s.dOn 28 then s
  else
    let s := s.each due (fun s d => s.stepTo d.1 d.2.1 d.2.2)
    if due.any (fun d => decide (d.1 = 0)) && s.pastHalf && s.clusterOn then s.halfBeat else s

/-- R484: PAD_STAT.ATTN follows whether output waits, where the attention pad is enabled. -/
def State.showAttn (s : State) : State :=
  let b := s.bit HIF_CTRL.ATTNEN && s.outPending
  if s.bit PAD_STAT.ATTN = b then s else s.withPads (fun s => s.set PAD_STAT.ATTN (b2n b))

/-- One REF cycle: the time bases advance (R257, R258, R264), a due capture is made, then the steps asked for, a frame that
O2 holds starts where its launch time is reached, the cycle counters of the engines advance, stalled submissions go on,
RESCUE answers what it does not serve, and the attention pad follows. What hardware raised in the clock that ends is past
(R8). -/
def State.idle (s : State) : State :=
  let s := if s.pwr.aoDown then s else s.refCycle.dueCapture.dueSteps.ethLaunch.engineClocks.unstall.rescueUnknown.showAttn
  { s with clk := s.clk + 1, hot := [] }

end Sys2Proof.Machine
end

