-- ==== Sys2Proof/Safety.lean ====
section
/-! DEFINITION. What claims are stated in: the canonical form of what the state lists, a safe step, and an access to a
register that nothing stands against. -/
namespace Sys2Proof.Machine

/-- Every list of the state that stands for a memory or for the register file is in its canonical form: addresses rising,
no entry equal to what an unlisted address reads; and the steps that wait name bases that can be stepped. -/
structure State.Canon (s : State) : Prop where
  regs : swf regReset s.regs = true
  mem : Memory.wf 0 s.mem
  lmem : Memory.wf 0 s.lmem
  flash : Memory.wf flashErased s.flash
  /-- R261: no step that waits for the next REF edge names TB3, which cannot be stepped. -/
  steps : ∀ d ∈ s.tsu.stepDue, d.1 < 3

/-- A step is safe where it answers a next state. -/
def State.Safe (s : State) : Prop := ∃ t, step s = .next t

/-- Engine `e` is one of the stack partition, the chip is powered, and the domain of the register at `a` is on and ready:
nothing but the lock of the recipe commit stands against its access (R4, R6, R413, R416). -/
def State.reaches (s : State) (e a : Nat) : Prop :=
  s.pwr.aoDown = false ∧ s.isApp e = false ∧ s.domOn (domainOfReg a) = true

/-- R8: hardware raised nothing in the registers listed in this clock, so that a write of them stands as written. -/
def State.calm (s : State) (l : List Nat) : Prop := ∀ h ∈ s.hot, h.1.addr ∉ l

/-- Every register but those listed reads as it did. -/
def KeepsRegs (s t : State) (l : List Nat) : Prop := ∀ a, a ∉ l → t.reg a = s.reg a

/-- Every register outside the blocks listed (R20) reads as it did. -/
def KeepsBlocks (s t : State) (l : List Nat) : Prop := ∀ a, blockOfAddr a ∉ l → t.reg a = s.reg a

/-- Every byte of shared memory, of the local memories and of the flash reads as it did. -/
def KeepsMemory (s t : State) : Prop :=
  (∀ a, t.mbyte a = s.mbyte a) ∧ (∀ a, t.lbyte a = s.lbyte a) ∧ ∀ a, t.fbyte a = s.fbyte a

/-- The addresses that can hold the lower word of a two-register value (R7). -/
def pairLows : List Nat :=
  [BEAT_ABNLO.addr, TSU_SLPTICKLO.addr, UPD_ACTLO.addr, ETH_MACLO.addr, TSU_ETHRXST0.addr, TSU_ETHTXST0.addr] ++
    (List.range 16).map ETH_PEERLO.addr ++
    (List.range 16).map TSU_RXST0.addr ++ (List.range 8).map TSU_TXST0.addr ++ (List.range 16).map ENG_PKTST0.addr ++
    [0, 2, 4, 6].map TMR_CNT.addr ++ [0, 2, 4, 6].map TMR_PERIOD.addr ++ [0, 2, 4, 6].map TMR_CMP.addr ++
    [0, 2, 4, 6].map TMR_CAPR.addr ++ [0, 2, 4, 6].map TMR_CAPF.addr ++ [0, 2, 4, 6].map TMR_WIDTH.addr

/-- A register that stands alone: not a half of a two-register value. -/
def alone (a : Nat) : Bool := decide (a ∉ pairLows) && decide (a - 4 ∉ pairLows) && decide (a - 0x40 ∉ pairLows)

/-- A register of SYS, BEAT, PHY, MSH or ETH that has no row of its own: a write of it stores and does nothing else. -/
def plainAddr (a : Nat) : Bool :=
  decide (0x20000000 ≤ a) && decide (a < 0x201A0000) && decide (a % 4 = 0) && alone a &&
    (match blockOfAddr a with
     | 0 => decide (a % 0x10000 < 0x100) && decide (a % 0x10000 ∉ [0x24, 0x30])
     | 2 => decide (a % 0x10000 ∉ [0, 0x10, 0x24])
     | 5 => true
     | 9 => decide (a % 0x10000 < 0x100) || decide (0x120 ≤ a % 0x10000)
     | 21 => decide (a % 0x10000 ≠ 0x18)
     | _ => false)

/-- Engine `n` runs, takes no interrupt first, repeats no REP body, and meets at its pc the legal one-syllable bundle `w`
(R278, R281, R283). -/
def State.issuesOne (s : State) (n : Nat) (w : Word) : Prop :=
  s.estate n = stRun ∧ (s.engOf n).stalled = none ∧ s.irqTakable n = false ∧
    s.fetchBundle n (s.engOf n).cpu.pc = .inr ⟨[w], true⟩ ∧ legalSyl w = true ∧ (s.engOf n).cpu.flag 9 = false

/-- What keeps the lifecycle moving forward: a move that runs goes to no lower state (R348). -/
def State.FuseInv (s : State) : Prop := ∀ c, s.sec.lcMove = some c → s.sec.lc ≤ c

end Sys2Proof.Machine
end

