-- ==== Sys2Proof/WellFormed.lean ====
section
/-! DEFINITION. Which commands are well formed: what the operands' types leave open and the spec rules out. -/
namespace Sys2Proof

open Sys2Proof.Machine

/-- R414: the number names a power domain. -/
def domainNumber (d : Nat) : Bool := decide (d < 29) || decide (32 ≤ d)

/-- R29: the instances of a memory. -/
def memInstances (m : Nat) : Nat := if m ≤ 1 ∨ m = 7 then 16 else if m = 2 then 8 else 1

/-- A command is well formed: its domain exists (R414), its memory instance exists (R29), its port is one at which packets
wait (R207), its time base has step registers (R275). -/
def Instr.wf (i : Instr) : Bool :=
  match i with
  | .domainRequest _ d _ => domainNumber d
  | .regulatorReady d => domainNumber d
  | .oscillatorReady d => domainNumber d
  | .memoryReady d => domainNumber d
  | .logicReady d => domainNumber d
  | .scrubRead m i _ => decide (i.val < memInstances m)
  | .nobufReoffer p => decide (p.val ≠ 0)
  | .tbStep _ n _ => decide (n.val < 3)
  | .tbArm _ n _ => decide (n.val < 3)
  | .tbCapture _ n _ => decide (n.val < 3)
  | _ => true

end Sys2Proof
end

