-- ==== Sys2Proof/Certificates/Slice0/Obligations.lean ====
section
/-! DEFINITION. The statements for the provers: what each command does, what every step keeps, and what the rules of the
specification state outright. `KeepsRegs`, `KeepsBlocks` and `KeepsMemory` of Safety.lean say the frames. -/

open Sys2Proof Sys2Proof.Machine

/-- A step takes the command at the front of the queue and answers what `exec` answers with the queue's rest. -/
def Obligations.StepRunsFront : Prop :=
  ∀ (c : Instr) (t : List Instr) (s : State), s.pending = c :: t → step s = exec c { s with pending := t }

/-- With no command waiting the step is one REF cycle (DESIGN CHOICE, log entry 30), in which TB3 takes what R258 and R260
give it: 625/24 ns in units of 2^-16 ns, with the part below one unit carried in the residue. -/
def Obligations.EmptyQueuePassesOneCycle : Prop :=
  ∀ s : State, s.pending = [] → s.pwr.aoDown = false → s.dOn 28 = true → s.holdover = false → s.tsu.sleep = none →
    (∀ d ∈ s.tsu.stepDue, d.1 < 3) →
    ∃ t, step s = .next t ∧ t.pending = [] ∧ t.hot = [] ∧ t.clk = s.clk + 1 ∧
      vget t.tsu.tb 3 = (vget s.tsu.tb 3).add (625 * 65536 * 1000000 * 2 ^ 40)

/-- No command stops the machine, and the effect of a command is on everything but the queue. -/
def Obligations.ExecLeavesQueue : Prop :=
  ∀ (c : Instr) (s : State), ∃ t, exec c s = .next t ∧ t.pending = s.pending

/-- Every step keeps the canonical form of the register file, the memories and the flash, and no step waits for TB3. -/
def Obligations.StepKeepsCanon : Prop :=
  ∀ s t : State, s.Canon → step s = .next t → t.Canon

/-- The state after reset: in canonical form, every register at its reset value (R10), the memories unwritten and so reading
zero (R32). -/
def Obligations.ResetIsCanon : Prop :=
  State.reset.Canon ∧ (∀ a r, findRow a = some r → State.reset.reg a = BitVec.ofNat 32 r.reset) ∧
    (∀ a, State.reset.mbyte a = 0) ∧ (∀ a, State.reset.lbyte a = 0) ∧ State.reset.pending = [] ∧ State.reset.FuseInv

/-- The lifecycle only moves forward (R348) and the security counter never falls (R369): no command of the table undoes a
one-time-programmable bit of either. -/
def Obligations.FusesOnlyRise : Prop :=
  ∀ s t : State, s.FuseInv → step s = .next t → t.FuseInv ∧ s.sec.lc ≤ t.sec.lc ∧ s.upd.counter ≤ t.upd.counter

/-- REGISTER_WRITE: a register whose write does nothing beside storing (R3, R4, R8), bit by bit; and a store to the engine's own data
memory (R18), byte by byte. -/
def Obligations.RegisterWriteCompletes : Prop :=
  (∀ (e : Fin 16) (addr v : Word) (r : RegRow) (s : State), plainAddr addr.toNat = true → findRow addr.toNat = some r →
    s.reaches e addr.toNat → (r.rwl = 0 ∨ s.upd.locked = false) → s.calm [addr.toNat] →
    ∃ t, exec (.registerWrite e .word addr v) s = .next t ∧
      (∀ i, i < 32 → (t.reg addr.toNat).getLsbD i =
        (let old := (s.reg addr.toNat).getLsbD i
         if (r.w1s.testBit i && v.getLsbD i) = true then true
         else if (r.w1c.testBit i && v.getLsbD i) = true then false
         else if (r.rw.testBit i || r.rwl.testBit i) = true then (storedWord addr.toNat (s.reg addr.toNat) v).getLsbD i
         else old)) ∧
      KeepsRegs s t [addr.toNat] ∧ KeepsMemory s t) ∧
  (∀ (e : Fin 16) (addr v : Word) (r : RegRow) (l : Loc) (k : Nat) (s : State), plainAddr addr.toNat = true →
    findRow addr.toNat = some r → s.reaches e addr.toNat → (r.rwl = 0 ∨ s.upd.locked = false) →
    s.hot.filter (fun h => decide (h.1.addr = addr.toNat)) = [(l, k)] → l.lo + l.w ≤ 32 →
    (r.rw ||| r.rwl ||| r.w1c).testBit l.lo = true →
    ∃ t0 t, exec (.registerWrite e .word addr v) { s with hot := [] } = .next t0 ∧
      exec (.registerWrite e .word addr v) s = .next t ∧ t.get l = min (2 ^ l.w - 1) (t0.get l + k) ∧
      KeepsRegs t0 t [addr.toNat] ∧ KeepsMemory s t) ∧
  (∀ (e : Fin 16) (size : AccSize) (addr v : Word) (off : Nat) (s : State), regionOf addr.toNat = .dmem off →
    addr.toNat % accBytes size = 0 → s.pwr.aoDown = false → s.dOn e = true →
    ∃ t, exec (.registerWrite e size addr v) s = .next t ∧
      (∀ k, k < accBytes size → t.lbyte (e * 0x20000 + 0x10000 + off + k) = BitVec.ofNat 8 (v.toNat / 256 ^ k)) ∧
      (∀ a, (∀ k, k < accBytes size → a ≠ e * 0x20000 + 0x10000 + off + k) → t.lbyte a = s.lbyte a) ∧
      KeepsRegs s t [] ∧ (∀ a, t.mbyte a = s.mbyte a) ∧ ∀ a, t.fbyte a = s.fbyte a)

/-- LOW_WORD_READ, LOW_WORD_WRITE, UPPER_WORD_WRITE (R7). -/
def Obligations.TwoWordValuesComplete : Prop :=
  (∀ (e : Fin 16) (addr : Word) (hi : Nat) (s : State), s.reaches e addr.toNat → s.upperOf addr.toNat = some hi →
    aget s.sys.latched addr.toNat = none →
    ∃ t, exec (.lowWordRead e addr) s = .next t ∧ t.rdata = s.regView addr.toNat ∧
      aget t.sys.latched hi = some (s.regView hi) ∧ KeepsMemory s t) ∧
  (∀ (e : Fin 16) (addr v : Word) (hi : Nat) (r : RegRow) (s : State), s.reaches e addr.toNat →
    s.upperOf addr.toNat = some hi → findRow addr.toNat = some r → r.writable ≠ 0#32 → (r.rwl = 0 ∨ s.upd.locked = false) →
    (∀ n, n < 8 → addr.toNat ≠ TMR_CNT.addr n) →
    ∃ t, exec (.lowWordWrite e addr v) s = .next t ∧ aget t.sys.held addr.toNat = some v ∧ KeepsRegs s t [] ∧
      KeepsMemory s t) ∧
  (∀ (e : Fin 16) (v w : Word) (s : State), s.reaches e UPD_ACTHI.addr → aget s.sys.held UPD_ACTLO.addr = some v →
    s.calm [UPD_ACTLO.addr, UPD_ACTHI.addr] →
    ∃ t, exec (.upperWordWrite e (BitVec.ofNat 32 UPD_ACTHI.addr) w) s = .next t ∧ t.reg UPD_ACTLO.addr = v ∧
      t.get UPD_ACTHI.ABN = w.toNat % 256 ∧ aget t.sys.held UPD_ACTLO.addr = none ∧
      KeepsRegs s t [UPD_ACTLO.addr, UPD_ACTHI.addr] ∧ KeepsMemory s t) ∧
  (∀ (e : Fin 16) (n : Fin 4) (v w : Word) (s : State), s.reaches e (TMR_PERIOD.addr (2 * n + 1)) →
    s.bit (TMR_CFG.CHAIN (2 * n)) = true → aget s.sys.held (TMR_PERIOD.addr (2 * n)) = some v →
    s.calm [TMR_PERIOD.addr (2 * n), TMR_PERIOD.addr (2 * n + 1)] →
    ∃ t, exec (.upperWordWrite e (BitVec.ofNat 32 (TMR_PERIOD.addr (2 * n + 1))) w) s = .next t ∧
      t.reg (TMR_PERIOD.addr (2 * n)) = v ∧ t.reg (TMR_PERIOD.addr (2 * n + 1)) = w ∧
      aget t.sys.held (TMR_PERIOD.addr (2 * n)) = none ∧
      KeepsRegs s t [TMR_PERIOD.addr (2 * n), TMR_PERIOD.addr (2 * n + 1)] ∧ KeepsMemory s t)

/-- FAULTREC_CLEAR, IRQMAP_WRITE, SW_WARM_RESET_REQUEST, SW_COLD_RESET_REQUEST, SW_ENGINE_RESET (R24, R25, R28, R36, R310, R326). -/
def Obligations.SysWritesComplete : Prop :=
  (∀ (e : Fin 16) (s : State), s.reaches e SYS_FAULTREC.addr → s.sys.faultClk = some s.clk →
    ∃ t, exec (.faultrecClear e) s = .next t ∧ KeepsRegs s t [] ∧ KeepsMemory s t) ∧
  (∀ (e : Fin 16) (s : State), s.reaches e SYS_FAULTREC.addr → s.sys.faultClk ≠ some s.clk →
    ∃ t, exec (.faultrecClear e) s = .next t ∧ t.reg SYS_FAULTREC.addr = 0#32 ∧ t.reg SYS_FAULTADDR.addr = 0#32 ∧
      KeepsRegs s t [SYS_FAULTREC.addr, SYS_FAULTADDR.addr] ∧ KeepsMemory s t) ∧
  (∀ (e : Fin 16) (n : Fin 26) (v : Word) (s : State), s.reaches e (SYS_IRQMAP.addr n) → n.val ≠ 0 →
    s.calm [SYS_IRQMAP.addr n] →
    ∃ t, exec (.irqmapWrite e n v) s = .next t ∧
      (if n.val ∈ [3, 6, 15, 20] ∧ s.isApp (v.toNat % 16) = true then t.reg (SYS_IRQMAP.addr n) = s.reg (SYS_IRQMAP.addr n)
       else t.get (SYS_IRQMAP.EN n) = v.toNat / 2 ^ 31 ∧ t.get (SYS_IRQMAP.TARGET n) = v.toNat % 16 ∧
         KeepsRegs s t [SYS_IRQMAP.addr n]) ∧ KeepsMemory s t) ∧
  (∀ (e : Fin 16) (s : State), s.reaches e SYS_RSTCTL.addr →
    (∃ t, exec (.swWarmResetRequest e) s = .next t ∧ t.sys.warmReq = true ∧ t.sys.coldReq = s.sys.coldReq ∧
      KeepsRegs s t [] ∧ KeepsMemory s t) ∧
    (∃ t, exec (.swColdResetRequest e) s = .next t ∧ t.sys.coldReq = true ∧ t.sys.warmReq = s.sys.warmReq ∧
      KeepsRegs s t [] ∧ KeepsMemory s t)) ∧
  (∀ (e n : Fin 16) (s : State), s.reaches e SYS_RSTCTL.addr → s.estate n ≤ 4 →
    ∃ t, exec (.swEngineReset e n) s = .next t ∧ t.bit SYS_RSTCAUSE.SWENG = true ∧ (t.engOf n).mbox = [] ∧
      (if bitOf (s.get ENG_RUN.EN) n = true then t.estate n = stRun ∧ (t.engOf n).cpu.pc = t.resetAddr n
       else t.estate n = stReset) ∧ KeepsMemory s t)

/-- REF_EDGE_TIMEOUT, REFMON_WINDOW_END, PLL_UNLOCK, PLL_RELOCK, SERPLL_UNLOCK, SERPLL_RELOCK, SCRUB_READ (R14, R15, R17, R29 to
R31, R33, R55). -/
def Obligations.ClockAndScrubComplete : Prop :=
  (∀ s : State, s.dOn 28 = true → s.bit SYS_CLKSTAT.REFOK = true → s.holdover = false →
    ∃ t, exec .refEdgeTimeout s = .next t ∧ t.bit SYS_CLKSTAT.REFOK = false ∧ t.holdover = true ∧
      t.bit SYS_CLKSTAT.SYSPLL_LOCK = false ∧ t.bit SYS_CLKSTAT.CPLLA_LOCK = false ∧ t.bit SYS_CLKSTAT.CPLLB_LOCK = false ∧
      t.sys.goodWindows = 0) ∧
  (∀ (ppm : Int) (s : State), s.dOn 28 = true → s.bit SYS_CLKSTAT.REFOK = false → s.inBand ppm false = true →
    ∃ t, exec (.refmonWindowEnd ppm false) s = .next t ∧
      (if s.sys.goodWindows + 1 < 16 then t.sys.goodWindows = s.sys.goodWindows + 1 ∧ t.bit SYS_CLKSTAT.REFOK = false
       else t.sys.goodWindows = 0 ∧ t.sys.returnDeclared = true ∧ t.bit SYS_CLKSTAT.REFOK = true) ∧
      KeepsRegs s t [SYS_CLKSTAT.addr] ∧ KeepsMemory s t) ∧
  (∀ (p : Pll) (s : State), s.dOn 28 = true → s.bit (pllLock p) = true →
    ∃ t, exec (.pllUnlock p) s = .next t ∧ t.bit (pllLock p) = false ∧ t.holdover = true) ∧
  (∀ (p : Pll) (s : State), s.dOn 28 = true → s.bit SYS_CLKSTAT.REFOK = true → s.holdover = false →
    ∃ t, exec (.pllRelock p) s = .next t ∧ t.bit (pllLock p) = true ∧ KeepsMemory s t) ∧
  (∀ s : State, s.dOn 28 = true → s.serLocked = true →
    ∃ t, exec .serpllUnlock s = .next t ∧ t.serLocked = false) ∧
  (∀ s : State, s.dOn 28 = true →
    ∃ t, exec .serpllRelock s = .next t ∧ t.serLocked = true ∧ KeepsRegs s t [SYS_CLKSTAT.addr] ∧ KeepsMemory s t) ∧
  (∀ (m : Fin 13) (i : Fin 16) (u : Upset) (s : State),
    (if m.val = 11 then s.bit SYS_SCRUB.JAREN else s.bit SYS_SCRUB.EN) = true → s.memOn m i = true →
    (let w := s.scrubAt m ((aget s.sys.scrub (16 * m + i)).getD 0)
     let x := eccEntry m i w
     ∃ t, exec (.scrubRead m i u) s = .next t ∧
      aget t.sys.scrub (16 * m + i) = some ((w + 1) % eccWords m) ∧
      (s.isWritten x = false → KeepsRegs s t [] ∧ t.ecc = s.ecc ∧ t.ecc1 = s.ecc1) ∧
      (s.isWritten x = true → s.ecc.contains x = false → u = .clean → s.ecc1.contains x = false →
        KeepsRegs s t [] ∧ t.ecc = s.ecc) ∧
      (s.isWritten x = true → s.ecc.contains x = false → (u = .clean ∧ s.ecc1.count x = 1 ∨ u = .single ∧ s.ecc1.count x ≤ 1) →
        t.get SYS_ECCCORR.COUNT = min (2 ^ 32 - 1) (s.get SYS_ECCCORR.COUNT + 1) ∧ KeepsRegs s t [SYS_ECCCORR.addr] ∧
          t.ecc = s.ecc ∧ t.ecc1.contains x = decide (m.val = 12)) ∧
      (s.isWritten x = true → (s.ecc.contains x = true ∨ u = .double) →
        t.ecc.contains x = true ∧ t.get SYS_ECCADDR.MEM = m ∧ t.get SYS_ECCADDR.INST = x.2.1 % 16 ∧
          t.get SYS_ECCADDR.WORD = x.2.2 % 2 ^ 24) ∧ KeepsMemory s t)) ∧
  (∀ (m : Fin 13) (i : Fin 16) (u : Upset) (s : State),
    ((if m.val = 11 then s.bit SYS_SCRUB.JAREN else s.bit SYS_SCRUB.EN) && s.memOn m i) = false →
    exec (.scrubRead m i u) s = .next s)


/-- BEAT_PERIOD_WRITE, BEAT_DONE, PERF_LEVEL_REQUEST, RAIL_VOLTAGE_SETTLED (R39, R43, R44, R48). -/
def Obligations.BeatWritesComplete : Prop :=
  (∀ (e : Fin 16) (v : Word) (s : State), s.reaches e BEAT_CTRL.addr → s.upd.locked = false →
    ∃ t, exec (.beatPeriodWrite e v) s = .next t ∧ t.get BEAT_CTRL.PERIOD = v.toNat % 8 ∧
      t.beat.period = (if v.toNat % 8 ≤ 4 then v.toNat % 8 else s.beat.period) ∧
      KeepsRegs s t [BEAT_CTRL.addr] ∧ KeepsMemory s t) ∧
  (∀ (e : Fin 16) (v : Word) (s : State), s.pwr.aoDown = false → s.dOn 28 = true →
    v &&& 0xFFFF#32 &&& ~~~BitVec.ofNat 32 (2 ^ e.val) = 0#32 →
    ∃ t, exec (.beatDone e v) s = .next t ∧
      (∀ n, n < 16 → bitOf (t.get BEAT_DONE.DONE) n = (bitOf (s.get BEAT_DONE.DONE) n || (decide (n = e.val) && v.getLsbD n))) ∧
      KeepsRegs s t [BEAT_DONE.addr] ∧ KeepsMemory s t) ∧
  (∀ (e : Fin 16) (v : Word) (s : State), s.reaches e BEAT_PLREQ.addr →
    ∃ t, exec (.perfLevelRequest e v) s = .next t ∧
      (s.upd.locked = true → t.reg BEAT_PLREQ.addr = v &&& 0xC000000F#32 ∧ KeepsRegs s t [BEAT_PLREQ.addr]) ∧
      (s.upd.locked = false → t.bit BEAT_PLREQ.ENGPEND = false ∧ t.bit BEAT_PLREQ.CHNPEND = false ∧
        KeepsRegs s t [BEAT_PLREQ.addr, BEAT_PLCUR.addr, BEAT_STAT.addr]) ∧ KeepsMemory s t) ∧
  (∀ s : State, ∃ t, exec (.railVoltageSettled true) s = .next t ∧ t.beat.slcSettling = none ∧ KeepsMemory s t) ∧
  (∀ (l : Nat) (s : State), s.beat.engRaise = some l →
    ∃ t, exec (.railVoltageSettled false) s = .next t ∧ t.beat.engRaise = none ∧ t.get BEAT_PLCUR.ENGPL = l % 4 ∧
      KeepsRegs s t [BEAT_PLCUR.addr] ∧ KeepsMemory s t)

/-- BEAT_BOUNDARY (R40, R41, R43, R36): what step 1 leaves, and which steps follow. -/
def Obligations.BeatBoundaryCompletes : Prop :=
  ∀ (tj : Int) (s : State), s.dOn 28 = true → s.pwr.warmHeld = false → s.get UPD_STAT.STATE < 4 →
    ∃ u t, exec (.beatBoundary tj) s = .next t ∧
      u.abn = s.tb 0 / (s.beatNs * 65536) % 2 ^ 40 ∧ u.bit BEAT_STAT.BOUNDARY = true ∧
      (s.beat.stepped = true → u.bit BEAT_STAT.STEP = true) ∧ u.beat.stepped = false ∧
      KeepsRegs s u [BEAT_ABNLO.addr, BEAT_ABNHI.addr, BEAT_STAT.addr, BEAT_OUTAGE.addr] ∧
      (s.sys.coldReq = true → s.sys.warmReq = false →
        t = { u with sys := { u.sys with warmReq := false, coldReq := false } }.coldReset SYS_RSTCAUSE.SWCOLD) ∧
      (s.sys.coldReq = false → s.sys.warmReq = true →
        t = ({ u with sys := { u.sys with warmReq := false } }.raise SYS_RSTCAUSE.SWWARM).beginWarm false) ∧
      (s.sys.coldReq = true → s.sys.warmReq = true →
        t = ({ u with sys := { u.sys with warmReq := false, coldReq := false } }.coldReset SYS_RSTCAUSE.SWCOLD).raise
          SYS_RSTCAUSE.SWWARM) ∧
      (s.sys.coldReq = false → s.sys.warmReq = false →
        (let w := ((u.holdExit.levelStep.scanStep5.assignSlices.awakeEnds).powerStep.applyChainModes).recalibrate
         t = if w.repeated then w else (w.qscStep7.reasmTimeout.lnkStep8).step9))

/-- RESET_N_PULSE (R466, R9, R10, R35). -/
def Obligations.ResetPinCompletes : Prop :=
  (∀ (w : Nat) (s : State), 1000 ≤ w → s.pwr.aoDown = false → s.pad.vioOk = true →
    ∃ t, exec (.resetNPulse w) s = .next t ∧ t.bit SYS_RSTCAUSE.PIN = true ∧ t.upd.locked = false ∧ t.upd.cold = true ∧
      (∀ a r, findRow a = some r → blockOfAddr a ∈ [3, 5, 8, 9, 19, 21] → r.keep = 0 → t.reg a = BitVec.ofNat 32 r.reset) ∧
      t.flash = s.flash ∧ t.sec.lc = s.sec.lc ∧ t.glz.otp = s.glz.otp) ∧
  (∀ (w : Nat) (s : State), w ≤ 200 → exec (.resetNPulse w) s = .next s)


/-- CHAIN_AGC_WINDOW, MANUAL_GAIN_WRITE (R62 to R65, R82). -/
def Obligations.ReceiveGainCompletes : Prop :=
  (∀ (x : Fin 2) (below : Nat) (s : State), s.dOn (16 + x) = true → s.get (RXF_STAT.MODE x) = 1 →
    s.bit (RXF_STAT.DEAF x) = false →
    ∃ t, exec (.chainAgcWindow x below) s = .next t ∧
      t.bit (RXF_STAT.CLIP x) = decide (below ≤ s.get (RXF_AGC.HIGH x) * 100) ∧
      (below = 0 → t.get (RXF_CLIPCNT.COUNT x) = min 65535 (s.get (RXF_CLIPCNT.COUNT x) + 1) ∧
        t.bit (byChain x RXF_EVT.CLIPA RXF_EVT.CLIPB) = true) ∧
      (below ≠ 0 → t.get (RXF_CLIPCNT.COUNT x) = s.get (RXF_CLIPCNT.COUNT x)) ∧
      (let g := s.get (RXF_STAT.GAINIDX x)
       let run := if s.get (RXF_AGC.LOW x) * 100 < below then (vget s.rxc x).lowRun + 1 else 0
       t.get (RXF_STAT.GAINIDX x) =
         if s.bit (RXF_CTRL.AGCMAN x) = true ∨ 2 ≤ (vget s.rxc x).agcWait then g
         else if below = 0 then min 15 (g + 3)
         else if below ≤ s.get (RXF_AGC.HIGH x) * 100 then min 15 (g + 1)
         else if s.get (RXF_AGC.HOLD x) * 10 ≤ run ∧ (∀ n ∈ s.slicesOf x, s.bit (SLC_STAT.SYNC n) = false) then g - 1
         else g) ∧
      KeepsRegs s t [RXF_STAT.addr x, RXF_CLIPCNT.addr x, RXF_EVT.addr] ∧ KeepsMemory s t) ∧
  (∀ (e : Fin 16) (x : Fin 2) (v : Word) (s : State), s.reaches e (RXF_CTRL.addr x) →
    ∃ t, exec (.manualGainWrite e x v) s = .next t ∧ t.get (RXF_CTRL.GAINIDX x) = fieldOf v 8 4 ∧
      t.get (RXF_CTRL.AUTOFULL x) = fieldOf v 4 1 ∧ t.get (RXF_CTRL.AGCMAN x) = fieldOf v 3 1 ∧
      t.get (RXF_CTRL.MODE x) = (if fieldOf v 0 2 = 3 then s.get (RXF_CTRL.MODE x) else fieldOf v 0 2) ∧
      t.get (RXF_STAT.MODE x) = s.get (RXF_STAT.MODE x) ∧
      (fieldOf v 3 1 = 1 → s.get (RXF_STAT.MODE x) ≠ 2 → s.bit (RXF_STAT.DEAF x) = false →
        t.get (RXF_STAT.GAINIDX x) = fieldOf v 8 4 ∧
          KeepsRegs s t [RXF_CTRL.addr x, RXF_STAT.addr x, RXF_EVT.addr]) ∧
      (fieldOf v 3 1 = 0 → KeepsRegs s t [RXF_CTRL.addr x]) ∧ KeepsMemory s t)

/-- SLICE_RETUNE, SLICE_ASSIGN_WRITE, SLICE_SETTLED, SLICE_VALID_AGAIN, RSSI_WINDOW (R68, R69, R71 to R73, R75, R76). -/
def Obligations.SlicesComplete : Prop :=
  (∀ (e n : Fin 16) (v : Word) (s : State), s.reaches e (SLC_TUNE.addr n) →
    ∃ t, exec (.sliceRetune e n false v) s = .next t ∧
      (s.slcMode n = 1 → t.bit SLC_EVT.WIGN = true ∧ KeepsRegs s t [SLC_EVT.addr] ∧ t.slc = s.slc) ∧
      (s.slcMode n = 0 → t.reg (SLC_TUNE.addr n) = v ∧ KeepsRegs s t [SLC_TUNE.addr n] ∧ t.slc = s.slc) ∧
      (s.slcMode n = 2 →
        if tuneOk (s.slcChain n) (s.get (SLC_CFG.WAVE n)) (s.reg (PHY_FSK.addr n)) v.toNat = false then
          t.bit SLC_EVT.RANGE = true ∧ KeepsRegs s t [SLC_EVT.addr] ∧ t.slc = s.slc
        else if s.bit (SLC_STAT.SYNC n) = true then
          t.reg (SLC_TUNE.addr n) = v ∧ t.bit (SLC_STAT.TPEND n) = true ∧
            (vget t.slc n).held = some (v.toNat, s.get (SLC_CFG.WAVE n)) ∧ (vget t.slc n).freq = (vget s.slc n).freq ∧
            KeepsRegs s t [SLC_TUNE.addr n, SLC_STAT.addr n]
        else
          t.reg (SLC_TUNE.addr n) = v ∧ (vget t.slc n).freq = v.toNat ∧ (vget t.slc n).wave = s.get (SLC_CFG.WAVE n) ∧
            (vget t.slc n).settling = true ∧ t.get (SLC_NCO.WORD n) = ncoWord (s.slcChain n) v.toNat ∧
            t.bit (SLC_STAT.TPEND n) = false ∧ t.get (SLC_RSSI.RSSI n) = 0x8000 ∧
            KeepsRegs s t [SLC_TUNE.addr n, SLC_STAT.addr n, SLC_NCO.addr n, SLC_RSSI.addr n]) ∧ KeepsMemory s t) ∧
  (∀ (e n : Fin 16) (v : Word) (s : State), s.reaches e (SLC_CFG.addr n) → s.slcMode n = 2 →
    s.get (SLC_CFG.MODE n) ≠ 0 → fieldOf v 12 4 < 9 → fieldOf v 12 4 ≠ s.get (SLC_CFG.WAVE n) →
    ∃ t, exec (.sliceRetune e n true v) s = .next t ∧ t.get (SLC_CFG.CHAIN n) = fieldOf v 4 1 ∧
      (if tuneOk (s.slcChain n) (fieldOf v 12 4) (s.reg (PHY_FSK.addr n)) (s.get (SLC_TUNE.FREQ n)) = false then
         t.bit SLC_EVT.RANGE = true ∧ t.get (SLC_CFG.WAVE n) = s.get (SLC_CFG.WAVE n) ∧ t.slc = s.slc
       else t.get (SLC_CFG.WAVE n) = fieldOf v 12 4 ∧
         (if s.bit (SLC_STAT.SYNC n) = true then (vget t.slc n).held = some (s.get (SLC_TUNE.FREQ n), fieldOf v 12 4)
          else (vget t.slc n).wave = fieldOf v 12 4 ∧ (vget t.slc n).settling = true)) ∧
      KeepsRegs s t [SLC_CFG.addr n, SLC_STAT.addr n, SLC_NCO.addr n, SLC_RSSI.addr n, SLC_EVT.addr] ∧ KeepsMemory s t) ∧
  (∀ (e n : Fin 16) (v : Word) (s : State), s.reaches e (SLC_CFG.addr n) → s.slcMode n = 0 →
    ∃ t, exec (.sliceAssignWrite e n v) s = .next t ∧
      (let mode := if fieldOf v 8 2 = 3 then s.get (SLC_CFG.MODE n) else fieldOf v 8 2
       if mode ≠ 0 ∧ s.slcPending n = false ∧ s.slicesAsked ≤ (List.range 16).countP s.slcPending then
         t.bit SLC_EVT.LIMIT = true ∧ KeepsRegs s t [SLC_EVT.addr]
       else t.get (SLC_CFG.MODE n) = mode ∧ t.get (SLC_CFG.CHAIN n) = fieldOf v 4 1 ∧
         t.get (SLC_CFG.WAVE n) = (if 9 ≤ fieldOf v 12 4 then s.get (SLC_CFG.WAVE n) else fieldOf v 12 4) ∧
         KeepsRegs s t [SLC_CFG.addr n]) ∧ t.slc = s.slc ∧ KeepsMemory s t) ∧
  (∀ (n : Fin 16) (s : State), s.dOn 18 = true →
    (∃ t, exec (.sliceSettled n) s = .next t ∧ (vget t.slc n).settling = false ∧ KeepsRegs s t [] ∧ KeepsMemory s t) ∧
    (s.bit (RXF_STAT.DEAF (s.slcChain n)) = false →
      ∃ t, exec (.sliceValidAgain n) s = .next t ∧ t.bit (SLC_STAT.DEAF n) = false ∧ (vget t.slc n).settling = false ∧
        KeepsBlocks s t [4] ∧ KeepsMemory s t)) ∧
  (∀ (n : Fin 16) (power : Int) (gain : Nat) (s : State), s.dOn 18 = true →
    ∃ t, exec (.rssiWindow n power gain) s = .next t ∧
      t.get (SLC_RSSI.RSSI n) = (if s.bit (SLC_STAT.NOSIG n) = true ∨ s.bit (SLC_STAT.DEAF n) = true ∨
        (vget s.slc n).settling = true then 0x8000 else unsign 16 (s.rssiOf (s.slcChain n) power)) ∧
      t.get (SLC_AGC.DGAIN n) = (if s.slcLive n = true ∧ s.bit (SLC_STAT.SYNC n) = false ∧ s.bit (SLC_AGC.FREEZE n) = false
        then min gain 96 else s.get (SLC_AGC.DGAIN n)) ∧
      KeepsRegs s t [SLC_RSSI.addr n, SLC_AGC.addr n] ∧ KeepsMemory s t)

/-- TASTE_START, TASTE_DECISION, TASTE_INTERVAL_TICK, AWAKE_RELEASE, CONTINUATION_CHECK (R77, R78, R185 to R187, R192). -/
def Obligations.TastingCompletes : Prop :=
  (∀ (e : Fin 16) (x : Fin 2) (v : Word) (s : State), s.reaches e (RXF_TASTE.addr x) → (vget s.rxc x).window = none →
    ∃ t, exec (.tasteStart e x v) s = .next t ∧
      (let w := if 9 ≤ fieldOf v 8 4 then s.get (RXF_TASTE.WAVE x) else fieldOf v 8 4
       let m := s.get (RXF_STAT.MODE x)
       let idle := m = 0 ∨ s.bit (RXF_STAT.DEAF x) = true ∨ w = 0 ∨ s.chainClock x = false
       t.get (RXF_TASTE.WAVE x) = w ∧ t.get (RXF_TASTE.DETMODE x) = fieldOf v 4 2 ∧
       t.get (RXF_TASTE.ETHR x) = fieldOf v 24 8 ∧ t.get (RXF_TASTE.PTHR x) = max 1 (fieldOf v 12 4) ∧
       ((idle ∨ (m = 1 ∧ s.freeSlice = none)) → (vget t.rxc x).window = none ∧
         t.get (RXF_TCNT.SKIP x) = min 65535 (s.get (RXF_TCNT.SKIP x) + 1) ∧
         t.bit (byChain x RXF_EVT.TSKIPA RXF_EVT.TSKIPB) = true) ∧
       (¬ idle → m = 2 → (vget t.rxc x).window = some none ∧ t.bit (RXF_STAT.TBUSY x) = true ∧
         t.get (RXF_STAT.GAINIDX x) = fieldOf v 16 4) ∧
       (∀ n, ¬ idle → m = 1 → s.freeSlice = some n → (vget t.rxc x).window = some (some n) ∧
         t.bit (RXF_STAT.TBUSY x) = true ∧ t.bit (SLC_STAT.TASTE n) = true ∧ t.get (SLC_STAT.MODE n) = 2 ∧ t.get (SLC_STAT.CHAIN n) = x ∧
         (vget t.slc n).freq = s.get (RXF_TFREQ.FREQ x) ∧ (vget t.slc n).wave = w)) ∧
      KeepsBlocks s t [3, 4] ∧ KeepsMemory s t) ∧
  (∀ (x : Fin 2) (power : Int) (corr : Nat) (s : State), (vget s.rxc x).window.isSome = true →
    (∀ n, (vget s.rxc x).window = some (some n) → n < 16) → s.dOn (16 + x) = true →
    ∃ t, exec (.tasteDecision x power corr) s = .next t ∧ (vget t.rxc x).window = none ∧ t.bit (RXF_STAT.TBUSY x) = false ∧
      (s.tasteDetects x power corr = false → t.get (RXF_TCNT.DET x) = s.get (RXF_TCNT.DET x) ∧
        ((∀ n, (vget s.rxc x).window = some (some n) → (vget s.slc n).frame = none) → KeepsBlocks s t [3, 4])) ∧
      (s.tasteDetects x power corr = true →
        t.get (RXF_TCNT.DET x) = min 65535 (s.get (RXF_TCNT.DET x) + 1) ∧
        t.bit (byChain x RXF_EVT.TDETA RXF_EVT.TDETB) = true ∧
        (s.bit (RXF_CTRL.AUTOFULL x) = true → (vget s.rxc x).window = some none → s.get (RXF_STAT.MODE x) = 2 →
          s.slcActive (s.get (RXF_TASTE.SLICE x)) = false → (List.range 16).countP s.slcActive < s.slicesNow →
          t.get (RXF_STAT.MODE x) = 1 ∧ (vget t.rxc x).awake = some (s.get (RXF_TASTE.SLICE x)) ∧
            t.get (SLC_STAT.MODE (s.get (RXF_TASTE.SLICE x))) = 2 ∧
            (vget t.slc (s.get (RXF_TASTE.SLICE x))).freq = s.get (RXF_TFREQ.FREQ x))) ∧ KeepsMemory s t) ∧
  (∀ (x : Fin 2) (s : State),
    (s.bit (LNK_TINT.EN x) = false →
      ∃ t, exec (.tasteIntervalTick x) s = .next t ∧ (vget t.rxc x).ticks = 0 ∧ KeepsRegs s t [] ∧ KeepsMemory s t) ∧
    (s.bit (LNK_TINT.EN x) = true → (vget s.rxc x).ticks + 1 < intervalTicks (s.get (LNK_TINT.INTERVAL x)) →
      ∃ t, exec (.tasteIntervalTick x) s = .next t ∧ (vget t.rxc x).ticks = (vget s.rxc x).ticks + 1 ∧ KeepsRegs s t [] ∧
        KeepsMemory s t) ∧
    (s.bit (LNK_TINT.EN x) = true → intervalTicks (s.get (LNK_TINT.INTERVAL x)) ≤ (vget s.rxc x).ticks + 1 →
      ∃ t, exec (.tasteIntervalTick x) s = .next t ∧ (vget t.rxc x).ticks = 0 ∧
        (s.dOn (16 + x) = false → (vget t.rxc x).due = true) ∧
        (s.dOn (16 + x) = true → (vget s.rxc x).window = none → s.get (RXF_STAT.MODE x) = 2 →
          s.bit (RXF_STAT.DEAF x) = false → s.get (RXF_TASTE.WAVE x) ≠ 0 → s.chainClock x = true →
          (vget t.rxc x).window = some none ∧ t.bit (RXF_STAT.TBUSY x) = true) ∧ KeepsBlocks s t [1, 3, 4] ∧ KeepsMemory s t)) ∧
  (∀ (x : Fin 2) (n : Fin 16) (s : State), (vget s.rxc x).awake = some n.val → (vget s.rxc x).releasing = false →
    s.bit (SLC_STAT.SYNC n) = false → (∀ d ∈ s.lnk.done, d.slice ≠ n.val) → (∀ c, s.cr c = none) →
    ∃ t, exec (.awakeRelease x) s = .next t ∧ (vget t.rxc x).releasing = true ∧ t.get (SLC_CFG.MODE n) = 0 ∧
      t.get (RXF_CTRL.MODE x) = 2 ∧ t.bit LNK_TEVT.TRELEASE = true ∧
      KeepsRegs s t [SLC_CFG.addr n, RXF_CTRL.addr x, LNK_TEVT.addr] ∧ KeepsMemory s t) ∧
  (∀ (n : Fin 16) (power : Int) (d : RxDone) (s : State),
    (s.lnk.done.filter (fun d => decide (d.slice = n.val) && d.awake)).getLast? = some d →
    (headOf d.wave d.mpdu).any (·.ackreq) = true → (isMf d.wave = false ∨ bitOf d.flags 1 = true) → d.more = false →
    d.owed = none → 2 * s.getS LNK_TRX.CTHR ≤ s.rssiOf d.chain power →
    ∃ t, exec (.continuationCheck n power) s = .next t ∧ t.bit LNK_TEVT.TDEFER = true ∧
      t.lnk.done = s.lnk.done.map (fun e => if e.fid = d.fid then { e with more := true } else e) ∧
      KeepsRegs s t [LNK_TEVT.addr] ∧ KeepsMemory s t)


/-- FRAME_SYNC, HEADER_RECEIVED, FRAME_VERDICT (R107, R108, R113, R114, R266, R267). -/
def Obligations.ReceptionCompletes : Prop :=
  (∀ (n : Fin 16) (marker : Int) (seen : RxSync) (s : State), s.slcLive n = true → (vget s.slc n).frame = none →
    (syncDetects (vget s.slc n).wave (s.reg (PHY_SYNC.addr n)) seen = false → exec (.frameSync n marker seen) s = .next s) ∧
    (syncDetects (vget s.slc n).wave (s.reg (PHY_SYNC.addr n)) seen = true → ∃ t f, exec (.frameSync n marker seen) s = .next t ∧ t.bit (SLC_STAT.SYNC n) = true ∧ (vget t.slc n).frame = some f ∧
      f.wave = (vget s.slc n).wave ∧ f.freq = (vget s.slc n).freq ∧ f.chain = s.slcChain n ∧ f.hdr = false ∧
      f.stamp = shiftSixteenths (tbPlus (s.tb 0) (marker - markerLag f.wave (s.reg (PHY_FSK.addr n))))
        (-(s.getS (TSU_RFDLY.RX (s.slcChain n)))) ∧
      t.get (PHY_STAT.LENGTH n) = 0 ∧ KeepsBlocks s t [3, 4, 5, 11] ∧ KeepsMemory s t)) ∧
  (∀ (n : Fin 16) (h : RxHeader) (head : List (BitVec 8)) (rssi : Int) (f : RxFrame) (code : Nat) (s : State),
    (vget s.slc n).frame = some f → f.hdr = false → headerFits f.wave h = true →
    (headerFields f.wave f.rxcfg h).1 = some code →
    (∀ a ∈ s.lnk.rx, a.slice ≠ some n.val) → (∀ a ∈ s.lnk.tx, a.slice ≠ some n.val) →
    ∃ t, exec (.headerReceived n h head rssi) s = .next t ∧ t.get (PHY_STAT.CODE n) = code ∧
      t.get (PHY_ERRCNT.HDR n) = min 65535 (s.get (PHY_ERRCNT.HDR n) + 1) ∧ (vget t.slc n).frame = none ∧
      t.bit (SLC_STAT.SYNC n) = false ∧ KeepsBlocks s t [4, 5] ∧ KeepsMemory s t) ∧
  (∀ (n : Fin 16) (h : RxHeader) (head : List (BitVec 8)) (rssi : Int) (f : RxFrame) (s : State),
    (vget s.slc n).frame = some f → f.hdr = false → headerFits f.wave h = true →
    (headerFields f.wave f.rxcfg h).1 = none →
    ∃ t g, exec (.headerReceived n h head rssi) s = .next t ∧ (vget t.slc n).frame = some g ∧ g.hdr = true ∧
      g.mcs = (headerFields f.wave f.rxcfg h).2.1 ∧ g.flags = (headerFields f.wave f.rxcfg h).2.2.1 ∧
      g.len = (headerFields f.wave f.rxcfg h).2.2.2.1 ∧ g.rssi = some (s.rssiOf f.chain rssi) ∧
      g.est = headerEstimate h ∧
      ((headOf f.wave head).any (·.ackreq) = false → g.carrier = f.carrier ∧ t.get (PHY_STAT.LENGTH n) = g.len ∧
        KeepsRegs s t [PHY_STAT.addr n] ∧ KeepsMemory s t)) ∧
  (∀ (n : Fin 16) (body : RxBody) (f : RxFrame) (s : State), (vget s.slc n).frame = some f → s.frameOver f body = false →
    exec (.frameVerdict n body) s = .next s) ∧
  (∀ (n : Fin 16) (body : RxBody) (f : RxFrame) (s : State), (vget s.slc n).frame = some f →
    s.frameOver f body = true → (∀ a ∈ s.lnk.rx, a.slice ≠ some n.val) → (∀ a ∈ s.lnk.tx, a.slice ≠ some n.val) →
    f.carrier = none →
    (let psdu := bodyPsdu f body
     ∃ t, exec (.frameVerdict n body) s = .next t ∧ t.get (PHY_STAT.CODE n) = verdictOf f psdu % 16 ∧
      (vget t.slc n).frame = none ∧ t.bit (SLC_STAT.SYNC n) = false ∧
      (verdictOf f psdu = 1 → t.get (PHY_OKCNT.COUNT n) = min (2 ^ 32 - 1) (s.get (PHY_OKCNT.COUNT n) + 1) ∧
        ∃ d, t.lnk.done = s.lnk.done ++ [d] ∧ d.slice = n.val ∧ d.stamp = f.stamp ∧ d.mpdu = psdu.take (f.len - f.fcs) ∧
          d.lq = (bodyQuality f body).1) ∧
      (verdictOf f psdu ≠ 1 → t.get (PHY_ERRCNT.BODY n) = min 65535 (s.get (PHY_ERRCNT.BODY n) + 1) ∧
        t.lnk.done = s.lnk.done) ∧ KeepsBlocks s t [4, 5, 8] ∧ KeepsMemory s t))

/-- CODEWORD_READY, CODEWORD_DECODED (R97, R109 to R112). -/
def Obligations.DecoderPoolCompletes : Prop :=
  (∀ (n : Fin 16) (symbols : List (List Cx)) (f : RxFrame) (s : State), (vget s.slc n).frame = some f → f.hdr = true →
    isMf f.wave = true → s.dOn 19 = true →
    (let g := symbols.foldl takeSymbol f
     ∃ t, exec (.codewordReady n symbols) s = .next t ∧ KeepsMemory s t ∧
      (if mfCodewords g.mcs g.len ≤ g.codewords ∨ g.soft.length < codewordEnd g g.codewords then
         (vget t.slc n).frame = some g ∧ t.phy = s.phy ∧ KeepsRegs s t []
       else if g.cwStatus = some 8 then
         (vget t.slc n).frame = some { g with codewords := g.codewords + 1 } ∧ t.phy = s.phy ∧ KeepsRegs s t []
       else if s.phy.queue.length < 32 then
         (vget t.slc n).frame = some { g with codewords := g.codewords + 1 } ∧
         t.phy.queue.length + (List.range 4).countP (fun d => (vget t.phy.dec d).isSome) =
           s.phy.queue.length + (List.range 4).countP (fun d => (vget s.phy.dec d).isSome) + 1 ∧
           s.get PHY_POOL.PEAK ≤ t.get PHY_POOL.PEAK ∧ KeepsRegs s t [PHY_POOL.addr]
       else (vget t.slc n).frame = some { g with codewords := g.codewords + 1, cwStatus := some 8 } ∧
         t.get PHY_CWDROP.COUNT = min 65535 (s.get PHY_CWDROP.COUNT + 1) ∧ t.bit PHY_EVT.POOLFULL = true ∧
         t.phy = s.phy ∧ KeepsRegs s t [PHY_CWDROP.addr, PHY_EVT.addr]))) ∧
  (∀ (d : Fin 4) (w : Codeword) (s : State), vget s.phy.dec d = some w →
    (let r := ldpcDecode w.k (s.bit PHY_CTRL.EARLY) (s.get PHY_CTRL.MAXIT + 1) w.soft
     ∃ t, exec (.codewordDecoded d) s = .next t ∧
      t.get PHY_CWCNT.COUNT = min (2 ^ 32 - 1) (s.get PHY_CWCNT.COUNT + 1) ∧
      (∀ f, (vget s.slc w.slice).frame = some f → f.fid = w.fid →
        (vget t.slc w.slice).frame = some { f with
          decoded := f.decoded ++ [(w.index, r.1)]
          cwStatus := if r.2 then f.cwStatus else some (f.cwStatus.getD 3) }) ∧
      (if r.2 = true then KeepsRegs s t [PHY_CWCNT.addr, PHY_POOL.addr]
       else t.get PHY_CWFAIL.COUNT = min 65535 (s.get PHY_CWFAIL.COUNT + 1) ∧ t.bit PHY_EVT.CWFAIL = true ∧
         KeepsRegs s t [PHY_CWCNT.addr, PHY_CWFAIL.addr, PHY_EVT.addr, PHY_POOL.addr]) ∧ KeepsMemory s t))

/-- TX_GATE, TX_LATE_EXPIRY (R15, R122, R124 to R126, R132, R141, R142). -/
def Obligations.CarrierGatesComplete : Prop :=
  (∀ (c : Fin 8) (grant : Bool) (k : Carrier) (s : State), s.cr c = some k → k.phase = .held →
    (k.ack = true → k.armed = true) → (∀ a, s.actOf c = some a → a.sensing = false ∧ a.cca = false) →
    ∃ t, exec (.txGate c grant) s = .next t ∧
      (let g := ({ s with pad := { s.pad with gnt := grant } } : State).coexWires
       let k' := { k with ru := s.rampUs (c / 4) }
       (s.txReady (c / 4) = false → t.cr c = some { k' with phase := .waiting } ∧ KeepsRegs s t [COEX_STAT.addr]) ∧
       (∀ l n, s.txReady (c / 4) = true → (g.setCar c (some k')).gateChecks c k' (g.rampOf (c / 4) k') = .inr (l, n) →
         t.cr c = some { k' with phase := .gated, level := l } ∧
           (vget t.glz.duty n).charges = (vget s.glz.duty n).charges ++ [((vget s.glz.duty n).secs, k.air)] ∧
           KeepsBlocks s t [6, 24]) ∧
       (∀ x, s.txReady (c / 4) = true → s.actOf c = none → (g.setCar c (some k')).gateChecks c k' (g.rampOf (c / 4) k') = .inl x →
         t.cr c = none ∧ t.get (TXF_CARSTAT.STATUS c) = x ∧ t.glz = s.glz)) ∧ KeepsMemory s t) ∧
  (∀ (c : Fin 8) (k : Carrier) (s : State), s.cr c = some k → k.phase = .waiting → s.actOf c = none →
    ∃ t, exec (.txLateExpiry c) s = .next t ∧ t.cr c = none ∧ t.get (TXF_CARSTAT.STATUS c) = 3 ∧
      t.get (if c / 4 = 0 then TXF_LATECNT.A else TXF_LATECNT.B) =
        min 65535 (s.get (if c / 4 = 0 then TXF_LATECNT.A else TXF_LATECNT.B) + 1) ∧
      t.bit (if c / 4 = 0 then TXF_EVT.LATEA else TXF_EVT.LATEB) = true ∧ KeepsMemory s t)

/-- RAMP_UP_START, FRAME_LAUNCH, LAST_SAMPLE, RAMP_DOWN_END (R68, R119, R122, R126, R127, R129, R135, R176, R265, R269). -/
def Obligations.CarrierLifeCompletes : Prop :=
  (∀ (c : Fin 8) (k : Carrier) (s : State), s.cr c = some k → k.phase = .gated → s.levelFor c k = none → s.actOf c = none →
    ∃ t, exec (.rampUpStart c) s = .next t ∧ t.cr c = none ∧ t.get (TXF_CARSTAT.STATUS c) = 2 ∧ t.bit TXF_EVT.NOCAR = true ∧
      KeepsMemory s t) ∧
  (∀ (c : Fin 8) (k : Carrier) (l : Int) (s : State), s.cr c = some k → k.phase = .gated → s.levelFor c k = some l →
    (∀ n, (vget s.slc n).frame = none) →
    (vget s.rxc (c / 4)).window = none → (∀ a n, s.actOf c = some a → a.slice = some n → n < 16) →
    ∃ t, exec (.rampUpStart c) s = .next t ∧ t.cr c = some { k with
        phase := .rampUp, level := l, rampClk := s.clk, taps := s.shapeOf k.wave } ∧
      t.get (TXF_CARLVL.LEVEL c) = unsign 8 l ∧ (k.want ≠ l → t.bit TXF_EVT.CLAMP = true) ∧
      t.bit (RXF_STAT.DEAF (c / 4)) = true ∧ t.bit (TXF_CARSTAT.SEND c) = true ∧
      (s.bit (RXF_STAT.DEAF (c / 4)) = false → t.get (RXF_STAT.GAINIDX (c / 4)) = 15 ∧
        (vget t.rxc (c / 4)).gainBefore = s.get (RXF_STAT.GAINIDX (c / 4))) ∧
      KeepsBlocks s t [3, 4, 6] ∧ KeepsMemory s t) ∧
  (∀ (c : Fin 8) (k : Carrier) (s : State), s.cr c = some k → k.phase = .rampUp →
    ∃ t, exec (.frameLaunch c) s = .next t ∧ t.cr c = some (s.launched (c / 4) k) ∧
      t.get (TSU_TXST0.NS c) = tbNs k.launch ∧ t.get (TSU_TXST1.SEC c) = tbSec k.launch % 65536 ∧
      t.get (TSU_TXST1.FRAC c) = tbFrac k.launch ∧
      KeepsRegs s t [TSU_TXST0.addr c, TSU_TXST1.addr c, TXF_EVT.addr] ∧ KeepsMemory s t) ∧
  (∀ (c : Fin 8) (k : Carrier) (s : State), s.cr c = some k → k.phase = .sending →
    ∃ t, exec (.lastSample c) s = .next t ∧ t.cr c = some { k with phase := .rampDown, result := 0, rampClk := s.clk } ∧
      KeepsRegs s t [] ∧ KeepsMemory s t) ∧
  (∀ (c : Fin 8) (k : Carrier) (s : State), s.cr c = some k → k.phase = .rampDown → k.ack = false → k.copies = 0 →
    (s.actOf c = none ∨ (k.result = 0 ∧ ∃ a, s.actOf c = some a ∧ a.wantAck = true)) →
    ∃ t, exec (.rampDownEnd c) s = .next t ∧ t.cr c = none ∧ t.get (TXF_CARSTAT.STATUS c) = k.result % 16 ∧
      ((∀ d o, s.cr d = some o → d ≠ c.val → d / 4 = c.val / 4 → o.on = false) → t.bit (RXF_STAT.DEAF (c / 4)) = false) ∧
      (∀ a, s.actOf c = some a →
        t.lnk.tx = s.lnk.tx.map (fun b => if b.id = a.id then { b with waiting := true, carrier := none } else b)) ∧
      KeepsMemory s t)

/-- MASK_CHECK_END, GLAZE_CUT, DUTY_BUCKET_ROLL (R136, R137, R142, R143). -/
def Obligations.EmissionChecksComplete : Prop :=
  (∀ (c : Fin 8) (bins : List (Int × Int)) (k : Carrier) (m : Nat) (s : State), s.cr c = some k → k.phase = .sending →
    s.maskOf k.wave = some m →
    ∃ t, exec (.maskCheckEnd c bins) s = .next t ∧
      (let pts := s.maskPoints m
       let breaks := bins.any (fun b => decide (((k.freq : Int) + b.1 * 100000 - (s.get (TXF_LO.FREQ (c / 4)) : Int)).natAbs ≤ 20000000)
         && maskBreaks b.1.natAbs b.2 pts)
       (maskAscends pts = false → t.bit TXF_EVT.MASKBAD = true ∧ KeepsRegs s t [TXF_EVT.addr] ∧ t.car = s.car) ∧
       (maskAscends pts = true → breaks = false → t = s) ∧
       (maskAscends pts = true → breaks = true →
         t.get (byChain (c / 4) TXF_MASKCNT.A TXF_MASKCNT.B) =
           min 65535 (s.get (byChain (c / 4) TXF_MASKCNT.A TXF_MASKCNT.B) + 1) ∧
         t.bit (byChain (c / 4) TXF_EVT.MASKA TXF_EVT.MASKB) = true ∧
         (s.bit (TXF_CTRL.MASKCUT (c / 4)) = false → KeepsRegs s t [TXF_MASKCNT.addr, TXF_EVT.addr] ∧ t.car = s.car) ∧
         (s.bit (TXF_CTRL.MASKCUT (c / 4)) = true → s.actOf c = none →
           t.cr c = some { k with phase := .rampDown, result := 6, copies := 0, rampClk := s.clk }))) ∧ KeepsMemory s t) ∧
  (∀ (c : Fin 8) (level : Int) (k : Carrier) (s : State), s.cr c = some k → k.phase = .sending →
    (level ≤ 50 * k.level + 200 → exec (.glazeCut c level) s = .next s) ∧
    (50 * k.level + 200 < level → s.actOf c = none →
      ∃ t, exec (.glazeCut c level) s = .next t ∧ t.cr c = some { k with phase := .rampDown, result := 14, copies := 0, rampClk := s.clk } ∧
        t.get (GLZ_REFCNT.COUNT 6) = min (2 ^ 32 - 1) (s.get (GLZ_REFCNT.COUNT 6) + 1) ∧ t.bit GLZ_EVT.CUT = true ∧
        t.get (TXF_CARSTAT.STATUS c) = 14 ∧ KeepsRegs s t [GLZ_REFCNT.addr 6, GLZ_EVT.addr, TXF_CARSTAT.addr c] ∧
        KeepsMemory s t)) ∧
  (∀ s : State, ∃ t, exec .dutyBucketRoll s = .next t ∧
    (∀ n, n < 16 → (vget t.glz.duty n).secs = (vget s.glz.duty n).secs + 1 ∧
      (vget t.glz.duty n).charges =
        (vget s.glz.duty n).charges.filter (fun c => decide ((vget s.glz.duty n).secs + 1 < c.1 + 3600))) ∧
    KeepsRegs s t [] ∧ KeepsMemory s t)

/-- LO_WRITE, RETUNE_HELD_START, SYNTH_CALIBRATION_END, SYNTH_LOCK, SYNTH_UNLOCK (R16, R123, R131, R146). -/
def Obligations.SynthesisersComplete : Prop :=
  (∀ (e : Fin 16) (x : Fin 2) (v : Word) (s : State), s.reaches e (TXF_LO.addr x) →
    ∃ t, exec (.loWrite e x v) s = .next t ∧
      (let lo := if x.val = 0 then 380000000 else 2380000000
       let hi := if x.val = 0 then 980000000 else 2503500000
       if s.bit (TXF_CTRL.LOMODE x) = true ∧ lo ≤ v.toNat ∧ v.toNat ≤ hi then
         if s.chainIdle x = true ∧ s.holdover = false then
           t.reg (TXF_LO.addr x) = v ∧ t.bit (TXF_STAT.CAL x) = true ∧ t.bit (TXF_STAT.LOCK x) = false ∧
             t.synLocked x = false ∧ (vget t.txc x).heldLo = none
         else (vget t.txc x).heldLo = some v.toNat ∧ t.bit (TXF_STAT.RETPEND x) = true ∧
           t.reg (TXF_LO.addr x) = s.reg (TXF_LO.addr x)
       else KeepsRegs s t [] ∧ t.txc = s.txc) ∧ KeepsBlocks s t [0, 6] ∧ KeepsMemory s t) ∧
  (∀ (x : Fin 2) (s : State), s.dOn (20 + x) = true →
    (∀ lo, (vget s.txc x).heldLo = some lo → s.chainIdle x = true → s.holdover = false →
      ∃ t, exec (.retuneHeldStart x) s = .next t ∧ t.get (TXF_LO.FREQ x) = lo % 2 ^ 32 ∧ (vget t.txc x).heldLo = none ∧
        t.bit (TXF_STAT.CAL x) = true ∧ t.bit (TXF_STAT.RETPEND x) = false ∧ KeepsBlocks s t [0, 6] ∧ KeepsMemory s t) ∧
    (∃ t, exec (.synthCalibrationEnd x) s = .next t ∧ t.bit (TXF_STAT.CAL x) = false ∧ KeepsRegs s t [TXF_STAT.addr x] ∧
      KeepsMemory s t) ∧
    (s.holdover = false → (∀ c k, c ∈ carriersOf x → s.cr c = some k → k.phase ≠ .waiting) →
      ∃ t, exec (.synthLock x) s = .next t ∧ t.bit (TXF_STAT.LOCK x) = true ∧ t.synLocked x = true ∧
        t.bit (TXF_STAT.CAL x) = false ∧ KeepsRegs s t [TXF_STAT.addr x, SYS_CLKSTAT.addr] ∧ KeepsMemory s t) ∧
    (s.synLocked x = true → (∀ c ∈ carriersOf x, s.cr c = none) →
      ∃ t, exec (.synthUnlock x) s = .next t ∧ t.bit (byChain x TXF_EVT.UNLOCKA TXF_EVT.UNLOCKB) = true ∧
        t.bit SYS_FAULTREC.VALID = true ∧ t.synLocked x = false ∧ t.bit (TXF_STAT.LOCK x) = false ∧
        t.bit (TXF_STAT.CAL x) = true ∧ KeepsBlocks s t [0, 1, 6] ∧ KeepsMemory s t))

/-- COEX_REQUEST_ASSERT, COEX_GRANT_DROP, GLAZE_SEAL, GLAZE_PROGRAM_DONE (R138 to R140, R144). -/
def Obligations.CoexistenceAndSealComplete : Prop :=
  (∀ (c : Fin 8) (k : Carrier) (s : State), s.cr c = some k → k.phase = .held → s.coexOn (c / 4) = true →
    ∃ t, exec (.coexRequestAssert c) s = .next t ∧
      t.cr c = some { k with
        req := true, pri := if k.ack = true then s.bit COEX_CTRL.ACKPRI else decide (s.get COEX_CTRL.PRITC ≤ k.tc) } ∧
      t.bit COEX_STAT.REQ = true ∧ KeepsRegs s t [COEX_STAT.addr] ∧ KeepsMemory s t) ∧
  (∀ s : State, s.bit COEX_CTRL.EN = true → s.dOn 22 = true →
    ∃ t, exec .coexGrantDrop s = .next t ∧ t.bit COEX_STAT.GNT = false ∧
      (s.bit COEX_CTRL.GNTCUT = false → t.car = s.car ∧ KeepsRegs s t [COEX_STAT.addr] ∧ KeepsMemory s t) ∧
      (s.bit COEX_CTRL.GNTCUT = true → s.lnk.tx = [] →
        ∀ (c : Fin 8) (k : Carrier), s.cr c = some k → s.coexOn (c / 4) = true → (k.phase = .rampUp ∨ k.phase = .sending) →
          t.cr c = some { k with phase := .rampDown, result := 4, copies := 0, rampClk := s.clk } ∧ t.bit COEX_EVT.CUT = true)) ∧
  (∀ (e : Fin 16) (v : Word) (s : State), s.reaches e GLZ_SEAL.addr → s.bit GLZ_STAT.SEALED = false →
    s.glz.burning = none → fieldOf v 16 16 = 0xC6A0 → fieldOf v 0 1 = 1 →
    ∃ t, exec (.glazeSeal e v) s = .next t ∧
      (if s.sec.lc ≤ 1 ∧ s.bit PWR_STAT.PFW = false then
         t.bit GLZ_STAT.BUSY = true ∧ t.glz.burning = some s.glazeWords ∧ KeepsRegs s t [GLZ_STAT.addr]
       else t.bit GLZ_EVT.SEALERR = true ∧ t.glz = s.glz ∧ KeepsRegs s t [GLZ_EVT.addr]) ∧ KeepsMemory s t) ∧
  (∀ (ws : List Word) (s : State), s.glz.burning = some ws →
    ∃ t, exec .glazeProgramDone s = .next t ∧ t.glz.otp = some (ws, glazeCrc ws) ∧ t.glz.burning = none ∧
      t.bit GLZ_STAT.SEALED = true ∧ t.bit GLZ_STAT.BUSY = false ∧ t.bit GLZ_STAT.BAD = false ∧
      (ws.length = 130 → t.glazeWords = ws) ∧ KeepsBlocks s t [7] ∧ KeepsMemory s t)


/-- FRAME_ACCEPTANCE (R166 to R169, R182): statuses 20 OK, 21 duplicate, 22 twin, 23 filtered, 24 security. -/
def Obligations.FrameAcceptanceCompletes : Prop :=
  ∀ (n : Fin 16) (d : RxDone) (h : Head) (s w : State), w = s.each (s.alsoDecided n) (fun s m => s.decideFrame m.val) →
    w.lnk.done.find? (fun d => decide (d.slice = n.val) && d.owed.isNone) = some d → headOf d.wave d.mpdu = some h →
    (let src := h.src.getD 0
     let idx := if h.src.isSome = true then w.nbrOf src else 255
     let twin := w.isTwin src h.seq d.freq d.stamp
     let mine := h.type ≠ 2 ∧ h.netid = w.get LNK_ADDR.NETID ∧ (h.bcast = true ∨ h.dst = w.get LNK_ADDR.ADDR)
     let needSec := w.bit LNK_CTRL.SECREQ = true ∨ (idx ≠ 255 ∧ w.bit (nb idx 0 28 1) = true)
     let dup := idx ≠ 255 ∧ w.isDup idx h.seq = true
     ∃ t, exec (.frameAcceptance n) s = .next t ∧ t.get LNK_RXSTAT.SLICE = n ∧
      (twin = true → t.get LNK_RXSTAT.STATUS = 0x22 ∧ KeepsMemory w t ∧
        t.get LNK_RXERRCNT.DUP = min 65535 (w.get LNK_RXERRCNT.DUP + 1)) ∧
      (twin = false → ¬ mine → t.get LNK_RXSTAT.STATUS = 0x23 ∧ KeepsMemory w t) ∧
      (twin = false → mine → h.sec = false → needSec →
        t.get LNK_RXSTAT.STATUS = 0x24 ∧ t.bit LNK_EVT.SEC = true ∧ KeepsMemory w t) ∧
      (twin = false → mine → h.sec = false → ¬ needSec → dup → t.get LNK_RXSTAT.STATUS = 0x21 ∧ KeepsMemory w t) ∧
      (twin = false → mine → h.sec = false → ¬ needSec → ¬ dup →
        (((if h.src.isSome = true then w.nbrScan src else w).remember src h.seq d.freq d.stamp).offerMesh d h idx (d.mpdu.drop h.len)).1 = true →
        t.get LNK_RXSTAT.STATUS = 0x20 ∧ t.get LNK_RXSTAT.NBR = idx ∧
          t.get LNK_RXOKCNT.COUNT = min (2 ^ 32 - 1) (w.get LNK_RXOKCNT.COUNT + 1) ∧
          (h.ackreq = true → h.bcast = false → (idx ≠ 255 ∨ w.bit LNK_CTRL.ACKUNK = true) → d.more = false →
            { d with owed := some (false, idx) } ∈ t.lnk.done)) ∧
      (h.ackreq = false → ∀ x ∈ t.lnk.done, x.fid ≠ d.fid))

/-- TX_CELL_START, ACK_LAUNCH (R122, R133, R134, R153, R157, R158, R169, R170). -/
def Obligations.TransmitActionsComplete : Prop :=
  (∀ (cell : Fin 4096) (a : TxAct) (s : State), s.lnk.tx.find? (fun a => decide (a.cell = cell.val) && !a.started) = some a →
    a.chain < 2 →
    ∃ t, exec (.txCellStart cell) s = .next t ∧
      (let b := { a with started := true }
       let u := s.modTx a.id (fun _ => b)
       (a.kind ≠ 3 → s.txDomains a = false → a.pkt = none → (∀ x ∈ t.lnk.tx, x.id ≠ a.id) ∧ t.get LNK_TXSTAT.STATUS = 0x27 ∧
         t.get LNK_SKIPCNT.TX = min 65535 (s.get LNK_SKIPCNT.TX + 1) ∧ t.bit LNK_EVT.SKIP = true) ∧
       (s.txDomains a = true → (u.txSelect b).2 = none → (u.txSelect b).1.lnk.tx = u.lnk.tx → ∀ x ∈ t.lnk.tx, x.id ≠ a.id) ∧
       (a.kind = 3 → (u.txSelect b).2 = none → (u.txSelect b).1.lnk = u.lnk →
         (∀ x ∈ t.lnk.tx, x.id ≠ a.id) ∧ t.lnk.rx = s.lnk.rx) ∧
       (∀ w q p v m y c, s.txDomains a = true → w.txDomains b = true → u.txSelect b = (w, some (q, p)) →
         (let b2 := { b with pkt := some (q, p.pid) }
          let z := ((w.dropRx b).modTx b.id (fun _ => b2)).corrected (packetWord p)
          z.eccInPacket p = none → z.planFrame b2 p.len = .inr v → z.frameBytes b2 q p v = some (m, y) →
          a.cca = false → a.ackreq = false →
          y.placeCar a.chain a.freq a.wave a.launch (some ((v.copies + 1) * (v.air + 4000) - 4000)) [] = some (c, none) →
          ∃ k, t.cr c = some k ∧ k.phase = .held ∧ k.mpdu = m ∧ k.launch = a.launch ∧ k.freq = a.freq ∧ k.want = v.level ∧
            k.mcs = v.mcs ∧ k.copies = v.copies ∧ k.ack = false)))) ∧
  (∀ (n : Fin 16) (d : RxDone) (nack : Bool) (nbr c : Nat) (o : Carrier) (s : State),
    s.lnk.done.find? (fun d => decide (d.slice = n.val) && d.owed.isSome) = some d → d.owed = some (nack, nbr) →
    d.carrier = some c → s.cr c = some o → o.ack = true → o.armed = false →
    ∃ t k, exec (.ackLaunch n) s = .next t ∧ t.cr c = some k ∧ k.ack = true ∧ k.armed = true ∧ k.slice = n.val ∧
      k.phase = .held ∧ k.mpdu = s.ackMpdu d nack ∧ k.freq = d.freq ∧ k.wave = d.wave ∧ k.want = s.ackLevel nbr ∧
      k.launch = tbPlus d.endAt ((gapUs d.wave * usTb : Nat) : Int) ∧
      t.lnk.done = s.lnk.done.filter (fun e => e.fid ≠ d.fid) ∧ KeepsRegs s t [] ∧ KeepsMemory s t)

/-- CCA_START, CCA_END, ACK_WAIT_TIMEOUT, RX_WINDOW_OPEN, RX_WINDOW_CLOSE (R144, R157 to R159, R161, R175). -/
def Obligations.SlotWindowsComplete : Prop :=
  (∀ (cell : Fin 4096) (a : TxAct) (n : Fin 16) (s : State),
    s.lnk.tx.find? (fun a => decide (a.cell = cell.val) && a.cca && a.carrier.isSome && !a.sensing) = some a →
    a.slice = some n.val →
    ∃ t, exec (.ccaStart cell) s = .next t ∧
      t.lnk.tx = s.lnk.tx.map (fun b => if b.id = a.id then
        { b with sensing := true, busy := s.bit (RXF_STAT.DEAF a.chain) } else b) ∧
      (vget t.slc n).freq = a.freq ∧ (vget t.slc n).wave = a.wave ∧ KeepsBlocks s t [4] ∧ KeepsMemory s t) ∧
  (∀ (cell : Fin 4096) (power : Int) (a : TxAct) (c : Nat) (k : Carrier) (s : State),
    s.lnk.tx.find? (fun a => decide (a.cell = cell.val) && a.sensing) = some a → a.carrier = some c → s.cr c = some k →
    ∃ t, exec (.ccaEnd cell power) s = .next t ∧
      (if a.busy = true ∨ 2 * s.getS LNK_CCA.THR ≤ s.rssiOf a.chain power then
         t.cr c = none ∧ (a.pkt = none → t.get LNK_TXSTAT.STATUS = 0x12 ∧ ∀ x ∈ t.lnk.tx, x.id ≠ a.id)
       else t.cr c = some { k with cca := some (s.tb 0) } ∧
         t.lnk.tx = s.lnk.tx.map (fun b => if b.id = a.id then
           (let b := { b with sensing := false, cca := false }
            if a.ackreq = true then b else { b with slice := none }) else b) ∧ KeepsMemory s t)) ∧
  (∀ (cell : Fin 4096) (a : TxAct) (s : State),
    s.lnk.tx.find? (fun a => decide (a.cell = cell.val) && a.waiting) = some a →
    ∃ t, exec (.ackWaitTimeout cell) s = .next t ∧
      (if a.slice.any (fun n => (vget s.slc n).frame.isSome) = true then
         t.lnk.tx = s.lnk.tx.map (fun b => if b.id = a.id then { b with late := true } else b) ∧ KeepsRegs s t [] ∧
           KeepsMemory s t
       else (a.pkt = none → t.get LNK_TXSTAT.STATUS = 0x10 ∧ (∀ x ∈ t.lnk.tx, x.id ≠ a.id) ∧ KeepsMemory s t) ∧
         (∀ q i p, a.pkt = some (q, i) → (s.q q).pkts.find? (fun p => p.pid = i) = some p →
           t.get LNK_RETRYCNT.COUNT = min (2 ^ 32 - 1) (s.get LNK_RETRYCNT.COUNT + 1)))) ∧
  (∀ (cell : Fin 4096) (a : RxAct) (s : State),
    s.lnk.rx.find? (fun a => decide (a.cell = cell.val) && !a.opened && !s.lnk.tx.any (fun b => decide (b.id = a.id))) = some a →
    ((s.dOn (16 + a.chain) && s.dOn 18 && s.dOn 19) = false →
      ∃ t, exec (.rxWindowOpen cell) s = .next t ∧ (∀ x ∈ t.lnk.rx, x.id ≠ a.id) ∧ t.get LNK_RXSTAT.STATUS = 0x27 ∧
        t.get LNK_SKIPCNT.RX = min 65535 (s.get LNK_SKIPCNT.RX + 1) ∧ t.bit LNK_EVT.SKIP = true ∧ KeepsMemory s t) ∧
    (∀ (n : Nat), (s.dOn (16 + a.chain) && s.dOn 18 && s.dOn 19) = true → s.freeSched = some n → s.chainDeaf a.chain = false →
      s.slcWaits n = false →
      ∃ t, exec (.rxWindowOpen cell) s = .next t ∧
        t.lnk.rx = s.lnk.rx.map (fun b => if b.id = a.id then { b with slice := some n, opened := true } else b) ∧
        t.bit (SLC_STAT.ACT n) = true ∧ (vget t.slc n).freq = a.freq ∧ (vget t.slc n).wave = a.wave ∧
        t.lnk.rxReq = (if s.bit COEX_CTRL.RXREQ = true then s.lnk.rxReq ++ [a.id] else s.lnk.rxReq) ∧
        KeepsBlocks s t [4, 24] ∧ KeepsMemory s t)) ∧
  (∀ (cell : Fin 4096) (a : RxAct) (s : State),
    s.lnk.rx.find? (fun a => decide (a.cell = cell.val) && a.opened && !a.closed) = some a →
    ∃ t, exec (.rxWindowClose cell) s = .next t ∧
      (if a.slice.any (fun n => s.bit (SLC_STAT.SYNC n)) = true then
         t.lnk.rx = s.lnk.rx.map (fun b => if b.id = a.id then { b with closed := true } else b) ∧ KeepsRegs s t []
       else (∀ x ∈ t.lnk.rx, x.id ≠ a.id) ∧ t.get LNK_RXSTAT.STATUS = 0x26) ∧ KeepsMemory s t)

/-- NBR_TABLE_WRITE, SCAN_RUN_WRITE (R180, R201, R204). -/
def Obligations.LinkWritesComplete : Prop :=
  (∀ (e : Fin 16) (n : Fin 256) (word : Bool) (v : Word) (s : State), s.reaches e (LNK_NBR0.addr n) →
    ∃ t, exec (.nbrTableWrite e n word v) s = .next t ∧
      (if s.lnk.pend.length < 32 then
         t.lnk.pend = s.lnk.pend ++ [if word = true then (LNK_NBR1.addr n, v &&& 0xFFF0FF00#32)
           else (LNK_NBR0.addr n, v &&& 0xF000FFFF#32)] ∧ KeepsRegs s t []
       else t.lnk.pend = s.lnk.pend ∧ t.bit LNK_EVT.WPEND = true ∧ KeepsRegs s t [LNK_EVT.addr]) ∧ KeepsMemory s t) ∧
  (∀ (e : Fin 16) (v : Word) (s : State), s.reaches e LNK_SCAN.addr →
    ∃ t, exec (.scanRunWrite e v) s = .next t ∧ t.get LNK_SCAN.RUN = fieldOf v 31 1 ∧
      t.get LNK_SCAN.SLICE = fieldOf v 20 4 ∧ t.get LNK_SCAN.ROUNDS = fieldOf v 0 8 ∧
      t.get LNK_SCAN.WAVE = (if waveOk (fieldOf v 16 4) = true then fieldOf v 16 4 else 2) ∧
      t.get LNK_SCAN.DWELL = max 1 (fieldOf v 8 8) ∧
      (s.lnk.scan = none → KeepsRegs s t [LNK_SCAN.addr]) ∧
      (∀ c, s.lnk.scan = some c → fieldOf v 31 1 = 0 → t.lnk.scan = none ∧ t.get (SLC_CFG.MODE c.slice) = 0) ∧
      KeepsMemory s t)


/-- MSH_DECISION (R207, R209 to R213, R241, R242). -/
def Obligations.MeshDecisionCompletes : Prop :=
  ∀ (p : Nat) (i : Ingress) (s : State), s.dOn 23 = true → s.nextIngress = some (p, i) → i.raw = false → i.cells = [] →
    ∃ t, exec .mshDecision s = .next t ∧
      (let u : State := { s with msh := { s.msh with last := p } }
       let b := clampHop i.bytes (s.get MSH_CTRL.MAXHOP)
       let j := { i with bytes := b }
       let gone := vget t.msh.ports p = removeFirst i (vget s.msh.ports p)
       let inc16 (l : Loc) := t.get l = min 65535 (s.get l + 1)
       let ok := s.bit MSH_CTRL.EN = true ∧ headerOk b false = true
       let loop := isLink p = true ∧ crustSrc b = s.get LNK_ADDR.ADDR
       let away := ok ∧ ¬ loop ∧ crustBcast b = false ∧ crustMcast b = false ∧ crustDst b ≠ s.get LNK_ADDR.ADDR
       let hops := if isLink p = true then 2 else 1
       (s.bit MSH_CTRL.EN = false → gone ∧ inc16 MSH_DROPCNT2.QDROP) ∧
       (s.bit MSH_CTRL.EN = true → headerOk b false = false → gone ∧ inc16 MSH_DROPCNT1.BADHDR) ∧
       (ok → loop → gone ∧ inc16 MSH_DROPCNT1.LOOP ∧ t.bit MSH_EVT.LOOP = true) ∧
       (away → crustHop b < hops → gone ∧ inc16 MSH_DROPCNT0.HOPEXP ∧ t.bit MSH_EVT.HOPEXP = true) ∧
       (away → hops ≤ crustHop b → s.lookup (crustDst b) = .noRoute → s.ftEcc (crustDst b) = none →
         gone ∧ inc16 MSH_DROPCNT0.NOROUTE ∧ t.bit MSH_EVT.NOROUTE = true) ∧
       (∀ o n, away → hops ≤ crustHop b → s.lookup (crustDst b) = .to o n → s.ftEcc (crustDst b) = none →
         wiredOutlet p ≠ some o → (s.q (s.classQueue o (crustTc b))).outlet = o →
         (let q := s.classQueue o (crustTc b)
          let hop := if isLink p = true then some (crustHop b - 1) else none
          let r := (u.offerTo o q b (descOf j p n (s.isControl j o q) hop) none).1
          (r = none → (2 ≤ o ∨ b.length ≤ (if o = 0 then s.get MSH_FRAG.MAXA else s.get MSH_FRAG.MAXB)) →
            gone ∧ t.get MSH_FWDCNT.COUNT = min (2 ^ 32 - 1) (s.get MSH_FWDCNT.COUNT + 1) ∧
            ∃ k, (t.q q).pkts = (s.q q).pkts ++ [k] ∧ k.nbr = n ∧ k.tc = crustTc b ∧ k.hopOut = hop ∧ k.len = b.length ∧
              k.control = s.isControl j o q ∧ k.inflight = false) ∧
          (r = some .nobuf → portWaits p = true →
            vget t.msh.ports p = (vget s.msh.ports p).map (fun x =>
              if x = i then { x with waiting := some (s.waitPlace i p) } else x)))))

/-- NOBUF_REOFFER, MSH_DOWN_CLEAR (R212, R242). -/
def Obligations.WaitingAndDownComplete : Prop :=
  (∀ (port : Fin 6) (s : State), s.dOn 23 = true →
    ((∀ i ∈ vget s.msh.ports port, i.waiting = none) → exec (.nobufReoffer port) s = .next s) ∧
    (∀ (i : Ingress) (o n q : Nat) (hop : Option Nat), (vget s.msh.ports port).filter (fun i => i.waiting.isSome) = [i] → i.waiting = some (o, n, q, hop) →
      i.cells = [] → i.raw = false → port.val ≠ 2 → port.val ≠ 3 →
      ∃ t, exec (.nobufReoffer port) s = .next t ∧
        (let b := clampHop i.bytes (s.get MSH_CTRL.MAXHOP)
         let r := (s.offerTo o q b (descOf i port n (s.isControl i o q) hop) none).1
         let cnt := if o = 6 ∨ o = 7 then MSH_LOCALCNT.COUNT else MSH_FWDCNT.COUNT
         (r = some .nobuf → vget t.msh.ports port = vget s.msh.ports port) ∧
         (r = none → vget t.msh.ports port = removeFirst i (vget s.msh.ports port) ∧
           t.get cnt = min (2 ^ 32 - 1) (s.get cnt + 1))))) ∧
  (∀ (e : Fin 16) (n : Fin 8) (v : Word) (s : State), s.reaches e (MSH_DOWN.addr n) →
    ∃ t, exec (.mshDownClear e n v) s = .next t ∧
      (∀ j, j < 32 → t.isDown (32 * n + j) = (s.isDown (32 * n + j) && !(v.getLsbD j && !s.downHot (32 * n + j)))) ∧
      (∀ j, j < 32 → v.getLsbD j = true → s.isDown (32 * n + j) = true → s.downHot (32 * n + j) = false → aget t.msh.retryDrops (32 * n + j) = none) ∧
      KeepsRegs s t [MSH_DOWN.addr n] ∧ KeepsMemory s t)


/-- OUTLET_SELECT, LAUNCH_TIME_REACHED, OUTLET_SEND_DONE (R244 to R246, R248, R254, R270). -/
def Obligations.OutletsComplete : Prop :=
  (∀ (o : Fin 8) (q : Nat) (p : Packet) (s : State), (o.val = 2 ∨ o.val = 3 ∨ o.val = 4) → s.dOn 23 = true →
    vget s.qsc.sending o = none → s.linkReady o = true →
    ((s.strictQs o).find? (fun q => (s.q q).eligible) = some q ∨
      ((s.strictQs o).find? (fun q => (s.q q).eligible) = none ∧ (s.weightedQs o).filter (fun q => (s.q q).eligible) = [q])) →
    (s.q q).pkts.head? = some p → p.inflight = false → s.expired p = false → s.fits q o {} p = true → s.eccInPacket p = none →
    ∃ t x, exec (.outletSelect o) s = .next t ∧ vget t.qsc.sending o = some x ∧ x.q = q ∧ x.pkt = p ∧
      x.wire = (if o.val = 2 then s.ethFrame p.nbr (s.packetBytes p) else jajorBody (s.packetBytes p)) ∧
      (t.q q).pkts = (s.q q).pkts.filter (fun r => r.pid ≠ p.pid) ∧
      ((s.strictQs o).find? (fun q => (s.q q).eligible) = none →
        vget t.qsc.vtime o = ((if (s.q q).active = true then (s.q q).tag else vget s.qsc.vtime o) +
          pktCost p.len (s.q q).weight) % 2 ^ 48) ∧
      (o.val ≠ 2 → (let l := if p.control = true then JJL_STAT.RMCRED (o - 3) else JJL_STAT.RDCRED (o - 3)
        t.get l = s.get l - cellsFor p.len)) ∧ KeepsMemory s t) ∧
  (∀ (o : Fin 8) (s : State), (o.val = 0 ∨ o.val = 1 ∨ o.val = 6) → exec (.outletSelect o) s = .next s) ∧
  (∀ (q : Fin 64) (o : Fin 8) (s : State), (s.q q).outlet = o.val →
    ∃ t, exec (.launchTimeReached q) s = .next t ∧ exec (.outletSelect o) s.ethLaunch = .next t) ∧
  (∀ (o : Fin 8) (x : Sending) (s : State), (o.val = 2 ∨ o.val = 3 ∨ o.val = 4) → vget s.qsc.sending o = some x → x.q < 64 →
    (x.waits = true → exec (.outletSendDone o) s = .next s) ∧
    (x.waits = false → ∃ t, exec (.outletSendDone o) s = .next t ∧ vget t.qsc.sending o = none ∧
      t.get (QSC_DEQCNT.COUNT x.q) = min (2 ^ 32 - 1) (s.get (QSC_DEQCNT.COUNT x.q) + 1) ∧
      (let l := if o.val = 2 then ETH_TXCNT.COUNT else JJL_TXCNT.COUNT (o - 3)
       t.get l = min (2 ^ 32 - 1) (s.get l + 1)) ∧ KeepsMemory s t))

/-- POLICER_TICK, RESERVATION_WRITE, QUEUE_FLUSH (R240, R251, R252). -/
def Obligations.QueueControlCompletes : Prop :=
  (∀ (n : Fin 32) (s : State), s.dOn 23 = true →
    ∃ t, exec (.policerTick n) s = .next t ∧
      (let p := vget s.qsc.pols n
       let g := (p.rem + p.cir) / 125
       let a := min g (64 * p.cbs - p.tc)
       (vget t.qsc.pols n).tc = p.tc + a ∧ (vget t.qsc.pols n).rem = (p.rem + p.cir) % 125 ∧
         (vget t.qsc.pols n).te = p.te + min (g - a) (64 * p.ebs - p.te) ∧ (vget t.qsc.pols n).cir = p.cir) ∧
      (∀ k, k < 32 → k ≠ n.val → vget t.qsc.pols k = vget s.qsc.pols k) ∧ KeepsRegs s t [] ∧ KeepsMemory s t) ∧
  (∀ (e : Fin 16) (o : Fin 8) (v : Word) (s : State), s.reaches e (QSC_RSV.addr o) →
    ∃ t, exec (.reservationWrite e o v) s = .next t ∧
      (if (((List.range 8).filter (· ≠ o.val)).map (fun k => s.get (QSC_RSV.CELLS k))).sum + fieldOf v 0 15 ≤
          1024 * (List.range 8).countP (fun n => bitOf (s.get QSC_PBEN.EN) n) then
         t.get (QSC_RSV.CELLS o) = fieldOf v 0 15 ∧ KeepsRegs s t [QSC_RSV.addr o]
       else t.bit QSC_EVT.RSVBAD = true ∧ KeepsRegs s t [QSC_EVT.addr]) ∧ KeepsMemory s t) ∧
  (∀ (e : Fin 16) (q : Fin 64) (v : Word) (s : State), s.reaches e (QSC_QCFG.addr q) → s.calm [QSC_QCFG.addr q] →
    ∃ t, exec (.queueFlush e q v) s = .next t ∧ (t.q q).flush = true ∧ (t.q q).pkts = (s.q q).pkts ∧
      t.get (QSC_QCFG.EN q) = fieldOf v 31 1 ∧ t.get (QSC_QCFG.STRICT q) = fieldOf v 29 1 ∧
      t.get (QSC_QCFG.OUTLET q) = fieldOf v 24 3 ∧ t.get (QSC_QCFG.FLUSH q) = s.get (QSC_QCFG.FLUSH q) ∧
      (∀ k, k < 64 → k ≠ q.val → t.q k = s.q k) ∧ KeepsRegs s t [QSC_QCFG.addr q] ∧ KeepsMemory s t)

/-- JAJOR_ALIGN, JAJOR_UP, JAJOR_CREDIT_RETURN, JAJOR_DOWN, JAJOR_FRAME_RECEIVED, JAJOR_BAS_RECEIVED, JAJOR_BFU_RECEIVED
(R219 to R222, R232, R242). -/
def Obligations.JajorCompletes : Prop :=
  (∀ (p : Fin 2) (s : State), s.dOn 26 = true → s.bit (JJL_CTRL.EN p) = true → s.serLocked = true →
    (s.get (JJL_STAT.STATE p) = 0 → ∃ t, exec (.jajorAlign p) s = .next t ∧ t.get (JJL_STAT.STATE p) = 1 ∧
      KeepsRegs s t [JJL_STAT.addr p] ∧ KeepsMemory s t) ∧
    (∀ (crd : BitVec 16), s.get (JJL_STAT.STATE p) = 1 → ∃ t, exec (.jajorUp p crd) s = .next t ∧
      t.get (JJL_STAT.STATE p) = 2 ∧ t.bit (JJL_EVT.UP p) = true ∧ (vget t.jjl p).ctrl = s.reg (JJL_CTRL.addr p) ∧
      (let l := if (crdOf crd).1 = true then JJL_STAT.RMCRED p else JJL_STAT.RDCRED p
       t.get l = min (2 ^ l.w - 1) (s.get l + (crdOf crd).2)) ∧
      KeepsRegs s t [JJL_STAT.addr p, JJL_EVT.addr p] ∧ KeepsMemory s t)) ∧
  (∀ (p : Fin 2) (s : State), s.dOn 26 = true → s.get (JJL_STAT.STATE p) = 2 →
    (∀ (crd : BitVec 16), ∃ t, exec (.jajorCreditReturn p crd) s = .next t ∧
      (let l := if (crdOf crd).1 = true then JJL_STAT.RMCRED p else JJL_STAT.RDCRED p
       t.get l = min (2 ^ l.w - 1) (s.get l + (crdOf crd).2)) ∧ KeepsRegs s t [JJL_STAT.addr p] ∧ KeepsMemory s t) ∧
    ((∀ x, vget s.qsc.sending (3 + p) = some x → x.q < 64) →
      ∃ t, exec (.jajorDown p) s = .next t ∧ t.get (JJL_STAT.STATE p) = 0 ∧ t.get (JJL_STAT.RMCRED p) = 0 ∧
      t.get (JJL_STAT.RDCRED p) = 0 ∧ t.bit (JJL_STAT.SYNC p) = false ∧ t.bit (JJL_EVT.DOWN p) = true ∧
      vget t.qsc.sending (3 + p) = none ∧ KeepsMemory s t) ∧
    (∀ (body : List Byte) (ending : JjEnd), s.dOn 23 = true →
      ∃ t, exec (.jajorFrameReceived p body ending) s = .next t ∧
        (ending = .abort → t.bit (JJL_EVT.CRCERR p) = true ∧ KeepsRegs s t [JJL_EVT.addr p] ∧ KeepsMemory s t) ∧
        (ending = .codeError → t.bit (JJL_EVT.CRCERR p) = true ∧
          t.get (JJL_ERRCNT.CODE p) = min 65535 (s.get (JJL_ERRCNT.CODE p) + 1) ∧ KeepsMemory s t) ∧
        (ending = .eof → jajorPacket body = none → t.bit (JJL_EVT.CRCERR p) = true ∧
          t.get (JJL_ERRCNT.CRC p) = min 65535 (s.get (JJL_ERRCNT.CRC p) + 1) ∧ KeepsMemory s t) ∧
        (∀ b, ending = .eof → jajorPacket body = some b →
          t.get (JJL_RXCNT.COUNT p) = min (2 ^ 32 - 1) (s.get (JJL_RXCNT.COUNT p) + 1) ∧ KeepsRegs s t [JJL_RXCNT.addr p] ∧
          (let held := if crustMgmt b = true then (vget s.jjl p).heldM else (vget s.jjl p).heldD
           0 < b.length → cellsFor b.length ≤ held.length →
             vget t.msh.ports (2 + p) = vget s.msh.ports (2 + p) ++ [{ bytes := b, cells := held.take (cellsFor b.length) }])))) ∧
  (∀ (p : Fin 2) (bas : BitVec 48) (arr : Int) (s : State), s.dOn 26 = true → s.get (JJL_STAT.STATE p) = 2 →
    s.jjRole p = 2 → (vget s.jjl p).bas = none → (basOf bas).2 = true →
    ((basOf bas).1 = s.abn → ∃ t, exec (.jajorBasReceived p bas arr) s = .next t ∧
      (vget t.jjl p).bas = some { abn := s.abn, arr := arr, dep := (vget s.jjl p).sentDep } ∧ t.bit (JJL_STAT.ROLEERR p) = false ∧
      KeepsRegs s t [JJL_STAT.addr p] ∧ KeepsMemory s t) ∧
    ((basOf bas).1 ≠ s.abn → fieldOf (vget s.jjl p).ctrl 27 1 = 0 →
      ∃ t, exec (.jajorBasReceived p bas arr) s = .next t ∧
        (vget t.jjl p).bas = none ∧ t.bit (JJL_EVT.ABNMIS p) = true ∧ KeepsRegs s t [JJL_STAT.addr p, JJL_EVT.addr p] ∧
        KeepsMemory s t)) ∧
  (∀ (p : Fin 2) (bas : BitVec 48) (arr : Int) (s : State), s.dOn 26 = true → s.get (JJL_STAT.STATE p) = 2 →
    s.jjRole p = 1 → (basOf bas).2 = false → (basOf bas).1 = (vget s.jjl p).sentAbn →
    ∃ t, exec (.jajorBasReceived p bas arr) s = .next t ∧
      (vget t.jjl p).out.getLast? = some (s.clk, .bfu ((basOf bas).1 % 256) (vget s.jjl p).sentDep arr) ∧
      t.bit (JJL_STAT.ROLEERR p) = false ∧ KeepsRegs s t [JJL_STAT.addr p] ∧ KeepsMemory s t) ∧
  (∀ (p : Fin 2) (bfu : BitVec 48) (b : Bas) (s : State), s.dOn 26 = true →
    s.get (JJL_STAT.STATE p) = 2 → s.jjRole p = 2 → (vget s.jjl p).bas = some b → b.abn % 256 = (bfuOf bfu).1 →
    fieldOf (vget s.jjl p).ctrl 28 1 = 0 →
    ∃ t, exec (.jajorBfuReceived p bfu) s = .next t ∧ (vget t.jjl p).bas = none ∧
      (let a := b.arr - ((bfuOf bfu).2.1 : Int)
       let c := (bfuOf bfu).2.2 - b.dep
       ((a - c) % 2 = 0 → t.getS (JJL_OFS.OFS p) = clampS 32 ((a - c) / 2)) ∧
         ((a + c) % 2 = 0 → t.get (JJL_DELAY.DELAY p) = min 65535 ((a + c) / 2).toNat)) ∧
      KeepsRegs s t [JJL_OFS.addr p, JJL_DELAY.addr p, JJL_STAT.addr p, JJL_EVT.addr p] ∧ KeepsMemory s t)

/-- ETH_LINK_UP, ETH_LINK_DOWN, ETH_FRAME_RECEIVED, ETH_PAUSE_RECEIVED, PAUSE_QUANTA_EXPIRY, MDIO_START, MDIO_DONE
(R223 to R226, R268). -/
def Obligations.EthernetCompletes : Prop :=
  (∀ (speed : Fin 3) (s : State), s.dOn 25 = true → s.bit ETH_CTRL.EN = true → s.serLocked = true →
    ∃ t, exec (.ethLinkUp speed) s = .next t ∧ t.bit ETH_STAT.LINK = true ∧
      t.get ETH_STAT.SPEED = (if s.bit ETH_CTRL.MODE = true then speed.val else 2) ∧ t.bit ETH_EVT.LINKUP = true ∧
      KeepsRegs s t [ETH_STAT.addr, ETH_EVT.addr] ∧ KeepsMemory s t) ∧
  (∀ s : State, s.dOn 25 = true →
    (s.bit ETH_STAT.LINK = true → (∀ x, vget s.qsc.sending 2 = some x → x.q < 64) →
      ∃ t, exec .ethLinkDown s = .next t ∧ t.bit ETH_STAT.LINK = false ∧
      t.bit ETH_EVT.LINKDOWN = true ∧ vget t.qsc.sending 2 = none ∧ KeepsMemory s t) ∧
    (∃ t, exec .pauseQuantaExpiry s = .next t ∧ t.bit ETH_STAT.RPAUSED = false ∧ KeepsRegs s t [ETH_STAT.addr] ∧
      KeepsMemory s t)) ∧
  (∀ (f : List (BitVec 8)) (ago : Nat) (s : State), s.ethUp = true →
    ∃ t, exec (.ethFrameReceived f ago) s = .next t ∧
      t.get ETH_RXCNT.COUNT = min (2 ^ 32 - 1) (s.get ETH_RXCNT.COUNT + 1) ∧
      (let fcsOk := crc32 (f.take (f.length - 4)) = leNat (f.drop (f.length - 4))
       let own := f.take 6 = s.macOf ETH_MACLO.addr ETH_MACHI.addr ∨ byteAt f 0 % 2 = 1
       (f.length < 18 ∨ (2072 < f.length ∧ fcsOk) ∨ (22 ≤ f.length ∧ f.length ≤ 2068 ∧ fcsOk ∧ ¬ own) →
         t.get ETH_ERRCNT.DROP = min 65535 (s.get ETH_ERRCNT.DROP + 1) ∧ t.bit ETH_EVT.RXDROP = true ∧ t.msh = s.msh) ∧
       (22 ≤ f.length → ¬ fcsOk → t.get ETH_ERRCNT.FCS = min 65535 (s.get ETH_ERRCNT.FCS + 1) ∧
         t.bit ETH_EVT.RXDROP = true ∧ t.msh = s.msh) ∧
       (22 ≤ f.length → f.length ≤ 2068 → fcsOk → own → ¬ (byteAt f 12 = 0x81 ∧ byteAt f 13 = 0) →
         beNat ((f.drop 12).take 2) = s.get ETH_ETYPE.TYPE → 8 ≤ beNat ((f.drop 14).take 2) → beNat ((f.drop 14).take 2) ≤ 2048 →
         20 + beNat ((f.drop 14).take 2) ≤ f.length → s.ethFifo + f.length ≤ 16384 →
         ∃ i, vget t.msh.ports 1 = vget s.msh.ports 1 ++ [i] ∧ i.bytes = (f.drop 16).take (beNat ((f.drop 14).take 2)) ∧
           i.raw = false ∧ i.fifo = f.length)) ∧
      KeepsMemory s t) ∧
  (∀ (quanta : BitVec 16) (s : State), s.ethUp = true →
    ∃ t, exec (.ethPauseReceived quanta) s = .next t ∧
      t.get ETH_PAUSECNT.RCVD = min 65535 (s.get ETH_PAUSECNT.RCVD + 1) ∧
      (s.bit ETH_CTRL.PAUSEEN = true → t.bit ETH_STAT.RPAUSED = decide (quanta ≠ 0)) ∧
      KeepsRegs s t [ETH_PAUSECNT.addr, ETH_STAT.addr] ∧ KeepsMemory s t) ∧
  (∀ (e : Fin 16) (v : Word) (s : State), s.reaches e ETH_MDIO.addr →
    ∃ t, exec (.mdioStart e v) s = .next t ∧
      (if s.eth.mdio = none then t.bit ETH_MDIO.GO = true ∧ t.eth.mdio.isSome = true ∧
         t.get ETH_MDIO.OP = fieldOf v 28 2 ∧ t.get ETH_MDIO.PHYAD = fieldOf v 23 5 ∧ t.get ETH_MDIO.REGAD = fieldOf v 18 5 ∧
         KeepsRegs s t [ETH_MDIO.addr]
       else t.eth = s.eth ∧ KeepsRegs s t []) ∧ KeepsMemory s t) ∧
  (∀ (data : BitVec 16) (w : Word) (s : State), s.eth.mdio = some w →
    ∃ t, exec (.mdioDone data) s = .next t ∧ t.eth.mdio = none ∧ t.bit ETH_MDIO.GO = false ∧ t.bit ETH_EVT.MDIODONE = true ∧
      t.get ETH_MDIO.DATA = (if mdioReads w = true then data.toNat else s.get ETH_MDIO.DATA) ∧
      KeepsRegs s t [ETH_MDIO.addr, ETH_EVT.addr] ∧ KeepsMemory s t)


/-- TB_SNAPSHOT, TB_FRAC_READ, TB_ARM, TB_CAPTURE, TB_STEP (R7, R257, R259, R261). -/
def Obligations.TimeBaseAccessesComplete : Prop :=
  (∀ (e : Fin 16) (v : Word) (s : State), s.reaches e TSU_SNAP.addr →
    ∃ t, exec (.tbSnapshot e v) s = .next t ∧
      (∀ n, n < 4 → v.getLsbD n = true → t.get (TSU_SNAPNS.NS n) = tbNs (s.tb n) ∧
        t.get (TSU_SNAPSECLO.SEC n) = tbSec (s.tb n) % 2 ^ 32 ∧ t.get (TSU_SNAPX.FRAC n) = tbFrac (s.tb n)) ∧
      (∀ n, n < 4 → v.getLsbD n = false → t.reg (TSU_SNAPNS.addr n) = s.reg (TSU_SNAPNS.addr n)) ∧
      t.tsu = s.tsu ∧ KeepsMemory s t) ∧
  (∀ (e : Fin 16) (n : Fin 4) (s : State), s.reaches e (TSU_TBFRAC.addr n) → aget s.sys.latched (TSU_TBFRAC.addr n) = none →
    ∃ t, exec (.tbFracRead e n) s = .next t ∧ t.rdata = BitVec.ofNat 32 (tbFrac (s.tb n)) ∧
      aget t.sys.latched (TSU_TBNS.addr n) = some (BitVec.ofNat 32 (tbNs (s.tb n))) ∧
      aget t.sys.latched (TSU_TBSECLO.addr n) = some (BitVec.ofNat 32 (tbSec (s.tb n))) ∧
      aget t.sys.latched (TSU_TBSECHI.addr n) = some (BitVec.ofNat 32 (tbSec (s.tb n) / 2 ^ 32)) ∧
      t.tsu = s.tsu ∧ KeepsRegs s t [] ∧ KeepsMemory s t) ∧
  (∀ (e : Fin 16) (n : Fin 3) (v : Word) (s : State), s.reaches e (TSU_STEPCMD.addr n) → v.getLsbD 0 = false →
    (fieldOf v 16 16 = 0xC6A0 → v.getLsbD 3 = false →
      ∃ t, exec (.tbArm e ⟨n, by omega⟩ v) s = .next t ∧ bitOf (t.get TSU_STAT.ARM) n = true ∧ t.tsu = s.tsu ∧
        KeepsRegs s t [TSU_STAT.addr] ∧ KeepsMemory s t) ∧
    (v.getLsbD 2 = false →
      ∃ t, exec (.tbCapture e ⟨n, by omega⟩ v) s = .next t ∧ t.get (TSU_SNAPNS.NS n) = tbNs (s.tb n) ∧
        t.get (TSU_SNAPX.FRAC n) = tbFrac (s.tb n) ∧ t.tsu = s.tsu ∧
        KeepsRegs s t [TSU_SNAPNS.addr n, TSU_SNAPSECLO.addr n, TSU_SNAPX.addr n] ∧ KeepsMemory s t)) ∧
  (∀ (e : Fin 16) (n : Fin 3) (v : Word) (s : State), s.reaches e (TSU_STEPCMD.addr n) →
    v.getLsbD 2 = false → v.getLsbD 3 = false →
    ∃ t, exec (.tbStep e ⟨n, by omega⟩ v) s = .next t ∧
      (if fieldOf v 16 16 = 0xC6A0 ∧ bitOf (s.get TSU_STAT.ARM) n = true ∧ s.get (TSU_STEPNS.NS n) ≤ 999999999 then
         (let o := tbOf (s.get (TSU_STEPX.SECHI n) * 2 ^ 32 + s.get (TSU_STEPSECLO.SEC n)) (s.get (TSU_STEPNS.NS n))
            (s.get (TSU_STEPX.FRAC n))
          t.tsu = { s.tsu with stepDue := s.tsu.stepDue ++ [(n.val, v.getLsbD 1, o)] }) ∧
         bitOf (t.get TSU_STAT.ARM) n = false ∧ KeepsRegs s t [TSU_STAT.addr]
       else t.tsu = s.tsu ∧ t.bit TSU_EVT.STEPREF = true ∧ KeepsRegs s t [TSU_EVT.addr]) ∧ KeepsMemory s t) ∧
  (∀ (n : Fin 3) (rel : Bool) (o : Nat) (s : State), s.tsu.stepDue = [(n.val, rel, o)] → s.dOn 28 = true →
    s.dueSteps.tb n = (if rel = true then (s.tb n + o) % tbMod else o % tbMod) ∧
    (∀ k, k < 4 → k ≠ n.val → s.dueSteps.tb k = s.tb k) ∧ s.dueSteps.tsu.stepDue = [] ∧
    bitOf (s.dueSteps.get TSU_STAT.VALID) n = true ∧ s.dueSteps.bit TSU_EVT.STEP = true)

/-- SERVO_OFFSET, SLEW_COMPLETE (R258, R263, R264). -/
def Obligations.ServoCompletes : Prop :=
  (∀ (src : OfsSource) (o : Int) (before : Bool) (s : State), (src = .lnk → s.followerSync = false) →
    (∀ w, s.tsu.ofs = some w → w.clk ≠ s.clk) →
    ∃ t, exec (.servoOffset src o before) s = .next t ∧
      (if (ofsUnits src o).natAbs > s.get TSU_SERVO.OFSMAX * 1000 * 65536 then
         t.get TSU_OFSCNT.REJ = min 65535 (s.get TSU_OFSCNT.REJ + 1) ∧ t.bit TSU_EVT.OFSREJ = true ∧ t.tsu = s.tsu ∧
           KeepsRegs s t [TSU_OFSCNT.addr, TSU_EVT.addr]
       else if bitOf (s.get TSU_SERVO.SRCEN) (ofsBit src) = false ∨ before = true ∨ s.bit TSU_STAT.HOLD = true then
         t.get TSU_OFSCNT.REJ = min 65535 (s.get TSU_OFSCNT.REJ + 1) ∧ t.tsu = s.tsu ∧ KeepsRegs s t [TSU_OFSCNT.addr]
       else
         t.get TSU_OFSCNT.TAKEN = min 65535 (s.get TSU_OFSCNT.TAKEN + 1) ∧ t.tsu.phase = ofsUnits src o * 24000000 ∧
           t.tsu.lastTaken = some (s.tb 3) ∧ t.getS TSU_LASTOFS.O = clampS 32 (Int.tdiv (ofsUnits src o) 65536) ∧
           (∀ n, n < 4 → t.tb n = s.tb n)) ∧ KeepsMemory s t) ∧
  (∀ s : State, s.bit TSU_STAT.HOLD = false →
    ∃ t, exec .slewComplete s = .next t ∧ t.tsu.phase = 0 ∧ t.bit TSU_STAT.SLEWING = false ∧
      (∀ n, 0 < n → n < 4 → t.tb n = s.tb n) ∧ KeepsRegs s t [TSU_PHASE.addr, TSU_STAT.addr] ∧ KeepsMemory s t)

/-- SLOW_CAL_WINDOW, SLEEP_ENTRY_LATCH, SLEEP_EXIT_ADVANCE, TB_SECOND_ROLLOVER (R271 to R273, R452). -/
def Obligations.SleepAndCalibrationComplete : Prop :=
  (∀ (mean : Word) (s : State), s.holdover = false → s.bit SYS_CLKSTAT.SLOWOK = true → s.dOn 28 = true →
    ∃ t, exec (.slowCalWindow mean) s = .next t ∧ t.reg TSU_SLCAL.addr = mean ∧
      t.get TSU_SLUNC.UNC = calUnc (s.get TSU_SLPCFG.CALWIN) ∧ t.bit TSU_SLUNC.CALOK = true ∧ t.bit TSU_EVT.CALDONE = true ∧
      KeepsRegs s t [TSU_SLCAL.addr, TSU_SLUNC.addr, TSU_EVT.addr] ∧ KeepsMemory s t) ∧
  (∀ (slow : Bool) (s : State), s.pwr.aoDown = false → aget s.pwr.leaving 28 = none → s.tsu.resetEdge = true →
    ∃ t l, exec (.sleepEntryLatch slow) s = .next t ∧ t.tsu.sleep = some l ∧ l.tb0 = s.tb 0 ∧ l.tb3 = s.tb 3 ∧
      l.rate0 = s.reg (TSU_RATE.addr 0) ∧ l.slcal = s.reg TSU_SLCAL.addr ∧ l.n = 0 ∧ l.slow = slow ∧ t.tsu.phase = 0 ∧
      t.tsu.resetEdge = false ∧ KeepsRegs s t [TSU_PHASE.addr, TSU_STAT.addr] ∧ KeepsMemory s t) ∧
  (∀ (slow : Bool) (l : SleepLatch) (s : State), s.bit (PWR_DSTAT.OSCRDY 28) = true → s.tsu.sleep = some l →
    ∃ t, exec (.sleepExitAdvance slow) s = .next t ∧ t.tsu.sleep = none ∧
      (if (slow && l.slow) = true then
         vget t.tsu.tb 0 = ({ v := l.tb0 } : TimeBase).add (slowInc l.n l.slcal.toNat (signed 32 l.rate0.toNat)) ∧
         vget t.tsu.tb 3 = ({ v := l.tb3 } : TimeBase).add (slowInc l.n l.slcal.toNat 0) ∧
         t.get TSU_SLPTICKLO.N = l.n % 2 ^ 32 ∧ t.get TSU_SLPTICKHI.N = l.n / 2 ^ 32 % 256
       else t.tb 0 = l.tb0 ∧ t.tb 3 = l.tb3 ∧ bitOf (t.get TSU_STAT.VALID) 0 = false ∧ t.bit TSU_EVT.NOSLOW = true) ∧
      KeepsMemory s t) ∧
  (∀ (n : Fin 3) (s : State), s.dOn 28 = true →
    ∃ t, exec (.tbSecondRollover ⟨n, by omega⟩) s = .next t ∧
      (∀ k, k < 64 → s.get (EVR_CHCTL.EN k) = 1 → s.get (EVR_CHCFG.PRODUCER k) = 0x84 + n → (k, s.clk) ∈ t.evr.transit) ∧
      KeepsRegs s t [] ∧ KeepsMemory s t)


/-- ENGINE_RUN_WRITE, WATCHDOG_KICK, WATCHDOG_WARN, TAKEOVER_COPY_DONE (R310, R314, R315, R324). -/
def Obligations.EngineControlCompletes : Prop :=
  (∀ (e : Fin 16) (v : Word) (s : State), s.reaches e ENG_RUN.addr →
    ∃ t, exec (.engineRunWrite e v) s = .next t ∧
      (∀ n, n < 16 → bitOf (t.get ENG_RUN.EN) n = if s.runFixed n = true then bitOf (s.get ENG_RUN.EN) n else v.getLsbD n) ∧
      (∀ n, n < 16 → s.runFixed n = false → v.getLsbD n = true → s.estate n = stReset → t.estate n = stRun) ∧
      KeepsMemory s t) ∧
  (∀ (n : Fin 16) (v : Word) (s : State), s.reaches n (ENG_KICK.addr n) →
    ∃ t, exec (.watchdogKick n n v) s = .next t ∧ (t.engOf n).kicked = true ∧ KeepsRegs s t [] ∧ KeepsMemory s t) ∧
  (∀ s : State, s.clusterOn = true →
    ∃ t, exec .watchdogWarn s = .next t ∧
      (∀ n, n < 16 → (s.engOf n).warned = false → s.watchedNow n = true → (s.engOf n).kicked = false →
        t.bit (ENG_IRQSTAT.WDWARN n) = true) ∧
      (∀ n, n < 16 → (t.engOf n).warned = true) ∧ KeepsMemory s t) ∧
  (∀ (k : Takeover) (s : State), s.takeover = some k → k.done = false → k.spare < 16 → k.failed < 16 →
    s.dOn k.spare = true →
    ∃ t, exec .takeoverCopyDone s = .next t ∧ t.bit ENG_TKSTAT.DONE = true ∧ t.get ENG_TKSTAT.FAILED = k.failed ∧
      t.get ENG_TKSTAT.SPARE = k.spare ∧ t.estate k.spare = stRun ∧ bitOf (t.get ENG_RUN.EN) k.spare = true ∧
      (∀ a, t.mbyte a = s.mbyte a))

/-- MAILBOX_OPEN, MAILBOX_WRITE, MAILBOX_READ, MAILBOX_FLUSH (R317 to R320). -/
def Obligations.MailboxesComplete : Prop :=
  (∀ (n : Fin 16) (v : Word) (s : State), s.reaches n (ENG_TXDEST.addr n) → (s.engOf n).txTo = none →
    s.mailDest (fieldOf v 16 4) < 16 →
    ∃ t, exec (.mailboxOpen n n v) s = .next t ∧
      (let d := s.mailDest (fieldOf v 16 4)
       let k := fieldOf v 0 7
       if 1 ≤ k ∧ k ≤ 64 ∧ mboxUsed (s.engOf d).mbox + k ≤ 64 then
         (t.engOf d).mbox = (s.engOf d).mbox ++ [{ sender := n, len := k }] ∧ (t.engOf n).txTo = some d ∧
           t.bit (ENG_TXSTAT.OPEN n) = true ∧ t.get (ENG_TXSTAT.LEFT n) = k
       else (t.engOf d).mbox = (s.engOf d).mbox ∧ t.bit (ENG_TXSTAT.NOSPACE n) = true) ∧ KeepsMemory s t) ∧
  (∀ (n : Fin 16) (v : Word) (d : Nat) (s : State), s.reaches n (ENG_TXDATA.addr n) → (s.engOf n).txTo = some d → d < 16 →
    0 < s.get (ENG_TXSTAT.LEFT n) →
    ∃ t, exec (.mailboxWrite n n v) s = .next t ∧
      (t.engOf d).mbox = (s.engOf d).mbox.map (fun x =>
        if x.sender = n.val ∧ x.written ≠ x.len then { x with written := x.written + 1, words := x.words ++ [v] } else x) ∧
      t.get (ENG_TXSTAT.LEFT n) = s.get (ENG_TXSTAT.LEFT n) - 1 ∧
      (s.get (ENG_TXSTAT.LEFT n) = 1 → (t.engOf n).txTo = none ∧ t.bit (ENG_TXSTAT.OPEN n) = false) ∧ KeepsMemory s t) ∧
  (∀ (n : Fin 16) (s : State), s.reaches n (ENG_RXDATA.addr n) → (∀ m, s.mailWord n = some m → s.ecc.contains m = false) →
    ∃ t, exec (.mailboxRead n n) s = .next t ∧
      (match mboxTake (s.engOf n).mbox with
       | some (w, m) => t.rdata = w ∧ (t.engOf n).mbox = m ∧ (t.engOf n).lastRx = w
       | none => t.rdata = (s.engOf n).lastRx ∧ t.bit (ENG_RXSTAT.UNDERRUN n) = true ∧ (t.engOf n).mbox = (s.engOf n).mbox) ∧
      KeepsMemory s t) ∧
  (∀ (n : Fin 16) (v : Word) (s : State), s.reaches n (ENG_RXSTAT.addr n) →
    ∃ t, exec (.mailboxFlush n n v) s = .next t ∧ (t.engOf n).mbox = [] ∧ t.get (ENG_RXSTAT.LEVEL n) = 0 ∧
      t.bit (ENG_RXSTAT.EMPTY n) = true ∧ KeepsMemory s t)

/-- PACKET_GET, PACKET_DONE, CELL_ALLOC, CELL_LINK, CELL_SELECT, CELL_FREE, PACKET_SUBMIT (R321 to R323, R327). -/
def Obligations.EnginePacketsComplete : Prop :=
  (∀ (n : Fin 16) (q : Nat) (p : Packet) (s u : State), s.reaches n (ENG_PKTGET.addr n) → s.dOn 23 = true →
    (s.engOf n).pkts.length < 16 →
    (((s.setReg (ENG_PKTGET.addr n) 0).setReg (ENG_PKTST0.addr n) 0).setReg (ENG_PKTST1.addr n) 0).select 6
      { only := some ((((s.setReg (ENG_PKTGET.addr n) 0).setReg (ENG_PKTST0.addr n) 0).setReg
          (ENG_PKTST1.addr n) 0).o6Queues n) } (fun s q p => s.unlinkPkt q p.pid) = (u, some (q, p)) →
    u.eccInPacket p = none →
    ∃ t, exec (.packetGet n n) s = .next t ∧ t.rdata = handleWord (p.cells.headD 0) p.len ∧
      { cells := p.cells, buf := p.buf, len := p.len, q := q, outlet := 6 } ∈ (t.engOf n).pkts ∧
      t.reg (ENG_PKTST0.addr n) = p.stamp.1 ∧ t.reg (ENG_PKTST1.addr n) = p.stamp.2) ∧
  (∀ (n : Fin 16) (v : Word) (p : HeldPkt) (s : State), s.reaches n (ENG_PKTDONE.addr n) → fieldOf v 31 1 = 1 →
    (s.engOf n).pkts.find? (fun p => p.cells.head? = some (fieldOf v 16 14)) = some p → p.q < 64 →
    ∃ t, exec (.packetDone n n v) s = .next t ∧ (t.engOf n).pkts = (s.engOf n).pkts.filter (fun x => x ≠ p) ∧
      t.get (QSC_DEQCNT.COUNT p.q) = min (2 ^ 32 - 1) (s.get (QSC_DEQCNT.COUNT p.q) + 1)) ∧
  (∀ (n : Fin 16) (c : Nat) (l : List Nat) (s : State), s.reaches n (ENG_ALLOC.addr n) → s.dOn 23 = true →
    s.bufferOk 6 false 1 = true → (s.engOf n).alloc.length < 64 → s.pickFree 1 = c :: l →
    ∃ t, exec (.cellAlloc n n) s = .next t ∧ t.rdata = handleWord c 0 ∧
      (t.engOf n).alloc = (s.engOf n).alloc ++ [c] ∧ aget t.links c = none) ∧
  (∀ (n : Fin 16) (v : Word) (s : State), s.reaches n (ENG_LINK.addr n) →
    s.holdsCell n (fieldOf v 0 14) = true → s.holdsCell n (fieldOf v 16 14) = true →
    ∃ t, exec (.cellLink n n v) s = .next t ∧ aget t.links (fieldOf v 0 14) = some (fieldOf v 16 14) ∧
      KeepsRegs s t [] ∧ KeepsMemory s t) ∧
  (∀ (n : Fin 16) (v : Word) (s : State), s.reaches n (ENG_LINK.addr n) →
    ∃ t, exec (.cellSelect n n v) s = .next t ∧ (t.engOf n).sel = some (fieldOf v 0 14) ∧ t.links = s.links ∧
      KeepsRegs s t [] ∧ KeepsMemory s t) ∧
  (∀ (n : Fin 16) (v : Word) (s : State), s.reaches n (ENG_FREE.addr n) → fieldOf v 31 1 = 1 →
    (s.engOf n).alloc.contains (fieldOf v 16 14) = true →
    ∃ t, exec (.cellFree n n v) s = .next t ∧ (t.engOf n).alloc.contains (fieldOf v 16 14) = false) ∧
  (∀ (n : Fin 16) (v : Word) (p : HeldPkt) (cs : List Nat) (s : State), s.reaches n (ENG_SUBMIT.addr n) → s.dOn 23 = true →
    s.bit (ENG_SUBSTAT.BUSY n) = false → fieldOf v 0 12 ≠ 0 →
    cs = followLinks s.links (s.holdsCell n) (cellsFor (fieldOf v 0 12)) (fieldOf v 16 14) →
    cellsFor (fieldOf v 0 12) ≤ cs.length → cs.Nodup →
    (s.engOf n).pkts.find? (fun p => p.cells.take (cellsFor (fieldOf v 0 12)) = cs) = some p →
    ∃ t, exec (.packetSubmit n n v) s = .next t ∧ t.bit (ENG_SUBSTAT.BUSY n) = true ∧
      (t.engOf n).pkts = (s.engOf n).pkts.filter (fun x => x ≠ p) ∧
      vget t.msh.ports 5 = vget s.msh.ports 5 ++
        [{ bytes := s.readCells p.cells (fieldOf v 0 12), cells := p.cells, buf := some p.buf, eng := n,
           got := some (p.q, p.outlet) }]) ∧
  (∀ (n : Fin 16) (v : Word) (cs : List Nat) (s : State), s.reaches n (ENG_SUBMIT.addr n) → s.dOn 23 = true →
    s.bit (ENG_SUBSTAT.BUSY n) = false → fieldOf v 0 12 ≠ 0 →
    cs = followLinks s.links (s.holdsCell n) (cellsFor (fieldOf v 0 12)) (fieldOf v 16 14) →
    cellsFor (fieldOf v 0 12) ≤ cs.length → cs.Nodup →
    (∀ p ∈ (s.engOf n).pkts, p.cells ≠ [] ∧ ∀ c ∈ p.cells, c ∉ cs) →
    ∃ t, exec (.packetSubmit n n v) s = .next t ∧ t.bit (ENG_SUBSTAT.BUSY n) = true ∧
      (t.engOf n).alloc = (s.engOf n).alloc.filter (fun c => !cs.contains c) ∧ (t.engOf n).pkts = (s.engOf n).pkts ∧
      vget t.msh.ports 5 = vget s.msh.ports 5 ++
        [{ bytes := s.readCells cs (fieldOf v 0 12), cells := cs, eng := n }])


/-- BUNDLE_ISSUE: the units A, M, B and X on one syllable (R278, R280, R281, R285 to R290, R295, R296, R298, R300, R304, R308). -/
def Obligations.BundleIssueCompletes : Prop :=
  ∀ (n : Fin 16) (w : Word) (s : State), s.issuesOne n w →
    (let c := (s.engOf n).cpu
     let a := c.gpr (sylA w)
     let b := c.gpr (sylB w)
     let d := c.gpr (sylD w)
     let op := sylOp w
     let o := if sylUnit w = 2 then aluM w a b c.acc else aluA w a b d
     let quiet (t : State) := KeepsRegs s t [SYS_ECCCORR.addr] ∧ KeepsMemory s t
     let same (t : State) := (∀ r, (t.engOf n).cpu.gpr r = c.gpr r) ∧ (t.engOf n).cpu.acc = c.acc
     ((sylUnit w ≤ 1 ∨ (sylUnit w = 2 ∧ (op ≤ 0xB ∨ op = 0x14))) → (c.flag 1 = false ∨ (o.ovf = false ∧ o.dz = false)) →
       ∃ t, exec (.bundleIssue n) s = .next t ∧ (t.engOf n).cpu.pc = c.pc + 4#32 ∧
         (∀ r, r < 32 → (t.engOf n).cpu.gpr r = if r = sylD w ∧ r ≠ 0 then o.v else c.gpr r) ∧
         (t.engOf n).cpu.status = c.status ||| (if o.ovf = true then 0x10#32 else 0) ||| (if o.dz = true then 0x20#32 else 0) ∧
         (t.engOf n).cpu.acc = c.acc ∧ quiet t) ∧
     (sylUnit w = 2 → ((0x10 ≤ op ∧ op ≤ 0x13) ∨ op = 0x15) →
       ∃ t, exec (.bundleIssue n) s = .next t ∧ (t.engOf n).cpu.pc = c.pc + 4#32 ∧
         (t.engOf n).cpu.acc = (accM w a b c.acc).1 ∧ (∀ r, (t.engOf n).cpu.gpr r = c.gpr r) ∧
         (t.engOf n).cpu.flag 4 = (c.flag 4 || (accM w a b c.acc).2) ∧ quiet t) ∧
     (sylUnit w = 4 → (op = 0 ∨ 8 ≤ op) → branchTarget c.pc w &&& 3#32 = 0#32 →
       ∃ t, exec (.bundleIssue n) s = .next t ∧ same t ∧ quiet t ∧
         (t.engOf n).cpu.pc = (if op = 0 ∨ branchTaken w d a = true then branchTarget c.pc w else c.pc + 4#32)) ∧
     (sylUnit w = 4 → op = 1 → branchTarget c.pc w &&& 3#32 = 0#32 → c.rstack.length < 16 →
       ∃ t, exec (.bundleIssue n) s = .next t ∧ same t ∧ quiet t ∧ (t.engOf n).cpu.pc = branchTarget c.pc w ∧
         (t.engOf n).cpu.rstack = (c.pc + 4#32) :: c.rstack) ∧
     (∀ v l, sylUnit w = 4 → op = 4 → c.rstack = v :: l →
       ∃ t, exec (.bundleIssue n) s = .next t ∧ same t ∧ quiet t ∧ (t.engOf n).cpu.pc = v ∧ (t.engOf n).cpu.rstack = l) ∧
     (sylUnit w = 5 → op = 1 → sylImm w = 0x18 →
       ∃ t, exec (.bundleIssue n) s = .next t ∧ same t ∧ quiet t ∧ (t.engOf n).cpu.scr0 = a ∧
         (t.engOf n).cpu.pc = c.pc + 4#32) ∧
     (sylUnit w = 5 → op = 5 →
       ∃ t, exec (.bundleIssue n) s = .next t ∧ same t ∧ t.estate n = stWait ∧ (t.engOf n).cpu.pc = c.pc + 4#32 ∧
         KeepsRegs s t [ENG_ESTAT.addr n, SYS_ECCCORR.addr] ∧ KeepsMemory s t) ∧
     (sylUnit w = 5 → op = 4 → c.flag 8 = true → fieldOf c.estat 9 1 = 0 →
       ∃ t, exec (.bundleIssue n) s = .next t ∧ same t ∧ quiet t ∧ (t.engOf n).cpu.pc = c.epc ∧
         (t.engOf n).cpu.status = c.estat &&& 0x777#32 ∧ (t.engOf n).cpu.rstack = c.rstack))

/-- BUNDLE_ISSUE: the unit L on the own data memory (R11, R281, R291 to R293). -/
def Obligations.LocalAccessCompletes : Prop :=
  ∀ (n : Fin 16) (w : Word) (off : Nat) (s : State), s.issuesOne n w → sylUnit w = 3 → s.dOn n = true →
    regionOf (memAddr (s.engOf n).cpu w) = .dmem off → memAddr (s.engOf n).cpu w % memSize (sylOp w) = 0 →
    s.eccBad n (memAddr (s.engOf n).cpu w) (memSize (sylOp w)) = none →
    (let c := (s.engOf n).cpu
     let op := sylOp w
     let base := n.val * 0x20000 + 0x10000 + off
     let v := BitVec.ofNat 32 (leNat (s.lbytes base (memSize op)))
     let loads (t : State) (x : Word) := ∀ r, r < 32 → (t.engOf n).cpu.gpr r = if r = sylD w ∧ r ≠ 0 then x else c.gpr r
     let stores (t : State) (x : Word) :=
       (∀ k, k < memSize op → t.lbyte (base + k) = BitVec.ofNat 8 (x.toNat / 256 ^ k)) ∧
         (∀ a, a < base ∨ base + memSize op ≤ a → t.lbyte a = s.lbyte a)
     ∃ t, exec (.bundleIssue n) s = .next t ∧ (t.engOf n).cpu.pc = c.pc + 4#32 ∧
       (op ≤ 5 → loads t (if op = 0 then (v.setWidth 8).signExtend 32 else if op = 2 then (v.setWidth 16).signExtend 32 else v) ∧
         ∀ a, t.lbyte a = s.lbyte a) ∧
       (8 ≤ op → op < 0x10 → stores t (c.gpr (sylD w)) ∧ ∀ r, (t.engOf n).cpu.gpr r = c.gpr r) ∧
       (0x10 ≤ op → loads t v ∧ stores t (if op = 0x10 then (if v = c.gpr (sylD w) then c.gpr (sylB w) else v)
         else if op = 0x11 then v + c.gpr (sylB w) else c.gpr (sylB w))) ∧
       KeepsRegs s t [SYS_ECCCORR.addr] ∧ (∀ a, t.mbyte a = s.mbyte a) ∧ ∀ a, t.fbyte a = s.fbyte a)

/-- BUNDLE_ISSUE's exceptions, INTERRUPT_ENTRY, WFI_WAKE (R281, R301 to R303, R305, R308). -/
def Obligations.ExceptionEntryCompletes : Prop :=
  (∀ (n : Fin 16) (w : Word) (s : State), s.estate n = stRun → (s.engOf n).stalled = none → s.irqTakable n = false →
    s.fetchBundle n (s.engOf n).cpu.pc = .inr ⟨[w], true⟩ → (s.engOf n).cpu.flag 9 = false →
    (legalSyl w = false ∨ (legalSyl w = true ∧ sylUnit w = 5 ∧ sylOp w = 7)) →
    (let c := (s.engOf n).cpu
     let code := if legalSyl w = true then 0xD else 1
     let cause := BitVec.ofNat 32 (0x1000 + sylUnit w * 256 + code)
     let eval := if legalSyl w = true then BitVec.ofNat 32 (sylImm w) else w
     ∃ t, exec (.bundleIssue n) s = .next t ∧ (t.engOf n).cpu.cause = cause ∧ (t.engOf n).cpu.eval = eval ∧ KeepsMemory s t ∧
       (c.flag 8 = false → (t.engOf n).cpu.epc = c.pc &&& ~~~3#32 ∧ (t.engOf n).cpu.estat = c.statusView ∧
         (t.engOf n).cpu.pc = c.vbase ∧ (t.engOf n).cpu.flag 8 = true ∧ (t.engOf n).cpu.flag 0 = false ∧
         (∀ r, (t.engOf n).cpu.gpr r = c.gpr r) ∧ (t.engOf n).cpu.acc = c.acc ∧ KeepsRegs s t [SYS_ECCCORR.addr]) ∧
       (c.flag 8 = true → t.estate n = stStopped ∧ bitOf (t.get ENG_EVT.STOP) n = true ∧ (t.engOf n).cpu.pc = c.pc ∧
         (t.engOf n).cpu.epc = c.epc ∧ KeepsRegs s t [ENG_ESTAT.addr n, ENG_EVT.addr, SYS_ECCCORR.addr]))) ∧
  (∀ (n : Fin 16) (s : State), s.estate n = stRun → (s.engOf n).stalled = none → s.irqTakable n = true →
    (let c := (s.engOf n).cpu
     ∃ t j, exec (.interruptEntry n) s = .next t ∧ (t.engOf n).cpu.epc = c.pc &&& ~~~3#32 ∧ (t.engOf n).cpu.estat = c.statusView ∧
       (t.engOf n).cpu.pc = c.vbase + 0x80#32 ∧ (t.engOf n).cpu.flag 8 = true ∧ (t.engOf n).cpu.flag 0 = false ∧
       (t.engOf n).cpu.cause = BitVec.ofNat 32 (2 ^ 31 + j * 65536) ∧ j < 32 ∧ (s.irqPending n).getLsbD j = true ∧
       (∀ k, j < k → (s.irqPending n).getLsbD k = false) ∧ (∀ r, (t.engOf n).cpu.gpr r = c.gpr r) ∧
       KeepsRegs s t [] ∧ KeepsMemory s t)) ∧
  (∀ (n : Fin 16) (s : State), s.estate n = stWait → s.irqPending n ≠ 0#32 →
    ∃ t, exec (.wfiWake n) s = .next t ∧ t.estate n = stRun ∧ (t.engOf n).cpu = (s.engOf n).cpu ∧
      KeepsRegs s t [ENG_ESTAT.addr n] ∧ KeepsMemory s t)

/-- DEBUG_HALT, DEBUG_ACCESS, DEBUG_STEP, DEBUG_RELEASE (R309, R325). -/
def Obligations.DebuggerCompletes : Prop :=
  (∀ (n : Fin 16) (s : State), s.dbgOpen n = true → (s.estate n = stRun ∨ s.estate n = stWait) →
    ∃ t, exec (.debugHalt n) s = .next t ∧ t.estate n = stHalted ∧ bitOf (t.get ENG_DBGSTAT.HALT) n = true ∧
      (t.engOf n).cpu = (s.engOf n).cpu ∧ (t.engOf n).resume = s.estate n ∧
      KeepsRegs s t [ENG_ESTAT.addr n, ENG_DBGSTAT.addr] ∧ KeepsMemory s t) ∧
  (∀ (n : Fin 16) (r : Fin 32) (v : Word) (s : State), s.dbgOpen n = true → s.dOn n = true →
    (∃ t, exec (.debugAccess n (.gpr r) true v) s = .next t ∧
      (∀ k, k < 32 → (t.engOf n).cpu.gpr k = if k = r.val ∧ k ≠ 0 then v else (s.engOf n).cpu.gpr k) ∧
      KeepsRegs s t [] ∧ KeepsMemory s t) ∧
    (∃ t, exec (.debugAccess n (.gpr r) false v) s = .next t ∧ t.rdata = (s.engOf n).cpu.gpr r ∧ t.eng = s.eng ∧
      KeepsRegs s t [] ∧ KeepsMemory s t)) ∧
  (∀ (n : Fin 16) (w : Word) (s : State), s.dbgOpen n = true → s.estate n = stHalted → (s.engOf n).stalled = none →
    s.fetchBundle n (s.engOf n).cpu.pc = .inr ⟨[w], true⟩ → legalSyl w = true → (s.engOf n).cpu.flag 9 = false →
    sylUnit w ≤ 1 → (s.engOf n).cpu.flag 1 = false →
    (let c := (s.engOf n).cpu
     ∃ t, exec (.debugStep n) s = .next t ∧ t.estate n = stHalted ∧ bitOf (t.get ENG_DBGSTAT.HALT) n = true ∧
       (t.engOf n).cpu.pc = c.pc + 4#32 ∧
       (∀ r, r < 32 → (t.engOf n).cpu.gpr r = if r = sylD w ∧ r ≠ 0 then
         (aluA w (c.gpr (sylA w)) (c.gpr (sylB w)) (c.gpr (sylD w))).v else c.gpr r) ∧
       KeepsRegs s t [ENG_ESTAT.addr n, ENG_DBGSTAT.addr, SYS_ECCCORR.addr] ∧ KeepsMemory s t)) ∧
  (∀ (n : Fin 16) (s : State), s.estate n = stHalted → (s.engOf n).resume < 8 →
    ∃ t, exec (.debugRelease n) s = .next t ∧ t.estate n = (s.engOf n).resume ∧ bitOf (t.get ENG_DBGSTAT.HALT) n = false ∧
      (t.engOf n).cpu = (s.engOf n).cpu ∧ KeepsRegs s t [ENG_ESTAT.addr n, ENG_DBGSTAT.addr] ∧ KeepsMemory s t)


/-- AES_INIT, AES_CONT, AES_SAVEW, AES_RESTW, AES_CLEAR, AES_JOB_END, RNG_HEALTH_FAIL, RNG_STARTUP_DONE, RNG_READ, RNG_RESTART
(R329 to R331, R340, R341). -/
def Obligations.CipherCompletes : Prop :=
  (∀ (e : Fin 16) (n : Fin 64) (v : Word) (s : State), s.reaches e (AES_CMD.addr n) →
    ∀ c ∈ [(Instr.aesInit e n v, 1), (Instr.aesCont e n v, 2), (Instr.aesSavew e n v, 3), (Instr.aesRestw e n v, 4),
        (Instr.aesClear e n v, 5)],
      ∃ t, exec c.1 s = .next t ∧ KeepsMemory s t ∧
        (s.bit (AES_STATn.BUSY n) = true → t.sec = s.sec ∧ t.bit AES_EVT.BUSYW = true ∧ KeepsRegs s t [AES_EVT.addr]) ∧
        (s.bit (AES_STATn.BUSY n) = false → t.bit (AES_STATn.BUSY n) = true ∧
          t.sec.aes.length = s.sec.aes.length + 1 ∧
          ∃ j, t.sec.aes.getLast? = some j ∧ j.n = n ∧ j.op = c.2 ∧ j.last = v.getLsbD 0 ∧ j.eng = e ∧
            j.cfg = s.reg (AES_CFG.addr n) ∧ j.src = (s.reg (AES_SRC.addr n)).toNat ∧
            j.dst = (s.reg (AES_DST.addr n)).toNat ∧ j.lens = s.reg (AES_LEN.addr n) ∧
            (s.sec.aes = [] → j.started = true))) ∧
  (∀ (j : AesJob) (l : List AesJob) (s : State), s.dOn 24 = true → s.sec.aes = j :: l → j.n < 64 →
    ∃ t, exec .aesJobEnd s = .next t ∧ t.bit (AES_STATn.BUSY j.n) = false ∧ t.sec.aes.length = l.length ∧
      (if j.n < 32 then bitOf (t.get AES_DONEL.DONE) j.n else bitOf (t.get AES_DONEH.DONE) (j.n - 32)) = true ∧
      (∀ (f : Nat), j.fail = some f → f < 16 → t.get (AES_STATn.RESULT j.n) = f ∧ KeepsMemory s t) ∧
      (j.fail = none → j.op = 5 → t.get (AES_STATn.RESULT j.n) = 1 ∧ (∀ w, w < 32 → t.reg (ctxAddr j.n w) = 0#32) ∧
        KeepsMemory s t)) ∧
  (∀ (l : List Bool) (s : State), s.dOn 24 = true →
    (rctFails l = false → aptFails l = false → exec (.rngHealthFail l) s = .next s) ∧
    ((rctFails l || aptFails l) = true →
      ∃ t, exec (.rngHealthFail l) s = .next t ∧ t.get KEY_RNGSTAT.STATE = 2 ∧ t.bit KEY_EVT.RNGERR = true ∧
        t.bit KEY_RNGSTAT.RCTF = (rctFails l || s.bit KEY_RNGSTAT.RCTF) ∧
        t.bit KEY_RNGSTAT.APTF = (aptFails l || s.bit KEY_RNGSTAT.APTF) ∧
        t.bit AES_STAT.MASKOLD = true ∧ KeepsRegs s t [KEY_RNGSTAT.addr, KEY_EVT.addr, AES_STAT.addr] ∧ KeepsMemory s t)) ∧
  (∀ (l : List Bool) (s : State), s.dOn 24 = true → s.get KEY_RNGSTAT.STATE = 0 → rctFails l = false → aptFails l = false →
    (l.length < 1024 → exec (.rngStartupDone l) s = .next s) ∧
    (1024 ≤ l.length →
      ∃ t, exec (.rngStartupDone l) s = .next t ∧ t.get KEY_RNGSTAT.STATE = 1 ∧ t.bit KEY_RNGSTAT.RCTF = false ∧
        t.bit KEY_RNGSTAT.APTF = false ∧ t.bit AES_STAT.MASKOLD = false ∧ t.sec.rng.masked = 0 ∧ t.sec.rng.buf = [] ∧
        KeepsRegs s t [KEY_RNGSTAT.addr, AES_STAT.addr] ∧ KeepsMemory s t)) ∧
  (∀ (e : Fin 16) (s : State), s.reaches e KEY_RNG.addr →
    ∃ t, exec (.rngRead e) s = .next t ∧ KeepsRegs s t [] ∧ KeepsMemory s t ∧
      (s.get KEY_RNGSTAT.STATE ≠ 1 → t.rdata = 0#32 ∧ t.sec = s.sec) ∧
      (∀ w m, s.get KEY_RNGSTAT.STATE = 1 → s.sec.rng.buf = w :: m → t.rdata = w ∧ t.sec.rng.buf = m) ∧
      (s.get KEY_RNGSTAT.STATE = 1 → s.sec.rng.buf = [] →
        t.rdata = BitVec.ofNat 32 (leNat (s.rngRequest.1.take 4)) ∧ t.sec.rng.buf.length = 15)) ∧
  (∀ (e : Fin 16) (v : Word) (s : State), s.reaches e KEY_RNGCTL.addr →
    ∃ t, exec (.rngRestart e v) s = .next t ∧ t.get KEY_RNGSTAT.STATE = 0 ∧ KeepsRegs s t [KEY_RNGSTAT.addr] ∧
      KeepsMemory s t)

/-- KEY_GEN, KEY_IMPORT, KEY_UNWRAP, KEY_WRAP, KEY_DERIVE, KEY_ECDH, KEY_ERASE, KEY_SETLIMIT, KEY_COMMAND_DONE, LC_TO_PROVISIONED,
LC_TO_SEALED, LC_TO_RETIRED, LIFECYCLE_MOVE_DONE, KEY_DBGTOKEN, DEBUG_TOKEN_VERDICT (R335 to R338, R348, R349). -/
def Obligations.KeysComplete : Prop :=
  (∀ (e : Fin 16) (v : Word) (s : State), s.reaches e KEY_CMD.addr → s.bit KEY_STAT.BUSY = false →
    ∀ c ∈ [(Instr.keyGen e v, 1), (Instr.keyImport e v, 2), (Instr.keyUnwrap e v, 3), (Instr.keyWrap e v, 4),
        (Instr.keyDerive e v, 5), (Instr.keyEcdh e v, 6), (Instr.keyErase e v, 7), (Instr.keySetlimit e v, 8)],
      ∃ t, exec c.1 s = .next t ∧ KeepsRegs s t [KEY_STAT.addr] ∧ KeepsMemory s t ∧
        (if s.bit KEY_STAT.LCBUSY = true ∨ s.sec.lc = 3 then t.get KEY_STAT.RESULT = 10 ∧ t.sec = s.sec
         else t.bit KEY_STAT.BUSY = true ∧ ∃ k, t.sec.cmd = some k ∧ k.op = c.2 ∧ k.slot = fieldOf v 0 8 ∧
           k.wslot = fieldOf v 8 8 ∧ k.attr = s.reg KEY_ATTRIN.addr ∧ k.limit = s.get KEY_LIMITIN.LIMIT)) ∧
  (∀ (c : KeyJob) (s : State), s.dOn 24 = true → s.sec.cmd = some c → c.slot < 256 →
    (∀ (f : Nat), c.fail = some f → f < 16 →
      ∃ t, exec .keyCommandDone s = .next t ∧ t.get KEY_STAT.RESULT = f ∧ t.bit KEY_STAT.BUSY = false ∧ t.sec.cmd = none ∧
        KeepsRegs s t [KEY_STAT.addr] ∧ KeepsMemory s t) ∧
    (c.fail = none → c.op = 2 → c.limit < 2 ^ 32 →
      ∃ t, exec .keyCommandDone s = .next t ∧ t.get KEY_STAT.RESULT = 1 ∧ t.bit KEY_STAT.BUSY = false ∧ t.sec.cmd = none ∧
        t.bit (KEY_SATTR.VALID c.slot) = true ∧ t.bit (KEY_SATTR.SPENT c.slot) = false ∧
        t.get (KEY_SATTR.TYPE c.slot) = fieldOf c.attr 24 4 ∧ t.get (KEY_SATTR.USAGE c.slot) = fieldOf c.attr 0 9 ∧
        t.get (KEY_SATTR.OWNER c.slot) = fieldOf c.attr 29 1 ∧
        t.get (KEY_SATTR.GEN c.slot) = (s.get (KEY_SATTR.GEN c.slot) + 1) % 256 ∧ t.get (KEY_SUSE.USE c.slot) = 0 ∧
        t.get (KEY_SLIMIT.LIMIT c.slot) = c.limit ∧ t.keyOf c.slot = padTo (keyLen (fieldOf c.attr 24 4)) c.data ∧
        (∀ i, i < 12 → t.reg (KEY_DATA.addr i) = 0#32) ∧ KeepsMemory s t) ∧
    (c.fail = none → c.op = 7 → s.slotBusy c.slot = false →
      ∃ t, exec .keyCommandDone s = .next t ∧ t.get KEY_STAT.RESULT = 1 ∧ t.bit KEY_STAT.BUSY = false ∧ t.sec.cmd = none ∧
        t.bit (KEY_SATTR.VALID c.slot) = false ∧ t.get (KEY_SUSE.USE c.slot) = 0 ∧ t.keyOf c.slot = [] ∧
        KeepsRegs s t [KEY_STAT.addr, KEY_SATTR.addr c.slot, KEY_SUSE.addr c.slot, KEY_SLIMIT.addr c.slot] ∧
        KeepsMemory s t)) ∧
  (∀ (e : Fin 16) (v : Word) (s : State), s.reaches e KEY_LCCMD.addr → fieldOf v 16 16 = 0xC6A0 →
    ∀ c ∈ [(Instr.lcToProvisioned e v, 1), (Instr.lcToSealed e v, 2), (Instr.lcToRetired e v, 3)],
      ∃ t, exec c.1 s = .next t ∧ KeepsMemory s t ∧ t.sec.lc = s.sec.lc ∧
        (if s.bit KEY_STAT.LCBUSY = true ∨ s.moveOk c.2 = false ∨ s.bit PWR_STAT.PFW = true then
           t.bit KEY_EVT.LCERR = true ∧ t.sec = s.sec ∧ KeepsRegs s t [KEY_EVT.addr]
         else t.sec.lcMove = some c.2 ∧ t.bit KEY_STAT.LCBUSY = true ∧ KeepsRegs s t [KEY_STAT.addr])) ∧
  (∀ (m : Nat) (s : State), s.dOn 24 = true → s.sec.lcMove = some m → m < 4 →
    (m = 1 → s.rngReady = false → exec .lifecycleMoveDone s = .next s) ∧
    ((m = 1 → s.rngReady = true) → ∃ t, exec .lifecycleMoveDone s = .next t ∧ t.sec.lc = m ∧ t.sec.lcMove = none ∧ t.get KEY_LC.STATE = m ∧
      t.bit KEY_STAT.LCBUSY = false ∧ t.bit KEY_EVT.LCDONE = true ∧ KeepsMemory s t ∧
      (m = 1 → t.sec.identity.isSome = true) ∧
      (m = 3 → ∀ k, k < 256 → t.bit (KEY_SATTR.VALID k) = false ∧ t.keyOf k = []))) ∧
  (∀ (b : List (BitVec 8)) (s : State), s.dOn 24 = true → s.bit PWR_STAT.PFW = false →
    ∃ t, exec (.keyDbgtoken b) s = .next t ∧ t.sec.token = some b ∧ KeepsRegs s t [] ∧ KeepsMemory s t) ∧
  (∀ (b : List Byte) (s : State), s.dOn 24 = true → s.sec.token = some b → s.sec.pkaRun ≠ some 0 →
    ∃ t, exec .debugTokenVerdict s = .next t ∧ t.sec.token = none ∧ t.sec.chal = s.sec.chal + 1 ∧
      KeepsRegs s t [ENG_DBGSTAT.addr] ∧ KeepsMemory s t ∧
      ∀ n, n < 16 → bitOf (t.get ENG_DBGSTAT.OPEN) n =
        (bitOf (s.get ENG_DBGSTAT.OPEN) n || (s.tokenOk b && bitOf (leNat ((b.drop 4).take 2)) n &&
          (s.isApp n || bitOf (leNat ((b.drop 2).take 2)) 0))))

/-- PKA_HASH256, PKA_HASH384, PKA_ECVERIFY, PKA_HSSVERIFY, PKA_VERIFY2, PKA_ECSIGN, PKA_ATTEST, PKA_IDPUB, PKA_JOB_END (R342, R343,
R345). -/
def Obligations.SignatureJobsComplete : Prop :=
  (∀ (e : Fin 16) (c : Fin 2) (v : Word) (s : State), s.reaches e (PKA_OP.addr c) → s.bit (PKA_STAT.BUSY c) = false →
    ∀ x ∈ [(Instr.pkaHash256 e c v, 1), (Instr.pkaHash384 e c v, 2), (Instr.pkaEcverify e c v, 3), (Instr.pkaHssverify e c v, 4),
        (Instr.pkaVerify2 e c v, 5), (Instr.pkaEcsign e c v, 6), (Instr.pkaAttest e c v, 8), (Instr.pkaIdpub e c v, 9)],
      ∃ t, exec x.1 s = .next t ∧ t.bit (PKA_STAT.BUSY c) = true ∧ KeepsRegs s t [PKA_STAT.addr c] ∧ KeepsMemory s t ∧
        (vget t.sec.pka c).job.map (fun j => { j with keyBad := false }) = some {
          op := x.2, first := v.getLsbD 6, last := v.getLsbD 7, src := (s.reg (PKA_SRC.addr c)).toNat,
          len := s.get (PKA_LEN.LEN c), key := (s.reg (PKA_KEY.addr c)).toNat, sig := (s.reg (PKA_SIG.addr c)).toNat,
          dst := (s.reg (PKA_DST.addr c)).toNat, eng := e } ∧
        (∀ k, s.sec.pkaRun = some k → t.sec.pkaRun = some k) ∧
        (s.sec.pkaRun = none → s.sec.pkaLast < 2 → t.sec.pkaRun.isSome = true)) ∧
  (∀ (c : Fin 2) (j : PkaJob) (s : State), s.dOn 24 = true → s.sec.pkaRun = some c.val → s.sec.keyRun = false → (vget s.sec.pka c).job = some j →
    ∃ t, exec .pkaJobEnd s = .next t ∧ t.bit (PKA_STAT.BUSY c) = false ∧ bitOf (t.get PKA_EVT.DONE) c = true ∧
      (vget t.sec.pka c).job = none ∧
      (∀ b, (j.op = 1 ∨ j.op = 2) → j.first = true → j.last = false → s.pkaRead j j.src j.len = some b →
        t.get (PKA_STAT.RESULT c) = 1 ∧ (vget t.sec.pka c).msg = b ∧ (vget t.sec.pka c).hop = j.op ∧ KeepsMemory s t) ∧
      ((j.op = 6 ∨ j.op = 8 ∨ j.op = 9) → c.val = 1 → t.get (PKA_STAT.RESULT c) = 6 ∧ KeepsMemory s t) ∧
      ((j.op = 0 ∨ j.op = 7 ∨ 9 < j.op) → t.get (PKA_STAT.RESULT c) = 4 ∧ KeepsMemory s t) ∧
      (j.op = 8 → c.val = 0 → s.hasIdentity = false → t.get (PKA_STAT.RESULT c) = 8 ∧ KeepsMemory s t))


/-- BOOT_ROM_START, RECIPE_COMMIT, UPD_BEGIN, UPD_MORSEL, UPD_VERIFY, UPD_ACTIVATE, UPD_CANCEL, UPD_CONFIRM, UPD_SAVESET,
UPD_COMMAND_DONE (R364 to R367, R369 to R371, R373, R375, R380). -/
def Obligations.BootAndUpdateComplete : Prop :=
  (∀ (time : BitVec 16) (s : State), s.bootReady = true → s.upd.cold = false → s.estate 0 = stRun →
    s.get UPD_STAT.STATE = 0 → s.bootRec.trial = 0 →
    (∀ flash : Bool,
      (let x := (s.set UPD_STAT.STATE 0).tryBank s.bootRec.active s.bootRec.scur flash
       ∃ t, exec (.bootRomStart flash time) s = .next t ∧
         (x.1 = 0 → t.get UPD_BOOT.FIRST = 1 ∧ t.get UPD_BOOT.SECOND = 0 ∧ t.get UPD_BOOT.CHECK = 0 ∧
           t.get UPD_BOOT.TIME = time.toNat ∧ t.upd.locked = true ∧ KeepsRegs x.2 t [UPD_BOOT.addr] ∧ KeepsMemory x.2 t) ∧
         (x.1 ≠ 0 → t.get UPD_BOOT.FIRST = 2 ∧ t.get UPD_BOOT.CHECK = x.1 ∧
           (t.get UPD_BOOT.SECOND = 2 → t.get UPD_STAT.STATE = 6)) ∧
         (flash = false → x.1 = 10 ∧ t.get UPD_BOOT.SECOND = 2 ∧ t.upd.locked = false ∧ KeepsMemory s t)))) ∧
  (∀ (e : Fin 16) (v : Word) (s : State), s.reaches e UPD_COMMIT.addr →
    ∃ t, exec (.recipeCommit e v) s = .next t ∧ KeepsMemory s t ∧
      (if fieldOf v 16 16 ≠ 0xC6A0 ∨ s.upd.locked = true then KeepsRegs s t [] ∧ t.upd = s.upd
       else if s.evrCheck.1 = true ∧ s.evrCheck.2.commitOk = true then
         t.upd.locked = true ∧ t.bit UPD_STAT.COMMITTED = true ∧
           ∀ n, n < 16 → bitOf (t.get ENG_RUN.EN) n = bitOf s.upd.runBits n
       else t.upd = s.upd ∧ KeepsRegs s t [EVR_CHECK.addr])) ∧
  (∀ (e : Fin 16) (v : Word) (s : State), s.reaches e UPD_CMD.addr → fieldOf v 16 16 = 0xC6A0 →
    ∀ c ∈ [(Instr.updBegin e v, 1), (Instr.updMorsel e v, 2), (Instr.updVerify e v, 3), (Instr.updActivate e v, 4),
        (Instr.updCancel e v, 5), (Instr.updConfirm e v, 6), (Instr.updSaveset e v, 7)],
      (s.bit UPD_STAT.BUSY = true →
        ∃ t, exec c.1 s = .next t ∧ t.get UPD_RESULT.OP = c.2 ∧ t.get UPD_RESULT.CODE = 2 ∧ t.bit UPD_EVT.DONE = true ∧
          t.upd = s.upd ∧ KeepsRegs s t [UPD_RESULT.addr, UPD_EVT.addr] ∧ KeepsMemory s t) ∧
      (s.bit UPD_STAT.BUSY = false → s.bit PWR_STAT.PFW = false → s.rescue = false →
        updAllowed c.2 (s.get UPD_STAT.STATE) = true →
        (c.2 = 1 → s.get UPD_MTOTAL.N ≠ 0 ∧ s.get UPD_MTOTAL.N ≤ 16256) →
        (c.2 = 4 → 2 ≤ wrapDiff 40 (s.get UPD_ACTLO.ABN + 2 ^ 32 * s.get UPD_ACTHI.ABN) s.abn) →
        ∃ t u, exec c.1 s = .next t ∧ t.bit UPD_STAT.BUSY = true ∧ t.upd.cmd = some u ∧ u.op = c.2 ∧ u.host = none ∧
          t.get UPD_STAT.STATE = (if c.2 = 3 then 2 else s.get UPD_STAT.STATE) ∧ KeepsRegs s t [UPD_STAT.addr] ∧
          KeepsMemory s t)) ∧
  (∀ (c : UpdCmd) (s : State), s.upd.cmd = some c → c.host = none → s.rescue = false → s.bit PWR_STAT.PFW = false →
    (c.op = 2 → s.stagedCount ≤ c.index → ∃ t, exec (.updCommandDone true) s = .next t ∧ t.get UPD_RESULT.CODE = 11 ∧
      t.bit UPD_STAT.BUSY = false ∧ KeepsMemory s t) ∧
    (c.op = 2 → c.index < s.stagedCount → s.missing c.index = false →
      ∃ t, exec (.updCommandDone true) s = .next t ∧ t.get UPD_RESULT.CODE = 12 ∧ t.bit UPD_STAT.BUSY = false ∧
        KeepsMemory s t) ∧
    (∀ (b : List Byte), c.op = 2 → c.index < s.stagedCount → c.index < 16256 → s.missing c.index = true → s.updBytes c 512 = some b →
      b.length = 512 →
      ∃ t, exec (.updCommandDone true) s = .next t ∧ t.get UPD_RESULT.CODE = 1 ∧ t.bit UPD_STAT.BUSY = false ∧
        t.missing c.index = false ∧ t.fbytes (stagingBase + 512 * c.index) 512 = b) ∧
    (c.op = 5 → s.get UPD_STAT.STATE = 3 → ∃ t, exec (.updCommandDone true) s = .next t ∧ t.get UPD_RESULT.CODE = 1 ∧
      t.get UPD_STAT.STATE = 1 ∧ t.bit UPD_STAT.BUSY = false ∧ KeepsMemory s t) ∧
    (c.op = 6 → ∃ t, exec (.updCommandDone true) s = .next t ∧ t.get UPD_RESULT.CODE = 1 ∧ t.get UPD_STAT.STATE = 0 ∧
      t.bit UPD_STAT.BUSY = false ∧ t.upd.counter = max s.upd.counter s.runVer ∧ t.bit UPD_EVT.CONFIRMED = true))


/-- SPI_WRITE, SPI_READ, UART_FRAME_RECEIVED, UART_RX_TIMEOUT, HOST_OUTPUT_FRAME, HIF_INBOUND_READ, HIF_OUTBOUND_WRITE,
HIF_INBOUND_FLUSH, HIF_OUTBOUND_FLUSH (R384 to R388, R390). -/
def Obligations.HostFramesComplete : Prop :=
  (∀ (tag : Nat) (p : List Byte) (s : State), tag < 256 → 2 ≤ p.length → p.length ≤ 1024 → 1 + ceilDiv p.length 4 ≤ s.inRoom →
    ∀ c ∈ [(Instr.spiWrite (hostFrame 1 tag p), 1), (Instr.uartFrameReceived (hostFrame 1 tag p), 2)],
      s.hifListens c.2 = true → (c.2 = 2 → s.hif.urx = []) →
      ∃ t, exec c.1 s = .next t ∧
        t.hif.inbox = s.hif.inbox ++ [itemHeader 1 tag c.2 p.length :: wordsOf (p.length + 1) p] ∧
        t.bit HIF_EVT.ITEM = true ∧ t.get HIF_FRAMECNT.IN = min 65535 (s.get HIF_FRAMECNT.IN + 1) ∧
        KeepsRegs s t [HIF_EVT.addr, HIF_FRAMECNT.addr, HIF_STAT.addr] ∧ KeepsMemory s t) ∧
  (∀ (b : List Byte) (s : State), b.length < 6 → s.hifListens 1 = true →
    ∃ t, exec (.spiWrite b) s = .next t ∧ t.get HIF_ERRCNT.TRUNC = min 65535 (s.get HIF_ERRCNT.TRUNC + 1) ∧
      t.bit HIF_EVT.FRAMEERR = true ∧ t.hif = { s.hif with miso := t.hif.miso } ∧ KeepsRegs s t [HIF_ERRCNT.addr, HIF_EVT.addr] ∧ KeepsMemory s t) ∧
  (∀ (b : List Byte) (s : State), s.hifListens 2 = true → s.hif.urx = [] → b.length < 5 →
    exec (.uartFrameReceived (0xC6 :: b)) s = .next { s with hif := { s.hif with urx := 0xC6 :: b } }) ∧
  (∀ (x : Byte) (b : List Byte) (s : State), s.hifListens 2 = true → s.hif.urx = x :: b → (∀ y ∈ b, y ≠ 0xC6) →
    ∃ t, exec .uartRxTimeout s = .next t ∧ t.get HIF_ERRCNT.TRUNC = min 65535 (s.get HIF_ERRCNT.TRUNC + 1) ∧
      t.bit HIF_EVT.FRAMEERR = true ∧ t.hif = { s.hif with urx := [] } ∧ KeepsRegs s t [HIF_ERRCNT.addr, HIF_EVT.addr] ∧
      KeepsMemory s t) ∧
  (∀ s : State, s.hif.urx = [] → exec .uartRxTimeout s = .next s) ∧
  (∀ (f : HifFrame) (k : Nat) (s : State), s.hifActive = true → s.ifInUse = 1 → s.hif.cur = some f → f.src = 1 →
    ∃ t, exec (.spiRead k) s = .next t ∧ KeepsMemory s t ∧
      (s.get HIF_CTRL.IF ≠ 0 → t.hif.miso =
        BitVec.ofNat 8 s.statusByte :: (f.bytes ++ List.replicate k 0).take k) ∧
      (if f.bytes.length ≤ k then t.hif.cur = none ∧ t.hif.outbox = s.hif.outbox.drop 1 ∧
         t.get HIF_FRAMECNT.OUT = min 65535 (s.get HIF_FRAMECNT.OUT + 1) ∧ KeepsRegs s t [HIF_FRAMECNT.addr]
       else t.hif = { s.hif with miso := t.hif.miso } ∧ KeepsRegs s t [])) ∧
  (∀ (i : List Word) (l : List (List Word)) (s : State), s.hifActive = true → s.ifInUse = 2 → s.hif.cur = none →
    s.hif.notices = [] → s.hif.outbox = i :: l → (∀ m ∈ s.ecc ++ s.ecc1, m.1 ≠ 8) →
    ∃ t, exec .hostOutputFrame s = .next t ∧ t.hif.cur = some { bytes := itemFrame i, src := 1 } ∧ KeepsRegs s t [] ∧
      KeepsMemory s t) ∧
  (∀ (e : Fin 16) (s : State), s.reaches e HIF_RXDATA.addr → (∀ m, s.hifWord = some m → s.ecc.contains m = false) →
    ∃ t, exec (.hifInboundRead e) s = .next t ∧ KeepsMemory s t ∧
      (∀ w ws l, s.hif.inbox = (w :: ws) :: l → t.rdata = w ∧
        t.hif.inbox = (if ws = [] then l else ws :: l) ∧ KeepsRegs s t [SYS_ECCCORR.addr]) ∧
      (s.hif.inbox = [] → t.rdata = s.hif.lastIn ∧ t.bit HIF_RXSTAT.UNDERRUN = true ∧ KeepsRegs s t [HIF_RXSTAT.addr])) ∧
  (∀ (e : Fin 16) (v : Word) (s : State), s.reaches e HIF_TXDATA.addr →
    (s.hif.outOpen = none → s.outUsed + 1 + ceilDiv (fieldOf v 0 12) 4 ≤ 512 → 0 < fieldOf v 0 12 →
      ∃ t, exec (.hifOutboundWrite e v) s = .next t ∧ t.hif.outOpen = some ([v], ceilDiv (fieldOf v 0 12) 4) ∧
        t.hif.outbox = s.hif.outbox ∧ KeepsRegs s t [] ∧ KeepsMemory s t) ∧
    (∀ (h : Word) (l : List Word), s.hif.outOpen = some (h :: l, 1) → fieldOf h 12 4 = s.ifInUse →
      ∃ t, exec (.hifOutboundWrite e v) s = .next t ∧ t.hif.outOpen = none ∧
        t.hif.outbox = s.hif.outbox ++ [(h :: l) ++ [v]] ∧ KeepsRegs s t [] ∧ KeepsMemory s t)) ∧
  (∀ (e : Fin 16) (v : Word) (s : State), s.reaches e HIF_RXSTAT.addr →
    ∃ t, exec (.hifInboundFlush e v) s = .next t ∧ t.hif.inbox = [] ∧ t.hif.outbox = s.hif.outbox ∧
      KeepsRegs s t [HIF_RXSTAT.addr] ∧ KeepsMemory s t) ∧
  (∀ (e : Fin 16) (v : Word) (s : State), s.reaches e HIF_TXSTAT.addr →
    ∃ t, exec (.hifOutboundFlush e v) s = .next t ∧ t.hif.outOpen = none ∧ t.hif.inbox = s.hif.inbox ∧
      (s.hif.cur = none → t.hif.outbox = []) ∧ KeepsRegs s t [HIF_TXSTAT.addr] ∧ KeepsMemory s t)

/-- HOST_PING, HOST_JRNSTAT, HOST_JRNREAD, HOST_BEGIN, HOST_MORSEL, HOST_VERIFY, HOST_ACTIVATE, HOST_CANCEL, HOST_CONFIRM,
HOST_SAVESET, JOURNAL_APPEND, JOURNAL_MIRROR_COPY (R392 to R396, R398). -/
def Obligations.HostCommandsComplete : Prop :=
  (∀ (c : HostCmd) (s : State), s.headCmd = some c → c.port = s.ifInUse →
    ∀ x ∈ [(Instr.hostPing, 1, 12, pingAnswer s c), (Instr.hostJrnstat, 2, 12, jrnstatAnswer s c),
        (Instr.hostJrnread, 3, 992, jrnreadAnswer s c)],
      c.code = x.2.1 → s.canServe x.2.2.1 = true →
      ∃ t, exec x.1 s = .next t ∧ t.hif.inbox = s.hif.inbox.drop 1 ∧
        t.get JRN_HEAD.SEQ = (s.get JRN_HEAD.SEQ + 1) % 2 ^ 32 ∧
        (let b := leBytes 2 c.code ++ leBytes 2 x.2.2.2.1 ++ x.2.2.2.2
         t.hif.outbox = s.hif.outbox ++ [itemHeader 2 c.tag c.port b.length :: wordsOf (b.length + 1) b])) ∧
  (∀ (c : HostCmd) (u : UpdCmd) (s : State), s.headCmd = some c → s.canServe 0 = true → s.dOn 24 = true →
    s.bit UPD_STAT.BUSY = false → s.bit PWR_STAT.PFW = false → s.rescue = false →
    ∀ x ∈ [(Instr.hostBegin, 1), (Instr.hostMorsel, 2), (Instr.hostVerify, 3), (Instr.hostActivate, 4), (Instr.hostCancel, 5),
        (Instr.hostConfirm, 6), (Instr.hostSaveset, 7)],
      c.code = 0x0F + x.2 → hostUpd x.2 c = some u → updAllowed x.2 (s.get UPD_STAT.STATE) = true →
      (x.2 = 1 → u.total ≠ 0 ∧ u.total ≤ 16256) → (x.2 = 4 → 2 ≤ wrapDiff 40 u.abn s.abn) →
      ∃ t, exec x.1 s = .next t ∧ t.hif.inbox = s.hif.inbox.drop 1 ∧ t.hif.outbox = s.hif.outbox ∧ t.upd.cmd = some u ∧
        t.bit UPD_STAT.BUSY = true ∧ KeepsRegs s t [UPD_STAT.addr] ∧ KeepsMemory s t) ∧
  (∀ (e n : Fin 16) (v : Word) (s : State), s.reaches e (JRN_GO.addr n) →
    ∃ t, exec (.journalAppend e n v) s = .next t ∧
      (let seq := s.get JRN_HEAD.SEQ
       let b := crumbEntry seq s.abn (s.get (JRN_WCODE.SOURCE n)) (s.get (JRN_WCODE.CODE n)) (s.get (JRN_WRES.RESULT n))
         (s.get (JRN_WRES.ORIGIN n)) (leBytes 4 (s.reg (JRN_WDIG0.addr n)).toNat ++ leBytes 4 (s.reg (JRN_WDIG1.addr n)).toNat ++
           leBytes 4 (s.reg (JRN_WDIG2.addr n)).toNat)
       t.mbytes (crumbAddr seq) 32 = b ∧
         (∀ a, a < crumbAddr seq ∨ crumbAddr seq + 32 ≤ a → t.mbyte a = s.mbyte a) ∧
         t.get JRN_HEAD.SEQ = (seq + 1) % 2 ^ 32 ∧ t.get (JRN_LAST.SEQ n) = seq ∧ t.bit JRN_EVT.APPENDED = true ∧
         KeepsRegs s t [JRN_HEAD.addr, JRN_EVT.addr, JRN_MIRHEAD.addr, JRN_LAST.addr n] ∧
         (∀ a, t.lbyte a = s.lbyte a) ∧ ∀ a, t.fbyte a = s.fbyte a)) ∧
  (∀ s : State, s.bit JRN_CTRL.MIREN = true → s.bit PWR_STAT.PFW = false → s.dOn 28 = true →
    s.get JRN_MIRHEAD.SEQ ≠ s.get JRN_HEAD.SEQ →
    ∃ t, exec .journalMirrorCopy s = .next t ∧
      t.fbytes (mirrorAddr (s.get JRN_MIRHEAD.SEQ)) 32 = s.mbytes (crumbAddr (s.get JRN_MIRHEAD.SEQ)) 32 ∧
      t.get JRN_MIRHEAD.SEQ = (s.get JRN_MIRHEAD.SEQ + 1) % 2 ^ 32 ∧ KeepsRegs s t [JRN_MIRHEAD.addr] ∧
      (∀ a, t.mbyte a = s.mbyte a) ∧ ∀ a, t.lbyte a = s.lbyte a)


/-- DOMAIN_REQUEST, DOMAIN_RESET, PAD_RELEASE (R417, R419, R427). -/
def Obligations.PowerWritesComplete : Prop :=
  (∀ (e : Fin 16) (d : Fin 40) (v : Word) (s : State), s.reaches e (PWR_REQ.addr d) →
    ∃ t, exec (.domainRequest e d v) s = .next t ∧
      (if v.toNat % 4 = 3 ∨ domainNumber d = false then KeepsRegs s t []
       else t.get (PWR_REQ.TARGET d) = v.toNat % 4 ∧ t.bit (PWR_REQ.WAIT d) = false ∧
         t.bit (PWR_REQ.PEND d) = decide (v.toNat % 4 ≠ s.get (PWR_DSTAT.STATE d)) ∧ KeepsRegs s t [PWR_REQ.addr d]) ∧
      KeepsMemory s t) ∧
  (∀ (e : Fin 16) (v : Word) (s : State), s.reaches e PWR_DRST.addr → fieldOf v 16 16 = 0xC6A0 →
    ∃ t, exec (.domainReset e v) s = .next t ∧
      (s.upd.locked = false → fieldOf v 0 6 ∈ [16, 17, 19, 22, 25, 26, 27] →
        ∀ a r, findRow a = some r → r.dom = fieldOf v 0 6 → r.keep = 0 →
          t.reg a = BitVec.ofNat 32 r.reset) ∧
      (s.upd.locked = true → fieldOf v 0 6 ∈ [22, 23, 24, 27, 28] →
        t.bit PWR_EVT.REFUSED = true ∧ KeepsRegs s t [PWR_EVT.addr] ∧ KeepsMemory s t)) ∧
  (∀ (e : Fin 16) (s : State), s.reaches e PWR_PADREL.addr →
    ∃ t, exec (.padRelease e) s = .next t ∧ t.pad.gpioHold = none ∧ t.bit PWR_STAT.GPIOHELD = false ∧
      KeepsRegs s t [PWR_STAT.addr] ∧ KeepsMemory s t)

/-- REGULATOR_READY, OSCILLATOR_READY, MEMORY_READY, LOGIC_READY, GPIO_WAKE, VIO_DETECT, FLASH_RESET_PULSE (R420 to R422, R424,
R467, R469). -/
def Obligations.StagesAndWakesComplete : Prop :=
  (∀ (d : Fin 40) (s : State), (aget s.pwr.waking d.val).isSome = true →
    ∃ t, exec (.regulatorReady d) s = .next t ∧ t.bit (PWR_DSTAT.REGRDY d) = true ∧
      KeepsRegs s t [PWR_DSTAT.addr d, PWR_BUCK.addr] ∧ KeepsMemory s t) ∧
  (∀ (d : Fin 40) (s : State), (aget s.pwr.waking d.val).isSome = true → s.bit (PWR_DSTAT.REGRDY d) = true →
    ∃ t, exec (.oscillatorReady d) s = .next t ∧ t.bit (PWR_DSTAT.OSCRDY d) = true ∧ t.bit PWR_STAT.VTCXO = true ∧
      KeepsRegs s t [PWR_DSTAT.addr d, PWR_STAT.addr, SYS_CLKSTAT.addr] ∧ KeepsMemory s t) ∧
  (∀ (d : Fin 40) (s : State), (aget s.pwr.waking d.val).isSome = true → s.bit (PWR_DSTAT.OSCRDY d) = true →
    ∃ t, exec (.memoryReady d) s = .next t ∧ t.bit (PWR_DSTAT.MEMRDY d) = true ∧
      KeepsRegs s t [PWR_DSTAT.addr d] ∧ KeepsMemory s t) ∧
  (∀ (d : Fin 40) (s : State), domainNumber d = true → (aget s.pwr.waking d.val).isSome = true →
    s.bit (PWR_DSTAT.MEMRDY d) = true →
    ∃ t, exec (.logicReady d) s = .next t ∧ t.reg (PWR_DSTAT.addr d) = 0xF0#32) ∧
  (∀ (k : Fin 32) (s : State), s.pad.vioOk = true → s.pwr.aoDown = false → s.pwr.onVbak = false →
    s.bit PWR_WAKEEN.GPIO = true → bitOf (s.get PWR_GPIOWAKE.EN) k = true →
    s.gpioLevel k = !bitOf (s.get PWR_GPIOPOL.LOW) k → (∀ c j, s.pwr.lastWake = some (c, j) → c ≠ s.clk) →
    ∃ t, exec (.gpioWake k) s = .next t ∧ t.get PWR_LASTWAKE.CAUSE = 4 ∧ t.get PWR_LASTWAKE.DETAIL = k.val ∧
      t.get PWR_LASTWAKE.COUNT = min 65535 (s.get PWR_LASTWAKE.COUNT + 1) ∧ KeepsMemory s t) ∧
  (∀ (k : Fin 32) (s : State), bitOf (s.get PWR_GPIOWAKE.EN) k = false → exec (.gpioWake k) s = .next s) ∧
  (∀ (ok : Bool) (s : State), (ok && s.pwr.warmHeld) = false →
    ∃ t, exec (.vioDetect ok) s = .next t ∧ t.pad.vioOk = ok ∧ KeepsRegs s t [] ∧ KeepsMemory s t) ∧
  (∀ s : State, exec .flashResetPulse s = .next { s with pad := { s.pad with flPulse := false } })

/-- POWER_FAIL_WARNING, POWER_FAIL_CLEAR, POWER_FAIL, SUPPLY_RETURN, VBAK_LOW, VBAK_LOW_CLEAR, VBAK_HOLD_EXPIRY, VBAK_COLD_START,
POWER_ON (R406, R407, R409, R411 to R413). -/
def Obligations.SupplyEventsComplete : Prop :=
  (∀ s : State, s.pwr.aoDown = false → s.pwr.onVbak = false → s.bit PWR_STAT.PFW = false →
    ∃ t, exec .powerFailWarning s = .next t ∧ t.bit PWR_STAT.PFW = true ∧ t.bit PWR_EVT.PFW = true) ∧
  (∀ s : State, s.pwr.aoDown = false → s.pwr.onVbak = false → s.bit PWR_STAT.PFW = true →
    ∃ t, exec .powerFailClear s = .next t ∧ t.bit PWR_STAT.PFW = false ∧ t.bit PWR_EVT.PFWCLR = true) ∧
  (∀ s : State, s.pwr.aoDown = false → s.pwr.onVbak = false →
    ∃ t, exec .powerFail s = .next t ∧ t.pwr.onVbak = true ∧ t.bit PWR_STAT.VMAINOK = false ∧
      (∀ d, domainNumber d = true → d < 40 → t.get (PWR_DSTAT.STATE d) = 2)) ∧
  (∀ s : State, s.pwr.aoDown = false → s.pwr.onVbak = true →
    ∃ t, exec .supplyReturn s = .next t ∧ t.pwr.onVbak = false ∧ t.bit PWR_STAT.VMAINOK = true ∧
      t.get PWR_LASTWAKE.CAUSE = 2) ∧
  (∀ s : State, s.pwr.aoDown = false →
    (∃ t, exec .vbakLow s = .next t ∧ t.bit PWR_STAT.VBAKLOW = true ∧ t.bit PWR_EVT.VBAKLOW = true ∧
      t.pwr.holdTimer = (s.pwr.holdTimer || s.pwr.onVbak) ∧ KeepsRegs s t [PWR_STAT.addr, PWR_EVT.addr] ∧ KeepsMemory s t) ∧
    (∃ t, exec .vbakLowClear s = .next t ∧ t.bit PWR_STAT.VBAKLOW = false ∧ t.pwr = s.pwr ∧
      KeepsRegs s t [PWR_STAT.addr] ∧ KeepsMemory s t)) ∧
  (∀ s : State, s.pwr.holdTimer = true →
    ∃ t, exec .vbakHoldExpiry s = .next t ∧ t.pwr.aoDown = true ∧ t.flash = s.flash ∧ t.sec.lc = s.sec.lc) ∧
  (∀ s : State, s.pwr.aoDown = true →
    (∃ t, exec .vbakColdStart s = .next t ∧ t.pwr.aoDown = false ∧ t.pwr.onVbak = true ∧
      (∀ d, domainNumber d = true → d < 40 → t.get (PWR_DSTAT.STATE d) = 2) ∧ t.flash = s.flash ∧ t.sec.lc = s.sec.lc) ∧
    (∃ t, exec .powerOn s = .next t ∧ t.pwr.aoDown = false ∧ t.pwr.onVbak = false ∧
      (∀ d, domainNumber d = true → d < 40 → t.get (PWR_DSTAT.STATE d) = 0) ∧ t.flash = s.flash ∧ t.sec.lc = s.sec.lc))


/-- RTC_SET, RTC_SHIFT, RTC_SUBSEC_READ, RTC_TICK, SLOW_LOSS, SLOW_CLOCK_RETURN (R432 to R436, R439). -/
def Obligations.RtcCompletes : Prop :=
  (∀ (e : Fin 16) (v : Word) (s : State), s.reaches e RTC_CMD.addr → fieldOf v 16 16 = 0xC6A0 → v.getLsbD 0 = true →
    ∃ t, exec (.rtcSet e v) s = .next t ∧
      (if dateOk (s.reg RTC_SETTIME.addr) (s.reg RTC_SETDATE.addr) = true then
         t.rtc.setCopy = some (s.reg RTC_SETTIME.addr, s.reg RTC_SETDATE.addr) ∧ t.bit RTC_STAT.SETPEND = true
       else t.rtc = s.rtc ∧ t.bit RTC_STAT.BADDATE = true) ∧ KeepsRegs s t [RTC_STAT.addr] ∧ KeepsMemory s t) ∧
  (∀ (e : Fin 16) (v : Word) (s : State), s.reaches e RTC_SHIFT.addr → v.toNat % 65536 ≠ 32768 →
    s.bit RTC_STAT.BORROW = false →
    ∃ t, exec (.rtcShift e v) s = .next t ∧ t.rtc.shift = signed 16 (v.toNat % 65536) ∧
      t.bit RTC_STAT.SHPEND = decide (v.toNat % 65536 ≠ 0) ∧ KeepsRegs s t [RTC_STAT.addr] ∧ KeepsMemory s t) ∧
  (∀ (e : Fin 16) (s : State), s.reaches e RTC_SUBSEC.addr → aget s.sys.latched RTC_SUBSEC.addr = none →
    ∃ t, exec (.rtcSubsecRead e) s = .next t ∧ t.rdata = s.reg RTC_SUBSEC.addr ∧
      aget t.sys.latched RTC_TIME.addr = some (s.reg RTC_TIME.addr) ∧
      aget t.sys.latched RTC_DATE.addr = some (s.reg RTC_DATE.addr) ∧ KeepsRegs s t [] ∧ KeepsMemory s t) ∧
  (∀ (c d : Word) (s : State), s.pwr.aoDown = false → s.rtc.setCopy = some (c, d) →
    ∃ t, exec .rtcTick s = .next t ∧ t.reg RTC_TIME.addr = c ∧ t.rtc.setCopy = none ∧ t.get RTC_SUBSEC.PRE = 0 ∧
      t.get RTC_DATE.WDAY = weekday (fieldOf d 20 9) (fieldOf d 8 4) (fieldOf d 0 5) % 8 ∧
      t.get RTC_DATE.YEAR = fieldOf d 20 9 ∧ t.get RTC_DATE.MONTH = fieldOf d 8 4 ∧ t.get RTC_DATE.DAY = fieldOf d 0 5 ∧
      t.bit RTC_STAT.INVALID = false ∧ t.bit RTC_STAT.BORROW = false ∧ t.bit RTC_STAT.SETPEND = false ∧ KeepsMemory s t) ∧
  (∀ s : State, s.pwr.aoDown = false → s.rtc.setCopy = none → s.get RTC_TRIM.T = 0 → s.rtc.trimT = 0 → s.rtc.shift = 0 →
    s.get RTC_SUBSEC.PRE < 32767 →
    ∃ t, exec .rtcTick s = .next t ∧ t.get RTC_SUBSEC.PRE = s.get RTC_SUBSEC.PRE + 1 ∧
      t.rtc.i = (s.rtc.i + 1) % 1048576 ∧ KeepsRegs s t [RTC_SUBSEC.addr, RTC_STAT.addr] ∧ KeepsMemory s t) ∧
  (∀ s : State, s.pwr.aoDown = false →
    (∃ t, exec .slowLoss s = .next t ∧ t.bit SYS_CLKSTAT.SLOWOK = false ∧ t.bit RTC_STAT.INVALID = true ∧
      KeepsRegs s t [SYS_CLKSTAT.addr, RTC_STAT.addr] ∧ KeepsMemory s t) ∧
    (∃ t, exec .slowClockReturn s = .next t ∧ t.bit SYS_CLKSTAT.SLOWOK = true ∧ t.rtc = s.rtc ∧
      KeepsRegs s t [SYS_CLKSTAT.addr] ∧ KeepsMemory s t))

/-- R433, R434: the calendar's step keeps its ranges, moves the weekday at midnight alone, and wraps the century only at the end of
YEAR 399. -/
def Obligations.CalendarStaysValid : Prop :=
  ∀ t d : Word, dateOk t d = true → fieldOf t 24 8 = 0 →
    dateOk (nextSecond t d).1 (nextSecond t d).2.1 = true ∧
    fieldOf (nextSecond t d).2.1 29 3 =
      (if (nextSecond t d).1 = 0#32 then fieldOf d 29 3 % 7 + 1 else fieldOf d 29 3) ∧
    ((nextSecond t d).2.2 = true ↔
      t = timeWord 23 59 59 ∧ fieldOf d 20 9 = 399 ∧ fieldOf d 8 4 = 12 ∧ fieldOf d 0 5 = 31)


/-- TIMER_START, TIMER_STOP, TIMER_CLEAR, TIMER_SNAP, TIMER_COUNT_WRITE, TIMER_CAPTURE, TIMER_CAPTURE_READ (R444 to R449). -/
def Obligations.TimerCommandsComplete : Prop :=
  (∀ (e : Fin 16) (n : Fin 8) (v : Word) (s : State), s.reaches e (TMR_CTRL.addr n) → s.tmrFollower n = false →
    (∃ t, exec (.timerStart e n v) s = .next t ∧ t.bit (TMR_CTRL.RUN n) = true ∧ t.bit (TMR_STAT.RUNNING n) = true ∧
      t.get (TMR_CTRL.ONESHOT n) = fieldOf v 30 1 ∧
      (v.getLsbD 1 = false → v.getLsbD 2 = false → t.tmr = s.tmr) ∧
      KeepsRegs s t [TMR_CTRL.addr n, TMR_STAT.addr n] ∧ KeepsMemory s t) ∧
    (s.bit (TMR_CTRL.RUN n) = true → v.getLsbD 1 = false →
      ∃ t, exec (.timerStop e n v) s = .next t ∧ t.bit (TMR_CTRL.RUN n) = false ∧ t.bit (TMR_STAT.RUNNING n) = false ∧
        (vget t.tmr n).latch = (vget s.tmr n).cnt ∧ (vget t.tmr n).cnt = (vget s.tmr n).cnt ∧
        KeepsRegs s t [TMR_CTRL.addr n, TMR_STAT.addr n] ∧ KeepsMemory s t) ∧
    (∃ t, exec (.timerClear e n v) s = .next t ∧ (vget t.tmr n).cnt = 0#32 ∧ (vget t.tmr n).residue = 0 ∧
      KeepsRegs s t [TMR_CTRL.addr n, TMR_STAT.addr n] ∧ KeepsMemory s t) ∧
    (v.getLsbD 1 = false →
      ∃ t, exec (.timerSnap e n v) s = .next t ∧ (vget t.tmr n).latch = (vget s.tmr n).cnt ∧
        (vget t.tmr n).cnt = (vget s.tmr n).cnt ∧ t.bit (TMR_STAT.STALE n) = false ∧
        KeepsRegs s t [TMR_CTRL.addr n, TMR_STAT.addr n] ∧ KeepsMemory s t)) ∧
  (∀ (e : Fin 16) (n : Fin 8) (v : Word) (s : State), s.reaches e (TMR_CNT.addr n) → s.tmrFollower n = false →
    s.chained n = false →
    ∃ t, exec (.timerCountWrite e n v) s = .next t ∧
      (vget t.tmr n).cnt = (if s.bit (TMR_CTRL.RUN n) = true then (vget s.tmr n).cnt else v) ∧
      (∀ k, k < 8 → k ≠ n.val → vget t.tmr k = vget s.tmr k) ∧ KeepsRegs s t [] ∧ KeepsMemory s t) ∧
  (∀ (n : Fin 8) (rising : Bool) (s : State), s.dOn 28 = true → s.tmrFollower n = false → s.get (TMR_CFG.CAPSRC n) ≠ 0 →
    ∃ t, exec (.timerCapture n rising) s = .next t ∧
      t.reg (if rising = true then TMR_CAPR.addr n else TMR_CAPF.addr n) = (vget s.tmr n).cnt ∧
      t.bit (if rising = true then TMR_STAT.RVALID n else TMR_STAT.FVALID n) = true ∧
      (s.bit (if rising = true then TMR_STAT.RVALID n else TMR_STAT.FVALID n) = true → t.bit (TMR_STAT.CAPOVR n) = true) ∧
      (vget t.tmr n).rose = rising ∧ KeepsMemory s t) ∧
  (∀ (e : Fin 16) (n : Fin 8) (rising : Bool) (s : State),
    s.reaches e (if rising = true then TMR_CAPR.addr n else TMR_CAPF.addr n) → s.tmrFollower n = false →
    aget s.sys.latched (if rising = true then TMR_CAPR.addr n else TMR_CAPF.addr n) = none →
    ∃ t, exec (.timerCaptureRead e n rising) s = .next t ∧
      t.rdata = s.reg (if rising = true then TMR_CAPR.addr n else TMR_CAPF.addr n) ∧
      t.bit (if rising = true then TMR_STAT.RVALID n else TMR_STAT.FVALID n) = false ∧
      KeepsRegs s t [TMR_STAT.addr n] ∧ KeepsMemory s t)

/-- TIMER_TICK (R442 to R444). -/
def Obligations.TimerTickCompletes : Prop :=
  ∀ (n : Fin 8) (s : State), s.tmrSource n = true → s.bit (TMR_CTRL.RUN n) = true → s.gateOpen n = true →
    (vget s.tmr n).pendStart = false → (vget s.tmr n).pendStop = false → (vget s.tmr n).pendClr = false →
    (s.tmrCleared n = true → exec (.timerTick n) s = .next s) ∧
    (s.tmrCleared n = false → ∃ t, exec (.timerTick n) s = .next t ∧
      (if (vget s.tmr n).residue < s.get (TMR_CFG.PRE n) then
         (vget t.tmr n).residue = (vget s.tmr n).residue + 1 ∧ t.tmrCount n = s.tmrCount n ∧ KeepsRegs s t []
       else (vget t.tmr n).residue = 0 ∧
         (if s.tmrCount n < (s.tmrLimits n).1 then
            t.tmrCount n = s.tmrCount n + 1 ∧ t.bit (TMR_CTRL.RUN n) = true ∧
              (s.tmrCount n + 1 = (s.tmrLimits n).2 → bitOf (t.get TMR_EVT.CMP) n = true)
          else bitOf (t.get TMR_EVT.WRAP) n = true ∧
            (if s.bit (TMR_CTRL.ONESHOT n) = true then t.tmrCount n = s.tmrCount n ∧ t.bit (TMR_CTRL.RUN n) = false
             else t.tmrCount n = 0 ∧ t.bit (TMR_CTRL.RUN n) = true))) ∧ KeepsMemory s t)

/-- EVENT_FIRE, EVENT_DELIVERY, PRALINE_OUTPUT_CHANGE, GPIO_EDGE (R451 to R454, R456, R457, R484). -/
def Obligations.EventCommandsComplete : Prop :=
  (∀ (e : Fin 16) (k : Fin 64) (v : Word) (s : State), s.reaches e (EVR_CHCTL.addr k) →
    ∃ t, exec (.eventFire e k v) s = .next t ∧ t.get (EVR_CHCTL.EN k) = fieldOf v 31 1 ∧
      t.evr.transit = (if v.getLsbD 31 = true then s.evr.transit ++ [(k.val, s.clk)] else s.evr.transit) ∧
      KeepsRegs s t [EVR_CHCTL.addr k] ∧ KeepsMemory s t) ∧
  (∀ (k : Fin 64) (p : Nat × Nat) (s : State), s.dOn 28 = true → s.evr.transit.find? (fun p => p.1 = k.val) = some p →
    s.get (EVR_CHCFG.CONSUMER k) = 0 →
    ∃ t, exec (.eventDelivery k) s = .next t ∧ t.evr.transit = s.evr.transit.erase p ∧
      (if k.val < 32 then bitOf (t.get EVR_FLAGL.FLAG) k else bitOf (t.get EVR_FLAGH.FLAG) (k - 32)) = true ∧
      KeepsRegs s t [EVR_FLAGL.addr, EVR_FLAGH.addr] ∧ KeepsMemory s t) ∧
  (∀ (k : Fin 64) (p : Nat × Nat) (s : State), s.dOn 28 = true → s.evr.transit.find? (fun p => p.1 = k.val) = some p →
    s.get (EVR_CHCFG.CONSUMER k) = 0x52 → s.tsu.capPend = false → aget s.evr.arrived 0x52 ≠ some p.2 →
    ∃ t, exec (.eventDelivery k) s = .next t ∧ t.tsu.capPend = true ∧ aget t.evr.arrived 0x52 = some p.2 ∧
      KeepsRegs s t [EVR_FLAGL.addr, EVR_FLAGH.addr] ∧ KeepsMemory s t) ∧
  (∀ (c : Fin 16) (s : State), s.dOn 28 = true →
    ∃ t, exec (.pralineOutputChange c) s = .next t ∧
      t.bit (EVR_PCSTAT.OUT c) = bitOf (s.get (EVR_PCTAB.TABLE c)) (s.pcIndex c) ∧
      KeepsRegs s t [EVR_PCSTAT.addr c] ∧ KeepsMemory s t) ∧
  (∀ (k : Fin 32) (level : Bool) (s : State),
    ∃ t, exec (.gpioEdge k level) s = .next t ∧ bitOf t.pad.ext.toNat k = level ∧
      (∀ j, j < 32 → j ≠ k.val → bitOf t.pad.ext.toNat j = bitOf s.pad.ext.toNat j) ∧
      KeepsRegs s t [] ∧ KeepsMemory s t)


/-- R286 and R289, in what BUNDLE_ISSUE leaves in d and in STATUS (OVF is bit 4, DZ bit 5; bit 1 makes a failure trap). -/
def Obligations.ShiftAmountsAndDivisionEdges : Prop :=
  ∀ (n : Fin 16) (w : Word) (s : State), s.issuesOne n w → sylD w ≠ 0 →
    (let c := (s.engOf n).cpu
     let a := c.gpr (sylA w)
     let b := c.gpr (sylB w)
     let op := sylOp w
     let gives (x fails : Word) : Prop := (c.flag 1 = false ∨ fails = 0#32) →
       ∃ t, exec (.bundleIssue n) s = .next t ∧ (t.engOf n).cpu.gpr (sylD w) = x ∧ (t.engOf n).cpu.status = c.status ||| fails
     (sylUnit w ≤ 1 → op = 0x06 → gives (if b.toNat < 32 then a <<< b.toNat else 0#32) 0#32) ∧
     (sylUnit w ≤ 1 → op = 0x07 → gives (if b.toNat < 32 then a >>> b.toNat else 0#32) 0#32) ∧
     (sylUnit w ≤ 1 → op = 0x08 →
       gives (if b.toNat < 32 then a.sshiftRight b.toNat else if a.msb = true then 0xFFFFFFFF#32 else 0#32) 0#32) ∧
     (sylUnit w ≤ 1 → op = 0x09 → gives (a.rotateRight (b.toNat % 32)) 0#32) ∧
     (sylUnit w = 2 → b = 0#32 →
       (op = 0x08 → gives 0#32 0x20#32) ∧ (op = 0x09 → gives 0#32 0#32) ∧ (op = 0x0A → gives a 0x20#32) ∧
         (op = 0x0B → gives a 0#32)) ∧
     (sylUnit w = 2 → a = 0x80000000#32 → b = 0xFFFFFFFF#32 →
       (op = 0x08 → gives 0x80000000#32 0x10#32) ∧ (op = 0x0A → gives 0#32 0#32)))

/-- R6. The registers excepted are those that a fault reports itself in: the record, its address, its count, and, of an engine already in
a handler, its state and its bit of ENG_EVT. -/
def Obligations.NarrowRegisterAccessFaults : Prop :=
  ∀ (e : Fin 16) (addr : Word) (off : Nat) (s : State), s.pwr.aoDown = false → regionOf addr.toNat = .periph off →
    (let raised (t : State) : Prop :=
       (s.bit SYS_FAULTREC.VALID = false → t.bit SYS_FAULTREC.VALID = true ∧ t.get SYS_FAULTREC.CLASS = 2 ∧
         t.get SYS_FAULTREC.ENGINE = e ∧ t.reg SYS_FAULTADDR.addr = addr) ∧
       (s.bit SYS_FAULTREC.VALID = true → t.get SYS_FAULTCNT.COUNT = min 65535 (s.get SYS_FAULTCNT.COUNT + 1)) ∧
       (s.estate e = stRun → (t.engOf e).cpu.cause.toNat % 256 = 5 ∧ (t.engOf e).cpu.eval = addr) ∧
       KeepsRegs s t [SYS_FAULTREC.addr, SYS_FAULTADDR.addr, SYS_FAULTCNT.addr, ENG_ESTAT.addr e, ENG_EVT.addr] ∧
       KeepsMemory s t
     (∀ (size : AccSize) (v : Word), (accBytes size ≠ 4 ∨ addr.toNat % 4 ≠ 0) →
       ∃ t, exec (.registerWrite e size addr v) s = .next t ∧ raised t) ∧
     (addr.toNat % 4 ≠ 0 → ∃ t, exec (.lowWordRead e addr) s = .next t ∧ raised t))

/-- R434. -/
def Obligations.CenturyWraps : Prop :=
  (∀ s : State, s.pwr.aoDown = false → s.rtc.setCopy = none → s.rtc.shift = 0 → s.rtc.trimT = 0 → s.get RTC_TRIM.T = 0 →
    s.bit RTC_STAT.BORROW = false → s.get RTC_SUBSEC.PRE = 32767 → s.reg RTC_TIME.addr = timeWord 23 59 59 →
    s.reg RTC_DATE.addr = dateWord 5 399 12 31 →
    ∃ t, exec .rtcTick s = .next t ∧ t.reg RTC_TIME.addr = 0#32 ∧ t.reg RTC_DATE.addr = dateWord 6 0 1 1 ∧
      t.bit RTC_STAT.CENTURY_WRAP = true ∧ t.get RTC_SUBSEC.PRE = 0 ∧ KeepsMemory s t) ∧
  ((List.range 400).flatMap (fun y => (List.range 12).map (fun m => monthLen y (m + 1)))).sum = 20871 * 7 ∧
  weekday 399 12 31 = 5 ∧ weekday 0 1 1 = 6
end

