-- ==== Sys2Proof/Laws/Sparse.lean ====
section
/-! SUPPORT. Reading after writing, and the canonical form, of the sparse tables. -/
namespace Sys2Proof.Machine

variable {β : Type}

theorem sget_serase_same (d : Nat → β) (a : Nat) (t : List (Nat × β)) : sget d (serase a t) a = d a := by
  induction t with
  | nil => rfl
  | cons p t ih =>
    obtain ⟨k, v⟩ := p
    by_cases h : k = a <;> simp [serase, sget, h, ih]

theorem sget_serase_ne (d : Nat → β) {a b : Nat} (h : b ≠ a) (t : List (Nat × β)) :
    sget d (serase a t) b = sget d t b := by
  induction t with
  | nil => rfl
  | cons p t ih =>
    obtain ⟨k, v⟩ := p
    by_cases hk : k = a
    · have : k ≠ b := by rintro rfl; exact h hk
      simp [serase, sget, hk, ih, Ne.symm h]
    · simp only [serase, hk, if_false, sget, ih]

theorem sget_sinsert_ne (d : Nat → β) {a b : Nat} (h : b ≠ a) (v : β) (t : List (Nat × β)) :
    sget d (sinsert a v t) b = sget d t b := by
  induction t with
  | nil => simp [sinsert, sget, Ne.symm h]
  | cons p t ih =>
    obtain ⟨k, w⟩ := p
    by_cases hk : a < k
    · simp [sinsert, sget, hk, Ne.symm h]
    · simp only [sinsert, hk, if_false, sget, ih]

theorem sget_sinsert_same (d : Nat → β) (a : Nat) (v : β) (t : List (Nat × β)) :
    sget d (sinsert a v (serase a t)) a = v := by
  induction t with
  | nil => simp [serase, sinsert, sget]
  | cons p t ih =>
    obtain ⟨k, w⟩ := p
    by_cases hk : k = a
    · simp [serase, hk, ih]
    · by_cases hlt : a < k <;> simp [serase, hk, sinsert, hlt, sget, ih]

theorem sabove_mono {m n : Nat} (h : m ≤ n) (t : List (Nat × β)) (ht : sabove n t = true) : sabove m t = true := by
  induction t with
  | nil => rfl
  | cons p t ih =>
    simp only [sabove, Bool.and_eq_true, decide_eq_true_eq] at *
    exact ⟨by omega, ih ht.2⟩

theorem sabove_serase (m a : Nat) (t : List (Nat × β)) (h : sabove m t = true) : sabove m (serase a t) = true := by
  induction t with
  | nil => rfl
  | cons p t ih =>
    obtain ⟨k, v⟩ := p
    simp only [sabove, Bool.and_eq_true, decide_eq_true_eq] at h
    by_cases hk : k = a
    · simpa [serase, hk] using ih h.2
    · simpa [serase, hk, sabove] using ⟨h.1, ih h.2⟩

theorem sabove_sinsert {m a : Nat} (hm : m < a) (v : β) (t : List (Nat × β)) (h : sabove m t = true) :
    sabove m (sinsert a v t) = true := by
  induction t with
  | nil => simpa [sinsert, sabove] using hm
  | cons p t ih =>
    obtain ⟨k, w⟩ := p
    simp only [sabove, Bool.and_eq_true, decide_eq_true_eq] at h
    by_cases hk : a < k
    · simp [sinsert, hk, sabove, hm, h.1, h.2]
    · simpa [sinsert, hk, sabove] using ⟨h.1, ih h.2⟩

theorem sabove_sdrop (p : Nat → Bool) (m : Nat) (t : List (Nat × β)) (h : sabove m t = true) :
    sabove m (sdrop p t) = true := by
  induction t with
  | nil => rfl
  | cons q t ih =>
    obtain ⟨k, v⟩ := q
    simp only [sabove, Bool.and_eq_true, decide_eq_true_eq] at h
    by_cases hk : p k
    · simpa [sdrop, hk] using ih h.2
    · simpa [sdrop, hk, sabove] using ⟨h.1, ih h.2⟩

variable [DecidableEq β]

/-- A key reads the value last written to it. -/
@[simp] theorem sget_sset_same (d : Nat → β) (t : List (Nat × β)) (a : Nat) (v : β) :
    sget d (sset d t a v) a = v := by
  unfold sset
  split
  · rename_i h; rw [sget_serase_same, h]
  · exact sget_sinsert_same d a v t

/-- A write leaves every other key as it was. -/
theorem sget_sset_ne (d : Nat → β) (t : List (Nat × β)) {a b : Nat} (h : b ≠ a) (v : β) :
    sget d (sset d t a v) b = sget d t b := by
  unfold sset
  split
  · exact sget_serase_ne d h t
  · rw [sget_sinsert_ne d h, sget_serase_ne d h]

theorem swf_serase (d : Nat → β) (a : Nat) (t : List (Nat × β)) (h : swf d t = true) :
    swf d (serase a t) = true := by
  induction t with
  | nil => rfl
  | cons p t ih =>
    obtain ⟨k, v⟩ := p
    simp only [swf, Bool.and_eq_true, decide_eq_true_eq] at h
    by_cases hk : k = a
    · simpa [serase, hk] using ih h.2
    · simpa [serase, hk, swf] using ⟨⟨h.1.1, sabove_serase k a t h.1.2⟩, ih h.2⟩

theorem swf_sinsert (d : Nat → β) {a : Nat} {v : β} (hv : v ≠ d a) (t : List (Nat × β)) (h : swf d t = true) :
    swf d (sinsert a v (serase a t)) = true := by
  induction t with
  | nil => simp [serase, sinsert, swf, sabove, hv]
  | cons p t ih =>
    obtain ⟨k, w⟩ := p
    simp only [swf, Bool.and_eq_true, decide_eq_true_eq] at h
    by_cases hk : k = a
    · simpa [serase, hk] using ih h.2
    · by_cases hlt : a < k
      · have hab := sabove_serase k a t h.1.2
        simp [serase, hk, sinsert, hlt, swf, sabove, hv, h.1.1, hab, sabove_mono (le_of_lt hlt) _ hab,
          swf_serase d a t h.2]
      · have : k < a := by omega
        simp [serase, hk, sinsert, hlt, swf, h.1.1, ih h.2, sabove_sinsert this v _ (sabove_serase k a t h.1.2)]

/-- A write keeps the canonical form. -/
theorem swf_sset (d : Nat → β) (t : List (Nat × β)) (a : Nat) (v : β) (h : swf d t = true) :
    swf d (sset d t a v) = true := by
  unfold sset
  split
  · exact swf_serase d a t h
  · rename_i hv; exact swf_sinsert d hv t h

theorem sabove_smap (d : Nat → β) (f : Nat → β → β) (m : Nat) (t : List (Nat × β)) (h : sabove m t = true) :
    sabove m (smap d f t) = true := by
  induction t with
  | nil => rfl
  | cons p t ih =>
    obtain ⟨k, v⟩ := p
    simp only [sabove, Bool.and_eq_true, decide_eq_true_eq] at h
    by_cases hk : f k v = d k
    · simpa [smap, hk] using ih h.2
    · simpa [smap, hk, sabove] using ⟨h.1, ih h.2⟩

/-- Rewriting entry by entry keeps the canonical form. -/
theorem swf_smap (d : Nat → β) (f : Nat → β → β) (t : List (Nat × β)) (h : swf d t = true) :
    swf d (smap d f t) = true := by
  induction t with
  | nil => rfl
  | cons p t ih =>
    obtain ⟨k, v⟩ := p
    simp only [swf, Bool.and_eq_true, decide_eq_true_eq] at h
    by_cases hk : f k v = d k
    · simpa [smap, hk] using ih h.2
    · simpa [smap, hk, swf] using ⟨sabove_smap d f k t h.1.2, ih h.2⟩

/-- Dropping entries keeps the canonical form. -/
theorem swf_sdrop (d : Nat → β) (p : Nat → Bool) (t : List (Nat × β)) (h : swf d t = true) :
    swf d (sdrop p t) = true := by
  induction t with
  | nil => rfl
  | cons q t ih =>
    obtain ⟨k, v⟩ := q
    simp only [swf, Bool.and_eq_true, decide_eq_true_eq] at h
    by_cases hk : p k
    · simpa [sdrop, hk] using ih h.2
    · simpa [sdrop, hk, swf] using ⟨⟨h.1.1, sabove_sdrop p k t h.1.2⟩, ih h.2⟩

end Sys2Proof.Machine
end

