-- ==== Sys2Proof/Laws/State.lean ====
section
/-! SUPPORT. What each update of the state leaves as it was, and what a register or a field of one reads after a write. -/
namespace Sys2Proof.Machine

/-! ### The frame of each update -/

/-- `setReg` writes regs and nothing else. -/
@[simp] theorem State.setReg_frame (s : State) (a : Nat) (v : Word) :
    (s.setReg a v).pending = s.pending ∧
    (s.setReg a v).rdata = s.rdata ∧
    (s.setReg a v).clk = s.clk ∧
    (s.setReg a v).drawn = s.drawn ∧
    (s.setReg a v).hot = s.hot ∧
    (s.setReg a v).mem = s.mem ∧
    (s.setReg a v).sys = s.sys ∧
    (s.setReg a v).pwr = s.pwr ∧
    (s.setReg a v).evr = s.evr ∧
    (s.setReg a v).tmr = s.tmr ∧
    (s.setReg a v).rtc = s.rtc ∧
    (s.setReg a v).pad = s.pad ∧
    (s.setReg a v).tsu = s.tsu ∧
    (s.setReg a v).lmem = s.lmem ∧
    (s.setReg a v).flash = s.flash ∧
    (s.setReg a v).ecc = s.ecc ∧
    (s.setReg a v).ecc1 = s.ecc1 ∧
    (s.setReg a v).written = s.written ∧
    (s.setReg a v).beat = s.beat ∧
    (s.setReg a v).rxc = s.rxc ∧
    (s.setReg a v).slc = s.slc ∧
    (s.setReg a v).phy = s.phy ∧
    (s.setReg a v).car = s.car ∧
    (s.setReg a v).txc = s.txc ∧
    (s.setReg a v).glz = s.glz ∧
    (s.setReg a v).lnk = s.lnk ∧
    (s.setReg a v).sec = s.sec ∧
    (s.setReg a v).qsc = s.qsc ∧
    (s.setReg a v).msh = s.msh ∧
    (s.setReg a v).jjl = s.jjl ∧
    (s.setReg a v).eth = s.eth ∧
    (s.setReg a v).eng = s.eng ∧
    (s.setReg a v).takeover = s.takeover ∧
    (s.setReg a v).links = s.links ∧
    (s.setReg a v).upd = s.upd ∧
    (s.setReg a v).hif = s.hif := by
  unfold State.setReg
  exact ⟨rfl, rfl, rfl, rfl, rfl, rfl, rfl, rfl, rfl, rfl, rfl, rfl, rfl, rfl, rfl, rfl, rfl, rfl, rfl, rfl, rfl, rfl, rfl, rfl, rfl, rfl, rfl, rfl, rfl, rfl, rfl, rfl, rfl, rfl, rfl, rfl⟩

/-- `set` writes regs and nothing else. -/
@[simp] theorem State.set_frame (s : State) (l : Loc) (v : Nat) :
    (s.set l v).pending = s.pending ∧
    (s.set l v).rdata = s.rdata ∧
    (s.set l v).clk = s.clk ∧
    (s.set l v).drawn = s.drawn ∧
    (s.set l v).hot = s.hot ∧
    (s.set l v).mem = s.mem ∧
    (s.set l v).sys = s.sys ∧
    (s.set l v).pwr = s.pwr ∧
    (s.set l v).evr = s.evr ∧
    (s.set l v).tmr = s.tmr ∧
    (s.set l v).rtc = s.rtc ∧
    (s.set l v).pad = s.pad ∧
    (s.set l v).tsu = s.tsu ∧
    (s.set l v).lmem = s.lmem ∧
    (s.set l v).flash = s.flash ∧
    (s.set l v).ecc = s.ecc ∧
    (s.set l v).ecc1 = s.ecc1 ∧
    (s.set l v).written = s.written ∧
    (s.set l v).beat = s.beat ∧
    (s.set l v).rxc = s.rxc ∧
    (s.set l v).slc = s.slc ∧
    (s.set l v).phy = s.phy ∧
    (s.set l v).car = s.car ∧
    (s.set l v).txc = s.txc ∧
    (s.set l v).glz = s.glz ∧
    (s.set l v).lnk = s.lnk ∧
    (s.set l v).sec = s.sec ∧
    (s.set l v).qsc = s.qsc ∧
    (s.set l v).msh = s.msh ∧
    (s.set l v).jjl = s.jjl ∧
    (s.set l v).eth = s.eth ∧
    (s.set l v).eng = s.eng ∧
    (s.set l v).takeover = s.takeover ∧
    (s.set l v).links = s.links ∧
    (s.set l v).upd = s.upd ∧
    (s.set l v).hif = s.hif := by
  unfold State.set
  exact State.setReg_frame s _ _

/-- `setS` writes regs and nothing else. -/
@[simp] theorem State.setS_frame (s : State) (l : Loc) (i : Int) :
    (s.setS l i).pending = s.pending ∧
    (s.setS l i).rdata = s.rdata ∧
    (s.setS l i).clk = s.clk ∧
    (s.setS l i).drawn = s.drawn ∧
    (s.setS l i).hot = s.hot ∧
    (s.setS l i).mem = s.mem ∧
    (s.setS l i).sys = s.sys ∧
    (s.setS l i).pwr = s.pwr ∧
    (s.setS l i).evr = s.evr ∧
    (s.setS l i).tmr = s.tmr ∧
    (s.setS l i).rtc = s.rtc ∧
    (s.setS l i).pad = s.pad ∧
    (s.setS l i).tsu = s.tsu ∧
    (s.setS l i).lmem = s.lmem ∧
    (s.setS l i).flash = s.flash ∧
    (s.setS l i).ecc = s.ecc ∧
    (s.setS l i).ecc1 = s.ecc1 ∧
    (s.setS l i).written = s.written ∧
    (s.setS l i).beat = s.beat ∧
    (s.setS l i).rxc = s.rxc ∧
    (s.setS l i).slc = s.slc ∧
    (s.setS l i).phy = s.phy ∧
    (s.setS l i).car = s.car ∧
    (s.setS l i).txc = s.txc ∧
    (s.setS l i).glz = s.glz ∧
    (s.setS l i).lnk = s.lnk ∧
    (s.setS l i).sec = s.sec ∧
    (s.setS l i).qsc = s.qsc ∧
    (s.setS l i).msh = s.msh ∧
    (s.setS l i).jjl = s.jjl ∧
    (s.setS l i).eth = s.eth ∧
    (s.setS l i).eng = s.eng ∧
    (s.setS l i).takeover = s.takeover ∧
    (s.setS l i).links = s.links ∧
    (s.setS l i).upd = s.upd ∧
    (s.setS l i).hif = s.hif := by
  unfold State.setS
  exact State.set_frame s _ _

/-- `lift` writes regs and nothing else. -/
@[simp] theorem State.lift_frame (s : State) (l : Loc) (k : Nat) :
    (s.lift l k).pending = s.pending ∧
    (s.lift l k).rdata = s.rdata ∧
    (s.lift l k).clk = s.clk ∧
    (s.lift l k).drawn = s.drawn ∧
    (s.lift l k).hot = s.hot ∧
    (s.lift l k).mem = s.mem ∧
    (s.lift l k).sys = s.sys ∧
    (s.lift l k).pwr = s.pwr ∧
    (s.lift l k).evr = s.evr ∧
    (s.lift l k).tmr = s.tmr ∧
    (s.lift l k).rtc = s.rtc ∧
    (s.lift l k).pad = s.pad ∧
    (s.lift l k).tsu = s.tsu ∧
    (s.lift l k).lmem = s.lmem ∧
    (s.lift l k).flash = s.flash ∧
    (s.lift l k).ecc = s.ecc ∧
    (s.lift l k).ecc1 = s.ecc1 ∧
    (s.lift l k).written = s.written ∧
    (s.lift l k).beat = s.beat ∧
    (s.lift l k).rxc = s.rxc ∧
    (s.lift l k).slc = s.slc ∧
    (s.lift l k).phy = s.phy ∧
    (s.lift l k).car = s.car ∧
    (s.lift l k).txc = s.txc ∧
    (s.lift l k).glz = s.glz ∧
    (s.lift l k).lnk = s.lnk ∧
    (s.lift l k).sec = s.sec ∧
    (s.lift l k).qsc = s.qsc ∧
    (s.lift l k).msh = s.msh ∧
    (s.lift l k).jjl = s.jjl ∧
    (s.lift l k).eth = s.eth ∧
    (s.lift l k).eng = s.eng ∧
    (s.lift l k).takeover = s.takeover ∧
    (s.lift l k).links = s.links ∧
    (s.lift l k).upd = s.upd ∧
    (s.lift l k).hif = s.hif := by
  unfold State.lift
  exact State.set_frame s _ _

/-- `incBy` writes regs, hot and nothing else. -/
@[simp] theorem State.incBy_frame (s : State) (l : Loc) (k : Nat) :
    (s.incBy l k).pending = s.pending ∧
    (s.incBy l k).rdata = s.rdata ∧
    (s.incBy l k).clk = s.clk ∧
    (s.incBy l k).drawn = s.drawn ∧
    (s.incBy l k).mem = s.mem ∧
    (s.incBy l k).sys = s.sys ∧
    (s.incBy l k).pwr = s.pwr ∧
    (s.incBy l k).evr = s.evr ∧
    (s.incBy l k).tmr = s.tmr ∧
    (s.incBy l k).rtc = s.rtc ∧
    (s.incBy l k).pad = s.pad ∧
    (s.incBy l k).tsu = s.tsu ∧
    (s.incBy l k).lmem = s.lmem ∧
    (s.incBy l k).flash = s.flash ∧
    (s.incBy l k).ecc = s.ecc ∧
    (s.incBy l k).ecc1 = s.ecc1 ∧
    (s.incBy l k).written = s.written ∧
    (s.incBy l k).beat = s.beat ∧
    (s.incBy l k).rxc = s.rxc ∧
    (s.incBy l k).slc = s.slc ∧
    (s.incBy l k).phy = s.phy ∧
    (s.incBy l k).car = s.car ∧
    (s.incBy l k).txc = s.txc ∧
    (s.incBy l k).glz = s.glz ∧
    (s.incBy l k).lnk = s.lnk ∧
    (s.incBy l k).sec = s.sec ∧
    (s.incBy l k).qsc = s.qsc ∧
    (s.incBy l k).msh = s.msh ∧
    (s.incBy l k).jjl = s.jjl ∧
    (s.incBy l k).eth = s.eth ∧
    (s.incBy l k).eng = s.eng ∧
    (s.incBy l k).takeover = s.takeover ∧
    (s.incBy l k).links = s.links ∧
    (s.incBy l k).upd = s.upd ∧
    (s.incBy l k).hif = s.hif := by
  have h := State.lift_frame s l k
  obtain ⟨h0, h1, h2, h3, h4, h5, h6, h7, h8, h9, h10, h11, h12, h13, h14, h15, h16, h17, h18, h19, h20, h21, h22, h23, h24, h25, h26, h27, h28, h29, h30, h31, h32, h33, h34, h35⟩ := h
  unfold State.incBy
  exact ⟨h0, h1, h2, h3, h5, h6, h7, h8, h9, h10, h11, h12, h13, h14, h15, h16, h17, h18, h19, h20, h21, h22, h23, h24, h25, h26, h27, h28, h29, h30, h31, h32, h33, h34, h35⟩

/-- `inc` writes regs and hot and nothing else. -/
@[simp] theorem State.inc_frame (s : State) (l : Loc) :
    (s.inc l).pending = s.pending ∧
    (s.inc l).rdata = s.rdata ∧
    (s.inc l).clk = s.clk ∧
    (s.inc l).drawn = s.drawn ∧
    (s.inc l).mem = s.mem ∧
    (s.inc l).sys = s.sys ∧
    (s.inc l).pwr = s.pwr ∧
    (s.inc l).evr = s.evr ∧
    (s.inc l).tmr = s.tmr ∧
    (s.inc l).rtc = s.rtc ∧
    (s.inc l).pad = s.pad ∧
    (s.inc l).tsu = s.tsu ∧
    (s.inc l).lmem = s.lmem ∧
    (s.inc l).flash = s.flash ∧
    (s.inc l).ecc = s.ecc ∧
    (s.inc l).ecc1 = s.ecc1 ∧
    (s.inc l).written = s.written ∧
    (s.inc l).beat = s.beat ∧
    (s.inc l).rxc = s.rxc ∧
    (s.inc l).slc = s.slc ∧
    (s.inc l).phy = s.phy ∧
    (s.inc l).car = s.car ∧
    (s.inc l).txc = s.txc ∧
    (s.inc l).glz = s.glz ∧
    (s.inc l).lnk = s.lnk ∧
    (s.inc l).sec = s.sec ∧
    (s.inc l).qsc = s.qsc ∧
    (s.inc l).msh = s.msh ∧
    (s.inc l).jjl = s.jjl ∧
    (s.inc l).eth = s.eth ∧
    (s.inc l).eng = s.eng ∧
    (s.inc l).takeover = s.takeover ∧
    (s.inc l).links = s.links ∧
    (s.inc l).upd = s.upd ∧
    (s.inc l).hif = s.hif := by
  unfold State.inc
  exact State.incBy_frame s l 1

/-- `raise` writes regs and hot and nothing else. -/
@[simp] theorem State.raise_frame (s : State) (l : Loc) :
    (s.raise l).pending = s.pending ∧
    (s.raise l).rdata = s.rdata ∧
    (s.raise l).clk = s.clk ∧
    (s.raise l).drawn = s.drawn ∧
    (s.raise l).mem = s.mem ∧
    (s.raise l).sys = s.sys ∧
    (s.raise l).pwr = s.pwr ∧
    (s.raise l).evr = s.evr ∧
    (s.raise l).tmr = s.tmr ∧
    (s.raise l).rtc = s.rtc ∧
    (s.raise l).pad = s.pad ∧
    (s.raise l).tsu = s.tsu ∧
    (s.raise l).lmem = s.lmem ∧
    (s.raise l).flash = s.flash ∧
    (s.raise l).ecc = s.ecc ∧
    (s.raise l).ecc1 = s.ecc1 ∧
    (s.raise l).written = s.written ∧
    (s.raise l).beat = s.beat ∧
    (s.raise l).rxc = s.rxc ∧
    (s.raise l).slc = s.slc ∧
    (s.raise l).phy = s.phy ∧
    (s.raise l).car = s.car ∧
    (s.raise l).txc = s.txc ∧
    (s.raise l).glz = s.glz ∧
    (s.raise l).lnk = s.lnk ∧
    (s.raise l).sec = s.sec ∧
    (s.raise l).qsc = s.qsc ∧
    (s.raise l).msh = s.msh ∧
    (s.raise l).jjl = s.jjl ∧
    (s.raise l).eth = s.eth ∧
    (s.raise l).eng = s.eng ∧
    (s.raise l).takeover = s.takeover ∧
    (s.raise l).links = s.links ∧
    (s.raise l).upd = s.upd ∧
    (s.raise l).hif = s.hif := by
  unfold State.raise
  exact State.incBy_frame s l 1

/-- `orReg` writes regs and nothing else. -/
@[simp] theorem State.orReg_frame (s : State) (a m : Nat) :
    (s.orReg a m).pending = s.pending ∧
    (s.orReg a m).rdata = s.rdata ∧
    (s.orReg a m).clk = s.clk ∧
    (s.orReg a m).drawn = s.drawn ∧
    (s.orReg a m).hot = s.hot ∧
    (s.orReg a m).mem = s.mem ∧
    (s.orReg a m).sys = s.sys ∧
    (s.orReg a m).pwr = s.pwr ∧
    (s.orReg a m).evr = s.evr ∧
    (s.orReg a m).tmr = s.tmr ∧
    (s.orReg a m).rtc = s.rtc ∧
    (s.orReg a m).pad = s.pad ∧
    (s.orReg a m).tsu = s.tsu ∧
    (s.orReg a m).lmem = s.lmem ∧
    (s.orReg a m).flash = s.flash ∧
    (s.orReg a m).ecc = s.ecc ∧
    (s.orReg a m).ecc1 = s.ecc1 ∧
    (s.orReg a m).written = s.written ∧
    (s.orReg a m).beat = s.beat ∧
    (s.orReg a m).rxc = s.rxc ∧
    (s.orReg a m).slc = s.slc ∧
    (s.orReg a m).phy = s.phy ∧
    (s.orReg a m).car = s.car ∧
    (s.orReg a m).txc = s.txc ∧
    (s.orReg a m).glz = s.glz ∧
    (s.orReg a m).lnk = s.lnk ∧
    (s.orReg a m).sec = s.sec ∧
    (s.orReg a m).qsc = s.qsc ∧
    (s.orReg a m).msh = s.msh ∧
    (s.orReg a m).jjl = s.jjl ∧
    (s.orReg a m).eth = s.eth ∧
    (s.orReg a m).eng = s.eng ∧
    (s.orReg a m).takeover = s.takeover ∧
    (s.orReg a m).links = s.links ∧
    (s.orReg a m).upd = s.upd ∧
    (s.orReg a m).hif = s.hif := by
  unfold State.orReg
  exact State.setReg_frame s _ _

/-- `clrReg` writes regs and nothing else. -/
@[simp] theorem State.clrReg_frame (s : State) (a m : Nat) :
    (s.clrReg a m).pending = s.pending ∧
    (s.clrReg a m).rdata = s.rdata ∧
    (s.clrReg a m).clk = s.clk ∧
    (s.clrReg a m).drawn = s.drawn ∧
    (s.clrReg a m).hot = s.hot ∧
    (s.clrReg a m).mem = s.mem ∧
    (s.clrReg a m).sys = s.sys ∧
    (s.clrReg a m).pwr = s.pwr ∧
    (s.clrReg a m).evr = s.evr ∧
    (s.clrReg a m).tmr = s.tmr ∧
    (s.clrReg a m).rtc = s.rtc ∧
    (s.clrReg a m).pad = s.pad ∧
    (s.clrReg a m).tsu = s.tsu ∧
    (s.clrReg a m).lmem = s.lmem ∧
    (s.clrReg a m).flash = s.flash ∧
    (s.clrReg a m).ecc = s.ecc ∧
    (s.clrReg a m).ecc1 = s.ecc1 ∧
    (s.clrReg a m).written = s.written ∧
    (s.clrReg a m).beat = s.beat ∧
    (s.clrReg a m).rxc = s.rxc ∧
    (s.clrReg a m).slc = s.slc ∧
    (s.clrReg a m).phy = s.phy ∧
    (s.clrReg a m).car = s.car ∧
    (s.clrReg a m).txc = s.txc ∧
    (s.clrReg a m).glz = s.glz ∧
    (s.clrReg a m).lnk = s.lnk ∧
    (s.clrReg a m).sec = s.sec ∧
    (s.clrReg a m).qsc = s.qsc ∧
    (s.clrReg a m).msh = s.msh ∧
    (s.clrReg a m).jjl = s.jjl ∧
    (s.clrReg a m).eth = s.eth ∧
    (s.clrReg a m).eng = s.eng ∧
    (s.clrReg a m).takeover = s.takeover ∧
    (s.clrReg a m).links = s.links ∧
    (s.clrReg a m).upd = s.upd ∧
    (s.clrReg a m).hif = s.hif := by
  unfold State.clrReg
  exact State.setReg_frame s _ _

/-- `setMbyte` writes mem, ecc, ecc1, written and nothing else. -/
@[simp] theorem State.setMbyte_frame (s : State) (a : Nat) (b : Byte) :
    (s.setMbyte a b).pending = s.pending ∧
    (s.setMbyte a b).regs = s.regs ∧
    (s.setMbyte a b).rdata = s.rdata ∧
    (s.setMbyte a b).clk = s.clk ∧
    (s.setMbyte a b).drawn = s.drawn ∧
    (s.setMbyte a b).hot = s.hot ∧
    (s.setMbyte a b).sys = s.sys ∧
    (s.setMbyte a b).pwr = s.pwr ∧
    (s.setMbyte a b).evr = s.evr ∧
    (s.setMbyte a b).tmr = s.tmr ∧
    (s.setMbyte a b).rtc = s.rtc ∧
    (s.setMbyte a b).pad = s.pad ∧
    (s.setMbyte a b).tsu = s.tsu ∧
    (s.setMbyte a b).lmem = s.lmem ∧
    (s.setMbyte a b).flash = s.flash ∧
    (s.setMbyte a b).beat = s.beat ∧
    (s.setMbyte a b).rxc = s.rxc ∧
    (s.setMbyte a b).slc = s.slc ∧
    (s.setMbyte a b).phy = s.phy ∧
    (s.setMbyte a b).car = s.car ∧
    (s.setMbyte a b).txc = s.txc ∧
    (s.setMbyte a b).glz = s.glz ∧
    (s.setMbyte a b).lnk = s.lnk ∧
    (s.setMbyte a b).sec = s.sec ∧
    (s.setMbyte a b).qsc = s.qsc ∧
    (s.setMbyte a b).msh = s.msh ∧
    (s.setMbyte a b).jjl = s.jjl ∧
    (s.setMbyte a b).eth = s.eth ∧
    (s.setMbyte a b).eng = s.eng ∧
    (s.setMbyte a b).takeover = s.takeover ∧
    (s.setMbyte a b).links = s.links ∧
    (s.setMbyte a b).upd = s.upd ∧
    (s.setMbyte a b).hif = s.hif := by
  unfold State.setMbyte
  exact ⟨rfl, rfl, rfl, rfl, rfl, rfl, rfl, rfl, rfl, rfl, rfl, rfl, rfl, rfl, rfl, rfl, rfl, rfl, rfl, rfl, rfl, rfl, rfl, rfl, rfl, rfl, rfl, rfl, rfl, rfl, rfl, rfl, rfl⟩

/-- `setLbyte` writes lmem, ecc, ecc1, written and nothing else. -/
@[simp] theorem State.setLbyte_frame (s : State) (a : Nat) (b : Byte) :
    (s.setLbyte a b).pending = s.pending ∧
    (s.setLbyte a b).regs = s.regs ∧
    (s.setLbyte a b).rdata = s.rdata ∧
    (s.setLbyte a b).clk = s.clk ∧
    (s.setLbyte a b).drawn = s.drawn ∧
    (s.setLbyte a b).hot = s.hot ∧
    (s.setLbyte a b).mem = s.mem ∧
    (s.setLbyte a b).sys = s.sys ∧
    (s.setLbyte a b).pwr = s.pwr ∧
    (s.setLbyte a b).evr = s.evr ∧
    (s.setLbyte a b).tmr = s.tmr ∧
    (s.setLbyte a b).rtc = s.rtc ∧
    (s.setLbyte a b).pad = s.pad ∧
    (s.setLbyte a b).tsu = s.tsu ∧
    (s.setLbyte a b).flash = s.flash ∧
    (s.setLbyte a b).beat = s.beat ∧
    (s.setLbyte a b).rxc = s.rxc ∧
    (s.setLbyte a b).slc = s.slc ∧
    (s.setLbyte a b).phy = s.phy ∧
    (s.setLbyte a b).car = s.car ∧
    (s.setLbyte a b).txc = s.txc ∧
    (s.setLbyte a b).glz = s.glz ∧
    (s.setLbyte a b).lnk = s.lnk ∧
    (s.setLbyte a b).sec = s.sec ∧
    (s.setLbyte a b).qsc = s.qsc ∧
    (s.setLbyte a b).msh = s.msh ∧
    (s.setLbyte a b).jjl = s.jjl ∧
    (s.setLbyte a b).eth = s.eth ∧
    (s.setLbyte a b).eng = s.eng ∧
    (s.setLbyte a b).takeover = s.takeover ∧
    (s.setLbyte a b).links = s.links ∧
    (s.setLbyte a b).upd = s.upd ∧
    (s.setLbyte a b).hif = s.hif := by
  unfold State.setLbyte
  exact ⟨rfl, rfl, rfl, rfl, rfl, rfl, rfl, rfl, rfl, rfl, rfl, rfl, rfl, rfl, rfl, rfl, rfl, rfl, rfl, rfl, rfl, rfl, rfl, rfl, rfl, rfl, rfl, rfl, rfl, rfl, rfl, rfl, rfl⟩

/-- `setFbyte` writes flash and nothing else. -/
@[simp] theorem State.setFbyte_frame (s : State) (a : Nat) (b : Byte) :
    (s.setFbyte a b).pending = s.pending ∧
    (s.setFbyte a b).regs = s.regs ∧
    (s.setFbyte a b).rdata = s.rdata ∧
    (s.setFbyte a b).clk = s.clk ∧
    (s.setFbyte a b).drawn = s.drawn ∧
    (s.setFbyte a b).hot = s.hot ∧
    (s.setFbyte a b).mem = s.mem ∧
    (s.setFbyte a b).sys = s.sys ∧
    (s.setFbyte a b).pwr = s.pwr ∧
    (s.setFbyte a b).evr = s.evr ∧
    (s.setFbyte a b).tmr = s.tmr ∧
    (s.setFbyte a b).rtc = s.rtc ∧
    (s.setFbyte a b).pad = s.pad ∧
    (s.setFbyte a b).tsu = s.tsu ∧
    (s.setFbyte a b).lmem = s.lmem ∧
    (s.setFbyte a b).ecc = s.ecc ∧
    (s.setFbyte a b).ecc1 = s.ecc1 ∧
    (s.setFbyte a b).written = s.written ∧
    (s.setFbyte a b).beat = s.beat ∧
    (s.setFbyte a b).rxc = s.rxc ∧
    (s.setFbyte a b).slc = s.slc ∧
    (s.setFbyte a b).phy = s.phy ∧
    (s.setFbyte a b).car = s.car ∧
    (s.setFbyte a b).txc = s.txc ∧
    (s.setFbyte a b).glz = s.glz ∧
    (s.setFbyte a b).lnk = s.lnk ∧
    (s.setFbyte a b).sec = s.sec ∧
    (s.setFbyte a b).qsc = s.qsc ∧
    (s.setFbyte a b).msh = s.msh ∧
    (s.setFbyte a b).jjl = s.jjl ∧
    (s.setFbyte a b).eth = s.eth ∧
    (s.setFbyte a b).eng = s.eng ∧
    (s.setFbyte a b).takeover = s.takeover ∧
    (s.setFbyte a b).links = s.links ∧
    (s.setFbyte a b).upd = s.upd ∧
    (s.setFbyte a b).hif = s.hif := by
  unfold State.setFbyte
  exact ⟨rfl, rfl, rfl, rfl, rfl, rfl, rfl, rfl, rfl, rfl, rfl, rfl, rfl, rfl, rfl, rfl, rfl, rfl, rfl, rfl, rfl, rfl, rfl, rfl, rfl, rfl, rfl, rfl, rfl, rfl, rfl, rfl, rfl, rfl, rfl, rfl⟩

/-- `eraseFlash` writes flash and nothing else. -/
@[simp] theorem State.eraseFlash_frame (s : State) (a k : Nat) :
    (s.eraseFlash a k).pending = s.pending ∧
    (s.eraseFlash a k).regs = s.regs ∧
    (s.eraseFlash a k).rdata = s.rdata ∧
    (s.eraseFlash a k).clk = s.clk ∧
    (s.eraseFlash a k).drawn = s.drawn ∧
    (s.eraseFlash a k).hot = s.hot ∧
    (s.eraseFlash a k).mem = s.mem ∧
    (s.eraseFlash a k).sys = s.sys ∧
    (s.eraseFlash a k).pwr = s.pwr ∧
    (s.eraseFlash a k).evr = s.evr ∧
    (s.eraseFlash a k).tmr = s.tmr ∧
    (s.eraseFlash a k).rtc = s.rtc ∧
    (s.eraseFlash a k).pad = s.pad ∧
    (s.eraseFlash a k).tsu = s.tsu ∧
    (s.eraseFlash a k).lmem = s.lmem ∧
    (s.eraseFlash a k).ecc = s.ecc ∧
    (s.eraseFlash a k).ecc1 = s.ecc1 ∧
    (s.eraseFlash a k).written = s.written ∧
    (s.eraseFlash a k).beat = s.beat ∧
    (s.eraseFlash a k).rxc = s.rxc ∧
    (s.eraseFlash a k).slc = s.slc ∧
    (s.eraseFlash a k).phy = s.phy ∧
    (s.eraseFlash a k).car = s.car ∧
    (s.eraseFlash a k).txc = s.txc ∧
    (s.eraseFlash a k).glz = s.glz ∧
    (s.eraseFlash a k).lnk = s.lnk ∧
    (s.eraseFlash a k).sec = s.sec ∧
    (s.eraseFlash a k).qsc = s.qsc ∧
    (s.eraseFlash a k).msh = s.msh ∧
    (s.eraseFlash a k).jjl = s.jjl ∧
    (s.eraseFlash a k).eth = s.eth ∧
    (s.eraseFlash a k).eng = s.eng ∧
    (s.eraseFlash a k).takeover = s.takeover ∧
    (s.eraseFlash a k).links = s.links ∧
    (s.eraseFlash a k).upd = s.upd ∧
    (s.eraseFlash a k).hif = s.hif := by
  unfold State.eraseFlash
  exact ⟨rfl, rfl, rfl, rfl, rfl, rfl, rfl, rfl, rfl, rfl, rfl, rfl, rfl, rfl, rfl, rfl, rfl, rfl, rfl, rfl, rfl, rfl, rfl, rfl, rfl, rfl, rfl, rfl, rfl, rfl, rfl, rfl, rfl, rfl, rfl, rfl⟩

/-- `wrote` writes ecc, ecc1, written and nothing else. -/
@[simp] theorem State.wrote_frame (s : State) (e : Nat × Nat × Nat) :
    (s.wrote e).pending = s.pending ∧
    (s.wrote e).regs = s.regs ∧
    (s.wrote e).rdata = s.rdata ∧
    (s.wrote e).clk = s.clk ∧
    (s.wrote e).drawn = s.drawn ∧
    (s.wrote e).hot = s.hot ∧
    (s.wrote e).mem = s.mem ∧
    (s.wrote e).sys = s.sys ∧
    (s.wrote e).pwr = s.pwr ∧
    (s.wrote e).evr = s.evr ∧
    (s.wrote e).tmr = s.tmr ∧
    (s.wrote e).rtc = s.rtc ∧
    (s.wrote e).pad = s.pad ∧
    (s.wrote e).tsu = s.tsu ∧
    (s.wrote e).lmem = s.lmem ∧
    (s.wrote e).flash = s.flash ∧
    (s.wrote e).beat = s.beat ∧
    (s.wrote e).rxc = s.rxc ∧
    (s.wrote e).slc = s.slc ∧
    (s.wrote e).phy = s.phy ∧
    (s.wrote e).car = s.car ∧
    (s.wrote e).txc = s.txc ∧
    (s.wrote e).glz = s.glz ∧
    (s.wrote e).lnk = s.lnk ∧
    (s.wrote e).sec = s.sec ∧
    (s.wrote e).qsc = s.qsc ∧
    (s.wrote e).msh = s.msh ∧
    (s.wrote e).jjl = s.jjl ∧
    (s.wrote e).eth = s.eth ∧
    (s.wrote e).eng = s.eng ∧
    (s.wrote e).takeover = s.takeover ∧
    (s.wrote e).links = s.links ∧
    (s.wrote e).upd = s.upd ∧
    (s.wrote e).hif = s.hif := by
  unfold State.wrote
  exact ⟨rfl, rfl, rfl, rfl, rfl, rfl, rfl, rfl, rfl, rfl, rfl, rfl, rfl, rfl, rfl, rfl, rfl, rfl, rfl, rfl, rfl, rfl, rfl, rfl, rfl, rfl, rfl, rfl, rfl, rfl, rfl, rfl, rfl, rfl⟩

/-- `unwrite` writes ecc, ecc1, written and nothing else. -/
@[simp] theorem State.unwrite_frame (s : State) (p : Nat × Nat × Nat → Bool) :
    (s.unwrite p).pending = s.pending ∧
    (s.unwrite p).regs = s.regs ∧
    (s.unwrite p).rdata = s.rdata ∧
    (s.unwrite p).clk = s.clk ∧
    (s.unwrite p).drawn = s.drawn ∧
    (s.unwrite p).hot = s.hot ∧
    (s.unwrite p).mem = s.mem ∧
    (s.unwrite p).sys = s.sys ∧
    (s.unwrite p).pwr = s.pwr ∧
    (s.unwrite p).evr = s.evr ∧
    (s.unwrite p).tmr = s.tmr ∧
    (s.unwrite p).rtc = s.rtc ∧
    (s.unwrite p).pad = s.pad ∧
    (s.unwrite p).tsu = s.tsu ∧
    (s.unwrite p).lmem = s.lmem ∧
    (s.unwrite p).flash = s.flash ∧
    (s.unwrite p).beat = s.beat ∧
    (s.unwrite p).rxc = s.rxc ∧
    (s.unwrite p).slc = s.slc ∧
    (s.unwrite p).phy = s.phy ∧
    (s.unwrite p).car = s.car ∧
    (s.unwrite p).txc = s.txc ∧
    (s.unwrite p).glz = s.glz ∧
    (s.unwrite p).lnk = s.lnk ∧
    (s.unwrite p).sec = s.sec ∧
    (s.unwrite p).qsc = s.qsc ∧
    (s.unwrite p).msh = s.msh ∧
    (s.unwrite p).jjl = s.jjl ∧
    (s.unwrite p).eth = s.eth ∧
    (s.unwrite p).eng = s.eng ∧
    (s.unwrite p).takeover = s.takeover ∧
    (s.unwrite p).links = s.links ∧
    (s.unwrite p).upd = s.upd ∧
    (s.unwrite p).hif = s.hif := by
  unfold State.unwrite
  exact ⟨rfl, rfl, rfl, rfl, rfl, rfl, rfl, rfl, rfl, rfl, rfl, rfl, rfl, rfl, rfl, rfl, rfl, rfl, rfl, rfl, rfl, rfl, rfl, rfl, rfl, rfl, rfl, rfl, rfl, rfl, rfl, rfl, rfl, rfl⟩

/-- `draw` writes drawn and nothing else. -/
@[simp] theorem State.draw_frame (s : State)  :
    (s.draw).pending = s.pending ∧
    (s.draw).regs = s.regs ∧
    (s.draw).rdata = s.rdata ∧
    (s.draw).clk = s.clk ∧
    (s.draw).hot = s.hot ∧
    (s.draw).mem = s.mem ∧
    (s.draw).sys = s.sys ∧
    (s.draw).pwr = s.pwr ∧
    (s.draw).evr = s.evr ∧
    (s.draw).tmr = s.tmr ∧
    (s.draw).rtc = s.rtc ∧
    (s.draw).pad = s.pad ∧
    (s.draw).tsu = s.tsu ∧
    (s.draw).lmem = s.lmem ∧
    (s.draw).flash = s.flash ∧
    (s.draw).ecc = s.ecc ∧
    (s.draw).ecc1 = s.ecc1 ∧
    (s.draw).written = s.written ∧
    (s.draw).beat = s.beat ∧
    (s.draw).rxc = s.rxc ∧
    (s.draw).slc = s.slc ∧
    (s.draw).phy = s.phy ∧
    (s.draw).car = s.car ∧
    (s.draw).txc = s.txc ∧
    (s.draw).glz = s.glz ∧
    (s.draw).lnk = s.lnk ∧
    (s.draw).sec = s.sec ∧
    (s.draw).qsc = s.qsc ∧
    (s.draw).msh = s.msh ∧
    (s.draw).jjl = s.jjl ∧
    (s.draw).eth = s.eth ∧
    (s.draw).eng = s.eng ∧
    (s.draw).takeover = s.takeover ∧
    (s.draw).links = s.links ∧
    (s.draw).upd = s.upd ∧
    (s.draw).hif = s.hif := by
  unfold State.draw
  exact ⟨rfl, rfl, rfl, rfl, rfl, rfl, rfl, rfl, rfl, rfl, rfl, rfl, rfl, rfl, rfl, rfl, rfl, rfl, rfl, rfl, rfl, rfl, rfl, rfl, rfl, rfl, rfl, rfl, rfl, rfl, rfl, rfl, rfl, rfl, rfl, rfl⟩

/-- `setMbytes` writes mem, ecc, ecc1, written and nothing else. -/
@[simp] theorem State.setMbytes_frame (s : State) (a : Nat) (l : List Byte) :
    (s.setMbytes a l).pending = s.pending ∧
    (s.setMbytes a l).regs = s.regs ∧
    (s.setMbytes a l).rdata = s.rdata ∧
    (s.setMbytes a l).clk = s.clk ∧
    (s.setMbytes a l).drawn = s.drawn ∧
    (s.setMbytes a l).hot = s.hot ∧
    (s.setMbytes a l).sys = s.sys ∧
    (s.setMbytes a l).pwr = s.pwr ∧
    (s.setMbytes a l).evr = s.evr ∧
    (s.setMbytes a l).tmr = s.tmr ∧
    (s.setMbytes a l).rtc = s.rtc ∧
    (s.setMbytes a l).pad = s.pad ∧
    (s.setMbytes a l).tsu = s.tsu ∧
    (s.setMbytes a l).lmem = s.lmem ∧
    (s.setMbytes a l).flash = s.flash ∧
    (s.setMbytes a l).beat = s.beat ∧
    (s.setMbytes a l).rxc = s.rxc ∧
    (s.setMbytes a l).slc = s.slc ∧
    (s.setMbytes a l).phy = s.phy ∧
    (s.setMbytes a l).car = s.car ∧
    (s.setMbytes a l).txc = s.txc ∧
    (s.setMbytes a l).glz = s.glz ∧
    (s.setMbytes a l).lnk = s.lnk ∧
    (s.setMbytes a l).sec = s.sec ∧
    (s.setMbytes a l).qsc = s.qsc ∧
    (s.setMbytes a l).msh = s.msh ∧
    (s.setMbytes a l).jjl = s.jjl ∧
    (s.setMbytes a l).eth = s.eth ∧
    (s.setMbytes a l).eng = s.eng ∧
    (s.setMbytes a l).takeover = s.takeover ∧
    (s.setMbytes a l).links = s.links ∧
    (s.setMbytes a l).upd = s.upd ∧
    (s.setMbytes a l).hif = s.hif := by
  induction l generalizing s a with
  | nil => exact ⟨rfl, rfl, rfl, rfl, rfl, rfl, rfl, rfl, rfl, rfl, rfl, rfl, rfl, rfl, rfl, rfl, rfl, rfl, rfl, rfl, rfl, rfl, rfl, rfl, rfl, rfl, rfl, rfl, rfl, rfl, rfl, rfl, rfl⟩
  | cons b t ih =>
    have h := ih (s.setMbyte a b) (a + 1)
    simpa only [State.setMbytes, State.setMbyte_frame] using h

/-- `setLbytes` writes lmem, ecc, ecc1, written and nothing else. -/
@[simp] theorem State.setLbytes_frame (s : State) (a : Nat) (l : List Byte) :
    (s.setLbytes a l).pending = s.pending ∧
    (s.setLbytes a l).regs = s.regs ∧
    (s.setLbytes a l).rdata = s.rdata ∧
    (s.setLbytes a l).clk = s.clk ∧
    (s.setLbytes a l).drawn = s.drawn ∧
    (s.setLbytes a l).hot = s.hot ∧
    (s.setLbytes a l).mem = s.mem ∧
    (s.setLbytes a l).sys = s.sys ∧
    (s.setLbytes a l).pwr = s.pwr ∧
    (s.setLbytes a l).evr = s.evr ∧
    (s.setLbytes a l).tmr = s.tmr ∧
    (s.setLbytes a l).rtc = s.rtc ∧
    (s.setLbytes a l).pad = s.pad ∧
    (s.setLbytes a l).tsu = s.tsu ∧
    (s.setLbytes a l).flash = s.flash ∧
    (s.setLbytes a l).beat = s.beat ∧
    (s.setLbytes a l).rxc = s.rxc ∧
    (s.setLbytes a l).slc = s.slc ∧
    (s.setLbytes a l).phy = s.phy ∧
    (s.setLbytes a l).car = s.car ∧
    (s.setLbytes a l).txc = s.txc ∧
    (s.setLbytes a l).glz = s.glz ∧
    (s.setLbytes a l).lnk = s.lnk ∧
    (s.setLbytes a l).sec = s.sec ∧
    (s.setLbytes a l).qsc = s.qsc ∧
    (s.setLbytes a l).msh = s.msh ∧
    (s.setLbytes a l).jjl = s.jjl ∧
    (s.setLbytes a l).eth = s.eth ∧
    (s.setLbytes a l).eng = s.eng ∧
    (s.setLbytes a l).takeover = s.takeover ∧
    (s.setLbytes a l).links = s.links ∧
    (s.setLbytes a l).upd = s.upd ∧
    (s.setLbytes a l).hif = s.hif := by
  induction l generalizing s a with
  | nil => exact ⟨rfl, rfl, rfl, rfl, rfl, rfl, rfl, rfl, rfl, rfl, rfl, rfl, rfl, rfl, rfl, rfl, rfl, rfl, rfl, rfl, rfl, rfl, rfl, rfl, rfl, rfl, rfl, rfl, rfl, rfl, rfl, rfl, rfl⟩
  | cons b t ih =>
    have h := ih (s.setLbyte a b) (a + 1)
    simpa only [State.setLbytes, State.setLbyte_frame] using h

/-- `setFbytes` writes flash and nothing else. -/
@[simp] theorem State.setFbytes_frame (s : State) (a : Nat) (l : List Byte) :
    (s.setFbytes a l).pending = s.pending ∧
    (s.setFbytes a l).regs = s.regs ∧
    (s.setFbytes a l).rdata = s.rdata ∧
    (s.setFbytes a l).clk = s.clk ∧
    (s.setFbytes a l).drawn = s.drawn ∧
    (s.setFbytes a l).hot = s.hot ∧
    (s.setFbytes a l).mem = s.mem ∧
    (s.setFbytes a l).sys = s.sys ∧
    (s.setFbytes a l).pwr = s.pwr ∧
    (s.setFbytes a l).evr = s.evr ∧
    (s.setFbytes a l).tmr = s.tmr ∧
    (s.setFbytes a l).rtc = s.rtc ∧
    (s.setFbytes a l).pad = s.pad ∧
    (s.setFbytes a l).tsu = s.tsu ∧
    (s.setFbytes a l).lmem = s.lmem ∧
    (s.setFbytes a l).ecc = s.ecc ∧
    (s.setFbytes a l).ecc1 = s.ecc1 ∧
    (s.setFbytes a l).written = s.written ∧
    (s.setFbytes a l).beat = s.beat ∧
    (s.setFbytes a l).rxc = s.rxc ∧
    (s.setFbytes a l).slc = s.slc ∧
    (s.setFbytes a l).phy = s.phy ∧
    (s.setFbytes a l).car = s.car ∧
    (s.setFbytes a l).txc = s.txc ∧
    (s.setFbytes a l).glz = s.glz ∧
    (s.setFbytes a l).lnk = s.lnk ∧
    (s.setFbytes a l).sec = s.sec ∧
    (s.setFbytes a l).qsc = s.qsc ∧
    (s.setFbytes a l).msh = s.msh ∧
    (s.setFbytes a l).jjl = s.jjl ∧
    (s.setFbytes a l).eth = s.eth ∧
    (s.setFbytes a l).eng = s.eng ∧
    (s.setFbytes a l).takeover = s.takeover ∧
    (s.setFbytes a l).links = s.links ∧
    (s.setFbytes a l).upd = s.upd ∧
    (s.setFbytes a l).hif = s.hif := by
  induction l generalizing s a with
  | nil => exact ⟨rfl, rfl, rfl, rfl, rfl, rfl, rfl, rfl, rfl, rfl, rfl, rfl, rfl, rfl, rfl, rfl, rfl, rfl, rfl, rfl, rfl, rfl, rfl, rfl, rfl, rfl, rfl, rfl, rfl, rfl, rfl, rfl, rfl, rfl, rfl, rfl⟩
  | cons b t ih =>
    have h := ih (s.setFbyte a b) (a + 1)
    simpa only [State.setFbytes, State.setFbyte_frame] using h

/-! ### Words and fields -/

/-- A register reads the word written to it. -/
@[simp] theorem State.reg_setReg_same (s : State) (a : Nat) (v : Word) : (s.setReg a v).reg a = v := by
  simp [State.reg, State.setReg]

/-- A write leaves every other register as it was. -/
theorem State.reg_setReg_ne (s : State) {a b : Nat} (h : b ≠ a) (v : Word) : (s.setReg a v).reg b = s.reg b :=
  sget_sset_ne _ _ h v

/-- A register after a write of any register. -/
theorem State.reg_setReg (s : State) (a b : Nat) (v : Word) :
    (s.setReg a v).reg b = if b = a then v else s.reg b := by
  by_cases h : b = a
  · subst h; simp
  · simp [h, State.reg_setReg_ne s h]

/-- Bit `i` of the mask of `w` bits from `lo`. -/
theorem getLsbD_fmask (lo w i : Nat) :
    (fmask lo w).getLsbD i = (decide (i < 32) && decide (lo ≤ i) && decide (i < lo + w)) := by
  unfold fmask
  rw [BitVec.getLsbD_shiftLeft, BitVec.getLsbD_ofNat, Nat.testBit_two_pow_sub_one]
  by_cases h1 : i < 32 <;> by_cases h2 : lo ≤ i <;> by_cases h3 : i < lo + w <;>
    simp [h1, h2, h3] <;> omega

/-- Bit `i` of a word with a field replaced. -/
theorem getLsbD_putField (x : Word) (lo w v i : Nat) :
    (putField x lo w v).getLsbD i =
      if i < 32 ∧ lo ≤ i ∧ i < lo + w then v.testBit (i - lo) else x.getLsbD i := by
  unfold putField
  rw [BitVec.getLsbD_or, BitVec.getLsbD_and, BitVec.getLsbD_not, getLsbD_fmask, BitVec.getLsbD_shiftLeft,
    BitVec.getLsbD_ofNat, Nat.testBit_mod_two_pow]
  by_cases h1 : i < 32
  · by_cases h2 : lo ≤ i
    · by_cases h3 : i < lo + w
      · have h4 : i - lo < w := by omega
        have h5 : i - lo < 32 := by omega
        simp [h1, h2, h3, h4, h5]
      · have h4 : ¬ (i - lo < w) := by omega
        simp [h1, h2, h3, h4]
    · have h4 : i < lo := by omega
      simp [h1, h2, h4]
  · have h4 : x.getLsbD i = false := BitVec.getLsbD_of_ge x i (by omega)
    simp [h1, h4]

/-- Bit `i` of a field read. -/
theorem testBit_fieldOf (x : Word) (lo w i : Nat) :
    (fieldOf x lo w).testBit i = (decide (i < w) && x.getLsbD (lo + i)) := by
  unfold fieldOf
  rw [Nat.testBit_mod_two_pow, BitVec.testBit_toNat, BitVec.getLsbD_ushiftRight]

/-- A field reads the low bits of what was put there. -/
theorem fieldOf_putField_same (x : Word) {lo w : Nat} (v : Nat) (h : lo + w ≤ 32) :
    fieldOf (putField x lo w v) lo w = v % 2 ^ w := by
  apply Nat.eq_of_testBit_eq
  intro i
  rw [testBit_fieldOf, getLsbD_putField, Nat.testBit_mod_two_pow]
  by_cases h3 : i < w
  · have h4 : lo + i < 32 ∧ lo ≤ lo + i ∧ lo + i < lo + w := by omega
    simp [h3, h4]
  · simp [h3]

/-- A field reads as before where another one that does not overlap it is written. -/
theorem fieldOf_putField_ne (x : Word) {lo w lo' w' : Nat} (v : Nat) (h : lo' + w' ≤ lo ∨ lo + w ≤ lo') :
    fieldOf (putField x lo w v) lo' w' = fieldOf x lo' w' := by
  apply Nat.eq_of_testBit_eq
  intro i
  rw [testBit_fieldOf, getLsbD_putField, testBit_fieldOf]
  by_cases h3 : i < w'
  · have h4 : ¬ (lo' + i < 32 ∧ lo ≤ lo' + i ∧ lo' + i < lo + w) := by omega
    simp only [h3, h4, if_false]
  · simp [h3]

/-- A field lies within its register. -/
def Loc.fits (l : Loc) : Bool := decide (l.lo + l.w ≤ 32)

/-- Two fields share no bit. -/
def Loc.apart (l k : Loc) : Bool :=
  decide (l.addr ≠ k.addr) || decide (l.lo + l.w ≤ k.lo) || decide (k.lo + k.w ≤ l.lo)

/-- A field reads the low bits of what it was set to. -/
theorem State.get_set_same (s : State) {l : Loc} (v : Nat) (h : l.fits = true) : (s.set l v).get l = v % 2 ^ l.w := by
  unfold State.get State.set
  rw [State.reg_setReg_same, fieldOf_putField_same _ _ (by simpa [Loc.fits] using h)]

/-- A field that shares no bit with the one written reads as before. -/
theorem State.get_set_apart (s : State) {l k : Loc} (v : Nat) (h : l.apart k = true) :
    (s.set k v).get l = s.get l := by
  unfold State.get State.set
  by_cases ha : l.addr = k.addr
  · rw [ha, State.reg_setReg_same, fieldOf_putField_ne]
    simp only [Loc.apart, ha, ne_eq, not_true_eq_false, decide_false, Bool.false_or, Bool.or_eq_true,
      decide_eq_true_eq] at h
    exact h
  · rw [State.reg_setReg_ne _ ha]

/-- A field of another register reads as before where a register is written. -/
theorem State.get_setReg_ne (s : State) {l : Loc} {a : Nat} (v : Word) (h : l.addr ≠ a) :
    (s.setReg a v).get l = s.get l := by
  unfold State.get
  rw [State.reg_setReg_ne _ h]

/-- A field of the register that was written. -/
theorem State.get_setReg_same (s : State) {l : Loc} {a : Nat} (v : Word) (h : l.addr = a) :
    (s.setReg a v).get l = fieldOf v l.lo l.w := by
  unfold State.get
  rw [h, State.reg_setReg_same]

/-- The other registers read as before where a field is written. -/
theorem State.reg_set_ne (s : State) {l : Loc} {a : Nat} (v : Nat) (h : a ≠ l.addr) : (s.set l v).reg a = s.reg a :=
  State.reg_setReg_ne _ h _

/-- The register of a field that was written. -/
theorem State.reg_set_same (s : State) {l : Loc} {a : Nat} (v : Nat) (h : a = l.addr) :
    (s.set l v).reg a = putField (s.reg a) l.lo l.w v := by
  subst h; exact State.reg_setReg_same _ _ _

/-- The registers after `incBy`: those of `lift`. -/
@[simp] theorem State.incBy_regs (s : State) (l : Loc) (k : Nat) : (s.incBy l k).regs = (s.lift l k).regs := rfl

/-- `incBy` adds its field and amount to what hardware did in the clock. -/
@[simp] theorem State.incBy_hot (s : State) (l : Loc) (k : Nat) : (s.incBy l k).hot = s.hot ++ [(l, k)] := rfl

/-- Registers are read from the register file alone. -/
theorem State.reg_congr {s t : State} (h : t.regs = s.regs) (a : Nat) : t.reg a = s.reg a := by
  unfold State.reg; rw [h]

/-- Fields are read from the register file alone. -/
theorem State.get_congr {s t : State} (h : t.regs = s.regs) (l : Loc) : t.get l = s.get l := by
  unfold State.get; rw [State.reg_congr h]

/-- A field that shares no bit with the counter that rises reads as before. -/
theorem State.get_incBy_apart (s : State) {l k : Loc} (n : Nat) (h : l.apart k = true) : (s.incBy k n).get l = s.get l :=
  (State.get_congr (State.incBy_regs s k n) l).trans (State.get_set_apart s _ h)

/-- A saturating field after a rise. -/
theorem State.get_incBy_same (s : State) {l : Loc} (n : Nat) (h : l.fits = true) :
    (s.incBy l n).get l = min (2 ^ l.w - 1) (s.get l + n) := by
  rw [State.get_congr (State.incBy_regs s l n) l, State.lift, State.get_set_same s _ h]
  exact Nat.mod_eq_of_lt (lt_of_le_of_lt (min_le_left _ _) (Nat.sub_lt (Nat.two_pow_pos _) Nat.one_pos))

/-- A one-bit field as a Bool, in terms of the field. -/
theorem State.bit_eq (s : State) (l : Loc) : s.bit l = decide (s.get l = 1) := rfl

@[simp] theorem State.when_true (s : State) (f : State → State) : s.when true f = f s := rfl
@[simp] theorem State.when_false (s : State) (f : State → State) : s.when false f = s := rfl
@[simp] theorem State.each_nil {α : Type} (s : State) (f : State → α → State) : s.each [] f = s := rfl
@[simp] theorem State.each_cons {α : Type} (s : State) (a : α) (l : List α) (f : State → α → State) :
    s.each (a :: l) f = (f s a).each l f := rfl

/-! ### Vectors -/

/-- An element reads what it was set to. -/
theorem vget_vset_same {α : Type} {n : Nat} [Inhabited α] (v : Vector α n) {i : Nat} (x : α) (h : i < n) :
    vget (vset v i x) i = x := by
  simp [vget, vset, h]

/-- The other elements read as before. -/
theorem vget_vset_ne {α : Type} {n : Nat} [Inhabited α] (v : Vector α n) {i j : Nat} (x : α) (h : j ≠ i) :
    vget (vset v i x) j = vget v j := by
  simp [vget, vset, Ne.symm h]

end Sys2Proof.Machine
end

