-- ==== Sys2Proof/Laws/Access.lean ====
section
/-! SUPPORT. What a write of a register by an engine of the stack partition comes to: the register's own effect, and no
fault. -/
namespace Sys2Proof.Machine

/-- A register that is no lower word has no upper one. -/
theorem State.upperOf_none (s : State) {a : Nat} (h : a ∉ pairLows) : s.upperOf a = none := by
  simp only [pairLows, List.mem_append, List.mem_cons, List.not_mem_nil, or_false, List.mem_map, List.mem_range,
    not_or, not_exists, not_and] at h
  obtain ⟨⟨⟨⟨⟨⟨⟨⟨⟨⟨⟨h1, h2, h3, h4, h5, h5b⟩, h9⟩, h6⟩, h7⟩, h8⟩, t1⟩, t2⟩, t3⟩, t4⟩, t5⟩, t6⟩ := h
  have two (lo hi : Nat → Nat) (n : Nat) (h : ∀ x, x < n → ¬lo x = a) :
      ((List.range n).find? (fun i => decide (a = lo i))).map hi = none := by
    simp only [Option.map_eq_none_iff, List.find?_eq_none, List.mem_range, decide_eq_true_eq]
    exact fun x hx he => h x hx he.symm
  have pair (f : Nat → Nat) (h : ∀ x, x = 0 ∨ x = 2 ∨ x = 4 ∨ x = 6 → ¬f x = a) :
      (([0, 2, 4, 6].find? (fun n => decide (a = f n) && s.bit (TMR_CFG.CHAIN n))).map fun n => f (n + 1)) = none := by
    simp only [Option.map_eq_none_iff, List.find?_eq_none, Bool.and_eq_true, decide_eq_true_eq, not_and]
    intro x hx he
    exact absurd he.symm (h x (by simpa using hx))
  unfold State.upperOf
  rw [if_neg h1, if_neg h2, if_neg h3, if_neg h4, if_neg h5, if_neg h5b]
  simp only [two _ _ _ h9, two _ _ _ h6, two _ _ _ h7, two _ _ _ h8, pair _ t1, pair _ t2, pair _ t3, pair _ t4, pair _ t5,
    pair _ t6, Option.orElse_none]

/-- A register that follows no lower word is no upper one. -/
theorem State.lowerOf_none (s : State) {a : Nat} (h : a - 4 ∉ pairLows) (h' : a - 0x40 ∉ pairLows) :
    s.lowerOf a = none := by
  simp [State.lowerOf, s.upperOf_none h, s.upperOf_none h']

/-- An engine register of another engine than the writer. -/
def foreign (e a : Nat) : Bool :=
  decide (blockOfAddr a = 25) && decide (engOwn (a % 0x10000) ≠ none) && decide (engOwn (a % 0x10000) ≠ some e)

/-- The stack partition's right is full but at the per-engine registers of other engines (R326). -/
theorem State.rightOf_stack {s : State} {e a : Nat} (h : s.isApp e = false) (hf : foreign e a = false) :
    s.rightOf e (blockOfAddr a) (a % 0x10000) = .full := by
  unfold State.rightOf
  have : ¬ (blockOfAddr a = 25 ∧ engOwn (a % 0x10000) ≠ none ∧ engOwn (a % 0x10000) ≠ some e) := by
    rintro ⟨h1, h2, h3⟩
    simp [foreign, h1, h2, h3] at hf
  simp only [h, Bool.false_eq_true, if_false]
  rw [if_neg this]

/-- A write that nothing stands against does what the register's row says, and raises no fault. -/
theorem State.writeBy_stack {s : State} {e a : Nat} {v : Word} {r : RegRow} (h : s.reaches e a)
    (hp : ∃ o, regionOf a = .periph o) (ha : a % 4 = 0) (hr : findRow a = some r)
    (hl : r.rwl = 0 ∨ s.upd.locked = false) (hf : foreign e a = false) (hs : alone a = true ∨ blockOfAddr a = 18 ∧ a % 64 = 0xC)
    (hw : s.wordFault e a v = none) : s.writeBy e 4 a v = s.writeEffect e a r v := by
  obtain ⟨h1, h2, h3⟩ := h
  obtain ⟨o, hp⟩ := hp
  have hlock : (if s.upd.locked then BitVec.ofNat 32 r.rwl else 0) = 0#32 := by
    rcases hl with hl | hl <;> simp [hl]
  have hg : s.gate r a 0#32 v = { word := some v, fault := none } := by
    unfold State.gate
    simp only [hlock]
    have ha (x : Word) : x &&& 4294967295#32 = x := BitVec.and_allOnes
    simp [State.wouldChange, ha]
  have hps : s.psBits e a r = some 0#32 := by
    unfold State.psBits
    simp only [State.rightOf_stack h2 hf, h2]
    rfl
  have hh : s.halfWrite e a r v = s.writeEffect e a r v := by
    unfold State.halfWrite
    rcases hs with hs | hs
    · simp only [alone, Bool.and_eq_true, decide_eq_true_eq] at hs
      rw [s.upperOf_none hs.1.1, s.lowerOf_none hs.1.2 hs.2]
      split <;> simp
    · rw [if_pos hs]
  have hb : s.busWrite e 4 a v = (s.writeEffect e a r v, none) := by
    have hx : s.accessFault e .write 4 a = none := by
      unfold State.accessFault
      rw [hp]
      simp [ha, h3]
    have hrw : s.regWrite e a v = (s.writeEffect e a r v, none) := by
      unfold State.regWrite
      rw [hr]
      dsimp only
      rw [hps]
      dsimp only
      rw [hg]
      dsimp only
      rw [if_neg (fun hc => by rw [h2] at hc; exact Bool.noConfusion hc.2.2.2.2.1), hw, hh]
    unfold State.busWrite
    simp only [hx, hp, hrw]
  unfold State.writeBy
  simp only [h1, hb, State.deliverFault, Bool.false_eq_true, if_false]

end Sys2Proof.Machine
end

