-- ==== Sys2Proof/Machine/Pads.lean ====
section
/-! DEFINITION. Chapter 19: what every pad does (R383, R388, R427, R465, R467, R469, R484), as a view of the state. -/
namespace Sys2Proof.Machine

/-- The pads of R469, in its groups. -/
inductive Pad where
  | gpio (k : Fin 32)
  | feSw (x : Fin 2)
  | feLna (x : Fin 2)
  | fePa (x : Fin 2)
  | coexReq
  | coexPri
  | coexGnt
  | spiMiso
  | uartTx
  | hostInput
  | flCsN
  | flClk
  | flData
  | flResetN
  | ethOut
  | jjOut (p : Fin 2)
  | serdesIn
  | mdc
  | mdio
  | tckTrst
  | tmsTdi
  | tdo
  | vtcxo
  deriving DecidableEq, Repr

/-- What a pad does: it is high-impedance, alone or with a pull; it is driven; it carries data; or it is an electrically idle
output or a terminated input of a SerDes. -/
inductive PadDrive where
  | highZ
  | pullDown
  | pullUp
  | low
  | high
  | data
  | idle
  | terminated
  deriving DecidableEq, Repr

/-- A pad driven to a level. -/
def PadDrive.level (b : Bool) : PadDrive := if b then .high else .low

/-- R483: the pull of a general-purpose pad. -/
def pullOf (cfg : Word) : PadDrive :=
  if fieldOf cfg 4 2 = 1 then .pullDown else if fieldOf cfg 4 2 = 2 then .pullUp else .highZ

/-- R484: a general-purpose pad: attention, an output of PAD_OUT or of the event function, or an input. -/
def State.gpioDrive (s : State) (k : Nat) : PadDrive :=
  let cfg := s.padCfg k
  let func := fieldOf cfg 8 3
  let out := bitOf s.padOut.toNat k
  if s.bit HIF_CTRL.ATTNEN && decide (s.get HIF_CTRL.ATTNGPIO = k) then (if s.bit PAD_STAT.ATTN then .low else .highZ)
  else if func = 1 ∨ func = 2 then (if out && fieldOf cfg 0 1 = 1 then pullOf cfg else .level out)
  else pullOf cfg

/-- The pad lies on VIO_A. -/
def Pad.onVioA : Pad → Bool
  | .ethOut | .jjOut _ | .serdesIn | .vtcxo => false
  | _ => true

/-- R144, R427: the level of COEX_REQ or COEX_PRI, frozen where the latch holds. -/
def State.coexLevel (s : State) (pri : Bool) : Bool :=
  match s.pad.coexHold with
  | some l => if pri then l.2 else l.1
  | none => if pri then xor (s.bit COEX_STAT.PRI) (s.bit COEX_CTRL.PRIPOL) else xor (s.bit COEX_STAT.REQ) (s.bit COEX_CTRL.REQPOL)

/-- R469: what a pad does while its supply is there. -/
def State.padPowered (s : State) : Pad → PadDrive
  | .gpio k => s.gpioDrive k
  | .feSw x => .level (s.feLevels x).1
  | .feLna x => .level (s.feLevels x).2.1
  | .fePa x => .level (s.feLevels x).2.2
  | .coexReq => .level (s.coexLevel false)
  | .coexPri => .level (s.coexLevel true)
  | .coexGnt | .hostInput => .highZ
  | .spiMiso => if s.dOn 27 && s.bit HIF_CTRL.EN && decide (s.ifInUse = 1) then .data else .highZ
  | .uartTx => if s.hifActive && decide (s.ifInUse = 2) && s.hif.cur.isSome then .data else .high
  | .flCsN => .high
  | .flClk => .low
  | .flData => .pullDown
  | .flResetN => .level (!s.pad.flPulse)
  | .ethOut => if s.dOn 25 && s.bit ETH_CTRL.EN && s.serLocked then .data else .idle
  | .jjOut p => if s.jjAble p.val then .data else .idle
  | .serdesIn => .terminated
  | .mdc => .low
  | .mdio => .highZ
  | .tckTrst => .pullDown
  | .tmsTdi => .pullUp
  | .tdo => .highZ
  | .vtcxo => .level (s.bit PWR_STAT.VTCXO)

/-- R467, R469: what a pad does: with the chip unpowered, and on VIO_A while VIOOK is 0, it is high-impedance. -/
def State.padDrive (s : State) (p : Pad) : PadDrive :=
  if s.pwr.aoDown || (p.onVioA && !s.pad.vioOk) then .highZ else s.padPowered p

end Sys2Proof.Machine
end

