-- ==== Sys2Proof/Tests/Slice0.lean ====
section
/-! SUPPORT. The model's own tests: for each statement with hypotheses a state and operands that meet them, clause by clause; a well-formed
and an ill-formed term for each check of WellFormed; and a few single steps against values the spec gives. -/
namespace Sys2Proof.Tests
open Sys2Proof Sys2Proof.Machine
set_option Elab.async false

/-- A word put into a local memory, by the key of its first byte. -/
def putw (s : State) (a : Nat) (w : Word) : State :=
  (List.range 4).foldl (fun s k => s.setLbyte (a + k) (BitVec.ofNat 8 (w.toNat / 256 ^ k))) s

/-- Engine `n` made to run at `pc` with the words `ws` there, the general registers `g` and STATUS `st`. -/
def runs (s : State) (n pc : Nat) (ws : List Word) (g : List (Nat × Word)) (st : Word := 0) : State :=
  let s := (s.set (ENG_ESTAT.STATE n) stRun).modEng n (fun e => { e with stalled := none })
  let s := s.modCpu n (fun c =>
    { g.foldl (fun c p => c.setGpr p.1 p.2) c with
      pc := BitVec.ofNat 32 pc, status := st, vbase := 0x400, imask := 0, acc := 0x7FFFFFFF00000001#64 })
  (List.range ws.length).foldl (fun s i => putw s (n * 0x20000 + pc + 4 * i) (ws.getD i 0)) s

/-- No carrier is held after reset. -/
theorem cr_reset (c : Nat) : State.reset.cr c = none := by
  simp only [State.cr, State.reset, vget, Vector.getElem?_replicate]
  split <;> rfl

/-- No slice holds a frame after reset. -/
theorem frame_reset (n : Nat) : (vget State.reset.slc n).frame = none := by
  simp only [State.reset, vget, Vector.getElem?_replicate]
  split <;> rfl


theorem witness_StepRunsFront :
    ∃ (c : Instr) (t : List Instr) (s : State), s.pending = c :: t :=
    ⟨(.watchdogWarn : Instr), ([.dutyBucketRoll] : List Instr), (let b := State.reset;
      { b with pending := [.watchdogWarn, .dutyBucketRoll] }), by decide +kernel⟩

theorem witness_EmptyQueuePassesOneCycle :
    ∃ (s : State), s.pending = [] ∧ s.pwr.aoDown = false ∧ s.dOn 28 = true ∧ s.holdover = false ∧ s.tsu.sleep = none ∧ ((∀ d ∈
      s.tsu.stepDue, d.1 < 3)) :=
    ⟨(let b := State.reset;
      { (b.set SYS_CLKSTAT.HOLDOVER 0) with tsu := { b.tsu with sleep := none }, pending := [] }), by decide +kernel⟩

theorem witness_StepKeepsCanon :
    ∃ s t : State, s.Canon ∧ step s = .next t :=
    ⟨State.reset, _, ⟨by decide +kernel, by decide +kernel, by decide +kernel, by decide +kernel, by decide +kernel⟩, rfl⟩

theorem witness_ResetIsCanon :
    ∃ a r, findRow a = some r :=
    ⟨SYS_PARTID.addr, _, rfl⟩

theorem witness_FusesOnlyRise :
    ∃ s t : State, s.FuseInv ∧ step s = .next t :=
    ⟨State.reset, _, nofun, rfl⟩

theorem witness_RegisterWriteCompletes :
    (∃ (e : Fin 16) (addr : Word) (r : RegRow) (s : State), plainAddr addr.toNat = true ∧ findRow addr.toNat = some r ∧ s.reaches e
      addr.toNat ∧ ((r.rwl = 0 ∨ s.upd.locked = false)) ∧ s.calm [addr.toNat]) ∧
    (∃ (e : Fin 16) (addr : Word) (r : RegRow) (l : Loc) (k : Nat) (s : State), plainAddr addr.toNat = true ∧ findRow addr.toNat = some r ∧
      s.reaches e addr.toNat ∧ ((r.rwl = 0 ∨ s.upd.locked = false)) ∧ s.hot.filter (fun h => decide (h.1.addr = addr.toNat)) = [(l, k)] ∧
      l.lo + l.w ≤ 32 ∧ (r.rw ||| r.rwl ||| r.w1c).testBit l.lo = true) ∧
    (∃ (e : Fin 16) (size : AccSize) (addr : Word) (off : Nat) (s : State), regionOf addr.toNat = .dmem off ∧ addr.toNat % accBytes size =
      0 ∧ s.pwr.aoDown = false ∧ s.dOn e = true) :=
  ⟨
    ⟨(0), (BitVec.ofNat 32 BEAT_RESLIM.addr : Word), (⟨0x2C, 0x4, 1, 0xFFFF, 0x0, 0x0, 0x0, 0xFFFF, 0x0, 0xFFFF, 0x0, 28⟩ : RegRow),
      (let b := State.reset; b), by unfold State.reaches State.calm; decide +kernel⟩,
    ⟨(2), (BitVec.ofNat 32 PHY_EVT.addr : Word), (⟨0x8, 0x4, 1, 0x0, 0x0, 0x3, 0x0, 0x0, 0x0, 0x0, 0x0, 19⟩ : RegRow), (⟨PHY_EVT.addr, 1, 1⟩ : Loc), (1),
      (let b := State.reset;
      { b.setReg PHY_EVT.addr 3#32 with hot := [(⟨PHY_EVT.addr, 1, 1⟩, 1), (⟨SYS_FAULTCNT.addr, 0, 16⟩, 1)] }), by unfold State.reaches; decide +kernel⟩,
    ⟨(15), (.byte : AccSize), (0x10003#32 : Word), (0x3 : Nat), (let b := State.reset; b), by decide +kernel⟩⟩

theorem witness_TwoWordValuesComplete :
    (∃ (e : Fin 16) (addr : Word) (hi : Nat) (s : State), s.reaches e addr.toNat ∧ s.upperOf addr.toNat = some hi ∧ aget s.sys.latched
      addr.toNat = none) ∧
    (∃ (e : Fin 16) (addr : Word) (hi : Nat) (r : RegRow) (s : State), s.reaches e addr.toNat ∧ s.upperOf addr.toNat = some hi ∧ findRow
      addr.toNat = some r ∧ r.writable ≠ 0#32 ∧ ((r.rwl = 0 ∨ s.upd.locked = false)) ∧ ((∀ n, n < 8 → addr.toNat ≠ TMR_CNT.addr n))) ∧
    (∃ (e : Fin 16) (v : Word) (s : State), s.reaches e UPD_ACTHI.addr ∧ aget s.sys.held UPD_ACTLO.addr = some v ∧ s.calm [UPD_ACTLO.addr,
      UPD_ACTHI.addr]) ∧
    (∃ (e : Fin 16) (n : Fin 4) (v : Word) (s : State), s.reaches e (TMR_PERIOD.addr (2 * n + 1)) ∧ s.bit (TMR_CFG.CHAIN (2 * n)) = true ∧
      aget s.sys.held (TMR_PERIOD.addr (2 * n)) = some v ∧ s.calm [TMR_PERIOD.addr (2 * n), TMR_PERIOD.addr (2 * n + 1)]) :=
  ⟨
    ⟨(4), (BitVec.ofNat 32 BEAT_ABNLO.addr : Word), (BEAT_ABNHI.addr : Nat), (let b := State.reset;
      b), by unfold State.reaches; decide +kernel⟩,
    ⟨(0), (BitVec.ofNat 32 UPD_ACTLO.addr : Word), (UPD_ACTHI.addr : Nat), ((findRow UPD_ACTLO.addr).getD ⟨0,0,0,0,0,0,0,0,0,0,0,0⟩ : RegRow),
      (let b := State.reset; b), by unfold State.reaches; decide +kernel⟩,
    ⟨(0), (0xFFFFFFFF#32 : Word), (let b := State.reset;
      { b with sys := { b.sys with held := [(UPD_ACTLO.addr, 0xFFFFFFFF#32)] } }), by unfold State.reaches State.calm; decide +kernel⟩,
    ⟨(0), (0), (7#32 : Word), (let b := State.reset; let b := b.set (TMR_CFG.CHAIN 0) 1;
      { b with sys := { b.sys with held := [(TMR_PERIOD.addr 0, 7#32)] } }), by unfold State.reaches State.calm; decide +kernel⟩⟩

theorem witness_SysWritesComplete :
    (∃ (e : Fin 16) (s : State), s.reaches e SYS_FAULTREC.addr ∧ s.sys.faultClk = some s.clk) ∧
    (∃ (e : Fin 16) (s : State), s.reaches e SYS_FAULTREC.addr ∧ s.sys.faultClk ≠ some s.clk) ∧
    (∃ (e : Fin 16) (n : Fin 26) (s : State), s.reaches e (SYS_IRQMAP.addr n) ∧ n.val ≠ 0 ∧ s.calm [SYS_IRQMAP.addr n]) ∧
    (∃ (e : Fin 16) (s : State), s.reaches e SYS_RSTCTL.addr) ∧
    (∃ (e : Fin 16) (n : Fin 16) (s : State), s.reaches e SYS_RSTCTL.addr ∧ s.estate n ≤ 4) :=
  ⟨
    ⟨(0), (let b := State.reset;
      { b with sys := { b.sys with faultClk := some b.clk } }), by unfold State.reaches; decide +kernel⟩,
    ⟨(0), (let b := State.reset; { b with sys := { b.sys with faultClk := none } }), by unfold State.reaches; decide +kernel⟩,
    ⟨(0), (1), (let b := State.reset; b.set ENG_PART.EN 0xAAAA), by unfold State.reaches State.calm; decide +kernel⟩,
    ⟨(0), (let b := State.reset; b), by unfold State.reaches; decide +kernel⟩,
    ⟨(0), (0), (let b := State.reset; (b.set (ENG_ESTAT.STATE 0) 1)), by unfold State.reaches; decide +kernel⟩⟩

theorem witness_ClockAndScrubComplete :
    (∃ (s : State), s.dOn 28 = true ∧ s.bit SYS_CLKSTAT.REFOK = true ∧ s.holdover = false) ∧
    (∃ (ppm : Int) (s : State), s.dOn 28 = true ∧ s.bit SYS_CLKSTAT.REFOK = false ∧ s.inBand ppm false = true) ∧
    (∃ (p : Pll) (s : State), s.dOn 28 = true ∧ s.bit (pllLock p) = true) ∧
    (∃ (s : State), s.dOn 28 = true ∧ s.serLocked = true) ∧
    (∃ (s : State), s.dOn 28 = true) ∧
    (∃ (m : Fin 13) (i : Fin 16) (s : State), (if m.val = 11 then s.bit SYS_SCRUB.JAREN else s.bit SYS_SCRUB.EN) = true ∧ s.memOn m i =
      true) ∧
    (∃ (m : Fin 13) (i : Fin 16) (s : State), ((if m.val = 11 then s.bit SYS_SCRUB.JAREN else s.bit SYS_SCRUB.EN) && s.memOn m i) = false) :=
  ⟨
    ⟨(let b := State.reset; (b.set SYS_CLKSTAT.REFOK 1).set SYS_CLKSTAT.HOLDOVER 0), by decide +kernel⟩,
    ⟨(-100 : Int), (let b := State.reset; (b.set SYS_CLKSTAT.REFOK 0)), by decide +kernel⟩,
    ⟨(.cplla : Pll), (let b := State.reset; b.set (pllLock .cplla) 1), by decide +kernel⟩,
    ⟨(let b := State.reset; b.set SYS_CLKSTAT.SERPLL_LOCK 1), by decide +kernel⟩,
    ⟨(let b := State.reset; b), by decide +kernel⟩,
    ⟨(12), (0), (let b := State.reset; (b.set SYS_SCRUB.JAREN 1).set SYS_SCRUB.EN 1), by decide +kernel⟩,
    ⟨(0), (3), (let b := State.reset; (b.set SYS_SCRUB.JAREN 0).set SYS_SCRUB.EN 0), by decide +kernel⟩⟩

theorem witness_BeatWritesComplete :
    (∃ (e : Fin 16) (s : State), s.reaches e BEAT_CTRL.addr ∧ s.upd.locked = false) ∧
    (∃ (e : Fin 16) (v : Word) (s : State), s.pwr.aoDown = false ∧ s.dOn 28 = true ∧ v &&& 0xFFFF#32 &&& ~~~BitVec.ofNat 32 (2 ^ e.val) =
      0#32) ∧
    (∃ (e : Fin 16) (s : State), s.reaches e BEAT_PLREQ.addr) ∧
    (∃ (l : Nat) (s : State), s.beat.engRaise = some l) :=
  ⟨
    ⟨(0), (let b := State.reset; b), by unfold State.reaches; decide +kernel⟩,
    ⟨(15), (0x8000#32 : Word), (let b := State.reset; b), by decide +kernel⟩,
    ⟨(0), (let b := State.reset; b), by unfold State.reaches; decide +kernel⟩,
    ⟨(3), (let b := State.reset; { b with beat := { b.beat with engRaise := some 3 } }), by decide +kernel⟩⟩

theorem witness_BeatBoundaryCompletes :
    ∃ (s : State), s.dOn 28 = true ∧ s.pwr.warmHeld = false ∧ s.get UPD_STAT.STATE < 4 :=
    ⟨(let b := State.reset; let b := b.set UPD_STAT.STATE 3;
      { b with beat := { b.beat with stepped := true }, sys := { b.sys with coldReq := true, warmReq := false } }), by decide +kernel⟩

theorem witness_ResetPinCompletes :
    (∃ (w : Nat) (s : State), 1000 ≤ w ∧ s.pwr.aoDown = false ∧ s.pad.vioOk = true) ∧
    (∃ (w : Nat), w ≤ 200) :=
  ⟨
    ⟨(1000), (let b := State.reset; b), by decide +kernel⟩,
    ⟨(200), by decide +kernel⟩⟩

theorem witness_ReceiveGainCompletes :
    (∃ (x : Fin 2) (s : State), s.dOn (16 + x) = true ∧ s.get (RXF_STAT.MODE x) = 1 ∧ s.bit (RXF_STAT.DEAF x) = false) ∧
    (∃ (e : Fin 16) (x : Fin 2) (s : State), s.reaches e (RXF_CTRL.addr x)) :=
  ⟨
    ⟨(0), (let b := State.reset; (b.set (RXF_STAT.MODE 0) 1).set (RXF_STAT.DEAF 0) 0), by decide +kernel⟩,
    ⟨(0), (0), (let b := State.reset; b), by unfold State.reaches; decide +kernel⟩⟩

theorem witness_SlicesComplete :
    (∃ (e : Fin 16) (n : Fin 16) (s : State), s.reaches e (SLC_TUNE.addr n)) ∧
    (∃ (e : Fin 16) (n : Fin 16) (v : Word) (s : State), s.reaches e (SLC_CFG.addr n) ∧ s.slcMode n = 2 ∧ s.get (SLC_CFG.MODE n) ≠ 0 ∧
      fieldOf v 12 4 < 9 ∧ fieldOf v 12 4 ≠ s.get (SLC_CFG.WAVE n)) ∧
    (∃ (e : Fin 16) (n : Fin 16) (s : State), s.reaches e (SLC_CFG.addr n) ∧ s.slcMode n = 0) ∧
    (∃ (s : State), s.dOn 18 = true) ∧
    (∃ (n : Fin 16) (s : State), s.dOn 18 = true ∧ s.bit (RXF_STAT.DEAF (s.slcChain n)) = false) :=
  ⟨
    ⟨(0), (0), (let b := State.reset; b), by unfold State.reaches; decide +kernel⟩,
    ⟨(0), (0), (0x8310#32 : Word), (let b := State.reset;
      let b := (((b.set (SLC_STAT.MODE 0) 2).set (SLC_CFG.MODE 0) 2).set (SLC_CFG.WAVE 0) 3).set (SLC_STAT.TASTE 0) 0;
      { b with slc := vmod b.slc 0 (fun c => { c with wave := 3 }) }), by unfold State.reaches; decide +kernel⟩,
    ⟨(0), (0), (let b := State.reset; (b.set (SLC_STAT.MODE 0) 0)), by unfold State.reaches; decide +kernel⟩,
    ⟨(let b := State.reset; b), by decide +kernel⟩,
    ⟨(0), (let b := State.reset; (b.set (RXF_STAT.DEAF 0) 0).set (RXF_STAT.DEAF 1) 0), by decide +kernel⟩⟩

theorem witness_TastingCompletes :
    (∃ (e : Fin 16) (x : Fin 2) (s : State), s.reaches e (RXF_TASTE.addr x) ∧ (vget s.rxc x).window = none) ∧
    (∃ (x : Fin 2) (s : State), (vget s.rxc x).window.isSome = true ∧ ((∀ n, (vget s.rxc x).window = some (some n) → n < 16)) ∧ s.dOn (16 +
      x) = true) ∧
    (∃ (x : Fin 2) (s : State), s.bit (LNK_TINT.EN x) = false) ∧
    (∃ (x : Fin 2) (s : State), s.bit (LNK_TINT.EN x) = true ∧ (vget s.rxc x).ticks + 1 < intervalTicks (s.get (LNK_TINT.INTERVAL x))) ∧
    (∃ (x : Fin 2) (s : State), s.bit (LNK_TINT.EN x) = true ∧ intervalTicks (s.get (LNK_TINT.INTERVAL x)) ≤ (vget s.rxc x).ticks + 1) ∧
    (∃ (x : Fin 2) (n : Fin 16) (s : State), (vget s.rxc x).awake = some n.val ∧ (vget s.rxc x).releasing = false ∧ s.bit (SLC_STAT.SYNC n)
      = false ∧ ((∀ d ∈ s.lnk.done, d.slice ≠ n.val)) ∧ ((∀ c, s.cr c = none))) ∧
    (∃ (n : Fin 16) (power : Int) (d : RxDone) (s : State), (s.lnk.done.filter (fun d => decide (d.slice = n.val) && d.awake)).getLast? =
      some d ∧ (headOf d.wave d.mpdu).any (·.ackreq) = true ∧ ((isMf d.wave = false ∨ bitOf d.flags 1 = true)) ∧ d.more = false ∧ d.owed =
      none ∧ 2 * s.getS LNK_TRX.CTHR ≤ s.rssiOf d.chain power) :=
  ⟨
    ⟨(0), (0), (let b := State.reset; b), by unfold State.reaches; decide +kernel⟩,
    ⟨(0), (let b := State.reset;
      { b with rxc := vmod b.rxc 0 (fun r => { r with window := some (none) }) }), by decide +kernel, nofun, by decide +kernel⟩,
    ⟨(0), (let b := State.reset; b.set (LNK_TINT.EN 0) 0), by decide +kernel⟩,
    ⟨(0), (let b := State.reset; let b := (b.set (LNK_TINT.EN 0) 1).set (LNK_TINT.INTERVAL 0) 2; b), by decide +kernel⟩,
    ⟨(0), (let b := State.reset; let b := (b.set (LNK_TINT.EN 0) 1).set (LNK_TINT.INTERVAL 0) 0;
      { b with rxc := vmod b.rxc 0 (fun r => { r with ticks := 1000000 }) }), by decide +kernel⟩,
    ⟨(0), (15), (let b := State.reset; let b := b.set (SLC_STAT.SYNC 15) 0;
      { b with rxc := vmod b.rxc 0 (fun r => { r with awake := some 15 }) }), by decide +kernel, by decide +kernel, by decide +kernel, by decide +kernel, cr_reset⟩,
    ⟨(3), (600), ({ slice := 3, wave := 1, awake := true, mpdu := [0x61#8, 0xA8#8, 5#8, 1#8, 0#8, 2#8, 0#8, 3#8, 0#8] } : RxDone),
      (let b := State.reset;
      { (b.set LNK_TRX.CTHR 0) with lnk := { b.lnk with done := [{ slice := 3, wave := 1, awake := true, mpdu := [0x61#8, 0xA8#8, 5#8, 1#8, 0#8, 2#8, 0#8, 3#8, 0#8] }] } }), by decide +kernel⟩⟩

theorem witness_ReceptionCompletes :
    (∃ (n : Fin 16) (seen : RxSync) (s : State), s.slcLive n = true ∧ (vget s.slc n).frame = none ∧ syncDetects (vget s.slc n).wave (s.reg
      (PHY_SYNC.addr n)) seen = false) ∧
    (∃ (n : Fin 16) (seen : RxSync) (s : State), s.slcLive n = true ∧ (vget s.slc n).frame = none ∧ syncDetects (vget s.slc n).wave (s.reg
      (PHY_SYNC.addr n)) seen = true) ∧
    (∃ (n : Fin 16) (h : RxHeader) (f : RxFrame) (code : Nat) (s : State), (vget s.slc n).frame = some f ∧ f.hdr = false ∧ headerFits
      f.wave h = true ∧ (headerFields f.wave f.rxcfg h).1 = some code ∧ ((∀ a ∈ s.lnk.rx, a.slice ≠ some n.val)) ∧ ((∀ a ∈ s.lnk.tx,
      a.slice ≠ some n.val))) ∧
    (∃ (n : Fin 16) (h : RxHeader) (f : RxFrame) (s : State), (vget s.slc n).frame = some f ∧ f.hdr = false ∧ headerFits f.wave h = true ∧
      (headerFields f.wave f.rxcfg h).1 = none) ∧
    (∃ (n : Fin 16) (body : RxBody) (f : RxFrame) (s : State), (vget s.slc n).frame = some f ∧ s.frameOver f body = false) ∧
    (∃ (n : Fin 16) (body : RxBody) (f : RxFrame) (s : State), (vget s.slc n).frame = some f ∧ s.frameOver f body = true ∧ ((∀ a ∈
      s.lnk.rx, a.slice ≠ some n.val)) ∧ ((∀ a ∈ s.lnk.tx, a.slice ≠ some n.val)) ∧ f.carrier = none) :=
  ⟨
    ⟨(0), (.samples [] : RxSync), (let b := State.reset;
      let b := ((((b.set (SLC_STAT.MODE 0) 1).set (SLC_STAT.NOSIG 0) 0).set (SLC_STAT.DEAF 0) 0).set (SLC_STAT.CHAIN 0) 0).set SYS_CLKSTAT.CPLLA_LOCK 1;
      { b with slc := vmod b.slc 0 (fun c => { c with wave := 3, freq := 868300000 }) }), by decide +kernel⟩,
    ⟨(0), (.sixteenths 16 : RxSync), (let b := State.reset;
      let b := ((((b.set (SLC_STAT.MODE 0) 1).set (SLC_STAT.NOSIG 0) 0).set (SLC_STAT.DEAF 0) 0).set (SLC_STAT.CHAIN 0) 0).set SYS_CLKSTAT.CPLLA_LOCK 1;
      { b with slc := vmod b.slc 0 (fun c => { c with wave := 1, freq := 868300000 }) }), by decide +kernel⟩,
    ⟨(0), (.oqpsk 2#8 : RxHeader), ({ fid := 7, wave := 1, hdr := false, len := 20 } : RxFrame), (((headerFields 1 0#32 (.oqpsk 2#8)).1).getD 4 : Nat),
      (let b := State.reset;
      { b with slc := vmod b.slc 0 (fun c => { c with frame := some { fid := 7, wave := 1, hdr := false, len := 20 } }) }), by decide +kernel⟩,
    ⟨(0), (.oqpsk 127#8 : RxHeader), ({ fid := 7, wave := 1, hdr := false, len := 20 } : RxFrame), (let b := State.reset;
      { b with slc := vmod b.slc 0 (fun c => { c with frame := some { fid := 7, wave := 1, hdr := false, len := 20 } }) }), by decide +kernel⟩,
    ⟨(0), (.millefeuille : RxBody), ({ fid := 7, wave := 3, hdr := true, len := 20 } : RxFrame), (let b := State.reset;
      { b with slc := vmod b.slc 0 (fun c => { c with frame := some { fid := 7, wave := 3, hdr := true, len := 20 } }) }), by decide +kernel⟩,
    ⟨(0), (.standard ([1#8,2#8,3#8,4#8,5#8]) 3 5 : RxBody), ({ fid := 7, wave := 1, hdr := true, len := 9 } : RxFrame),
      (let b := State.reset;
      { b with slc := vmod b.slc 0 (fun c => { c with frame := some { fid := 7, wave := 1, hdr := true, len := 9 } }) }), by decide +kernel⟩⟩

theorem witness_DecoderPoolCompletes :
    (∃ (n : Fin 16) (f : RxFrame) (s : State), (vget s.slc n).frame = some f ∧ f.hdr = true ∧ isMf f.wave = true ∧ s.dOn 19 = true) ∧
    (∃ (d : Fin 4) (w : Codeword) (s : State), vget s.phy.dec d = some w) :=
  ⟨
    ⟨(0), ({ fid := 7, wave := 2, hdr := true, len := 100 } : RxFrame), (let b := State.reset;
      { b with slc := vmod b.slc 0 (fun c => { c with frame := some { fid := 7, wave := 2, hdr := true, len := 100 } }), phy := { b.phy with dec := Vector.replicate 4 (none), queue := [] } }), by decide +kernel⟩,
    ⟨(0), ({ slice := 9, fid := 7, soft := List.replicate 768 5 } : Codeword), (let b := State.reset;
      { b with phy := { b.phy with dec := vset b.phy.dec 0 (some ({ slice := 9, fid := 7, soft := List.replicate 768 5 })), queue := [{ slice := 2, fid := 2 }] } }), by decide +kernel⟩⟩

theorem witness_CarrierGatesComplete :
    (∃ (c : Fin 8) (k : Carrier) (s : State), s.cr c = some k ∧ k.phase = .held ∧ ((k.ack = true → k.armed = true)) ∧ ((∀ a, s.actOf c =
      some a → a.sensing = false ∧ a.cca = false))) ∧
    (∃ (c : Fin 8) (k : Carrier) (s : State), s.cr c = some k ∧ k.phase = .waiting ∧ s.actOf c = none) :=
  ⟨
    ⟨(0), ({ phase := .held, wave := 3, freq := 868300000, launch := 2000 } : Carrier), (let b := State.reset;
      { b with car := vset b.car 0 (some { phase := .held, wave := 3, freq := 868300000, launch := 2000 }) }), by decide +kernel, by decide +kernel, by decide +kernel, nofun⟩,
    ⟨(0), ({ phase := .waiting, wave := 3, freq := 868300000, launch := 2000 } : Carrier), (let b := State.reset;
      { b with car := vset b.car 0 (some { phase := .waiting, wave := 3, freq := 868300000, launch := 2000 }) }), by decide +kernel⟩⟩

theorem witness_CarrierLifeCompletes :
    (∃ (c : Fin 8) (k : Carrier) (s : State), s.cr c = some k ∧ k.phase = .gated ∧ s.levelFor c k = none ∧ s.actOf c = none) ∧
    (∃ (c : Fin 8) (k : Carrier) (l : Int) (s : State), s.cr c = some k ∧ k.phase = .gated ∧ s.levelFor c k = some l ∧ ((∀ n, (vget s.slc
      n).frame = none)) ∧ (vget s.rxc (c / 4)).window = none ∧ ((∀ a n, s.actOf c = some a → a.slice = some n → n < 16))) ∧
    (∃ (c : Fin 8) (k : Carrier) (s : State), s.cr c = some k ∧ k.phase = .rampUp) ∧
    (∃ (c : Fin 8) (k : Carrier) (s : State), s.cr c = some k ∧ k.phase = .sending) ∧
    (∃ (c : Fin 8) (k : Carrier) (s : State), s.cr c = some k ∧ k.phase = .rampDown ∧ k.ack = false ∧ k.copies = 0 ∧ ((s.actOf c = none ∨
      (k.result = 0 ∧ ∃ a, s.actOf c = some a ∧ a.wantAck = true)))) :=
  ⟨
    ⟨(0), ({ phase := .gated, wave := 3, freq := 868300000, launch := 2000 } : Carrier), (let b := State.reset;
      let b0 := State.reset;
      { { b with car := vset b.car 0 (some { phase := .gated, wave := 3, freq := 868300000, launch := 2000 }) } with lnk := b0.lnk, txc := b0.txc }), by decide +kernel⟩,
    ⟨(0), ({ phase := .gated, wave := 3, freq := 868300000, launch := 2000 } : Carrier), (let b := State.reset;
      let s : State := let b := (b.set (TXF_CTRL.EN 0) 1).set (TXF_CTRL.MAXN 0) 4;
      { b with car := vset b.car 0 (some { phase := .gated, wave := 3, freq := 868300000, launch := 2000 }) };
      (s.levelFor 0 { phase := .gated, wave := 3, freq := 868300000, launch := 2000 }).getD 0), (let b := State.reset;
      let b := (b.set (TXF_CTRL.EN 0) 1).set (TXF_CTRL.MAXN 0) 4;
      { b with car := vset b.car 0 (some { phase := .gated, wave := 3, freq := 868300000, launch := 2000 }) }), by decide +kernel, by decide +kernel, by decide +kernel, frame_reset, by decide +kernel, nofun⟩,
    ⟨(0), ({ phase := .rampUp, wave := 3, freq := 868300000, launch := 2000 } : Carrier), (let b := State.reset;
      { b with car := vset b.car 0 (some { phase := .rampUp, wave := 3, freq := 868300000, launch := 2000 }) }), by decide +kernel⟩,
    ⟨(0), ({ phase := .sending, wave := 3, freq := 868300000, launch := 2000 } : Carrier), (let b := State.reset;
      { b with car := vset b.car 0 (some { phase := .sending, wave := 3, freq := 868300000, launch := 2000 }) }), by decide +kernel⟩,
    ⟨(0), ({ phase := .rampDown, wave := 3, freq := 868300000, launch := 2000 } : Carrier), (let b := State.reset;
      { b with car := vset b.car 0 (some { phase := .rampDown, wave := 3, freq := 868300000, launch := 2000 }) }), by decide +kernel, by decide +kernel, by decide +kernel, by decide +kernel, .inl rfl⟩⟩

theorem witness_EmissionChecksComplete :
    (∃ (c : Fin 8) (k : Carrier) (m : Nat) (s : State), s.cr c = some k ∧ k.phase = .sending ∧ s.maskOf k.wave = some m) ∧
    (∃ (c : Fin 8) (level : Int) (k : Carrier) (s : State), s.cr c = some k ∧ k.phase = .sending ∧ level ≤ 50 * k.level + 200) ∧
    (∃ (c : Fin 8) (level : Int) (k : Carrier) (s : State), s.cr c = some k ∧ k.phase = .sending ∧ 50 * k.level + 200 < level ∧ s.actOf c =
      none) :=
  ⟨
    ⟨(0), ({ phase := .sending, wave := 3, freq := 868300000, launch := 2000 } : Carrier), (1), (let b := State.reset;
      let b := b.set TXF_MASKSEL.SEL 0x999999999;
      { b with car := vset b.car 0 (some { phase := .sending, wave := 3, freq := 868300000, launch := 2000 }) }), by decide +kernel⟩,
    ⟨(0), (200), ({ phase := .sending, wave := 3, freq := 868300000, launch := 2000 } : Carrier), (let b := State.reset;
      { b with car := vset b.car 0 (some { phase := .sending, wave := 3, freq := 868300000, launch := 2000 }) }), by decide +kernel⟩,
    ⟨(0), (201), ({ phase := .sending, wave := 3, freq := 868300000, launch := 2000 } : Carrier), (let b := State.reset;
      { b with car := vset b.car 0 (some { phase := .sending, wave := 3, freq := 868300000, launch := 2000 }) }), by decide +kernel⟩⟩

theorem witness_SynthesisersComplete :
    (∃ (e : Fin 16) (x : Fin 2) (s : State), s.reaches e (TXF_LO.addr x)) ∧
    (∃ (x : Fin 2) (s : State) (lo : _), s.dOn (20 + x) = true ∧ (vget s.txc x).heldLo = some lo ∧ s.chainIdle x = true ∧ s.holdover =
      false) ∧
    (∃ (x : Fin 2) (s : State), s.dOn (20 + x) = true) ∧
    (∃ (x : Fin 2) (s : State), s.dOn (20 + x) = true ∧ s.holdover = false ∧ ((∀ c k, c ∈ carriersOf x → s.cr c = some k → k.phase ≠
      .waiting))) ∧
    (∃ (x : Fin 2) (s : State), s.dOn (20 + x) = true ∧ s.synLocked x = true ∧ ((∀ c ∈ carriersOf x, s.cr c = none))) :=
  ⟨
    ⟨(0), (0), (let b := State.reset; b), by unfold State.reaches; decide +kernel⟩,
    ⟨(0), (let b := State.reset;
      { b.set SYS_CLKSTAT.HOLDOVER 0 with txc := vmod b.txc 0 (fun t => { t with heldLo := some 863000000 }) }), (863000000), by decide +kernel⟩,
    ⟨(0), (let b := State.reset; b), by decide +kernel⟩,
    ⟨(0), (let b := State.reset;
      b.set SYS_CLKSTAT.HOLDOVER 0), by decide +kernel, by decide +kernel, fun c k _ h => nomatch (cr_reset c).symm.trans h⟩,
    ⟨(0), (let b := State.reset; b.set (syLock 0) 1), by decide +kernel⟩⟩

theorem witness_CoexistenceAndSealComplete :
    (∃ (c : Fin 8) (k : Carrier) (s : State), s.cr c = some k ∧ k.phase = .held ∧ s.coexOn (c / 4) = true) ∧
    (∃ (s : State), s.bit COEX_CTRL.EN = true ∧ s.dOn 22 = true) ∧
    (∃ (e : Fin 16) (v : Word) (s : State), s.reaches e GLZ_SEAL.addr ∧ s.bit GLZ_STAT.SEALED = false ∧ s.glz.burning = none ∧ fieldOf v 16
      16 = 0xC6A0 ∧ fieldOf v 0 1 = 1) ∧
    (∃ (ws : List Word) (s : State), s.glz.burning = some ws) :=
  ⟨
    ⟨(0), ({ phase := .held, wave := 3, freq := 868300000, launch := 2000 } : Carrier), (let b := State.reset;
      let b := ((b.set COEX_CTRL.EN 1).set COEX_CTRL.BANDA 1).set COEX_CTRL.BANDB 1;
      { b with car := vset b.car 0 (some { phase := .held, wave := 3, freq := 868300000, launch := 2000 }) }), by decide +kernel⟩,
    ⟨(let b := State.reset; b.set COEX_CTRL.EN 1), by decide +kernel⟩,
    ⟨(0), (0xC6A00001#32 : Word), (let b := State.reset;
      let b := (((b.set GLZ_STAT.SEALED 0).set GLZ_STAT.BUSY 0).set KEY_LC.STATE 0).set PWR_STAT.PFW 0;
      { b with glz := { b.glz with burning := none }, sec := { b.sec with lc := 0 } }), by unfold State.reaches; decide +kernel⟩,
    ⟨(List.replicate 64 5#32 : List Word), (let b := State.reset;
      { b with glz := { b.glz with burning := some (List.replicate 64 5#32) } }), by decide +kernel⟩⟩

theorem witness_FrameAcceptanceCompletes :
    ∃ (n : Fin 16) (d : RxDone) (h : Head) (s : State) (w : State), w = s.each (s.alsoDecided n) (fun s m => s.decideFrame m.val) ∧
      w.lnk.done.find? (fun d => decide (d.slice = n.val) && d.owed.isNone) = some d ∧ headOf d.wave d.mpdu = some h :=
    ⟨(15), ({ slice := 15, fid := 9, wave := 1, mpdu := [0x2#8, 0x28#8, 0x5#8, 0x0#8, 0x0#8, 0x0#8, 0x0#8] } : RxDone), (((headOf 1 [0x2#8, 0x28#8, 0x5#8, 0x0#8, 0x0#8, 0x0#8, 0x0#8]).getD { type := 0, seq := 0, netid := 0, src := none, len := 0 }) : Head),
      (let b := State.reset; let b := b;
      { b with lnk := { b.lnk with done := [{ slice := 15, fid := 9, wave := 1, mpdu := [0x2#8, 0x28#8, 0x5#8, 0x0#8, 0x0#8, 0x0#8, 0x0#8] }] } }),
      (let b := State.reset; let s : State := let b := b;
      { b with lnk := { b.lnk with done := [{ slice := 15, fid := 9, wave := 1, mpdu := [0x2#8, 0x28#8, 0x5#8, 0x0#8, 0x0#8, 0x0#8, 0x0#8] }] } };
      s.each (s.alsoDecided (15 : Fin 16)) (fun s m => s.decideFrame m.val)), by decide +kernel⟩

theorem witness_TransmitActionsComplete :
    (∃ (cell : Fin 4096) (a : TxAct) (s : State), s.lnk.tx.find? (fun a => decide (a.cell = cell.val) && !a.started) = some a ∧ a.chain < 2) ∧
    (∃ (n : Fin 16) (d : RxDone) (nack : Bool) (nbr : Nat) (c : Nat) (o : Carrier) (s : State), s.lnk.done.find? (fun d => decide (d.slice
      = n.val) && d.owed.isSome) = some d ∧ d.owed = some (nack, nbr) ∧ d.carrier = some c ∧ s.cr c = some o ∧ o.ack = true ∧ o.armed =
      false) :=
  ⟨
    ⟨(4095), (let cell : Fin 4096 := 4095;
      { id := 7, cell := 4095, kind := 0, nbr := 3, chain := 0, freq := 868300000, wave := 3, cca := false, ackreq := false, launch := 5000 }),
      (let b := State.reset; let cell : Fin 4096 := 4095;
      { b with lnk := { b.lnk with tx := [{ id := 7, cell := 4095, kind := 0, nbr := 3, chain := 0, freq := 868300000, wave := 3, cca := false, ackreq := false, launch := 5000 }] } }), by decide +kernel⟩,
    ⟨(15), ({ slice := 15, fid := 9, wave := 1, owed := some (true, 3), carrier := some 7, mpdu := [0x61#8, 0xA8#8, 0x5#8, 0x0#8, 0x0#8, 0x0#8, 0x0#8, 0x3#8, 0x0#8, 0x1#8, 0x2#8, 0x3#8], freq := 868300000 } : RxDone), (true : Bool), (3), (7), ({ ack := true } : Carrier),
      (let b := State.reset; let b := { b with car := vset b.car 7 (some { ack := true }) };
      { b with lnk := { b.lnk with done := [{ slice := 15, fid := 9, wave := 1, owed := some (true, 3), carrier := some 7, mpdu := [0x61#8, 0xA8#8, 0x5#8, 0x0#8, 0x0#8, 0x0#8, 0x0#8, 0x3#8, 0x0#8, 0x1#8, 0x2#8, 0x3#8], freq := 868300000 }] } }), by decide +kernel⟩⟩

theorem witness_SlotWindowsComplete :
    (∃ (cell : Fin 4096) (a : TxAct) (n : Fin 16) (s : State), s.lnk.tx.find? (fun a => decide (a.cell = cell.val) && a.cca &&
      a.carrier.isSome && !a.sensing) = some a ∧ a.slice = some n.val) ∧
    (∃ (cell : Fin 4096) (a : TxAct) (c : Nat) (k : Carrier) (s : State), s.lnk.tx.find? (fun a => decide (a.cell = cell.val) && a.sensing)
      = some a ∧ a.carrier = some c ∧ s.cr c = some k) ∧
    (∃ (cell : Fin 4096) (a : TxAct) (s : State), s.lnk.tx.find? (fun a => decide (a.cell = cell.val) && a.waiting) = some a) ∧
    (∃ (cell : Fin 4096) (a : RxAct) (s : State), s.lnk.rx.find? (fun a => decide (a.cell = cell.val) && !a.opened && !s.lnk.tx.any (fun b
      => decide (b.id = a.id))) = some a ∧ (s.dOn (16 + a.chain) && s.dOn 18 && s.dOn 19) = false) ∧
    (∃ (cell : Fin 4096) (a : RxAct) (s : State) (n : Nat), s.lnk.rx.find? (fun a => decide (a.cell = cell.val) && !a.opened &&
      !s.lnk.tx.any (fun b => decide (b.id = a.id))) = some a ∧ (s.dOn (16 + a.chain) && s.dOn 18 && s.dOn 19) = true ∧ s.freeSched = some
      n ∧ s.chainDeaf a.chain = false ∧ s.slcWaits n = false) ∧
    (∃ (cell : Fin 4096) (a : RxAct) (s : State), s.lnk.rx.find? (fun a => decide (a.cell = cell.val) && a.opened && !a.closed) = some a) :=
  ⟨
    ⟨(4095), (let cell : Fin 4096 := 4095;
      { id := 7, cell := 4095, kind := 0, nbr := 3, chain := 0, freq := 868300000, wave := 3, cca := true, ackreq := false, launch := 5000, carrier := some 2, slice := some 15 }), (15),
      (let b := State.reset; let cell : Fin 4096 := 4095;
      { b with lnk := { b.lnk with tx := [{ id := 7, cell := 4095, kind := 0, nbr := 3, chain := 0, freq := 868300000, wave := 3, cca := true, ackreq := false, launch := 5000, carrier := some 2, slice := some 15 }] } }), by decide +kernel⟩,
    ⟨(4095), (let cell : Fin 4096 := 4095;
      { id := 7, cell := 4095, kind := 0, nbr := 3, chain := 0, freq := 868300000, wave := 3, cca := true, ackreq := true, launch := 5000, carrier := some 2, slice := some 15, sensing := true }), (2), ({ phase := .held } : Carrier),
      (let b := State.reset; let cell : Fin 4096 := 4095;
      let b := { (b.set LNK_CCA.THR 10) with car := vset b.car 2 (some { phase := .held }) };
      { b with lnk := { b.lnk with tx := [{ id := 7, cell := 4095, kind := 0, nbr := 3, chain := 0, freq := 868300000, wave := 3, cca := true, ackreq := true, launch := 5000, carrier := some 2, slice := some 15, sensing := true }] } }), by decide +kernel⟩,
    ⟨(4095), (let cell : Fin 4096 := 4095;
      { id := 7, cell := 4095, kind := 0, nbr := 3, chain := 0, freq := 868300000, wave := 3, cca := false, ackreq := false, launch := 5000, waiting := true }),
      (let b := State.reset; let cell : Fin 4096 := 4095;
      let b := { b with slc := vmod b.slc 4 (fun c => { c with frame := some {} }), qsc := { b.qsc with queues := vmod b.qsc.queues 5 (fun (q : Queue) => { q with outlet := 0, pkts := [{ pid := 1, nbr := 3, len := 40, cells := [1], buf := 1, inflight := true }] }) } };
      { b with lnk := { b.lnk with tx := [{ id := 7, cell := 4095, kind := 0, nbr := 3, chain := 0, freq := 868300000, wave := 3, cca := false, ackreq := false, launch := 5000, waiting := true }] } }), by decide +kernel⟩,
    ⟨(4095), (let cell : Fin 4096 := 4095;
      { id := 7, cell := 4095, kind := 1, nbr := 3, chain := 1, freq := 2440000000, wave := 2, launch := 5000, guard := 3 }),
      (let b := State.reset; let cell : Fin 4096 := 4095; let b := b.setReg (PWR_DSTAT.addr 17) 0#32;
      { b with lnk := { b.lnk with rx := [{ id := 7, cell := 4095, kind := 1, nbr := 3, chain := 1, freq := 2440000000, wave := 2, launch := 5000, guard := 3 }] } }), by decide +kernel⟩,
    ⟨(4095), (let cell : Fin 4096 := 4095;
      { id := 7, cell := 4095, kind := 1, nbr := 3, chain := 1, freq := 2440000000, wave := 2, launch := 5000, guard := 3 }),
      (let b := State.reset; let cell : Fin 4096 := 4095; let n : Nat := 15;
      let b := (List.range 15).foldl (fun (b : State) n => b.set (SLC_STAT.MODE n) 2) b;
      let b := ((((b.set (SLC_STAT.MODE 15) 1).set (SLC_STAT.ACT 15) 0).set (SLC_STAT.TASTE 15) 0).set (RXF_STAT.MODE 1) 1).set SYS_CLKSTAT.CPLLB_LOCK 1;
      { b with lnk := { b.lnk with rx := [{ id := 7, cell := 4095, kind := 1, nbr := 3, chain := 1, freq := 2440000000, wave := 2, launch := 5000, guard := 3 }] } }), (15), by decide +kernel⟩,
    ⟨(4095), (let cell : Fin 4096 := 4095;
      { id := 7, cell := 4095, kind := 1, nbr := 3, chain := 1, freq := 2440000000, wave := 2, launch := 5000, guard := 3, opened := true }),
      (let b := State.reset; let cell : Fin 4096 := 4095; let b := b.set (SLC_STAT.SYNC 15) 0;
      { b with lnk := { b.lnk with rx := [{ id := 7, cell := 4095, kind := 1, nbr := 3, chain := 1, freq := 2440000000, wave := 2, launch := 5000, guard := 3, opened := true }] } }), by decide +kernel⟩⟩

theorem witness_LinkWritesComplete :
    (∃ (e : Fin 16) (n : Fin 256) (s : State), s.reaches e (LNK_NBR0.addr n)) ∧
    (∃ (e : Fin 16) (s : State), s.reaches e LNK_SCAN.addr) :=
  ⟨
    ⟨(0), (0), (let b := State.reset; b), by unfold State.reaches; decide +kernel⟩,
    ⟨(0), (let b := State.reset; b), by unfold State.reaches; decide +kernel⟩⟩

theorem witness_MeshDecisionCompletes :
    ∃ (p : Nat) (i : Ingress) (s : State), s.dOn 23 = true ∧ s.nextIngress = some (p, i) ∧ i.raw = false ∧ i.cells = [] :=
    ⟨(1), ({ bytes := [0x1#8, 0x2#8, 0x3#8] } : Ingress), (let b := State.reset;
      { b.set MSH_CTRL.EN 0 with msh := { b.msh with ports := vset b.msh.ports 1 [{ bytes := [0x1#8, 0x2#8, 0x3#8] }] } }), by decide +kernel⟩

theorem witness_WaitingAndDownComplete :
    (∃ (port : Fin 6) (s : State), s.dOn 23 = true ∧ ((∀ i ∈ vget s.msh.ports port, i.waiting = none))) ∧
    (∃ (port : Fin 6) (s : State) (i : Ingress) (o n q : Nat) (hop : Option Nat), s.dOn 23 = true ∧ (vget s.msh.ports port).filter (fun i
      => i.waiting.isSome) = [i] ∧ i.waiting = some (o, n, q, hop) ∧ i.cells = [] ∧ i.raw = false ∧ port.val ≠ 2 ∧ port.val ≠ 3) ∧
    (∃ (e : Fin 16) (n : Fin 8) (s : State), s.reaches e (MSH_DOWN.addr n)) :=
  ⟨
    ⟨(1), (let b := State.reset;
      { b with msh := { b.msh with ports := vset b.msh.ports 1 [{ bytes := [1#8] }] } }), by decide +kernel⟩,
    ⟨1, (let b := State.reset;
      { b with msh := { b.msh with ports := vset b.msh.ports 1 [{ bytes := List.replicate 12 0x21#8, waiting := some (2, 3, 5, some 4) }] } }), { bytes := List.replicate 12 0x21#8, waiting := some (2, 3, 5, some 4) }, 2, 3, 5, some 4, by decide +kernel⟩,
    ⟨(0), (0), (let b := State.reset;
      { b.setReg (MSH_DOWN.addr 0) 0x80000003#32 with msh := { b.msh with retryDrops := [(0, 3), (31, 4)] } }), by unfold State.reaches; decide +kernel⟩⟩

theorem witness_OutletsComplete :
    (∃ (o : Fin 8) (q : Nat) (p : Packet) (s : State), ((o.val = 2 ∨ o.val = 3 ∨ o.val = 4)) ∧ s.dOn 23 = true ∧ vget s.qsc.sending o =
      none ∧ s.linkReady o = true ∧ (((s.strictQs o).find? (fun q => (s.q q).eligible) = some q ∨ ((s.strictQs o).find? (fun q => (s.q
      q).eligible) = none ∧ (s.weightedQs o).filter (fun q => (s.q q).eligible) = [q]))) ∧ (s.q q).pkts.head? = some p ∧ p.inflight = false
      ∧ s.expired p = false ∧ s.fits q o {} p = true ∧ s.eccInPacket p = none) ∧
    (∃ (o : Fin 8), ((o.val = 0 ∨ o.val = 1 ∨ o.val = 6))) ∧
    (∃ (q : Fin 64) (o : Fin 8) (s : State), (s.q q).outlet = o.val) ∧
    (∃ (o : Fin 8) (x : Sending) (s : State), ((o.val = 2 ∨ o.val = 3 ∨ o.val = 4)) ∧ vget s.qsc.sending o = some x ∧ x.q < 64 ∧ x.waits =
      true) ∧
    (∃ (o : Fin 8) (x : Sending) (s : State), ((o.val = 2 ∨ o.val = 3 ∨ o.val = 4)) ∧ vget s.qsc.sending o = some x ∧ x.q < 64 ∧ x.waits =
      false) :=
  ⟨
    ⟨(3), (7), ({ pid := 1, nbr := 3, len := 40, cells := [1], buf := 1 } : Packet), (let b := State.reset; let q : Nat := 7;
      let b := ((b.set (JJL_STAT.STATE 0) 2).set (JJL_STAT.RDCRED 0) 5).set BEAT_RESLIM.BEATS 65535;
      let b := (((List.range 64).foldl (fun (b : State) q => (b.setReg (QSC_QCFG.addr q) 0#32)) b).set QSC_CTRL.EN 1);
      { b with qsc := { b.qsc with en := true, sending := vset b.qsc.sending 3 none, queues := vmod b.qsc.queues 7 (fun (q : Queue) => { q with outlet := 3, cfg := 0x83000000#32, active := true, pkts := [{ pid := 1, nbr := 3, len := 40, cells := [1], buf := 1 }] }) } }), by decide +kernel⟩,
    ⟨(0), by decide +kernel⟩,
    ⟨(63), (0), (let b := State.reset; let q : Fin 64 := 63;
      { b with qsc := { b.qsc with queues := vmod b.qsc.queues 63 (fun (q : Queue) => { q with outlet := 0 }) } }), by decide +kernel⟩,
    ⟨(2), ({ waits := true, q := 63, pkt := { pid := 1, nbr := 3, len := 40, cells := [1], buf := 1 } } : Sending),
      (let b := State.reset;
      { b with qsc := { b.qsc with sending := vset b.qsc.sending 2 (some { waits := true, q := 63, pkt := { pid := 1, nbr := 3, len := 40, cells := [1], buf := 1 } }) } }), by decide +kernel⟩,
    ⟨(2), ({ q := 63, pkt := { pid := 1, nbr := 3, len := 40, cells := [1], buf := 1 } } : Sending), (let b := State.reset;
      { b with qsc := { b.qsc with sending := vset b.qsc.sending 2 (some { q := 63, pkt := { pid := 1, nbr := 3, len := 40, cells := [1], buf := 1 } }), refs := [(1,1)], alloc := [1] } }), by decide +kernel⟩⟩

theorem witness_QueueControlCompletes :
    (∃ (s : State), s.dOn 23 = true) ∧
    (∃ (e : Fin 16) (o : Fin 8) (s : State), s.reaches e (QSC_RSV.addr o)) ∧
    (∃ (e : Fin 16) (q : Fin 64) (s : State), s.reaches e (QSC_QCFG.addr q) ∧ s.calm [QSC_QCFG.addr q]) :=
  ⟨
    ⟨(let b := State.reset; b), by decide +kernel⟩,
    ⟨(0), (0), (let b := State.reset; b.set QSC_PBEN.EN 0xFF), by unfold State.reaches; decide +kernel⟩,
    ⟨(0), (0), (let b := State.reset; b), by unfold State.reaches State.calm; decide +kernel⟩⟩

theorem witness_JajorCompletes :
    (∃ (p : Fin 2) (s : State), s.dOn 26 = true ∧ s.bit (JJL_CTRL.EN p) = true ∧ s.serLocked = true ∧ s.get (JJL_STAT.STATE p) = 0) ∧
    (∃ (p : Fin 2) (s : State), s.dOn 26 = true ∧ s.bit (JJL_CTRL.EN p) = true ∧ s.serLocked = true ∧ s.get (JJL_STAT.STATE p) = 1) ∧
    (∃ (p : Fin 2) (s : State), s.dOn 26 = true ∧ s.get (JJL_STAT.STATE p) = 2) ∧
    (∃ (p : Fin 2) (s : State), s.dOn 26 = true ∧ s.get (JJL_STAT.STATE p) = 2 ∧ ((∀ x, vget s.qsc.sending (3 + p) = some x → x.q < 64))) ∧
    (∃ (p : Fin 2) (s : State), s.dOn 26 = true ∧ s.get (JJL_STAT.STATE p) = 2 ∧ s.dOn 23 = true) ∧
    (∃ (p : Fin 2) (bas : BitVec 48) (s : State), s.dOn 26 = true ∧ s.get (JJL_STAT.STATE p) = 2 ∧ s.jjRole p = 2 ∧ (vget s.jjl p).bas =
      none ∧ (basOf bas).2 = true ∧ (basOf bas).1 = s.abn) ∧
    (∃ (p : Fin 2) (bas : BitVec 48) (s : State), s.dOn 26 = true ∧ s.get (JJL_STAT.STATE p) = 2 ∧ s.jjRole p = 2 ∧ (vget s.jjl p).bas =
      none ∧ (basOf bas).2 = true ∧ (basOf bas).1 ≠ s.abn ∧ fieldOf (vget s.jjl p).ctrl 27 1 = 0) ∧
    (∃ (p : Fin 2) (bas : BitVec 48) (s : State), s.dOn 26 = true ∧ s.get (JJL_STAT.STATE p) = 2 ∧ s.jjRole p = 1 ∧ (basOf bas).2 = false ∧
      (basOf bas).1 = (vget s.jjl p).sentAbn) ∧
    (∃ (p : Fin 2) (bfu : BitVec 48) (b : Bas) (s : State), s.dOn 26 = true ∧ s.get (JJL_STAT.STATE p) = 2 ∧ s.jjRole p = 2 ∧ (vget s.jjl
      p).bas = some b ∧ b.abn % 256 = (bfuOf bfu).1 ∧ fieldOf (vget s.jjl p).ctrl 28 1 = 0) :=
  ⟨
    ⟨(0), (let b := State.reset; let b := ((b.set (JJL_CTRL.EN 0) 1).set SYS_CLKSTAT.SERPLL_LOCK 1).set (JJL_STAT.STATE 0) 0;
      b), by decide +kernel⟩,
    ⟨(0), (let b := State.reset; let b := ((b.set (JJL_CTRL.EN 0) 1).set SYS_CLKSTAT.SERPLL_LOCK 1).set (JJL_STAT.STATE 0) 1;
      b), by decide +kernel⟩,
    ⟨(0), (let b := State.reset; let b := ((b.set (JJL_CTRL.EN 0) 1).set SYS_CLKSTAT.SERPLL_LOCK 1).set (JJL_STAT.STATE 0) 2;
      b), by decide +kernel⟩,
    ⟨(0), (let b := State.reset; let b := ((b.set (JJL_CTRL.EN 0) 1).set SYS_CLKSTAT.SERPLL_LOCK 1).set (JJL_STAT.STATE 0) 2;
      b), by decide +kernel⟩,
    ⟨1, (let b := State.reset; b.set (JJL_STAT.STATE 1) 2), by decide +kernel⟩,
    ⟨(0), (let b := State.reset;
      let s : State := let b := ((b.set (JJL_CTRL.EN 0) 1).set SYS_CLKSTAT.SERPLL_LOCK 1).set (JJL_STAT.STATE 0) 2;
      let b := { b with jjl := vmod b.jjl 0 (fun j => { j with ctrl := 0x40000000#32 }) }; b; BitVec.ofNat 48 (2^47 + s.abn)),
      (let b := State.reset; let b := ((b.set (JJL_CTRL.EN 0) 1).set SYS_CLKSTAT.SERPLL_LOCK 1).set (JJL_STAT.STATE 0) 2;
      let b := { b with jjl := vmod b.jjl 0 (fun j => { j with ctrl := 0x40000000#32 }) }; b), by decide +kernel⟩,
    ⟨(0), (let b := State.reset;
      let s : State := let b := ((b.set (JJL_CTRL.EN 0) 1).set SYS_CLKSTAT.SERPLL_LOCK 1).set (JJL_STAT.STATE 0) 2;
      let b := { b with jjl := vmod b.jjl 0 (fun j => { j with ctrl := 0x40000000#32 }) }; b;
      BitVec.ofNat 48 (2^47 + (s.abn + 1) % 2^40)), (let b := State.reset;
      let b := ((b.set (JJL_CTRL.EN 0) 1).set SYS_CLKSTAT.SERPLL_LOCK 1).set (JJL_STAT.STATE 0) 2;
      let b := { b with jjl := vmod b.jjl 0 (fun j => { j with ctrl := 0x40000000#32 }) }; b), by decide +kernel⟩,
    ⟨(0), (let b := State.reset;
      let s : State := let b := ((b.set (JJL_CTRL.EN 0) 1).set SYS_CLKSTAT.SERPLL_LOCK 1).set (JJL_STAT.STATE 0) 2;
      let b := { b with jjl := vmod b.jjl 0 (fun j => { j with ctrl := 0x40000000#32 }) };
      { b with jjl := vmod b.jjl 0 (fun j => { j with ctrl := 0x20000000#32, sentAbn := b.abn, sentDep := 9 }) };
      BitVec.ofNat 48 (s.abn + 2^40)), (let b := State.reset;
      let b := ((b.set (JJL_CTRL.EN 0) 1).set SYS_CLKSTAT.SERPLL_LOCK 1).set (JJL_STAT.STATE 0) 2;
      let b := { b with jjl := vmod b.jjl 0 (fun j => { j with ctrl := 0x40000000#32 }) };
      { b with jjl := vmod b.jjl 0 (fun j => { j with ctrl := 0x20000000#32, sentAbn := b.abn, sentDep := 9 }) }), by decide +kernel⟩,
    ⟨(0), (BitVec.ofNat 48 (0xFF + 0x11 * 256 + (0xFFFFFF00#32).toNat * 65536) : BitVec 48), ({ abn := 0x1FF, arr := 40, dep := -3 } : Bas),
      (let b := State.reset; let b0 := State.reset; let b := b0;
      let b := ((b.set (JJL_CTRL.EN 0) 1).set SYS_CLKSTAT.SERPLL_LOCK 1).set (JJL_STAT.STATE 0) 2;
      let b := { b with jjl := vmod b.jjl 0 (fun j => { j with ctrl := 0x40000000#32 }) };
      { b with jjl := vmod b.jjl 0 (fun j => { j with bas := some { abn := 0x1FF, arr := 40, dep := -3 } }) }), by decide +kernel⟩⟩

theorem witness_EthernetCompletes :
    (∃ (s : State), s.dOn 25 = true ∧ s.bit ETH_CTRL.EN = true ∧ s.serLocked = true) ∧
    (∃ (s : State), s.dOn 25 = true ∧ s.bit ETH_STAT.LINK = true ∧ ((∀ x, vget s.qsc.sending 2 = some x → x.q < 64))) ∧
    (∃ (s : State), s.dOn 25 = true) ∧
    (∃ (s : State), s.ethUp = true) ∧
    (∃ (e : Fin 16) (s : State), s.reaches e ETH_MDIO.addr) ∧
    (∃ (w : Word) (s : State), s.eth.mdio = some w) :=
  ⟨
    ⟨(let b := State.reset; ((b.set ETH_CTRL.EN 1).set SYS_CLKSTAT.SERPLL_LOCK 1).set ETH_CTRL.MODE 0), by decide +kernel⟩,
    ⟨(let b := State.reset; b.set ETH_STAT.LINK 1), by decide +kernel⟩,
    ⟨(let b := State.reset; b), by decide +kernel⟩,
    ⟨(let b := State.reset; ((b.set ETH_CTRL.EN 1).set ETH_STAT.LINK 1).set ETH_ETYPE.TYPE 0x88B5), by decide +kernel⟩,
    ⟨(0), (let b := State.reset; b), by unfold State.reaches; decide +kernel⟩,
    ⟨(0x90000000#32 : Word), (let b := State.reset; { b with eth := { mdio := some 0x90000000#32 } }), by decide +kernel⟩⟩

theorem witness_TimeBaseAccessesComplete :
    (∃ (e : Fin 16) (s : State), s.reaches e TSU_SNAP.addr) ∧
    (∃ (e : Fin 16) (n : Fin 4) (s : State), s.reaches e (TSU_TBFRAC.addr n) ∧ aget s.sys.latched (TSU_TBFRAC.addr n) = none) ∧
    (∃ (e : Fin 16) (n : Fin 3) (v : Word) (s : State), s.reaches e (TSU_STEPCMD.addr n) ∧ v.getLsbD 0 = false ∧ fieldOf v 16 16 = 0xC6A0 ∧
      v.getLsbD 3 = false) ∧
    (∃ (e : Fin 16) (n : Fin 3) (v : Word) (s : State), s.reaches e (TSU_STEPCMD.addr n) ∧ v.getLsbD 0 = false ∧ v.getLsbD 2 = false) ∧
    (∃ (e : Fin 16) (n : Fin 3) (v : Word) (s : State), s.reaches e (TSU_STEPCMD.addr n) ∧ v.getLsbD 2 = false ∧ v.getLsbD 3 = false) ∧
    (∃ (n : Fin 3) (rel : Bool) (o : Nat) (s : State), s.tsu.stepDue = [(n.val, rel, o)] ∧ s.dOn 28 = true) :=
  ⟨
    ⟨(0), (let b := State.reset; b), by unfold State.reaches; decide +kernel⟩,
    ⟨(0), (0), (let b := State.reset; b), by unfold State.reaches; decide +kernel⟩,
    ⟨(0), (0), (0xC6A00006#32 : Word), (let b := State.reset; b), by unfold State.reaches; decide +kernel⟩,
    ⟨(0), (0), (0xC6A0000A#32 : Word), (let b := State.reset; b), by unfold State.reaches; decide +kernel⟩,
    ⟨(0), (0), (0xC6A00001#32 : Word), (let b := State.reset;
      (b.set TSU_STAT.ARM 7).set (TSU_STEPNS.NS 0) 999999999), by unfold State.reaches; decide +kernel⟩,
    ⟨(0), (true : Bool), (0x123456789 : Nat), (let b := State.reset;
      { b with tsu := { b.tsu with stepDue := [(0, true, 0x123456789)] } }), by decide +kernel⟩⟩

theorem witness_ServoCompletes :
    (∃ (src : OfsSource) (s : State), ((src = .lnk → s.followerSync = false)) ∧ ((∀ w, s.tsu.ofs = some w → w.clk ≠ s.clk))) ∧
    (∃ (s : State), s.bit TSU_STAT.HOLD = false) :=
  ⟨
    ⟨(.lnk : OfsSource), (let b := State.reset; b), by decide +kernel⟩,
    ⟨(let b := State.reset; b.set TSU_STAT.HOLD 0), by decide +kernel⟩⟩

theorem witness_SleepAndCalibrationComplete :
    (∃ (s : State), s.holdover = false ∧ s.bit SYS_CLKSTAT.SLOWOK = true ∧ s.dOn 28 = true) ∧
    (∃ (s : State), s.pwr.aoDown = false ∧ aget s.pwr.leaving 28 = none ∧ s.tsu.resetEdge = true) ∧
    (∃ (l : SleepLatch) (s : State), s.bit (PWR_DSTAT.OSCRDY 28) = true ∧ s.tsu.sleep = some l) ∧
    (∃ (s : State), s.dOn 28 = true) :=
  ⟨
    ⟨(let b := State.reset; (b.set SYS_CLKSTAT.HOLDOVER 0).set SYS_CLKSTAT.SLOWOK 1), by decide +kernel⟩,
    ⟨(let b := State.reset; { b with tsu := { b.tsu with resetEdge := true } }), by decide +kernel⟩,
    ⟨({ tb0 := 5, tb3 := 6, rate0 := 7#32, slcal := 0x1E848000#32, unc := 4#32, n := 1099511627775 } : SleepLatch),
      (let b := State.reset;
      { b.set (PWR_DSTAT.OSCRDY 28) 1 with tsu := { b.tsu with sleep := some { tb0 := 5, tb3 := 6, rate0 := 7#32, slcal := 0x1E848000#32, unc := 4#32, n := 1099511627775 } } }), by decide +kernel⟩,
    ⟨(let b := State.reset; (b.set (EVR_CHCTL.EN 63) 1).set (EVR_CHCFG.PRODUCER 63) 0x84), by decide +kernel⟩⟩

theorem witness_EngineControlCompletes :
    (∃ (e : Fin 16) (s : State), s.reaches e ENG_RUN.addr) ∧
    (∃ (n : Fin 16) (s : State), s.reaches n (ENG_KICK.addr n)) ∧
    (∃ (s : State), s.clusterOn = true) ∧
    (∃ (k : Takeover) (s : State), s.takeover = some k ∧ k.done = false ∧ k.spare < 16 ∧ k.failed < 16 ∧ s.dOn k.spare = true) :=
  ⟨
    ⟨(0), (let b := State.reset; b), by unfold State.reaches; decide +kernel⟩,
    ⟨(2), (let b := State.reset; b), by unfold State.reaches; decide +kernel⟩,
    ⟨(let b := State.reset; b), by decide +kernel⟩,
    ⟨({ failed := 0, spare := 2 } : Takeover), (let b := State.reset;
      { b with takeover := some { failed := 0, spare := 2 } }), by decide +kernel⟩⟩

theorem witness_MailboxesComplete :
    (∃ (n : Fin 16) (v : Word) (s : State), s.reaches n (ENG_TXDEST.addr n) ∧ (s.engOf n).txTo = none ∧ s.mailDest (fieldOf v 16 4) < 16) ∧
    (∃ (n : Fin 16) (d : Nat) (s : State), s.reaches n (ENG_TXDATA.addr n) ∧ (s.engOf n).txTo = some d ∧ d < 16 ∧ 0 < s.get
      (ENG_TXSTAT.LEFT n)) ∧
    (∃ (n : Fin 16) (s : State), s.reaches n (ENG_RXDATA.addr n) ∧ ((∀ m, s.mailWord n = some m → s.ecc.contains m = false))) ∧
    (∃ (n : Fin 16) (s : State), s.reaches n (ENG_RXSTAT.addr n)) :=
  ⟨
    ⟨(2), (0x00040000#32 : Word), (let b := State.reset; b), by unfold State.reaches; decide +kernel⟩,
    ⟨(2), (4), (let b := State.reset;
      (b.set (ENG_TXSTAT.LEFT 2) 1).modEng 2 (fun e => { e with txTo := some 4 }) |>.modEng 4 (fun e => { e with mbox := [{ sender := 1, len := 4, written := 4, words := [1,2,3,4] }, { sender := 2, len := 64, written := 63 }] })), by unfold State.reaches; decide +kernel⟩,
    ⟨(2), (let b := State.reset;
      b.modEng 2 (fun e => { e with mbox := [], lastRx := 7 })), by unfold State.reaches; decide +kernel⟩,
    ⟨(2), (let b := State.reset;
      (b.modEng 2 (fun e => { e with mbox := [], lastRx := 7 })).modEng 4 (fun e => { e with txTo := some 2 })), by unfold State.reaches; decide +kernel⟩⟩

theorem witness_EnginePacketsComplete :
    (∃ (n : Fin 16) (q : Nat) (p : Packet) (s : State) (u : State), s.reaches n (ENG_PKTGET.addr n) ∧ s.dOn 23 = true ∧ (s.engOf
      n).pkts.length < 16 ∧ (((s.setReg (ENG_PKTGET.addr n) 0).setReg (ENG_PKTST0.addr n) 0).setReg (ENG_PKTST1.addr n) 0).select 6
      { only := some ((((s.setReg (ENG_PKTGET.addr n) 0).setReg (ENG_PKTST0.addr n) 0).setReg (ENG_PKTST1.addr n) 0).o6Queues n) } (fun s q
      p => s.unlinkPkt q p.pid) = (u, some (q, p)) ∧ u.eccInPacket p = none) ∧
    (∃ (n : Fin 16) (v : Word) (p : HeldPkt) (s : State), s.reaches n (ENG_PKTDONE.addr n) ∧ fieldOf v 31 1 = 1 ∧ (s.engOf n).pkts.find?
      (fun p => p.cells.head? = some (fieldOf v 16 14)) = some p ∧ p.q < 64) ∧
    (∃ (n : Fin 16) (c : Nat) (l : List Nat) (s : State), s.reaches n (ENG_ALLOC.addr n) ∧ s.dOn 23 = true ∧ s.bufferOk 6 false 1 = true ∧
      (s.engOf n).alloc.length < 64 ∧ s.pickFree 1 = c :: l) ∧
    (∃ (n : Fin 16) (v : Word) (s : State), s.reaches n (ENG_LINK.addr n) ∧ s.holdsCell n (fieldOf v 0 14) = true ∧ s.holdsCell n (fieldOf
      v 16 14) = true) ∧
    (∃ (n : Fin 16) (s : State), s.reaches n (ENG_LINK.addr n)) ∧
    (∃ (n : Fin 16) (v : Word) (s : State), s.reaches n (ENG_FREE.addr n) ∧ fieldOf v 31 1 = 1 ∧ (s.engOf n).alloc.contains (fieldOf v 16
      14) = true) ∧
    (∃ (n : Fin 16) (v : Word) (p : HeldPkt) (cs : List Nat) (s : State), s.reaches n (ENG_SUBMIT.addr n) ∧ s.dOn 23 = true ∧ s.bit
      (ENG_SUBSTAT.BUSY n) = false ∧ fieldOf v 0 12 ≠ 0 ∧ cs = followLinks s.links (s.holdsCell n) (cellsFor (fieldOf v 0 12)) (fieldOf v
      16 14) ∧ cellsFor (fieldOf v 0 12) ≤ cs.length ∧ cs.Nodup ∧ (s.engOf n).pkts.find? (fun p => p.cells.take (cellsFor (fieldOf v 0 12))
      = cs) = some p) ∧
    (∃ (n : Fin 16) (v : Word) (cs : List Nat) (s : State), s.reaches n (ENG_SUBMIT.addr n) ∧ s.dOn 23 = true ∧ s.bit (ENG_SUBSTAT.BUSY n)
      = false ∧ fieldOf v 0 12 ≠ 0 ∧ cs = followLinks s.links (s.holdsCell n) (cellsFor (fieldOf v 0 12)) (fieldOf v 16 14) ∧ cellsFor
      (fieldOf v 0 12) ≤ cs.length ∧ cs.Nodup ∧ ((∀ p ∈ (s.engOf n).pkts, p.cells ≠ [] ∧ ∀ c ∈ p.cells, c ∉ cs))) :=
  ⟨
    ⟨(2), (9), (let b := State.reset;
      let s : State := let b := ((b.set QSC_CTRL.EN 1).setReg (QSC_QCFG.addr 9) 0#32).setReg (ENG_O6MAP.addr 2) 0x00008200#32;
      let b := (List.range 64).foldl (fun (b : State) q => b.setReg (QSC_QCFG.addr q) 0#32) b;
      { b with qsc := { b.qsc with en := true, alloc := [1], refs := [(1,1)], queues := vmod b.qsc.queues 9 (fun (q : Queue) => { q with outlet := 6, cfg := 0x80000000#32, pkts := [{ pid := 1, nbr := 3, len := 40, cells := [1], buf := 1, abn16 := 77 }] }) } };
      let q : Nat := 9;
      (((s.setReg (ENG_PKTGET.addr 2) 0).setReg (ENG_PKTST0.addr 2) 0).setReg (ENG_PKTST1.addr 2) 0).select 6 { only := some ((((s.setReg (ENG_PKTGET.addr 2) 0).setReg (ENG_PKTST0.addr 2) 0).setReg (ENG_PKTST1.addr 2) 0).o6Queues 2) } (fun s q p => s.unlinkPkt q p.pid) |>.2 |>.map (·.2) |>.getD {}),
      (let b := State.reset;
      let b := ((b.set QSC_CTRL.EN 1).setReg (QSC_QCFG.addr 9) 0#32).setReg (ENG_O6MAP.addr 2) 0x00008200#32;
      let b := (List.range 64).foldl (fun (b : State) q => b.setReg (QSC_QCFG.addr q) 0#32) b;
      { b with qsc := { b.qsc with en := true, alloc := [1], refs := [(1,1)], queues := vmod b.qsc.queues 9 (fun (q : Queue) => { q with outlet := 6, cfg := 0x80000000#32, pkts := [{ pid := 1, nbr := 3, len := 40, cells := [1], buf := 1, abn16 := 77 }] }) } }),
      (let b := State.reset;
      let s : State := let b := ((b.set QSC_CTRL.EN 1).setReg (QSC_QCFG.addr 9) 0#32).setReg (ENG_O6MAP.addr 2) 0x00008200#32;
      let b := (List.range 64).foldl (fun (b : State) q => b.setReg (QSC_QCFG.addr q) 0#32) b;
      { b with qsc := { b.qsc with en := true, alloc := [1], refs := [(1,1)], queues := vmod b.qsc.queues 9 (fun (q : Queue) => { q with outlet := 6, cfg := 0x80000000#32, pkts := [{ pid := 1, nbr := 3, len := 40, cells := [1], buf := 1, abn16 := 77 }] }) } };
      let q : Nat := 9;
      let p : Packet := (((s.setReg (ENG_PKTGET.addr 2) 0).setReg (ENG_PKTST0.addr 2) 0).setReg (ENG_PKTST1.addr 2) 0).select 6 { only := some ((((s.setReg (ENG_PKTGET.addr 2) 0).setReg (ENG_PKTST0.addr 2) 0).setReg (ENG_PKTST1.addr 2) 0).o6Queues 2) } (fun s q p => s.unlinkPkt q p.pid) |>.2 |>.map (·.2) |>.getD {};
      (((s.setReg (ENG_PKTGET.addr 2) 0).setReg (ENG_PKTST0.addr 2) 0).setReg (ENG_PKTST1.addr 2) 0).select 6 { only := some ((((s.setReg (ENG_PKTGET.addr 2) 0).setReg (ENG_PKTST0.addr 2) 0).setReg (ENG_PKTST1.addr 2) 0).o6Queues 2) } (fun s q p => s.unlinkPkt q p.pid) |>.1), by unfold State.reaches; decide +kernel⟩,
    ⟨(2), (0x80050000#32 : Word), ({ cells := [5, 6], buf := 3, len := 400, q := 63, outlet := 6 } : HeldPkt),
      (let b := State.reset; let b := { b with qsc := { b.qsc with alloc := [5,6,7], refs := [(3,1)] } };
      let b := b.modEng 2 (fun e => { e with pkts := [{ cells := [7], buf := 4, len := 4, q := 1, outlet := 6 }, { cells := [5, 6], buf := 3, len := 400, q := 63, outlet := 6 }], alloc := [8, 9] });
      b), by unfold State.reaches; decide +kernel⟩,
    ⟨(2), (let b := State.reset; (b.pickFree 1).headD 0), (let b := State.reset; (b.pickFree 1).tail), (let b := State.reset;
      b), by unfold State.reaches; decide +kernel⟩,
    ⟨(2), (0x00080009#32 : Word), (let b := State.reset;
      let b := { b with qsc := { b.qsc with alloc := [5,6,7], refs := [(3,1)] } };
      let b := b.modEng 2 (fun e => { e with pkts := [{ cells := [7], buf := 4, len := 4, q := 1, outlet := 6 }, { cells := [5, 6], buf := 3, len := 400, q := 63, outlet := 6 }], alloc := [8, 9] });
      b), by unfold State.reaches; decide +kernel⟩,
    ⟨(2), (let b := State.reset; let b := { b with qsc := { b.qsc with alloc := [5,6,7], refs := [(3,1)] } };
      let b := b.modEng 2 (fun e => { e with pkts := [{ cells := [7], buf := 4, len := 4, q := 1, outlet := 6 }, { cells := [5, 6], buf := 3, len := 400, q := 63, outlet := 6 }], alloc := [8, 9] });
      b), by unfold State.reaches; decide +kernel⟩,
    ⟨(2), (0x80080000#32 : Word), (let b := State.reset;
      let b := { b with qsc := { b.qsc with alloc := [5,6,7], refs := [(3,1)] } };
      let b := b.modEng 2 (fun e => { e with pkts := [{ cells := [7], buf := 4, len := 4, q := 1, outlet := 6 }, { cells := [5, 6], buf := 3, len := 400, q := 63, outlet := 6 }], alloc := [8, 9] });
      b), by unfold State.reaches; decide +kernel⟩,
    ⟨(2), (0x00050001#32 : Word), ({ cells := [5, 6], buf := 3, len := 400, q := 63, outlet := 6 } : HeldPkt),
      (let b := State.reset; let s : State := let b := { b with qsc := { b.qsc with alloc := [5,6,7], refs := [(3,1)] } };
      let b := b.modEng 2 (fun e => { e with pkts := [{ cells := [7], buf := 4, len := 4, q := 1, outlet := 6 }, { cells := [5, 6], buf := 3, len := 400, q := 63, outlet := 6 }], alloc := [8, 9] });
      { b.set (ENG_SUBSTAT.BUSY 2) 0 with links := [(5,6)] };
      followLinks s.links (s.holdsCell 2) (cellsFor (fieldOf 0x00050001#32 0 12)) (fieldOf 0x00050001#32 16 14)),
      (let b := State.reset; let b := { b with qsc := { b.qsc with alloc := [5,6,7], refs := [(3,1)] } };
      let b := b.modEng 2 (fun e => { e with pkts := [{ cells := [7], buf := 4, len := 4, q := 1, outlet := 6 }, { cells := [5, 6], buf := 3, len := 400, q := 63, outlet := 6 }], alloc := [8, 9] });
      { b.set (ENG_SUBSTAT.BUSY 2) 0 with links := [(5,6)] }), by unfold State.reaches; decide +kernel⟩,
    ⟨(2), (0x00080001#32 : Word), (let b := State.reset;
      let s : State := let b := { b with qsc := { b.qsc with alloc := [5,6,7], refs := [(3,1)] } };
      let b := b.modEng 2 (fun e => { e with pkts := [{ cells := [7], buf := 4, len := 4, q := 1, outlet := 6 }, { cells := [5, 6], buf := 3, len := 400, q := 63, outlet := 6 }], alloc := [8, 9] });
      { b.set (ENG_SUBSTAT.BUSY 2) 0 with links := [(8,9)] };
      followLinks s.links (s.holdsCell 2) (cellsFor (fieldOf 0x00080001#32 0 12)) (fieldOf 0x00080001#32 16 14)),
      (let b := State.reset; let b := { b with qsc := { b.qsc with alloc := [5,6,7], refs := [(3,1)] } };
      let b := b.modEng 2 (fun e => { e with pkts := [{ cells := [7], buf := 4, len := 4, q := 1, outlet := 6 }, { cells := [5, 6], buf := 3, len := 400, q := 63, outlet := 6 }], alloc := [8, 9] });
      { b.set (ENG_SUBSTAT.BUSY 2) 0 with links := [(8,9)] }), by unfold State.reaches; decide +kernel⟩⟩

theorem witness_BundleIssueCompletes :
    (∃ (n : Fin 16) (w : Word) (s : State), s.issuesOne n w) ∧
    (∃ (n : Fin 16) (w : Word) (s : State), s.issuesOne n w ∧ sylUnit w ≤ 1 ∧ sylD w = 31 ∧ (s.engOf n).cpu.flag 1 = false) ∧
    (∃ (n : Fin 16) (w : Word) (s : State), s.issuesOne n w ∧ sylUnit w = 2 ∧ sylOp w = 0x14 ∧ (s.engOf n).cpu.flag 1 = false) ∧
    (∃ (n : Fin 16) (w : Word) (s : State), s.issuesOne n w ∧ sylUnit w = 2 ∧ 0x10 ≤ sylOp w ∧ sylOp w ≤ 0x13) ∧
    (∃ (n : Fin 16) (w : Word) (s : State), s.issuesOne n w ∧ sylUnit w = 4 ∧ 8 ≤ sylOp w ∧ branchTarget (s.engOf n).cpu.pc w &&& 3#32 =
      0#32) ∧
    (∃ (n : Fin 16) (w : Word) (s : State), s.issuesOne n w ∧ sylUnit w = 4 ∧ sylOp w = 1 ∧ branchTarget (s.engOf n).cpu.pc w &&& 3#32 =
      0#32 ∧ (s.engOf n).cpu.rstack.length < 16) ∧
    (∃ (n : Fin 16) (w : Word) (s : State), s.issuesOne n w ∧ sylUnit w = 4 ∧ sylOp w = 4 ∧ (s.engOf n).cpu.rstack = [0x40#32]) ∧
    (∃ (n : Fin 16) (w : Word) (s : State), s.issuesOne n w ∧ sylUnit w = 5 ∧ sylOp w = 1 ∧ sylImm w = 0x18) ∧
    (∃ (n : Fin 16) (w : Word) (s : State), s.issuesOne n w ∧ sylUnit w = 5 ∧ sylOp w = 5) ∧
    (∃ (n : Fin 16) (w : Word) (s : State), s.issuesOne n w ∧ sylUnit w = 5 ∧ sylOp w = 4 ∧ (s.engOf n).cpu.flag 8 = true ∧ fieldOf
      (s.engOf n).cpu.estat 9 1 = 0) :=
  ⟨
    ⟨(2), (0x80121100#32 : Word), (let b := State.reset;
      runs b 2 256 [0x80121100#32] [(1, 0x7FFFFFFF#32), (2, 1#32), (3, 0x80000000#32), (4, 0xFFFFFFFF#32), (5, 0#32), (6, 0x400#32), (7, 33#32), (8, 31#32)] 0#32 |>.modCpu 2 (fun c => { c with rstack := [0x40, 0x44], epc := 0x88, estat := 0x123#32, scr0 := 9 })), by unfold State.issuesOne; decide +kernel⟩,
    ⟨2, 0x803E1100#32, (runs State.reset 2 256 [0x803E1100#32] [(1, 7), (2, 5)]), by unfold State.issuesOne; decide +kernel⟩,
    ⟨2, 0xA512003F#32, (runs State.reset 2 256 [0xA512003F#32] [(1, 7), (2, 5)]), by unfold State.issuesOne; decide +kernel⟩,
    ⟨2, 0xA4C01100#32, (runs State.reset 2 256 [0xA4C01100#32] [(1, 7), (2, 5)]), by unfold State.issuesOne; decide +kernel⟩,
    ⟨2, 0xC3C22FFF#32, (runs State.reset 2 256 [0xC3C22FFF#32] [(1, 7), (2, 5)]), by unfold State.issuesOne; decide +kernel⟩,
    ⟨2, 0xC07FFFFF#32, (runs State.reset 2 256 [0xC07FFFFF#32] [(1, 7), (2, 5)]), by unfold State.issuesOne; decide +kernel⟩,
    ⟨2, 0xC1000000#32, (runs State.reset 2 256 [0xC1000000#32] [(1, 7), (2, 5)] |>.modCpu 2 (fun c => { c with rstack := [0x40] })), by unfold State.issuesOne; decide +kernel⟩,
    ⟨2, 0xD0401018#32, (runs State.reset 2 256 [0xD0401018#32] [(1, 7), (2, 5)]), by unfold State.issuesOne; decide +kernel⟩,
    ⟨2, 0xD1400000#32, (runs State.reset 2 256 [0xD1400000#32] [(1, 7), (2, 5)]), by unfold State.issuesOne; decide +kernel⟩,
    ⟨2, 0xD1000000#32, (runs State.reset 2 256 [0xD1000000#32] [(1, 7), (2, 5)] |>.modCpu 2 (fun c => { c with status := 0x100 })), by unfold State.issuesOne; decide +kernel⟩⟩

theorem witness_LocalAccessCompletes :
    (∃ (n : Fin 16) (w : Word) (off : Nat) (s : State), s.issuesOne n w ∧ sylUnit w = 3 ∧ s.dOn n = true ∧ regionOf (memAddr (s.engOf
      n).cpu w) = .dmem off ∧ memAddr (s.engOf n).cpu w % memSize (sylOp w) = 0 ∧ s.eccBad n (memAddr (s.engOf n).cpu w) (memSize (sylOp
      w)) = none) ∧
    (∃ (n : Fin 16) (w : Word) (off : Nat) (s : State), s.issuesOne n w ∧ sylUnit w = 3 ∧ s.dOn n = true ∧ regionOf (memAddr (s.engOf
      n).cpu w) = .dmem off ∧ memAddr (s.engOf n).cpu w % memSize (sylOp w) = 0 ∧ s.eccBad n (memAddr (s.engOf n).cpu w) (memSize (sylOp
      w)) = none ∧ sylOp w ≤ 5) ∧
    (∃ (n : Fin 16) (w : Word) (off : Nat) (s : State), s.issuesOne n w ∧ sylUnit w = 3 ∧ s.dOn n = true ∧ regionOf (memAddr (s.engOf
      n).cpu w) = .dmem off ∧ memAddr (s.engOf n).cpu w % memSize (sylOp w) = 0 ∧ s.eccBad n (memAddr (s.engOf n).cpu w) (memSize (sylOp
      w)) = none ∧ 8 ≤ sylOp w ∧ sylOp w < 0x10) ∧
    (∃ (n : Fin 16) (w : Word) (off : Nat) (s : State), s.issuesOne n w ∧ sylUnit w = 3 ∧ s.dOn n = true ∧ regionOf (memAddr (s.engOf
      n).cpu w) = .dmem off ∧ memAddr (s.engOf n).cpu w % memSize (sylOp w) = 0 ∧ s.eccBad n (memAddr (s.engOf n).cpu w) (memSize (sylOp
      w)) = none ∧ 0x10 ≤ sylOp w) :=
  ⟨
    ⟨(2), (0xB0126000#32 : Word), (0x0 : Nat), (let b := State.reset;
      let b := runs b 2 64 [0xB0126000#32] [(1, 0x7FFFFFFF#32), (6, 0x10000#32), (9, 0xFEDCBA98#32)];
      putw b (2 * 0x20000 + 0x10000) 0xFEDCBA98#32), by unfold State.issuesOne; decide +kernel⟩,
    ⟨2, 0xB0126000#32, 0xFFFC, (runs State.reset 2 256 [0xB0126000#32] [(6, 0x1FFFC)]), by unfold State.issuesOne; decide +kernel⟩,
    ⟨2, 0xB2926000#32, 0xFFFC, (runs State.reset 2 256 [0xB2926000#32] [(6, 0x1FFFC)]), by unfold State.issuesOne; decide +kernel⟩,
    ⟨2, 0xB4926380#32, 0xFFFC, (runs State.reset 2 256 [0xB4926380#32] [(6, 0x1FFFC)]), by unfold State.issuesOne; decide +kernel⟩⟩

theorem witness_ExceptionEntryCompletes :
    (∃ (n : Fin 16) (w : Word) (s : State), s.estate n = stRun ∧ (s.engOf n).stalled = none ∧ s.irqTakable n = false ∧ s.fetchBundle n
      (s.engOf n).cpu.pc = .inr ⟨[w], true⟩ ∧ (s.engOf n).cpu.flag 9 = false ∧ ((legalSyl w = false ∨ (legalSyl w = true ∧ sylUnit w = 5 ∧
      sylOp w = 7)))) ∧
    (∃ (n : Fin 16) (s : State), s.estate n = stRun ∧ (s.engOf n).stalled = none ∧ s.irqTakable n = true) ∧
    (∃ (n : Fin 16) (s : State), s.estate n = stWait ∧ s.irqPending n ≠ 0#32) :=
  ⟨
    ⟨(2), (0xE0000000#32 : Word), (let b := State.reset;
      runs b 2 64 [0xE0000000#32] [(1, 0x7FFFFFFF#32), (2, 1#32), (3, 0x80000000#32), (4, 0xFFFFFFFF#32), (5, 0#32), (6, 0x400#32), (7, 33#32), (8, 31#32)] 0#32), by decide +kernel⟩,
    ⟨(2), (let b := State.reset; let b := runs b 2 64 [] [] 0x1#32; let b := (b.set (ENG_IRQSTAT.WDWARN 2) 1);
      let b := b.modCpu 2 (fun c => { c with imask := 0xFFFFFFFF#32 }); b), by decide +kernel⟩,
    ⟨(2), (let b := State.reset; let b := runs b 2 64 [] [] 0x1#32; let b := (b.set (ENG_IRQSTAT.WDWARN 2) 1);
      let b := b.modCpu 2 (fun c => { c with imask := 0xFFFFFFFF#32 }); b.set (ENG_ESTAT.STATE 2) stWait), by decide +kernel⟩⟩

theorem witness_DebuggerCompletes :
    (∃ (n : Fin 16) (s : State), s.dbgOpen n = true ∧ ((s.estate n = stRun ∨ s.estate n = stWait))) ∧
    (∃ (n : Fin 16) (s : State), s.dbgOpen n = true ∧ s.dOn n = true) ∧
    (∃ (n : Fin 16) (w : Word) (s : State), s.dbgOpen n = true ∧ s.estate n = stHalted ∧ (s.engOf n).stalled = none ∧ s.fetchBundle n
      (s.engOf n).cpu.pc = .inr ⟨[w], true⟩ ∧ legalSyl w = true ∧ (s.engOf n).cpu.flag 9 = false ∧ sylUnit w ≤ 1 ∧ (s.engOf n).cpu.flag 1 =
      false) ∧
    (∃ (n : Fin 16) (s : State), s.estate n = stHalted ∧ (s.engOf n).resume < 8) :=
  ⟨
    ⟨(2), (let b := State.reset; b.set (ENG_ESTAT.STATE 2) stRun), by decide +kernel⟩,
    ⟨(0), (let b := State.reset; b), by decide +kernel⟩,
    ⟨(2), (0x80121100#32 : Word), (let b := State.reset;
      (runs b 2 0x100 [0x80121100#32] [(1, 0x7FFFFFFF#32), (2, 1#32), (3, 0x80000000#32), (4, 0xFFFFFFFF#32), (5, 0#32), (6, 0x400#32), (7, 33#32), (8, 31#32)]).set (ENG_ESTAT.STATE 2) stHalted), by decide +kernel⟩,
    ⟨(3), (let b := State.reset;
      (b.modEng 3 (fun e => { e with resume := 0 })).set (ENG_ESTAT.STATE 3) stHalted), by decide +kernel⟩⟩

theorem witness_CipherCompletes :
    (∃ (e : Fin 16) (n : Fin 64) (s : State), s.reaches e (AES_CMD.addr n)) ∧
    (∃ (j : AesJob) (l : List AesJob) (s : State), s.dOn 24 = true ∧ s.sec.aes = j :: l ∧ j.n < 64) ∧
    (∃ (l : List Bool) (s : State), s.dOn 24 = true ∧ rctFails l = false ∧ aptFails l = false) ∧
    (∃ (l : List Bool) (s : State), s.dOn 24 = true ∧ (rctFails l || aptFails l) = true) ∧
    (∃ (l : List Bool) (s : State), s.dOn 24 = true ∧ s.get KEY_RNGSTAT.STATE = 0 ∧ rctFails l = false ∧ aptFails l = false ∧ l.length <
      1024) ∧
    (∃ (l : List Bool) (s : State), s.dOn 24 = true ∧ s.get KEY_RNGSTAT.STATE = 0 ∧ rctFails l = false ∧ aptFails l = false ∧ 1024 ≤
      l.length) ∧
    (∃ (e : Fin 16) (s : State), s.reaches e KEY_RNG.addr) ∧
    (∃ (e : Fin 16) (s : State), s.reaches e KEY_RNGCTL.addr) :=
  ⟨
    ⟨(2), (0), (let b := State.reset;
      { b.set (AES_STATn.BUSY 0) 0 with sec := { b.sec with aes := [] } }), by unfold State.reaches; decide +kernel⟩,
    ⟨({ n := 0, op := 1, last := true, fail := none, started := true, cfg := 0x00010001#32, src := 0x10000100, dst := 0x10000200, lens := 0x00100010#32, key := List.replicate 16 3 } : AesJob), ([] : List AesJob),
      (let b := State.reset;
      { b with sec := { b.sec with aes := [{ n := 0, op := 1, last := true, fail := none, started := true, cfg := 0x00010001#32, src := 0x10000100, dst := 0x10000200, lens := 0x00100010#32, key := List.replicate 16 3 }] } }), by decide +kernel⟩,
    ⟨(List.replicate 40 false : List Bool), (let b := State.reset; b.set KEY_RNGSTAT.STATE 0), by decide +kernel⟩,
    ⟨(List.replicate 41 true : List Bool), (let b := State.reset; b.set KEY_RNGSTAT.STATE 0), by decide +kernel⟩,
    ⟨(List.replicate 40 false : List Bool), (let b := State.reset; b.set KEY_RNGSTAT.STATE 0), by decide +kernel⟩,
    ⟨((List.range 1024).map (fun i => decide (i % 2 = 0)) : List Bool), (let b := State.reset;
      b.set KEY_RNGSTAT.STATE 0), by decide +kernel⟩,
    ⟨(2), (let b := State.reset; b.set KEY_RNGSTAT.STATE 0), by unfold State.reaches; decide +kernel⟩,
    ⟨(2), (let b := State.reset; b.set KEY_RNGSTAT.STATE 0), by unfold State.reaches; decide +kernel⟩⟩

theorem witness_KeysComplete :
    (∃ (e : Fin 16) (s : State), s.reaches e KEY_CMD.addr ∧ s.bit KEY_STAT.BUSY = false) ∧
    (∃ (c : KeyJob) (s : State) (f : Nat), s.dOn 24 = true ∧ s.sec.cmd = some c ∧ c.slot < 256 ∧ c.fail = some f ∧ f < 16) ∧
    (∃ (c : KeyJob) (s : State), s.dOn 24 = true ∧ s.sec.cmd = some c ∧ c.slot < 256 ∧ c.fail = none ∧ c.op = 2 ∧ c.limit < 2 ^ 32) ∧
    (∃ (c : KeyJob) (s : State), s.dOn 24 = true ∧ s.sec.cmd = some c ∧ c.slot < 256 ∧ c.fail = none ∧ c.op = 7 ∧ s.slotBusy c.slot = false) ∧
    (∃ (e : Fin 16) (v : Word) (s : State), s.reaches e KEY_LCCMD.addr ∧ fieldOf v 16 16 = 0xC6A0) ∧
    (∃ (m : Nat) (s : State), s.dOn 24 = true ∧ s.sec.lcMove = some m ∧ m < 4 ∧ m = 1 ∧ s.rngReady = false) ∧
    (∃ (m : Nat) (s : State), s.dOn 24 = true ∧ s.sec.lcMove = some m ∧ m < 4 ∧ ((m = 1 → s.rngReady = true))) ∧
    (∃ (s : State), s.dOn 24 = true ∧ s.bit PWR_STAT.PFW = false) ∧
    (∃ (b : List Byte) (s : State), s.dOn 24 = true ∧ s.sec.token = some b ∧ s.sec.pkaRun ≠ some 0) :=
  ⟨
    ⟨(2), (let b := State.reset;
      { (b.set KEY_STAT.BUSY 0).set KEY_STAT.LCBUSY 0 with sec := { b.sec with lc := 0 } }), by unfold State.reaches; decide +kernel⟩,
    ⟨({ op := 1, slot := 255, wslot := 0, attr := 0x22000003#32, limit := 5, addr := 0, data := [], fail := some 0 } : KeyJob),
      (let b := State.reset;
      { b with sec := { b.sec with cmd := some ({ op := 1, slot := 255, wslot := 0, attr := 0x22000003#32, limit := 5, addr := 0, data := [], fail := some 0 }) } }), (0), by decide +kernel⟩,
    ⟨({ op := 2, slot := 0, wslot := 0, attr := 0x22000003#32, limit := 5, addr := 0, data := List.replicate 48 0xA5#8 } : KeyJob),
      (let b := State.reset;
      { b with sec := { b.sec with cmd := some ({ op := 2, slot := 0, wslot := 0, attr := 0x22000003#32, limit := 5, addr := 0, data := List.replicate 48 0xA5#8 }) } }), by decide +kernel⟩,
    ⟨({ op := 7, slot := 0, wslot := 0, attr := 0x22000003#32, limit := 5, addr := 0, data := [] } : KeyJob),
      (let b := State.reset;
      { b with sec := { b.sec with cmd := some ({ op := 7, slot := 0, wslot := 0, attr := 0x22000003#32, limit := 5, addr := 0, data := [] }), keys := [(0, [1,2,3])] } }), by decide +kernel⟩,
    ⟨(2), (0xC6A00000#32 : Word), (let b := State.reset;
      let b := ((b.set KEY_STAT.LCBUSY 0).set PWR_STAT.PFW 0).set GLZ_STAT.SEALED 0;
      let b := (List.range 24).foldl (fun (b : State) i => b.setReg (KEY_ROOT.addr i) 7#32) b;
      { b with sec := { b.sec with lc := 0 } }), by unfold State.reaches; decide +kernel⟩,
    ⟨(1), (let b := State.reset; { b.set KEY_RNGSTAT.STATE 0 with sec := { b.sec with lcMove := some 1 } }), by decide +kernel⟩,
    ⟨(0), (let b := State.reset;
      { (b.set KEY_STAT.LCBUSY 1).set KEY_RNGSTAT.STATE 1 with sec := { b.sec with lcMove := some 0, keys := [(0,[1]),(255,[2]),(17,[3])] } }), by decide +kernel⟩,
    ⟨(let b0 := State.reset; b0.set PWR_STAT.PFW 0), by decide +kernel⟩,
    ⟨([] : List Byte), (let b0 := State.reset; { b0 with sec := { b0.sec with token := some ([]) } }), by decide +kernel⟩⟩

theorem witness_SignatureJobsComplete :
    (∃ (e : Fin 16) (c : Fin 2) (s : State), s.reaches e (PKA_OP.addr c) ∧ s.bit (PKA_STAT.BUSY c) = false) ∧
    (∃ (c : Fin 2) (j : PkaJob) (s : State), s.dOn 24 = true ∧ s.sec.pkaRun = some c.val ∧ s.sec.keyRun = false ∧ (vget s.sec.pka c).job =
      some j) :=
  ⟨
    ⟨(2), (0), (let b := State.reset;
      { b.set (PKA_STAT.BUSY 0) 0 with sec := { b.sec with pkaRun := none, pkaLast := 0 } }), by unfold State.reaches; decide +kernel⟩,
    ⟨(0), ({ op := 0, first := true, last := true, src := 0x12000000, len := 64, key := 0x12000100, sig := 0x12000200, dst := 0x12000300, eng := 0 } : PkaJob),
      (let b := State.reset;
      { b with sec := { b.sec with lc := 0, pkaRun := some 0, pka := vmod b.sec.pka 0 (fun _ => { job := some ({ op := 0, first := true, last := true, src := 0x12000000, len := 64, key := 0x12000100, sig := 0x12000200, dst := 0x12000300, eng := 0 }), hop := 1, msg := [1] }) } }), by decide +kernel⟩⟩

theorem witness_BootAndUpdateComplete :
    (∃ (s : State), s.bootReady = true ∧ s.upd.cold = false ∧ s.estate 0 = stRun ∧ s.get UPD_STAT.STATE = 0 ∧ s.bootRec.trial = 0) ∧
    (∃ (e : Fin 16) (s : State), s.reaches e UPD_COMMIT.addr) ∧
    (∃ (e : Fin 16) (v : Word) (s : State), s.reaches e UPD_CMD.addr ∧ fieldOf v 16 16 = 0xC6A0 ∧ s.bit UPD_STAT.BUSY = true) ∧
    (∃ (e : Fin 16) (v : Word) (s : State), s.reaches e UPD_CMD.addr ∧ fieldOf v 16 16 = 0xC6A0 ∧ s.bit UPD_STAT.BUSY = false ∧ s.bit
      PWR_STAT.PFW = false ∧ s.rescue = false ∧ updAllowed ((Instr.updBegin e v, 1)).2 (s.get UPD_STAT.STATE) = true ∧ ((((Instr.updBegin e
      v, 1)).2 = 1 → s.get UPD_MTOTAL.N ≠ 0 ∧ s.get UPD_MTOTAL.N ≤ 16256)) ∧ ((((Instr.updBegin e v, 1)).2 = 4 → 2 ≤ wrapDiff 40 (s.get
      UPD_ACTLO.ABN + 2 ^ 32 * s.get UPD_ACTHI.ABN) s.abn))) ∧
    (∃ (e : Fin 16) (v : Word) (s : State), s.reaches e UPD_CMD.addr ∧ fieldOf v 16 16 = 0xC6A0 ∧ s.bit UPD_STAT.BUSY = false ∧ s.bit
      PWR_STAT.PFW = false ∧ s.rescue = false ∧ updAllowed ((Instr.updMorsel e v, 2)).2 (s.get UPD_STAT.STATE) = true ∧ ((((Instr.updMorsel
      e v, 2)).2 = 1 → s.get UPD_MTOTAL.N ≠ 0 ∧ s.get UPD_MTOTAL.N ≤ 16256)) ∧ ((((Instr.updMorsel e v, 2)).2 = 4 → 2 ≤ wrapDiff 40 (s.get
      UPD_ACTLO.ABN + 2 ^ 32 * s.get UPD_ACTHI.ABN) s.abn))) ∧
    (∃ (e : Fin 16) (v : Word) (s : State), s.reaches e UPD_CMD.addr ∧ fieldOf v 16 16 = 0xC6A0 ∧ s.bit UPD_STAT.BUSY = false ∧ s.bit
      PWR_STAT.PFW = false ∧ s.rescue = false ∧ updAllowed ((Instr.updVerify e v, 3)).2 (s.get UPD_STAT.STATE) = true ∧ ((((Instr.updVerify
      e v, 3)).2 = 1 → s.get UPD_MTOTAL.N ≠ 0 ∧ s.get UPD_MTOTAL.N ≤ 16256)) ∧ ((((Instr.updVerify e v, 3)).2 = 4 → 2 ≤ wrapDiff 40 (s.get
      UPD_ACTLO.ABN + 2 ^ 32 * s.get UPD_ACTHI.ABN) s.abn))) ∧
    (∃ (e : Fin 16) (v : Word) (s : State), s.reaches e UPD_CMD.addr ∧ fieldOf v 16 16 = 0xC6A0 ∧ s.bit UPD_STAT.BUSY = false ∧ s.bit
      PWR_STAT.PFW = false ∧ s.rescue = false ∧ updAllowed ((Instr.updActivate e v, 4)).2 (s.get UPD_STAT.STATE) = true ∧
      ((((Instr.updActivate e v, 4)).2 = 1 → s.get UPD_MTOTAL.N ≠ 0 ∧ s.get UPD_MTOTAL.N ≤ 16256)) ∧ ((((Instr.updActivate e v, 4)).2 = 4 →
      2 ≤ wrapDiff 40 (s.get UPD_ACTLO.ABN + 2 ^ 32 * s.get UPD_ACTHI.ABN) s.abn))) ∧
    (∃ (e : Fin 16) (v : Word) (s : State), s.reaches e UPD_CMD.addr ∧ fieldOf v 16 16 = 0xC6A0 ∧ s.bit UPD_STAT.BUSY = false ∧ s.bit
      PWR_STAT.PFW = false ∧ s.rescue = false ∧ updAllowed ((Instr.updCancel e v, 5)).2 (s.get UPD_STAT.STATE) = true ∧ ((((Instr.updCancel
      e v, 5)).2 = 1 → s.get UPD_MTOTAL.N ≠ 0 ∧ s.get UPD_MTOTAL.N ≤ 16256)) ∧ ((((Instr.updCancel e v, 5)).2 = 4 → 2 ≤ wrapDiff 40 (s.get
      UPD_ACTLO.ABN + 2 ^ 32 * s.get UPD_ACTHI.ABN) s.abn))) ∧
    (∃ (e : Fin 16) (v : Word) (s : State), s.reaches e UPD_CMD.addr ∧ fieldOf v 16 16 = 0xC6A0 ∧ s.bit UPD_STAT.BUSY = false ∧ s.bit
      PWR_STAT.PFW = false ∧ s.rescue = false ∧ updAllowed ((Instr.updConfirm e v, 6)).2 (s.get UPD_STAT.STATE) = true ∧
      ((((Instr.updConfirm e v, 6)).2 = 1 → s.get UPD_MTOTAL.N ≠ 0 ∧ s.get UPD_MTOTAL.N ≤ 16256)) ∧ ((((Instr.updConfirm e v, 6)).2 = 4 → 2
      ≤ wrapDiff 40 (s.get UPD_ACTLO.ABN + 2 ^ 32 * s.get UPD_ACTHI.ABN) s.abn))) ∧
    (∃ (e : Fin 16) (v : Word) (s : State), s.reaches e UPD_CMD.addr ∧ fieldOf v 16 16 = 0xC6A0 ∧ s.bit UPD_STAT.BUSY = false ∧ s.bit
      PWR_STAT.PFW = false ∧ s.rescue = false ∧ updAllowed ((Instr.updSaveset e v, 7)).2 (s.get UPD_STAT.STATE) = true ∧
      ((((Instr.updSaveset e v, 7)).2 = 1 → s.get UPD_MTOTAL.N ≠ 0 ∧ s.get UPD_MTOTAL.N ≤ 16256)) ∧ ((((Instr.updSaveset e v, 7)).2 = 4 → 2
      ≤ wrapDiff 40 (s.get UPD_ACTLO.ABN + 2 ^ 32 * s.get UPD_ACTHI.ABN) s.abn))) ∧
    (∃ (c : UpdCmd) (s : State), s.upd.cmd = some c ∧ c.host = none ∧ s.rescue = false ∧ s.bit PWR_STAT.PFW = false ∧ c.op = 2 ∧
      s.stagedCount ≤ c.index) ∧
    (∃ (c : UpdCmd) (s : State), s.upd.cmd = some c ∧ c.host = none ∧ s.rescue = false ∧ s.bit PWR_STAT.PFW = false ∧ c.op = 2 ∧ c.index <
      s.stagedCount ∧ s.missing c.index = false) ∧
    (∃ (c : UpdCmd) (s : State) (b : List Byte), s.upd.cmd = some c ∧ c.host = none ∧ s.rescue = false ∧ s.bit PWR_STAT.PFW = false ∧ c.op
      = 2 ∧ c.index < s.stagedCount ∧ c.index < 16256 ∧ s.missing c.index = true ∧ s.updBytes c 512 = some b ∧ b.length = 512) ∧
    (∃ (c : UpdCmd) (s : State), s.upd.cmd = some c ∧ c.host = none ∧ s.rescue = false ∧ s.bit PWR_STAT.PFW = false ∧ c.op = 5 ∧ s.get
      UPD_STAT.STATE = 3) ∧
    (∃ (c : UpdCmd) (s : State), s.upd.cmd = some c ∧ c.host = none ∧ s.rescue = false ∧ s.bit PWR_STAT.PFW = false ∧ c.op = 6) :=
  ⟨
    ⟨(let b := State.reset; let b := b; let b := ((b.set UPD_STAT.STATE 0).set (ENG_ESTAT.STATE 0) stRun).setReg ENG_RUN.addr 1;
      { b with upd := { b.upd with cold := false, locked := false } }), by decide +kernel⟩,
    ⟨(2), (let b := State.reset; { b with upd := { b.upd with locked := true } }), by unfold State.reaches; decide +kernel⟩,
    ⟨(2), (0xC6A00000#32 : Word), (let b := State.reset; b.set UPD_STAT.BUSY 1), by unfold State.reaches; decide +kernel⟩,
    ⟨(2), (0xC6A00000#32 : Word), (let b := State.reset;
      let b := ((((b.set UPD_STAT.BUSY 0).set PWR_STAT.PFW 0).set UPD_STAT.STATE 0).set UPD_MTOTAL.N 16256).set UPD_ACTLO.ABN 0xFFFF;
      b), by unfold State.reaches; decide +kernel⟩,
    ⟨(2), (0xC6A00000#32 : Word), (let b := State.reset;
      let b := ((((b.set UPD_STAT.BUSY 0).set PWR_STAT.PFW 0).set UPD_STAT.STATE 1).set UPD_MTOTAL.N 16256).set UPD_ACTLO.ABN 0xFFFF;
      b), by unfold State.reaches; decide +kernel⟩,
    ⟨(2), (0xC6A00000#32 : Word), (let b := State.reset;
      let b := ((((b.set UPD_STAT.BUSY 0).set PWR_STAT.PFW 0).set UPD_STAT.STATE 1).set UPD_MTOTAL.N 16256).set UPD_ACTLO.ABN 0xFFFF;
      b), by unfold State.reaches; decide +kernel⟩,
    ⟨(2), (0xC6A00000#32 : Word), (let b := State.reset;
      let b := ((((b.set UPD_STAT.BUSY 0).set PWR_STAT.PFW 0).set UPD_STAT.STATE 3).set UPD_MTOTAL.N 16256).set UPD_ACTLO.ABN 0xFFFF;
      b), by unfold State.reaches; decide +kernel⟩,
    ⟨(2), (0xC6A00000#32 : Word), (let b := State.reset;
      let b := ((((b.set UPD_STAT.BUSY 0).set PWR_STAT.PFW 0).set UPD_STAT.STATE 1).set UPD_MTOTAL.N 16256).set UPD_ACTLO.ABN 0xFFFF;
      b), by unfold State.reaches; decide +kernel⟩,
    ⟨(2), (0xC6A00000#32 : Word), (let b := State.reset;
      let b := ((((b.set UPD_STAT.BUSY 0).set PWR_STAT.PFW 0).set UPD_STAT.STATE 5).set UPD_MTOTAL.N 16256).set UPD_ACTLO.ABN 0xFFFF;
      b), by unfold State.reaches; decide +kernel⟩,
    ⟨(2), (0xC6A00000#32 : Word), (let b := State.reset;
      let b := ((((b.set UPD_STAT.BUSY 0).set PWR_STAT.PFW 0).set UPD_STAT.STATE 0).set UPD_MTOTAL.N 16256).set UPD_ACTLO.ABN 0xFFFF;
      b), by unfold State.reaches; decide +kernel⟩,
    ⟨({ op := 2, index := 16 } : UpdCmd), (let b := State.reset; let b := (b.set UPD_STAT.STATE 1).set PWR_STAT.PFW 0;
      let b := [(8,16),(9,0),(10,0),(11,0),(16,0xFE),(17,0x7F)].foldl (fun (b : State) p => b.setFbyte (stagingHead + p.1) (BitVec.ofNat 8 p.2)) b;
      { b with upd := { b.upd with cmd := some ({ op := 2, index := 16 }), counter := 5 } }), by decide +kernel⟩,
    ⟨({ op := 2, index := 0 } : UpdCmd), (let b := State.reset; let b := (b.set UPD_STAT.STATE 1).set PWR_STAT.PFW 0;
      let b := [(8,16),(9,0),(10,0),(11,0),(16,0xFE),(17,0x7F)].foldl (fun (b : State) p => b.setFbyte (stagingHead + p.1) (BitVec.ofNat 8 p.2)) b;
      { b with upd := { b.upd with cmd := some ({ op := 2, index := 0 }), counter := 5 } }), by decide +kernel⟩,
    ⟨({ op := 2, index := 1, data := none, addr := 0x12000000 } : UpdCmd), (let b := State.reset; let b0 := State.reset;
      let b := b0; let b := (b.set UPD_STAT.STATE 1).set PWR_STAT.PFW 0;
      let b := [(8,16),(9,0),(10,0),(11,0),(16,0xFE),(17,0x7F)].foldl (fun (b : State) p => b.setFbyte (stagingHead + p.1) (BitVec.ofNat 8 p.2)) b;
      { b with upd := { b.upd with cmd := some ({ op := 2, index := 1, data := none, addr := 0x12000000 }), counter := 5 } }),
      (let b := State.reset; let b0 := State.reset; let s : State := let b := b0;
      let b := (b.set UPD_STAT.STATE 1).set PWR_STAT.PFW 0;
      let b := [(8,16),(9,0),(10,0),(11,0),(16,0xFE),(17,0x7F)].foldl (fun (b : State) p => b.setFbyte (stagingHead + p.1) (BitVec.ofNat 8 p.2)) b;
      { b with upd := { b.upd with cmd := some ({ op := 2, index := 1, data := none, addr := 0x12000000 }), counter := 5 } };
      (s.updBytes ({ op := 2, index := 1, data := none, addr := 0x12000000 }) 512).getD []), by decide +kernel⟩,
    ⟨({ op := 5 } : UpdCmd), (let b := State.reset; let b := (b.set UPD_STAT.STATE 3).set PWR_STAT.PFW 0;
      let b := [(8,16),(9,0),(10,0),(11,0),(16,0xFE),(17,0x7F)].foldl (fun (b : State) p => b.setFbyte (stagingHead + p.1) (BitVec.ofNat 8 p.2)) b;
      { b with upd := { b.upd with cmd := some ({ op := 5 }), counter := 5 } }), by decide +kernel⟩,
    ⟨({ op := 6 } : UpdCmd), (let b := State.reset; let b := (b.set UPD_STAT.RUNVER 0).set UPD_SECVER.RUNVER7 0;
      let b := (b.set UPD_STAT.STATE 5).set PWR_STAT.PFW 0;
      let b := [(8,16),(9,0),(10,0),(11,0),(16,0xFE),(17,0x7F)].foldl (fun (b : State) p => b.setFbyte (stagingHead + p.1) (BitVec.ofNat 8 p.2)) b;
      { b with upd := { b.upd with cmd := some ({ op := 6 }), counter := 5 } }), by decide +kernel⟩⟩

theorem witness_HostFramesComplete :
    (∃ (tag : Nat) (p : List Byte) (s : State), tag < 256 ∧ 2 ≤ p.length ∧ p.length ≤ 1024 ∧ 1 + ceilDiv p.length 4 ≤ s.inRoom ∧
      s.hifListens ((Instr.spiWrite (hostFrame 1 tag p), 1)).2 = true ∧ ((((Instr.spiWrite (hostFrame 1 tag p), 1)).2 = 2 → s.hif.urx =
      []))) ∧
    (∃ (tag : Nat) (p : List Byte) (s : State), tag < 256 ∧ 2 ≤ p.length ∧ p.length ≤ 1024 ∧ 1 + ceilDiv p.length 4 ≤ s.inRoom ∧
      s.hifListens ((Instr.uartFrameReceived (hostFrame 1 tag p), 2)).2 = true ∧ ((((Instr.uartFrameReceived (hostFrame 1 tag p), 2)).2 = 2
      → s.hif.urx = []))) ∧
    (∃ (b : List Byte) (s : State), b.length < 6 ∧ s.hifListens 1 = true) ∧
    (∃ (b : List Byte) (s : State), s.hifListens 2 = true ∧ s.hif.urx = [] ∧ b.length < 5) ∧
    (∃ (x : Byte) (b : List Byte) (s : State), s.hifListens 2 = true ∧ s.hif.urx = x :: b ∧ ((∀ y ∈ b, y ≠ 0xC6))) ∧
    (∃ (s : State), s.hif.urx = []) ∧
    (∃ (f : HifFrame) (s : State), s.hifActive = true ∧ s.ifInUse = 1 ∧ s.hif.cur = some f ∧ f.src = 1) ∧
    (∃ (i : List Word) (l : List (List Word)) (s : State), s.hifActive = true ∧ s.ifInUse = 2 ∧ s.hif.cur = none ∧ s.hif.notices = [] ∧
      s.hif.outbox = i :: l ∧ ((∀ m ∈ s.ecc ++ s.ecc1, m.1 ≠ 8))) ∧
    (∃ (e : Fin 16) (s : State), s.reaches e HIF_RXDATA.addr ∧ ((∀ m, s.hifWord = some m → s.ecc.contains m = false))) ∧
    (∃ (e : Fin 16) (v : Word) (s : State), s.reaches e HIF_TXDATA.addr ∧ s.hif.outOpen = none ∧ s.outUsed + 1 + ceilDiv (fieldOf v 0 12) 4
      ≤ 512 ∧ 0 < fieldOf v 0 12) ∧
    (∃ (e : Fin 16) (s : State) (h : Word) (l : List Word), s.reaches e HIF_TXDATA.addr ∧ s.hif.outOpen = some (h :: l, 1) ∧ fieldOf h 12 4
      = s.ifInUse) ∧
    (∃ (e : Fin 16) (s : State), s.reaches e HIF_RXSTAT.addr) ∧
    (∃ (e : Fin 16) (s : State), s.reaches e HIF_TXSTAT.addr) :=
  ⟨
    ⟨(0), ([1,2] : List Byte), (let b := State.reset; let b := (((b.set HIF_CTRL.EN 1).set HIF_STAT.LOCK 0).set HIF_CTRL.IF 1);
      b), by decide +kernel⟩,
    ⟨(0), ([1,2] : List Byte), (let b := State.reset; let b := (((b.set HIF_CTRL.EN 1).set HIF_STAT.LOCK 0).set HIF_CTRL.IF 2);
      b), by decide +kernel⟩,
    ⟨([] : List Byte), (let b := State.reset; let b0 := State.reset; let b := b0;
      let b := (((b.set HIF_CTRL.EN 1).set HIF_STAT.LOCK 0).set HIF_CTRL.IF 1); b), by decide +kernel⟩,
    ⟨([] : List Byte), (let b := State.reset; let b0 := State.reset; let b := b0;
      let b := (((b.set HIF_CTRL.EN 1).set HIF_STAT.LOCK 0).set HIF_CTRL.IF 2); b), by decide +kernel⟩,
    ⟨(7#8 : Byte), ([3#8] : List Byte), (let b := State.reset; let b0 := State.reset; let b := b0;
      let b := (((b.set HIF_CTRL.EN 1).set HIF_STAT.LOCK 0).set HIF_CTRL.IF 2);
      { b with hif := { b.hif with urx := [7#8, 3#8] } }), by decide +kernel⟩,
    ⟨(let b := State.reset; b), by decide +kernel⟩,
    ⟨({ bytes := [1,2,3], src := 1 } : HifFrame), (let b := State.reset;
      let b := (((b.set HIF_CTRL.EN 1).set HIF_STAT.LOCK 0).set HIF_CTRL.IF 1);
      { b with hif := { b.hif with cur := some { bytes := [1,2,3], src := 1 }, outbox := [[1,2],[3]] } }), by decide +kernel⟩,
    ⟨([0x02050003#32, 0x030201#32] : List Word), ([] : List (List Word)), (let b := State.reset;
      let b := (((b.set HIF_CTRL.EN 1).set HIF_STAT.LOCK 0).set HIF_CTRL.IF 2);
      { b with hif := { b.hif with cur := none, notices := [], outbox := [0x02050003#32, 0x030201#32] :: [] } }), by decide +kernel⟩,
    ⟨(2), (let b := State.reset;
      { b with hif := { b.hif with inbox := [], lastIn := 99 } }), by unfold State.reaches; decide +kernel⟩,
    ⟨(2), (0x02050001#32 : Word), (let b := State.reset;
      { b with hif := { b.hif with outOpen := none, outbox := [[1,2]] } }), by unfold State.reaches; decide +kernel⟩,
    ⟨(2), (let b := State.reset; let b := (((b.set HIF_CTRL.EN 1).set HIF_STAT.LOCK 0).set HIF_CTRL.IF 1);
      { b with hif := { b.hif with outOpen := some ([0x02051003#32], 1), outbox := [[9]] } }), (0x02051003#32 : Word), ([] : List Word), by unfold State.reaches; decide +kernel⟩,
    ⟨(2), (let b := State.reset;
      { b with hif := { b.hif with cur := none, outOpen := some ([1],2), inbox := [[1]], outbox := [[2,3],[4]] } }), by unfold State.reaches; decide +kernel⟩,
    ⟨(2), (let b := State.reset;
      { b with hif := { b.hif with cur := none, outOpen := some ([1],2), inbox := [[1]], outbox := [[2,3],[4]] } }), by unfold State.reaches; decide +kernel⟩⟩

theorem witness_HostCommandsComplete :
    (∃ (c : HostCmd) (s : State), s.headCmd = some c ∧ c.port = s.ifInUse ∧ c.code = ((Instr.hostPing, 1, 12, pingAnswer s c)).2.1 ∧
      s.canServe ((Instr.hostPing, 1, 12, pingAnswer s c)).2.2.1 = true) ∧
    (∃ (c : HostCmd) (s : State), s.headCmd = some c ∧ c.port = s.ifInUse ∧ c.code = ((Instr.hostJrnstat, 2, 12, jrnstatAnswer s c)).2.1 ∧
      s.canServe ((Instr.hostJrnstat, 2, 12, jrnstatAnswer s c)).2.2.1 = true) ∧
    (∃ (c : HostCmd) (s : State), s.headCmd = some c ∧ c.port = s.ifInUse ∧ c.code = ((Instr.hostJrnread, 3, 992, jrnreadAnswer s c)).2.1 ∧
      s.canServe ((Instr.hostJrnread, 3, 992, jrnreadAnswer s c)).2.2.1 = true) ∧
    (∃ (c : HostCmd) (u : UpdCmd) (s : State), s.headCmd = some c ∧ s.canServe 0 = true ∧ s.dOn 24 = true ∧ s.bit UPD_STAT.BUSY = false ∧
      s.bit PWR_STAT.PFW = false ∧ s.rescue = false ∧ c.code = 0x0F + ((Instr.hostBegin, 1)).2 ∧ hostUpd ((Instr.hostBegin, 1)).2 c = some
      u ∧ updAllowed ((Instr.hostBegin, 1)).2 (s.get UPD_STAT.STATE) = true ∧ ((((Instr.hostBegin, 1)).2 = 1 → u.total ≠ 0 ∧ u.total ≤
      16256)) ∧ ((((Instr.hostBegin, 1)).2 = 4 → 2 ≤ wrapDiff 40 u.abn s.abn))) ∧
    (∃ (c : HostCmd) (u : UpdCmd) (s : State), s.headCmd = some c ∧ s.canServe 0 = true ∧ s.dOn 24 = true ∧ s.bit UPD_STAT.BUSY = false ∧
      s.bit PWR_STAT.PFW = false ∧ s.rescue = false ∧ c.code = 0x0F + ((Instr.hostMorsel, 2)).2 ∧ hostUpd ((Instr.hostMorsel, 2)).2 c =
      some u ∧ updAllowed ((Instr.hostMorsel, 2)).2 (s.get UPD_STAT.STATE) = true ∧ ((((Instr.hostMorsel, 2)).2 = 1 → u.total ≠ 0 ∧ u.total
      ≤ 16256)) ∧ ((((Instr.hostMorsel, 2)).2 = 4 → 2 ≤ wrapDiff 40 u.abn s.abn))) ∧
    (∃ (c : HostCmd) (u : UpdCmd) (s : State), s.headCmd = some c ∧ s.canServe 0 = true ∧ s.dOn 24 = true ∧ s.bit UPD_STAT.BUSY = false ∧
      s.bit PWR_STAT.PFW = false ∧ s.rescue = false ∧ c.code = 0x0F + ((Instr.hostVerify, 3)).2 ∧ hostUpd ((Instr.hostVerify, 3)).2 c =
      some u ∧ updAllowed ((Instr.hostVerify, 3)).2 (s.get UPD_STAT.STATE) = true ∧ ((((Instr.hostVerify, 3)).2 = 1 → u.total ≠ 0 ∧ u.total
      ≤ 16256)) ∧ ((((Instr.hostVerify, 3)).2 = 4 → 2 ≤ wrapDiff 40 u.abn s.abn))) ∧
    (∃ (c : HostCmd) (u : UpdCmd) (s : State), s.headCmd = some c ∧ s.canServe 0 = true ∧ s.dOn 24 = true ∧ s.bit UPD_STAT.BUSY = false ∧
      s.bit PWR_STAT.PFW = false ∧ s.rescue = false ∧ c.code = 0x0F + ((Instr.hostActivate, 4)).2 ∧ hostUpd ((Instr.hostActivate, 4)).2 c =
      some u ∧ updAllowed ((Instr.hostActivate, 4)).2 (s.get UPD_STAT.STATE) = true ∧ ((((Instr.hostActivate, 4)).2 = 1 → u.total ≠ 0 ∧
      u.total ≤ 16256)) ∧ ((((Instr.hostActivate, 4)).2 = 4 → 2 ≤ wrapDiff 40 u.abn s.abn))) ∧
    (∃ (c : HostCmd) (u : UpdCmd) (s : State), s.headCmd = some c ∧ s.canServe 0 = true ∧ s.dOn 24 = true ∧ s.bit UPD_STAT.BUSY = false ∧
      s.bit PWR_STAT.PFW = false ∧ s.rescue = false ∧ c.code = 0x0F + ((Instr.hostCancel, 5)).2 ∧ hostUpd ((Instr.hostCancel, 5)).2 c =
      some u ∧ updAllowed ((Instr.hostCancel, 5)).2 (s.get UPD_STAT.STATE) = true ∧ ((((Instr.hostCancel, 5)).2 = 1 → u.total ≠ 0 ∧ u.total
      ≤ 16256)) ∧ ((((Instr.hostCancel, 5)).2 = 4 → 2 ≤ wrapDiff 40 u.abn s.abn))) ∧
    (∃ (c : HostCmd) (u : UpdCmd) (s : State), s.headCmd = some c ∧ s.canServe 0 = true ∧ s.dOn 24 = true ∧ s.bit UPD_STAT.BUSY = false ∧
      s.bit PWR_STAT.PFW = false ∧ s.rescue = false ∧ c.code = 0x0F + ((Instr.hostConfirm, 6)).2 ∧ hostUpd ((Instr.hostConfirm, 6)).2 c =
      some u ∧ updAllowed ((Instr.hostConfirm, 6)).2 (s.get UPD_STAT.STATE) = true ∧ ((((Instr.hostConfirm, 6)).2 = 1 → u.total ≠ 0 ∧
      u.total ≤ 16256)) ∧ ((((Instr.hostConfirm, 6)).2 = 4 → 2 ≤ wrapDiff 40 u.abn s.abn))) ∧
    (∃ (c : HostCmd) (u : UpdCmd) (s : State), s.headCmd = some c ∧ s.canServe 0 = true ∧ s.dOn 24 = true ∧ s.bit UPD_STAT.BUSY = false ∧
      s.bit PWR_STAT.PFW = false ∧ s.rescue = false ∧ c.code = 0x0F + ((Instr.hostSaveset, 7)).2 ∧ hostUpd ((Instr.hostSaveset, 7)).2 c =
      some u ∧ updAllowed ((Instr.hostSaveset, 7)).2 (s.get UPD_STAT.STATE) = true ∧ ((((Instr.hostSaveset, 7)).2 = 1 → u.total ≠ 0 ∧
      u.total ≤ 16256)) ∧ ((((Instr.hostSaveset, 7)).2 = 4 → 2 ≤ wrapDiff 40 u.abn s.abn))) ∧
    (∃ (e : Fin 16) (n : Fin 16) (s : State), s.reaches e (JRN_GO.addr n)) ∧
    (∃ (s : State), s.bit JRN_CTRL.MIREN = true ∧ s.bit PWR_STAT.PFW = false ∧ s.dOn 28 = true ∧ s.get JRN_MIRHEAD.SEQ ≠ s.get JRN_HEAD.SEQ) :=
  ⟨
    ⟨(let b := State.reset; let s : State := let b := b; let b := (((b.set HIF_CTRL.EN 1).set HIF_STAT.LOCK 0).set HIF_CTRL.IF 1);
      { b with hif := { b.hif with inbox := [[0x1091002#32, 0x1#32], [5]], outbox := [[9]] } };
      s.headCmd.getD { port := 0, tag := 0, code := 0, params := [] }), (let b := State.reset; let b := b;
      let b := (((b.set HIF_CTRL.EN 1).set HIF_STAT.LOCK 0).set HIF_CTRL.IF 1);
      { b with hif := { b.hif with inbox := [[0x1091002#32, 0x1#32], [5]], outbox := [[9]] } }), by decide +kernel⟩,
    ⟨(let b := State.reset; let s : State := let b := b; let b := (((b.set HIF_CTRL.EN 1).set HIF_STAT.LOCK 0).set HIF_CTRL.IF 1);
      { b with hif := { b.hif with inbox := [[0x1091002#32, 0x2#32], [5]], outbox := [[9]] } };
      s.headCmd.getD { port := 0, tag := 0, code := 0, params := [] }), (let b := State.reset; let b := b;
      let b := (((b.set HIF_CTRL.EN 1).set HIF_STAT.LOCK 0).set HIF_CTRL.IF 1);
      { b with hif := { b.hif with inbox := [[0x1091002#32, 0x2#32], [5]], outbox := [[9]] } }), by decide +kernel⟩,
    ⟨(let b := State.reset; let s : State := let b := b; let b := (((b.set HIF_CTRL.EN 1).set HIF_STAT.LOCK 0).set HIF_CTRL.IF 1);
      { b with hif := { b.hif with inbox := [[0x1091003#32, 0x10003#32], [5]], outbox := [[9]] } };
      s.headCmd.getD { port := 0, tag := 0, code := 0, params := [] }), (let b := State.reset; let b := b;
      let b := (((b.set HIF_CTRL.EN 1).set HIF_STAT.LOCK 0).set HIF_CTRL.IF 1);
      { b with hif := { b.hif with inbox := [[0x1091003#32, 0x10003#32], [5]], outbox := [[9]] } }), by decide +kernel⟩,
    ⟨(let b := State.reset; let s : State := let b := b; let b := (((b.set HIF_CTRL.EN 1).set HIF_STAT.LOCK 0).set HIF_CTRL.IF 1);
      let b := ((b.set UPD_STAT.BUSY 0).set PWR_STAT.PFW 0).set UPD_STAT.STATE 0;
      { b with hif := { b.hif with inbox := [[0x109100A#32, 0x50010#32, 0x640000#32, 0x0#32], [5]], outbox := [[9]] } };
      s.headCmd.getD { port := 0, tag := 0, code := 0, params := [] }), (let b := State.reset; let s : State := let b := b;
      let b := (((b.set HIF_CTRL.EN 1).set HIF_STAT.LOCK 0).set HIF_CTRL.IF 1);
      let b := ((b.set UPD_STAT.BUSY 0).set PWR_STAT.PFW 0).set UPD_STAT.STATE 0;
      { b with hif := { b.hif with inbox := [[0x109100A#32, 0x50010#32, 0x640000#32, 0x0#32], [5]], outbox := [[9]] } };
      (hostUpd 1 (s.headCmd.getD { port := 0, tag := 0, code := 0, params := [] })).getD { op := 0 }), (let b := State.reset;
      let b := b; let b := (((b.set HIF_CTRL.EN 1).set HIF_STAT.LOCK 0).set HIF_CTRL.IF 1);
      let b := ((b.set UPD_STAT.BUSY 0).set PWR_STAT.PFW 0).set UPD_STAT.STATE 0;
      { b with hif := { b.hif with inbox := [[0x109100A#32, 0x50010#32, 0x640000#32, 0x0#32], [5]], outbox := [[9]] } }), by decide +kernel⟩,
    ⟨(let b := State.reset; let s : State := let b := b; let b := (((b.set HIF_CTRL.EN 1).set HIF_STAT.LOCK 0).set HIF_CTRL.IF 1);
      let b := ((b.set UPD_STAT.BUSY 0).set PWR_STAT.PFW 0).set UPD_STAT.STATE 1;
      { b with hif := { b.hif with inbox := [[0x1091206#32, 0x30011#32, 0x7070000#32, 0x7070707#32, 0x7070707#32, 0x7070707#32, 0x7070707#32, 0x7070707#32, 0x7070707#32, 0x7070707#32, 0x7070707#32, 0x7070707#32, 0x7070707#32, 0x7070707#32, 0x7070707#32, 0x7070707#32, 0x7070707#32, 0x7070707#32, 0x7070707#32, 0x7070707#32, 0x7070707#32, 0x7070707#32, 0x7070707#32, 0x7070707#32, 0x7070707#32, 0x7070707#32, 0x7070707#32, 0x7070707#32, 0x7070707#32, 0x7070707#32, 0x7070707#32, 0x7070707#32, 0x7070707#32, 0x7070707#32, 0x7070707#32, 0x7070707#32, 0x7070707#32, 0x7070707#32, 0x7070707#32, 0x7070707#32, 0x7070707#32, 0x7070707#32, 0x7070707#32, 0x7070707#32, 0x7070707#32, 0x7070707#32, 0x7070707#32, 0x7070707#32, 0x7070707#32, 0x7070707#32, 0x7070707#32, 0x7070707#32, 0x7070707#32, 0x7070707#32, 0x7070707#32, 0x7070707#32, 0x7070707#32, 0x7070707#32, 0x7070707#32, 0x7070707#32, 0x7070707#32, 0x7070707#32, 0x7070707#32, 0x7070707#32, 0x7070707#32, 0x7070707#32, 0x7070707#32, 0x7070707#32, 0x7070707#32, 0x7070707#32, 0x7070707#32, 0x7070707#32, 0x7070707#32, 0x7070707#32, 0x7070707#32, 0x7070707#32, 0x7070707#32, 0x7070707#32, 0x7070707#32, 0x7070707#32, 0x7070707#32, 0x7070707#32, 0x7070707#32, 0x7070707#32, 0x7070707#32, 0x7070707#32, 0x7070707#32, 0x7070707#32, 0x7070707#32, 0x7070707#32, 0x7070707#32, 0x7070707#32, 0x7070707#32, 0x7070707#32, 0x7070707#32, 0x7070707#32, 0x7070707#32, 0x7070707#32, 0x7070707#32, 0x7070707#32, 0x7070707#32, 0x7070707#32, 0x7070707#32, 0x7070707#32, 0x7070707#32, 0x7070707#32, 0x7070707#32, 0x7070707#32, 0x7070707#32, 0x7070707#32, 0x7070707#32, 0x7070707#32, 0x7070707#32, 0x7070707#32, 0x7070707#32, 0x7070707#32, 0x7070707#32, 0x7070707#32, 0x7070707#32, 0x7070707#32, 0x7070707#32, 0x7070707#32, 0x7070707#32, 0x7070707#32, 0x7070707#32, 0x7070707#32, 0x7070707#32, 0x7070707#32, 0x7070707#32, 0x7070707#32, 0x707#32], [5]], outbox := [[9]] } };
      s.headCmd.getD { port := 0, tag := 0, code := 0, params := [] }), (let b := State.reset; let s : State := let b := b;
      let b := (((b.set HIF_CTRL.EN 1).set HIF_STAT.LOCK 0).set HIF_CTRL.IF 1);
      let b := ((b.set UPD_STAT.BUSY 0).set PWR_STAT.PFW 0).set UPD_STAT.STATE 1;
      { b with hif := { b.hif with inbox := [[0x1091206#32, 0x30011#32, 0x7070000#32, 0x7070707#32, 0x7070707#32, 0x7070707#32, 0x7070707#32, 0x7070707#32, 0x7070707#32, 0x7070707#32, 0x7070707#32, 0x7070707#32, 0x7070707#32, 0x7070707#32, 0x7070707#32, 0x7070707#32, 0x7070707#32, 0x7070707#32, 0x7070707#32, 0x7070707#32, 0x7070707#32, 0x7070707#32, 0x7070707#32, 0x7070707#32, 0x7070707#32, 0x7070707#32, 0x7070707#32, 0x7070707#32, 0x7070707#32, 0x7070707#32, 0x7070707#32, 0x7070707#32, 0x7070707#32, 0x7070707#32, 0x7070707#32, 0x7070707#32, 0x7070707#32, 0x7070707#32, 0x7070707#32, 0x7070707#32, 0x7070707#32, 0x7070707#32, 0x7070707#32, 0x7070707#32, 0x7070707#32, 0x7070707#32, 0x7070707#32, 0x7070707#32, 0x7070707#32, 0x7070707#32, 0x7070707#32, 0x7070707#32, 0x7070707#32, 0x7070707#32, 0x7070707#32, 0x7070707#32, 0x7070707#32, 0x7070707#32, 0x7070707#32, 0x7070707#32, 0x7070707#32, 0x7070707#32, 0x7070707#32, 0x7070707#32, 0x7070707#32, 0x7070707#32, 0x7070707#32, 0x7070707#32, 0x7070707#32, 0x7070707#32, 0x7070707#32, 0x7070707#32, 0x7070707#32, 0x7070707#32, 0x7070707#32, 0x7070707#32, 0x7070707#32, 0x7070707#32, 0x7070707#32, 0x7070707#32, 0x7070707#32, 0x7070707#32, 0x7070707#32, 0x7070707#32, 0x7070707#32, 0x7070707#32, 0x7070707#32, 0x7070707#32, 0x7070707#32, 0x7070707#32, 0x7070707#32, 0x7070707#32, 0x7070707#32, 0x7070707#32, 0x7070707#32, 0x7070707#32, 0x7070707#32, 0x7070707#32, 0x7070707#32, 0x7070707#32, 0x7070707#32, 0x7070707#32, 0x7070707#32, 0x7070707#32, 0x7070707#32, 0x7070707#32, 0x7070707#32, 0x7070707#32, 0x7070707#32, 0x7070707#32, 0x7070707#32, 0x7070707#32, 0x7070707#32, 0x7070707#32, 0x7070707#32, 0x7070707#32, 0x7070707#32, 0x7070707#32, 0x7070707#32, 0x7070707#32, 0x7070707#32, 0x7070707#32, 0x7070707#32, 0x7070707#32, 0x7070707#32, 0x7070707#32, 0x7070707#32, 0x7070707#32, 0x7070707#32, 0x7070707#32, 0x707#32], [5]], outbox := [[9]] } };
      (hostUpd 2 (s.headCmd.getD { port := 0, tag := 0, code := 0, params := [] })).getD { op := 0 }), (let b := State.reset;
      let b := b; let b := (((b.set HIF_CTRL.EN 1).set HIF_STAT.LOCK 0).set HIF_CTRL.IF 1);
      let b := ((b.set UPD_STAT.BUSY 0).set PWR_STAT.PFW 0).set UPD_STAT.STATE 1;
      { b with hif := { b.hif with inbox := [[0x1091206#32, 0x30011#32, 0x7070000#32, 0x7070707#32, 0x7070707#32, 0x7070707#32, 0x7070707#32, 0x7070707#32, 0x7070707#32, 0x7070707#32, 0x7070707#32, 0x7070707#32, 0x7070707#32, 0x7070707#32, 0x7070707#32, 0x7070707#32, 0x7070707#32, 0x7070707#32, 0x7070707#32, 0x7070707#32, 0x7070707#32, 0x7070707#32, 0x7070707#32, 0x7070707#32, 0x7070707#32, 0x7070707#32, 0x7070707#32, 0x7070707#32, 0x7070707#32, 0x7070707#32, 0x7070707#32, 0x7070707#32, 0x7070707#32, 0x7070707#32, 0x7070707#32, 0x7070707#32, 0x7070707#32, 0x7070707#32, 0x7070707#32, 0x7070707#32, 0x7070707#32, 0x7070707#32, 0x7070707#32, 0x7070707#32, 0x7070707#32, 0x7070707#32, 0x7070707#32, 0x7070707#32, 0x7070707#32, 0x7070707#32, 0x7070707#32, 0x7070707#32, 0x7070707#32, 0x7070707#32, 0x7070707#32, 0x7070707#32, 0x7070707#32, 0x7070707#32, 0x7070707#32, 0x7070707#32, 0x7070707#32, 0x7070707#32, 0x7070707#32, 0x7070707#32, 0x7070707#32, 0x7070707#32, 0x7070707#32, 0x7070707#32, 0x7070707#32, 0x7070707#32, 0x7070707#32, 0x7070707#32, 0x7070707#32, 0x7070707#32, 0x7070707#32, 0x7070707#32, 0x7070707#32, 0x7070707#32, 0x7070707#32, 0x7070707#32, 0x7070707#32, 0x7070707#32, 0x7070707#32, 0x7070707#32, 0x7070707#32, 0x7070707#32, 0x7070707#32, 0x7070707#32, 0x7070707#32, 0x7070707#32, 0x7070707#32, 0x7070707#32, 0x7070707#32, 0x7070707#32, 0x7070707#32, 0x7070707#32, 0x7070707#32, 0x7070707#32, 0x7070707#32, 0x7070707#32, 0x7070707#32, 0x7070707#32, 0x7070707#32, 0x7070707#32, 0x7070707#32, 0x7070707#32, 0x7070707#32, 0x7070707#32, 0x7070707#32, 0x7070707#32, 0x7070707#32, 0x7070707#32, 0x7070707#32, 0x7070707#32, 0x7070707#32, 0x7070707#32, 0x7070707#32, 0x7070707#32, 0x7070707#32, 0x7070707#32, 0x7070707#32, 0x7070707#32, 0x7070707#32, 0x7070707#32, 0x7070707#32, 0x7070707#32, 0x7070707#32, 0x7070707#32, 0x7070707#32, 0x7070707#32, 0x707#32], [5]], outbox := [[9]] } }), by decide +kernel⟩,
    ⟨(let b := State.reset; let s : State := let b := b; let b := (((b.set HIF_CTRL.EN 1).set HIF_STAT.LOCK 0).set HIF_CTRL.IF 1);
      let b := ((b.set UPD_STAT.BUSY 0).set PWR_STAT.PFW 0).set UPD_STAT.STATE 1;
      { b with hif := { b.hif with inbox := [[0x1091002#32, 0x12#32], [5]], outbox := [[9]] } };
      s.headCmd.getD { port := 0, tag := 0, code := 0, params := [] }), (let b := State.reset; let s : State := let b := b;
      let b := (((b.set HIF_CTRL.EN 1).set HIF_STAT.LOCK 0).set HIF_CTRL.IF 1);
      let b := ((b.set UPD_STAT.BUSY 0).set PWR_STAT.PFW 0).set UPD_STAT.STATE 1;
      { b with hif := { b.hif with inbox := [[0x1091002#32, 0x12#32], [5]], outbox := [[9]] } };
      (hostUpd 3 (s.headCmd.getD { port := 0, tag := 0, code := 0, params := [] })).getD { op := 0 }), (let b := State.reset;
      let b := b; let b := (((b.set HIF_CTRL.EN 1).set HIF_STAT.LOCK 0).set HIF_CTRL.IF 1);
      let b := ((b.set UPD_STAT.BUSY 0).set PWR_STAT.PFW 0).set UPD_STAT.STATE 1;
      { b with hif := { b.hif with inbox := [[0x1091002#32, 0x12#32], [5]], outbox := [[9]] } }), by decide +kernel⟩,
    ⟨(let b := State.reset; let s : State := let b := b; let b := (((b.set HIF_CTRL.EN 1).set HIF_STAT.LOCK 0).set HIF_CTRL.IF 1);
      let b := ((b.set UPD_STAT.BUSY 0).set PWR_STAT.PFW 0).set UPD_STAT.STATE 3;
      { b with hif := { b.hif with inbox := [[0x109100A#32, 0xFFFF0013#32, 0x0#32, 0x0#32], [5]], outbox := [[9]] } };
      s.headCmd.getD { port := 0, tag := 0, code := 0, params := [] }), (let b := State.reset; let s : State := let b := b;
      let b := (((b.set HIF_CTRL.EN 1).set HIF_STAT.LOCK 0).set HIF_CTRL.IF 1);
      let b := ((b.set UPD_STAT.BUSY 0).set PWR_STAT.PFW 0).set UPD_STAT.STATE 3;
      { b with hif := { b.hif with inbox := [[0x109100A#32, 0xFFFF0013#32, 0x0#32, 0x0#32], [5]], outbox := [[9]] } };
      (hostUpd 4 (s.headCmd.getD { port := 0, tag := 0, code := 0, params := [] })).getD { op := 0 }), (let b := State.reset;
      let b := b; let b := (((b.set HIF_CTRL.EN 1).set HIF_STAT.LOCK 0).set HIF_CTRL.IF 1);
      let b := ((b.set UPD_STAT.BUSY 0).set PWR_STAT.PFW 0).set UPD_STAT.STATE 3;
      { b with hif := { b.hif with inbox := [[0x109100A#32, 0xFFFF0013#32, 0x0#32, 0x0#32], [5]], outbox := [[9]] } }), by decide +kernel⟩,
    ⟨(let b := State.reset; let s : State := let b := b; let b := (((b.set HIF_CTRL.EN 1).set HIF_STAT.LOCK 0).set HIF_CTRL.IF 1);
      let b := ((b.set UPD_STAT.BUSY 0).set PWR_STAT.PFW 0).set UPD_STAT.STATE 4;
      { b with hif := { b.hif with inbox := [[0x1091002#32, 0x14#32], [5]], outbox := [[9]] } };
      s.headCmd.getD { port := 0, tag := 0, code := 0, params := [] }), (let b := State.reset; let s : State := let b := b;
      let b := (((b.set HIF_CTRL.EN 1).set HIF_STAT.LOCK 0).set HIF_CTRL.IF 1);
      let b := ((b.set UPD_STAT.BUSY 0).set PWR_STAT.PFW 0).set UPD_STAT.STATE 4;
      { b with hif := { b.hif with inbox := [[0x1091002#32, 0x14#32], [5]], outbox := [[9]] } };
      (hostUpd 5 (s.headCmd.getD { port := 0, tag := 0, code := 0, params := [] })).getD { op := 0 }), (let b := State.reset;
      let b := b; let b := (((b.set HIF_CTRL.EN 1).set HIF_STAT.LOCK 0).set HIF_CTRL.IF 1);
      let b := ((b.set UPD_STAT.BUSY 0).set PWR_STAT.PFW 0).set UPD_STAT.STATE 4;
      { b with hif := { b.hif with inbox := [[0x1091002#32, 0x14#32], [5]], outbox := [[9]] } }), by decide +kernel⟩,
    ⟨(let b := State.reset; let s : State := let b := b; let b := (((b.set HIF_CTRL.EN 1).set HIF_STAT.LOCK 0).set HIF_CTRL.IF 1);
      let b := ((b.set UPD_STAT.BUSY 0).set PWR_STAT.PFW 0).set UPD_STAT.STATE 5;
      { b with hif := { b.hif with inbox := [[0x1091002#32, 0x15#32], [5]], outbox := [[9]] } };
      s.headCmd.getD { port := 0, tag := 0, code := 0, params := [] }), (let b := State.reset; let s : State := let b := b;
      let b := (((b.set HIF_CTRL.EN 1).set HIF_STAT.LOCK 0).set HIF_CTRL.IF 1);
      let b := ((b.set UPD_STAT.BUSY 0).set PWR_STAT.PFW 0).set UPD_STAT.STATE 5;
      { b with hif := { b.hif with inbox := [[0x1091002#32, 0x15#32], [5]], outbox := [[9]] } };
      (hostUpd 6 (s.headCmd.getD { port := 0, tag := 0, code := 0, params := [] })).getD { op := 0 }), (let b := State.reset;
      let b := b; let b := (((b.set HIF_CTRL.EN 1).set HIF_STAT.LOCK 0).set HIF_CTRL.IF 1);
      let b := ((b.set UPD_STAT.BUSY 0).set PWR_STAT.PFW 0).set UPD_STAT.STATE 5;
      { b with hif := { b.hif with inbox := [[0x1091002#32, 0x15#32], [5]], outbox := [[9]] } }), by decide +kernel⟩,
    ⟨(let b := State.reset; let s : State := let b := b; let b := (((b.set HIF_CTRL.EN 1).set HIF_STAT.LOCK 0).set HIF_CTRL.IF 1);
      let b := ((b.set UPD_STAT.BUSY 0).set PWR_STAT.PFW 0).set UPD_STAT.STATE 0;
      { b with hif := { b.hif with inbox := [[0x109100A#32, 0x16#32, 0x71200#32, 0x0#32], [5]], outbox := [[9]] } };
      s.headCmd.getD { port := 0, tag := 0, code := 0, params := [] }), (let b := State.reset; let s : State := let b := b;
      let b := (((b.set HIF_CTRL.EN 1).set HIF_STAT.LOCK 0).set HIF_CTRL.IF 1);
      let b := ((b.set UPD_STAT.BUSY 0).set PWR_STAT.PFW 0).set UPD_STAT.STATE 0;
      { b with hif := { b.hif with inbox := [[0x109100A#32, 0x16#32, 0x71200#32, 0x0#32], [5]], outbox := [[9]] } };
      (hostUpd 7 (s.headCmd.getD { port := 0, tag := 0, code := 0, params := [] })).getD { op := 0 }), (let b := State.reset;
      let b := b; let b := (((b.set HIF_CTRL.EN 1).set HIF_STAT.LOCK 0).set HIF_CTRL.IF 1);
      let b := ((b.set UPD_STAT.BUSY 0).set PWR_STAT.PFW 0).set UPD_STAT.STATE 0;
      { b with hif := { b.hif with inbox := [[0x109100A#32, 0x16#32, 0x71200#32, 0x0#32], [5]], outbox := [[9]] } }), by decide +kernel⟩,
    ⟨(2), (0), (let b := State.reset; b.set JRN_HEAD.SEQ 0), by unfold State.reaches; decide +kernel⟩,
    ⟨(let b := State.reset; let b := ((b.set JRN_CTRL.MIREN 1).set PWR_STAT.PFW 0).set JRN_HEAD.SEQ 77;
      b.set JRN_MIRHEAD.SEQ 0), by decide +kernel⟩⟩

theorem witness_PowerWritesComplete :
    (∃ (e : Fin 16) (d : Fin 40) (s : State), s.reaches e (PWR_REQ.addr d)) ∧
    (∃ (e : Fin 16) (v : Word) (s : State), s.reaches e PWR_DRST.addr ∧ fieldOf v 16 16 = 0xC6A0) ∧
    (∃ (e : Fin 16) (s : State), s.reaches e PWR_PADREL.addr) :=
  ⟨
    ⟨(2), (28), (let b := State.reset; b), by unfold State.reaches; decide +kernel⟩,
    ⟨(2), (0xC6A00016#32 : Word), (let b := State.reset;
      { b with upd := { b.upd with locked := true } }), by unfold State.reaches; decide +kernel⟩,
    ⟨(2), (let b := State.reset; b), by unfold State.reaches; decide +kernel⟩⟩

theorem witness_StagesAndWakesComplete :
    (∃ (d : Fin 40) (s : State), (aget s.pwr.waking d.val).isSome = true) ∧
    (∃ (d : Fin 40) (s : State), (aget s.pwr.waking d.val).isSome = true ∧ s.bit (PWR_DSTAT.REGRDY d) = true) ∧
    (∃ (d : Fin 40) (s : State), (aget s.pwr.waking d.val).isSome = true ∧ s.bit (PWR_DSTAT.OSCRDY d) = true) ∧
    (∃ (d : Fin 40) (s : State), domainNumber d = true ∧ (aget s.pwr.waking d.val).isSome = true ∧ s.bit (PWR_DSTAT.MEMRDY d) = true) ∧
    (∃ (k : Fin 32) (s : State), s.pad.vioOk = true ∧ s.pwr.aoDown = false ∧ s.pwr.onVbak = false ∧ s.bit PWR_WAKEEN.GPIO = true ∧ bitOf
      (s.get PWR_GPIOWAKE.EN) k = true ∧ s.gpioLevel k = !bitOf (s.get PWR_GPIOPOL.LOW) k ∧ ((∀ c j, s.pwr.lastWake = some (c, j) → c ≠
      s.clk))) ∧
    (∃ (k : Fin 32) (s : State), bitOf (s.get PWR_GPIOWAKE.EN) k = false) ∧
    (∃ (ok : Bool) (s : State), (ok && s.pwr.warmHeld) = false) :=
  ⟨
    ⟨(0), (let b := State.reset; let b := { b with pwr := { b.pwr with waking := [(0, true)] } };
      let b := b.setReg (PWR_DSTAT.addr 0) 0#32; b), by decide +kernel⟩,
    ⟨(0), (let b := State.reset; let b := { b with pwr := { b.pwr with waking := [(0, true)] } };
      let b := b.setReg (PWR_DSTAT.addr 0) 0#32; b.set (PWR_DSTAT.REGRDY 0) 1), by decide +kernel⟩,
    ⟨(0), (let b := State.reset; let b := { b with pwr := { b.pwr with waking := [(0, true)] } };
      let b := b.setReg (PWR_DSTAT.addr 0) 0#32; b.set (PWR_DSTAT.OSCRDY 0) 1), by decide +kernel⟩,
    ⟨(0), (let b := State.reset; let b := { b with pwr := { b.pwr with waking := [(0, true)] } };
      let b := b.setReg (PWR_DSTAT.addr 0) 0#32; b.set (PWR_DSTAT.MEMRDY 0) 1), by decide +kernel⟩,
    ⟨(0), (let b := State.reset;
      let b := ((b.set PWR_WAKEEN.GPIO 1).set PWR_GPIOWAKE.EN 0xFFFFFFFF).set PWR_GPIOPOL.LOW 0xFFFFFFFF;
      let b := (b.set HIF_CTRL.ATTNEN 0).set PAD_STAT.ATTN 0; let b := b.setReg (PAD_CFG.addr 0) 0;
      { b with pad := { b.pad with ext := 0 } }), by decide +kernel, by decide +kernel, by decide +kernel, by decide +kernel, by decide +kernel, by decide +kernel, nofun⟩,
    ⟨(0), (let b := State.reset; b.set PWR_GPIOWAKE.EN 0), by decide +kernel⟩,
    ⟨(true : Bool), (let b := State.reset; { b with pad := { b.pad with vioOk := false } }), by decide +kernel⟩⟩

theorem witness_SupplyEventsComplete :
    (∃ (s : State), s.pwr.aoDown = false ∧ s.pwr.onVbak = false ∧ s.bit PWR_STAT.PFW = false) ∧
    (∃ (s : State), s.pwr.aoDown = false ∧ s.pwr.onVbak = false ∧ s.bit PWR_STAT.PFW = true) ∧
    (∃ (s : State), s.pwr.aoDown = false ∧ s.pwr.onVbak = false) ∧
    (∃ (s : State), s.pwr.aoDown = false ∧ s.pwr.onVbak = true) ∧
    (∃ (s : State), s.pwr.aoDown = false) ∧
    (∃ (s : State), s.pwr.holdTimer = true) ∧
    (∃ (s : State), s.pwr.aoDown = true) :=
  ⟨
    ⟨(let b := State.reset; b.set PWR_STAT.PFW 0), by decide +kernel⟩,
    ⟨(let b := State.reset; b.set PWR_STAT.PFW 1), by decide +kernel⟩,
    ⟨(let b := State.reset; { b with pwr := { b.pwr with waking := [], leaving := [(4,1)] } }), by decide +kernel⟩,
    ⟨(let b := State.reset; { b with pwr := { b.pwr with onVbak := true } }), by decide +kernel⟩,
    ⟨(let b := State.reset; { b with pwr := { b.pwr with onVbak := true, holdTimer := true } }), by decide +kernel⟩,
    ⟨(let b := State.reset; { b with pwr := { b.pwr with onVbak := true, holdTimer := true } }), by decide +kernel⟩,
    ⟨(let b := State.reset; { b with pwr := { b.pwr with aoDown := true } }), by decide +kernel⟩⟩

theorem witness_RtcCompletes :
    (∃ (e : Fin 16) (v : Word) (s : State), s.reaches e RTC_CMD.addr ∧ fieldOf v 16 16 = 0xC6A0 ∧ v.getLsbD 0 = true) ∧
    (∃ (e : Fin 16) (v : Word) (s : State), s.reaches e RTC_SHIFT.addr ∧ v.toNat % 65536 ≠ 32768 ∧ s.bit RTC_STAT.BORROW = false) ∧
    (∃ (e : Fin 16) (s : State), s.reaches e RTC_SUBSEC.addr ∧ aget s.sys.latched RTC_SUBSEC.addr = none) ∧
    (∃ (c : Word) (d : Word) (s : State), s.pwr.aoDown = false ∧ s.rtc.setCopy = some (c, d)) ∧
    (∃ (s : State), s.pwr.aoDown = false ∧ s.rtc.setCopy = none ∧ s.get RTC_TRIM.T = 0 ∧ s.rtc.trimT = 0 ∧ s.rtc.shift = 0 ∧ s.get
      RTC_SUBSEC.PRE < 32767) ∧
    (∃ (s : State), s.pwr.aoDown = false) :=
  ⟨
    ⟨(2), (0xC6A00001#32 : Word), (let b := State.reset;
      (b.setReg RTC_SETTIME.addr 0#32).setReg RTC_SETDATE.addr (BitVec.ofNat 32 (0))), by unfold State.reaches; decide +kernel⟩,
    ⟨(2), (0#32 : Word), (let b := State.reset; b.set RTC_STAT.BORROW 0), by unfold State.reaches; decide +kernel⟩,
    ⟨(2), (let b := State.reset; b), by unfold State.reaches; decide +kernel⟩,
    ⟨(0#32 : Word), (0#32 : Word), (let b := State.reset;
      { b with rtc := { b.rtc with setCopy := some (0#32, 0#32), shift := -5, trimT := 7 } }), by decide +kernel⟩,
    ⟨(let b := State.reset;
      { ((b.set RTC_TRIM.T 0).set RTC_SUBSEC.PRE 32766) with rtc := { b.rtc with i := 5 } }), by decide +kernel⟩,
    ⟨(let b := State.reset; b), by decide +kernel⟩⟩

theorem witness_CalendarStaysValid :
    ∃ (t : Word) (d : Word), dateOk t d = true ∧ fieldOf t 24 8 = 0 :=
    ⟨(timeWord 0 0 0 : Word), (dateWord 1 5 1 1 : Word), by decide +kernel⟩

theorem witness_TimerCommandsComplete :
    (∃ (e : Fin 16) (n : Fin 8) (s : State), s.reaches e (TMR_CTRL.addr n) ∧ s.tmrFollower n = false) ∧
    (∃ (e : Fin 16) (n : Fin 8) (v : Word) (s : State), s.reaches e (TMR_CTRL.addr n) ∧ s.tmrFollower n = false ∧ s.bit (TMR_CTRL.RUN n) =
      true ∧ v.getLsbD 1 = false) ∧
    (∃ (e : Fin 16) (n : Fin 8) (v : Word) (s : State), s.reaches e (TMR_CTRL.addr n) ∧ s.tmrFollower n = false ∧ v.getLsbD 1 = false) ∧
    (∃ (e : Fin 16) (n : Fin 8) (s : State), s.reaches e (TMR_CNT.addr n) ∧ s.tmrFollower n = false ∧ s.chained n = false) ∧
    (∃ (n : Fin 8) (s : State), s.dOn 28 = true ∧ s.tmrFollower n = false ∧ s.get (TMR_CFG.CAPSRC n) ≠ 0) ∧
    (∃ (e : Fin 16) (n : Fin 8) (rising : Bool) (s : State), s.reaches e (if rising = true then TMR_CAPR.addr n else TMR_CAPF.addr n) ∧
      s.tmrFollower n = false ∧ aget s.sys.latched (if rising = true then TMR_CAPR.addr n else TMR_CAPF.addr n) = none) :=
  ⟨
    ⟨(2), (0), (let b := State.reset; let b := b.set (TMR_CFG.CHAIN 0) 1;
      { b.set (TMR_CTRL.RUN 0) 1 with tmr := vmod (vmod b.tmr 0 (fun u => { u with cnt := 0xFFFFFFFF#32, latch := 5, residue := 3 })) 1 (fun u => { u with cnt := 3 }) }), by unfold State.reaches; decide +kernel⟩,
    ⟨(2), (0), (0#32 : Word), (let b := State.reset; let b := b.set (TMR_CFG.CHAIN 0) 1;
      { b.set (TMR_CTRL.RUN 0) 1 with tmr := vmod (vmod b.tmr 0 (fun u => { u with cnt := 0xFFFFFFFF#32, latch := 5, residue := 3 })) 1 (fun u => { u with cnt := 3 }) }), by unfold State.reaches; decide +kernel⟩,
    ⟨(2), (0), (0#32 : Word), (let b := State.reset; let b := b.set (TMR_CFG.CHAIN 0) 1;
      { b.set (TMR_CTRL.RUN 0) 1 with tmr := vmod (vmod b.tmr 0 (fun u => { u with cnt := 0xFFFFFFFF#32, latch := 5, residue := 3 })) 1 (fun u => { u with cnt := 3 }) }), by unfold State.reaches; decide +kernel⟩,
    ⟨(2), (0), (let b := State.reset; let b := (List.range 4).foldl (fun (b : State) k => b.set (TMR_CFG.CHAIN (2*k)) 0) b;
      { b.set (TMR_CTRL.RUN 0) 0 with tmr := vmod b.tmr 0 (fun u => { u with cnt := 0xFFFFFFFF#32, latch := 5, residue := 3 }) }), by unfold State.reaches; decide +kernel⟩,
    ⟨(0), (let b := State.reset; let b := (List.range 4).foldl (fun (b : State) k => b.set (TMR_CFG.CHAIN (2*k)) 0) b;
      { ((b.set (TMR_CFG.CAPSRC 0) 1).set (TMR_STAT.RVALID 0) 0).set (TMR_STAT.FVALID 0) 0 with tmr := vmod b.tmr 0 (fun u => { u with cnt := 0xFFFFFFFF#32, latch := 5, residue := 3 }) }), by decide +kernel⟩,
    ⟨(2), (0), (true : Bool), (let b := State.reset;
      let b := (List.range 4).foldl (fun (b : State) k => b.set (TMR_CFG.CHAIN (2*k)) 0) b;
      (b.set (TMR_STAT.RVALID 0) 0).set (TMR_STAT.FVALID 0) 0), by unfold State.reaches; decide +kernel⟩⟩

theorem witness_TimerTickCompletes :
    (∃ (n : Fin 8) (s : State), s.tmrSource n = true ∧ s.bit (TMR_CTRL.RUN n) = true ∧ s.gateOpen n = true ∧ (vget s.tmr n).pendStart =
      false ∧ (vget s.tmr n).pendStop = false ∧ (vget s.tmr n).pendClr = false ∧ s.tmrCleared n = true) ∧
    (∃ (n : Fin 8) (s : State), s.tmrSource n = true ∧ s.bit (TMR_CTRL.RUN n) = true ∧ s.gateOpen n = true ∧ (vget s.tmr n).pendStart =
      false ∧ (vget s.tmr n).pendStop = false ∧ (vget s.tmr n).pendClr = false ∧ s.tmrCleared n = false) :=
  ⟨
    ⟨(0), (let b := State.reset;
      let b := (((((b.set (TMR_CFG.CLKSRC 0) 0).set (TMR_CFG.GATESRC 0) 0).set (TMR_CFG.CHAIN 0) 0).set (TMR_CFG.PRE 0) 0).set (TMR_CTRL.RUN 0) 1);
      { b with pending := [.timerClear 0 0 2#32] }), by decide +kernel⟩,
    ⟨(0), (let b := State.reset;
      let b := ((((((b.set (TMR_CFG.CLKSRC 0) 0).set (TMR_CFG.GATESRC 0) 0).set (TMR_CFG.CHAIN 0) 1).set (TMR_CFG.PRE 0) 0).set (TMR_CTRL.RUN 0) 1).set (TMR_CTRL.ONESHOT 0) 0).setReg (TMR_PERIOD.addr 0) 0xFFFFFFFF |>.setReg (TMR_PERIOD.addr 1) 5;
      { b with tmr := vmod (vmod b.tmr 0 (fun _ => { cnt := BitVec.ofNat 32 0xFFFFFFFF, residue := 0 })) 1 (fun _ => { cnt := 3 }) }), by decide +kernel⟩⟩

theorem witness_EventCommandsComplete :
    (∃ (e : Fin 16) (k : Fin 64) (s : State), s.reaches e (EVR_CHCTL.addr k)) ∧
    (∃ (k : Fin 64) (p : Nat × Nat) (s : State), s.dOn 28 = true ∧ s.evr.transit.find? (fun p => p.1 = k.val) = some p ∧ s.get
      (EVR_CHCFG.CONSUMER k) = 0) ∧
    (∃ (k : Fin 64) (p : Nat × Nat) (s : State), s.dOn 28 = true ∧ s.evr.transit.find? (fun p => p.1 = k.val) = some p ∧ s.get
      (EVR_CHCFG.CONSUMER k) = 0x52 ∧ s.tsu.capPend = false ∧ aget s.evr.arrived 0x52 ≠ some p.2) ∧
    (∃ (s : State), s.dOn 28 = true) :=
  ⟨
    ⟨(2), (0), (let b := State.reset;
      { b with evr := { b.evr with transit := [(3,4)] } }), by unfold State.reaches; decide +kernel⟩,
    ⟨(0), ((0, 5) : Nat × Nat), (let b := State.reset;
      { b.set (EVR_CHCFG.CONSUMER 0) 0 with evr := { b.evr with transit := [(40,4), (0,5), (0,6)] } }), by decide +kernel⟩,
    ⟨(0), ((0, 5) : Nat × Nat), (let b := State.reset;
      { b.set (EVR_CHCFG.CONSUMER 0) 0x52 with evr := { b.evr with transit := [(40,4), (0,5), (0,6)] }, tsu := { b.tsu with capPend := false } }), by decide +kernel⟩,
    ⟨(let b := State.reset; b.set (EVR_PCSTAT.OUT 0) 0), by decide +kernel⟩⟩

theorem witness_ShiftAmountsAndDivisionEdges :
    (∃ (n : Fin 16) (w : Word) (s : State), s.issuesOne n w ∧ sylD w ≠ 0) ∧
    (∃ (n : Fin 16) (w : Word) (s : State), s.issuesOne n w ∧ sylUnit w ≤ 1 ∧ sylOp w = 0x08 ∧ (s.engOf n).cpu.gpr (sylB w) = 32#32) ∧
    (∃ (n : Fin 16) (w : Word) (s : State), s.issuesOne n w ∧ sylUnit w ≤ 1 ∧ sylOp w = 0x09) ∧
    (∃ (n : Fin 16) (w : Word) (s : State), s.issuesOne n w ∧ sylUnit w = 2 ∧ sylOp w = 0x08 ∧ (s.engOf n).cpu.gpr (sylB w) = 0#32) ∧
    (∃ (n : Fin 16) (w : Word) (s : State), s.issuesOne n w ∧ sylUnit w = 2 ∧ sylOp w = 0x08 ∧ (s.engOf n).cpu.gpr (sylA w) = 0x80000000#32
      ∧ (s.engOf n).cpu.gpr (sylB w) = 0xFFFFFFFF#32) :=
  ⟨
    ⟨(2), (0x81921280#32 : Word), (let b := State.reset;
      runs b 2 256 [0x81921280#32] [(1, 0x7FFFFFFF#32), (2, 1#32), (3, 0x80000000#32), (4, 0xFFFFFFFF#32), (5, 0#32), (6, 0x400#32), (7, 33#32), (8, 31#32)] 0#32), by unfold State.issuesOne; decide +kernel⟩,
    ⟨2, 0x82121100#32, (runs State.reset 2 256 [0x82121100#32] [(1, 7), (2, 5)] |>.modCpu 2 (fun c => c.setGpr 2 32)), by unfold State.issuesOne; decide +kernel⟩,
    ⟨2, 0x92521100#32, (runs State.reset 2 256 [0x92521100#32] [(1, 7), (2, 5)]), by unfold State.issuesOne; decide +kernel⟩,
    ⟨2, 0xA2121000#32, (runs State.reset 2 256 [0xA2121000#32] [(1, 7), (2, 5)]), by unfold State.issuesOne; decide +kernel⟩,
    ⟨2, 0xA2121100#32, (runs State.reset 2 256 [0xA2121100#32] [(1, 7), (2, 5)] |>.modCpu 2 (fun c => (c.setGpr 1 0x80000000).setGpr 2 0xFFFFFFFF)), by unfold State.issuesOne; decide +kernel⟩⟩

theorem witness_NarrowRegisterAccessFaults :
    ∃ (addr : Word) (off : Nat) (s : State), s.pwr.aoDown = false ∧ regionOf addr.toNat = .periph off :=
    ⟨(0x20000001#32 : Word), (0x1 : Nat), (let b := State.reset; let b := b.set SYS_FAULTREC.VALID 0; b), by decide +kernel⟩

theorem witness_CenturyWraps :
    ∃ (s : State), s.pwr.aoDown = false ∧ s.rtc.setCopy = none ∧ s.rtc.shift = 0 ∧ s.rtc.trimT = 0 ∧ s.get RTC_TRIM.T = 0 ∧ s.bit
      RTC_STAT.BORROW = false ∧ s.get RTC_SUBSEC.PRE = 32767 ∧ s.reg RTC_TIME.addr = timeWord 23 59 59 ∧ s.reg RTC_DATE.addr = dateWord 5
      399 12 31 :=
    ⟨(let b := State.reset; let b := b;
      let b := (((b.set RTC_TRIM.T 0).set RTC_STAT.BORROW 0).set RTC_SUBSEC.PRE 32767).setReg RTC_TIME.addr (timeWord 23 59 59) |>.setReg RTC_DATE.addr (dateWord 5 399 12 31);
      b), by decide +kernel⟩

/-! ### Single steps and values against the examples of the specification -/

/-- The state a command leads to. -/
def after (c : Instr) (s : State) : State :=
  match exec c s with
  | .next t => t
  | _ => s

/-- Example of R280: the bundle at 0x400 that swaps g5 and g6 and loads from the old g5. -/
def swapBundle : State :=
  putw (runs State.reset 2 0x400 [0x000C5000, 0x100A6000, 0xB1105008] [(5, 0x10200), (6, 0x10400)]) (2 * 0x20000 + 0x10208) 0xCAFEF00D

theorem test_bundle_reads_old_values :
    (((after (.bundleIssue 2) swapBundle).engOf 2).cpu.gpr 6, ((after (.bundleIssue 2) swapBundle).engOf 2).cpu.gpr 5,
      ((after (.bundleIssue 2) swapBundle).engOf 2).cpu.gpr 8, ((after (.bundleIssue 2) swapBundle).engOf 2).cpu.pc) =
    (0x10200#32, 0x10400#32, 0xCAFEF00D#32, 0x40C#32) := by decide +kernel

/-- The words of the example of R280: A0 ADD g6, g5, g0; A1 ADD g5, g6, g0; L LW g8, 8(g5) with the stop bit. -/
theorem test_syllable_fields :
    ([0x000C5000#32, 0x100A6000#32, 0xB1105008#32].map (fun w => (sylUnit w, sylOp w, sylD w, sylA w, sylImm w))) =
    [(0, 0, 6, 5, 0), (1, 0, 5, 6, 0), (3, 4, 8, 5, 8)] := by decide +kernel

/-- Example of R71: MF-5 on chain B at 2,420,000,000 Hz. -/
theorem test_nco_word : ncoWord 1 2420000000 = 0x42AAAAAB := by decide +kernel

/-- Example of chapter 4: MF-5 at MCS2, the MPDU "123456789": its FCS, its three data symbols. -/
theorem test_mf_frame :
    crc32 [0x31, 0x32, 0x33, 0x34, 0x35, 0x36, 0x37, 0x38, 0x39] = 0xCBF43926 ∧ mfSymbols 2 13 = 3 := by decide +kernel

/-- Examples of R160 and R189: an MF-5 MCS5 frame of LENGTH 204 lasts 325 us; with TINT 1,000 a long preamble has 40,013 units, a train
3,043 copies. -/
theorem test_taster_plans :
    let s := (State.reset.set (nb 3 10 0 16) 1000).set LNK_TSEND.SLACK 150
    airNs 2 0 5 4 204 false = 325000 ∧ s.tasterPlan 3 1 2 325000 = some (40013, 1) ∧
      ((s.set (nb 3 10 23 1) 1).tasterPlan 3 1 2 325000).map (·.2) = some 3043 := by decide +kernel

/-- Example of R46: the budget limits at PL1 with 10 ms beats and at PL0 with 1.25 ms beats. -/
theorem test_budget_limits :
    State.reset.budgetLimit 1 = 3582000 ∧ (after (.registerWrite 0 .word (BitVec.ofNat 32 BEAT_CTRL.addr) 0) State.reset).budgetLimit 0 = 216000 ∧
      (after (.beatPeriodWrite 0 0) State.reset).budgetLimit 0 = 216000 := by decide +kernel

/-- Example of R205: the header of a packet from 0x0305 to 0x1A2B, and the bytes a router sends on. -/
theorem test_crust_header :
    let b : List Byte := [0x21, 0x84, 0x02, 0x2B, 0x1A, 0x05, 0x03, 0x00]
    (crustVer b, crustHop b, crustTc b, crustDst b, crustSrc b) = (1, 16, 40, 0x1A2B, 0x0305) ∧
      (setHop b 15).take 3 = [0xE1, 0x83, 0x02] := by decide +kernel

/-- Example of R210: the entry 0x9070_C800 at 0x1100_68AC routes 0x1A2B over band B to neighbour 7, or 12 with 7 down. -/
theorem test_route :
    let s : State := { State.reset with mem := [(0x110068AD, 0xC8), (0x110068AE, 0x70), (0x110068AF, 0x90)] }
    s.lookup 0x1A2B = .to 1 7 ∧ (s.set (MSH_DOWN.DOWN 0) 0x80).lookup 0x1A2B = .to 1 12 := by decide +kernel

/-- Example of R217: mesh bytes of a fragment where one frame carries 102. -/
theorem test_fragment_chunk : chunkLen 102 = 80 := by decide +kernel

/-- Example of R254: a refill of 160,000 units, and the tokens of beats 1 to 3 before it. -/
theorem test_refill :
    let u : Queue := { rate := 2000, burst := 4000 }
    (({ u with token := -500 * 64 } : Queue).refill 80).token = 2000 * 64 ∧
      (({ u with token := 0 } : Queue).refill 80).token = 2500 * 64 := by decide +kernel

/-- Example of R262: ABN 5 lies 11 beats after 0xFF_FFFF_FFFA. -/
theorem test_wrap : wrapDiff 40 5 0xFFFFFFFFFA = 11 := by decide +kernel

/-- Example of R345: PKA_ATTLEFT after the 330th index. -/
theorem test_attleft :
    let s := (State.reset.set KEY_ATTNEXT.VALID 1).set KEY_ATTNEXT.Q 330
    ({ s with sec := { s.sec with attBlk := 6 } } : State).attLeft = 1048246 := by decide +kernel

/-- Example of R433: 2024-06-15 13:45:30 set; the next edge shows a Saturday. -/
theorem test_rtc_set :
    let s := (State.reset.setReg RTC_SETTIME.addr 0x000D2D1E).setReg RTC_SETDATE.addr 0x0180060F
    let t := after .rtcTick (after (.rtcSet 0 0xC6A00001) s)
    (t.reg RTC_TIME.addr, t.reg RTC_DATE.addr, t.get RTC_SUBSEC.PRE) = (0x000D2D1E#32, 0xC180060F#32, 0) := by decide +kernel

/-- Example of R436: a shift of -3,000 at PRE 1,000. -/
theorem test_rtc_shift :
    let t := after .rtcTick (after (.rtcShift 0 0xF448) (State.reset.set RTC_SUBSEC.PRE 1000))
    (t.get RTC_SUBSEC.PRE, t.bit RTC_STAT.BORROW) = (30769, true) := by decide +kernel

/-- Example of R450: a unit with PRE 31, PERIOD 1,023 and CMP 500 advanced over 98,304 SLOW ticks of sleep. -/
theorem test_timer_sleep :
    let s := ((((State.reset.set (TMR_CFG.ELAPSED 0) 1).set (TMR_CFG.CLKSRC 0) 2).set (TMR_CFG.PRE 0) 31).set (TMR_CTRL.RUN 0) 1)
    let s := (s.setReg (TMR_PERIOD.addr 0) 1023).setReg (TMR_CMP.addr 0) 500
    let s : State := { s with tmr := vmod s.tmr 0 (fun _ => { cnt := 400, residue := 10 }) }
    let t := s.tmrSleepAdvance 0 98304
    (t.tmrCount 0, (vget t.tmr 0).residue, t.get (TMR_STAT.SLPWRAP 0), t.bit (TMR_STAT.SLPCROSS 0)) = (400, 10, 3, true) := by
  decide +kernel

/-- Example of R457: PC3 with TABLE 0x2222 passes GPIO4 while GPIO9 is low. -/
theorem test_praline :
    let s := ((State.reset.setReg (EVR_PCIN.addr 3) 0x7E7E4944).set (EVR_PCTAB.TABLE 3) 0x2222)
    let on (w : Word) : Bool := (after (.pralineOutputChange 3) { s with pad := { s.pad with ext := w } }).bit (EVR_PCSTAT.OUT 3)
    (on 0x10, on 0x210, on 0x200, on 0) = (true, false, false, false) := by decide +kernel

/-- Each check of WellFormed lets a term pass and turns one away. -/
theorem test_wf :
    (Instr.domainRequest 0 28 0).wf = true ∧ (Instr.domainRequest 0 29 0).wf = false ∧ (Instr.regulatorReady 32).wf = true ∧
      (Instr.regulatorReady 31).wf = false ∧ (Instr.oscillatorReady 30).wf = false ∧ (Instr.memoryReady 29).wf = false ∧
      (Instr.logicReady 31).wf = false ∧ (Instr.scrubRead 2 7 .clean).wf = true ∧ (Instr.scrubRead 2 8 .clean).wf = false ∧
      (Instr.nobufReoffer 1).wf = true ∧ (Instr.nobufReoffer 0).wf = false ∧ (Instr.tbStep 0 2 0).wf = true ∧
      (Instr.tbStep 0 3 0).wf = false ∧ (Instr.tbArm 0 3 0).wf = false ∧ (Instr.tbCapture 0 3 0).wf = false := by decide +kernel

/-- R89: the first 24 bits of the reference sequence. -/
theorem test_reference_sequence :
    (refBits 24).map b2n = [0, 0, 0, 0, 0, 0, 0, 0, 0, 1, 1, 0, 0, 0, 0, 0, 0, 0, 1, 1, 1, 1, 0, 0] := by decide +kernel

/-- Example of R99: the 16-QAM bits 1, 0, 1, 1. -/
theorem test_qam_point : pointOf 5 [true, false, true, true] = { k := 5, i := 3, q := 1, norm := 10 } := by decide +kernel

/-- Example of chapter 4: the scrambled bytes, the place of coded bit 1 of data symbol 0, and the header word. -/
theorem test_mf_bits :
    scramble (bitsOfBytes [0x31, 0x32, 0x33]) = bitsOfBytes [0x31, 0x34, 0x0F] ∧
    (interleave ((List.range 192).map (fun i => decide (i = 1)))).findIdx id = 16 ∧ dataTones.getD 8 0 = -43 ∧
    mfHeader 2 13 false false = 0x2800D2 := by decide +kernel

/-- FIPS 197, appendix C.1, and the digests of "abc" of FIPS 180-4. -/
theorem test_standards :
    aesEnc [0, 1, 2, 3, 4, 5, 6, 7, 8, 9, 10, 11, 12, 13, 14, 15] 0x00112233445566778899aabbccddeeff#128 =
      0x69c4e0d86a7b0430d8cdb78070b4c55a#128 ∧
    (sha256 [0x61, 0x62, 0x63]).take 4 = [0xba, 0x78, 0x16, 0xbf] ∧
    (sha384 [0x61, 0x62, 0x63]).take 4 = [0xcb, 0x00, 0x75, 0x3f] := by decide +kernel

/-- Example of R272: 98,304 ticks of a crystal 2 ppm slow advance TB0 by 3,000,006,000 ns exactly. -/
theorem test_sleep_advance :
    let b := ({ v := tbOf 5000 123456789 0 } : TimeBase).add (slowInc 98304 0x7735A3A0 0)
    (tbSec b.v, tbNs b.v, tbFrac b.v, b.res) = (5003, 123462789, 0, 0) := by decide +kernel

/-- Example of R222, in units of 2^-4 ns: the offset and the delay. -/
theorem test_jajor_offset : jjTheta 480 32 416 16 = 24 ∧ jjDelay 480 32 416 16 = 424 := by
  simp only [jjTheta, jjDelay, jjHalf]; omega

/-- Example of R136: the words of the mask for MF-5, its points, and its two bins. -/
theorem test_mask :
    let s := (State.reset.setReg (TXF_MASK.addr 4) 0x323C1E28).setReg (TXF_MASK.addr 5) 0x64644B50
    s.maskPoints 1 = [(30, 40), (50, 60), (75, 80), (100, 100)] ∧ maskAscends (s.maskPoints 1) = true ∧
      maskBreaks 60 (-3650) (s.maskPoints 1) = false ∧ maskBreaks 35 (-2100) (s.maskPoints 1) = true := by decide +kernel

/-- A step takes the front command and leaves the rest of the queue; on an empty queue the block idles. -/
theorem test_queue :
    (match step { State.reset with pending := [.gpioEdge 3 true, .flashResetPulse] } with
     | .next t => decide (t.pending = [.flashResetPulse]) && bitOf t.pad.ext.toNat 3
     | _ => false) = true ∧
    (match step State.reset with
     | .next t => decide (t.pending = []) && decide (t.clk = 1)
     | _ => false) = true := by decide +kernel

end Sys2Proof.Tests
end

section
namespace Sys2Proof.Machine

/-- Nothing is listed after reset: every list that has a canonical form is empty. -/
theorem canon_reset : State.reset.Canon := ⟨rfl, rfl, rfl, rfl, fun _ hd => (nomatch hd)⟩

/-- A register that is not listed reads the reset value of its row (R10). -/
theorem reg_reset {a : Nat} {r : RegRow} (h : findRow a = some r) : State.reset.reg a = BitVec.ofNat 32 r.reset := by
  change regReset a = _
  rw [regReset, h]

end Sys2Proof.Machine

open Sys2Proof Sys2Proof.Machine

/-- Settles O5: nothing is listed after reset, so every register and byte reads what an unlisted address reads (R10, R32). -/
theorem resetIsCanon : Obligations.ResetIsCanon :=
  ⟨canon_reset, fun _ _ => reg_reset, fun _ => rfl, fun _ => rfl, rfl, fun _ hc => (nomatch hc)⟩
end

section
namespace Sys2Proof.Machine

/-- What every operation of the model keeps of the state `u` it started from: the queue, the canonical form, and the
order of what stands in one-time-programmable bits. -/
structure State.Evolves (u s : State) : Prop where
  pending_eq : s.pending = u.pending
  canon_of : u.Canon → s.Canon
  fuses_of : u.FuseInv → s.FuseInv ∧ u.sec.lc ≤ s.sec.lc ∧ u.upd.counter ≤ s.upd.counter

namespace State.Evolves

variable {u s t : State}

theorem refl (s : State) : s.Evolves s := ⟨rfl, id, fun h => ⟨h, le_rfl, le_rfl⟩⟩

theorem trans (h : u.Evolves s) (k : s.Evolves t) : u.Evolves t where
  pending_eq := k.pending_eq.trans h.pending_eq
  canon_of hu := k.canon_of (h.canon_of hu)
  fuses_of hu :=
    have ⟨hs, hl, hc⟩ := h.fuses_of hu
    have ⟨ht, kl, kc⟩ := k.fuses_of hs
    ⟨ht, hl.trans kl, hc.trans kc⟩

/-- An update of the canonical lists and of nothing else that the invariants speak of. -/
theorem of_canon (h : u.Evolves s) (hp : t.pending = s.pending)
    (hf : (t.sec.lcMove, t.sec.lc, t.upd.counter) = (s.sec.lcMove, s.sec.lc, s.upd.counter))
    (hc : s.Canon → t.Canon) : u.Evolves t := by
  simp only [Prod.mk.injEq] at hf
  obtain ⟨hm, hl, hk⟩ := hf
  refine h.trans ⟨hp, hc, fun hs => ⟨fun c hc => ?_, hl.ge, hk.ge⟩⟩
  rw [hl]
  exact hs c (hm ▸ hc)

/-- The state component of a pair that is written out. -/
theorem snd {α : Type} {a : α} (h : u.Evolves s) : u.Evolves (a, s).2 := h

/-- The state component of a pair that is known. -/
theorem of_snd {α : Type} {p : α × State} {a : α} (h : u.Evolves p.2) (he : p = (a, t)) : u.Evolves t := by
  subst he; exact h

theorem of_fst {α : Type} {p : State × α} {a : α} (h : u.Evolves p.1) (he : p = (t, a)) : u.Evolves t := by
  subst he; exact h

theorem of_thd {α β : Type} {p : α × β × State} {a : α} {b : β} (h : u.Evolves p.2.2) (he : p = (a, b, t)) :
    u.Evolves t := by
  subst he; exact h

theorem of_mid {α β : Type} {p : α × State × β} {a : α} {b : β} (h : u.Evolves p.2.1) (he : p = (a, t, b)) :
    u.Evolves t := by
  subst he; exact h

theorem ite {c : Prop} [Decidable c] (hs : u.Evolves s) (ht : u.Evolves t) : u.Evolves (if c then s else t) := by
  split
  · exact hs
  · exact ht

theorem foldl {α : Type} {l : List α} {f : State → α → State} (h : u.Evolves s)
    (hf : ∀ s a, u.Evolves s → u.Evolves (f s a)) : u.Evolves (l.foldl f s) := by
  induction l generalizing s with
  | nil => exact h
  | cons a l ih => exact ih (hf s a h)

theorem each {α : Type} {l : List α} {f : State → α → State} (h : u.Evolves s)
    (hf : ∀ s a, u.Evolves s → u.Evolves (f s a)) : u.Evolves (s.each l f) := h.foldl hf

theorem when {c : Bool} {f : State → State} (h : u.Evolves s) (hf : u.Evolves (f s)) : u.Evolves (s.when c f) := by
  unfold State.when
  exact .ite hf h

theorem setReg (h : u.Evolves s) {a v} : u.Evolves (s.setReg a v) :=
  h.of_canon rfl rfl fun c => { c with regs := swf_sset regReset s.regs a v c.regs }

theorem set (h : u.Evolves s) {l v} : u.Evolves (s.set l v) := h.setReg

theorem setMbyte (h : u.Evolves s) {a b} : u.Evolves (s.setMbyte a b) :=
  h.of_canon rfl rfl fun c => { c with mem := swf_sset _ s.mem a b c.mem }

theorem setMbytes (h : u.Evolves s) {a l} : u.Evolves (s.setMbytes a l) := by
  induction l generalizing s a with
  | nil => exact h
  | cons b l ih => exact ih h.setMbyte

theorem setLbyte (h : u.Evolves s) {a b} : u.Evolves (s.setLbyte a b) :=
  h.of_canon rfl rfl fun c => { c with lmem := swf_sset _ s.lmem a b c.lmem }

theorem setLbytes (h : u.Evolves s) {a l} : u.Evolves (s.setLbytes a l) := by
  induction l generalizing s a with
  | nil => exact h
  | cons b l ih => exact ih h.setLbyte

theorem setFbyte (h : u.Evolves s) {a b} : u.Evolves (s.setFbyte a b) :=
  h.of_canon rfl rfl fun c => { c with flash := swf_sset _ s.flash a b c.flash }

theorem setFbytes (h : u.Evolves s) {a l} : u.Evolves (s.setFbytes a l) := by
  induction l generalizing s a with
  | nil => exact h
  | cons b l ih => exact ih h.setFbyte

theorem eraseFlash (h : u.Evolves s) {a k} : u.Evolves (s.eraseFlash a k) :=
  h.of_canon rfl rfl fun c => { c with flash := swf_sdrop _ _ s.flash c.flash }

/-- An update of what the invariants do not speak of; of TSU, SEC and UPD, the fields they speak of stay. -/
theorem edit (h : u.Evolves s) {rdata clk drawn hot sys pwr evr tmr rtc pad tsu ecc ecc1 written beat rxc slc phy car txc
      glz lnk sec qsc msh jjl eth eng takeover links upd hif}
    (ht : tsu.stepDue = s.tsu.stepDue := by rfl)
    (hs : (sec.lcMove, sec.lc, upd.counter) = (s.sec.lcMove, s.sec.lc, s.upd.counter) := by rfl) :
    u.Evolves ⟨s.pending, s.regs, rdata, clk, drawn, hot, s.mem, sys, pwr, evr, tmr, rtc, pad, tsu, s.lmem, s.flash, ecc,
      ecc1, written, beat, rxc, slc, phy, car, txc, glz, lnk, sec, qsc, msh, jjl, eth, eng, takeover, links, upd, hif⟩ :=
  h.of_canon rfl hs fun c => ⟨c.regs, c.mem, c.lmem, c.flash, ht ▸ c.steps⟩

theorem incBy (h : u.Evolves s) {l k} : u.Evolves (s.incBy l k) := Evolves.edit (s := s.lift l k) h.set

end State.Evolves

/-- The state that an access of an L syllable leaves comes from `u`. -/
inductive MemOut.EvolvedFrom (u : State) : MemOut → Prop
  | done {s v} (h : u.Evolves s) : EvolvedFrom u (.done s v)
  | failed {s f} (h : u.Evolves s) : EvolvedFrom u (.failed s f)
  | atomic {a} : EvolvedFrom u (.atomic a)

end Sys2Proof.Machine
end

section
namespace Sys2Proof.Machine
namespace State.Evolves
-- The lemmas are many and short: taken one after another they do not ask for a thread each.
set_option Elab.async false
variable {u s t : State}

/-! ### The operations of Machine/Ops.lean -/

theorem setS (h : u.Evolves s) {l i} : u.Evolves (s.setS l i) := h.set

theorem lift (h : u.Evolves s) {l k} : u.Evolves (s.lift l k) := h.set

theorem raise (h : u.Evolves s) {l} : u.Evolves (s.raise l) := h.incBy

theorem raiseBit (h : u.Evolves s) {l n} : u.Evolves (s.raiseBit l n) := h.raise

theorem inc (h : u.Evolves s) {l} : u.Evolves (s.inc l) := h.incBy

theorem wrote (h : u.Evolves s) {e} : u.Evolves (s.wrote e) := h.edit

theorem unwrite (h : u.Evolves s) {p} : u.Evolves (s.unwrite p) := h.edit

theorem corrected (h : u.Evolves s) {p} : u.Evolves (s.corrected p) := .ite h h.edit.incBy

theorem eccReport (h : u.Evolves s) {e} : u.Evolves (s.eccReport e) := h.inc.set.set.set

theorem turnOn (h : u.Evolves s) {d} : u.Evolves (s.turnOn d) :=
  .ite h (.ite h.set.set.edit (.ite h.set.set h.set.set.edit.setReg))

theorem wakeReady (h : u.Evolves s) : u.Evolves s.wakeReady := .ite h.edit.raise h.edit

theorem recordCause (h : u.Evolves s) {same : Option Nat} {cause detail : Nat} :
    u.Evolves (match same with
      | some k => if cause < k then (s.set PWR_LASTWAKE.CAUSE cause).set PWR_LASTWAKE.DETAIL detail else s
      | none => ((s.inc PWR_LASTWAKE.COUNT).set PWR_LASTWAKE.CAUSE cause).set PWR_LASTWAKE.DETAIL detail) := by
  split
  · exact .ite h.set.set h
  · exact h.inc.set.set

theorem wake (h : u.Evolves s) {ds cause detail recorded} : u.Evolves (s.wake ds cause detail recorded) := by
  unfold State.wake
  extract_lets s1 _ s2 same s3
  have h1 : u.Evolves s1 := .each h fun _ _ h => h.turnOn
  have h2 : u.Evolves s2 := h1.edit
  have h3 : u.Evolves s3 := h2.recordCause
  exact .ite h (.ite h1 h3.edit.wakeReady)

theorem latchFault (h : u.Evolves s) {cls w addr} : u.Evolves (s.latchFault cls w addr) :=
  .ite h.setReg.setReg.edit (.ite h.inc.setReg.setReg h.inc)

theorem recordSync (h : u.Evolves s) {e f} : u.Evolves (s.recordSync e f) := h.latchFault

theorem raiseHw (h : u.Evolves s) {cls block detail} : u.Evolves (s.raiseHw cls block detail) :=
  .ite h.latchFault h.latchFault.wake

theorem blockRead (h : u.Evolves s) {blk p} : u.Evolves (s.blockRead blk p) := by
  unfold State.blockRead
  dsimp only
  split
  · exact h.corrected.eccReport.raiseHw
  · exact h.corrected

theorem enterEvent (h : u.Evolves s) {k} : u.Evolves (s.enterEvent k) := h.edit

theorem pulse (h : u.Evolves s) {p} : u.Evolves (s.pulse p) :=
  .ite h (.ite (.each h fun _ _ h => .ite h.enterEvent h) (.each h fun _ _ h => .ite h.enterEvent h))

theorem journal (h : u.Evolves s) {source code result origin digest} :
    u.Evolves (s.journal source code result origin digest) := by
  unfold State.journal
  exact .ite h.setMbytes.set.raise.set.raise h.setMbytes.set.raise

theorem journalHw (h : u.Evolves s) {code result} : u.Evolves (s.journalHw code result) := h.journal

theorem draw (h : u.Evolves s) : u.Evolves s.draw := h.edit

/-! ### The operations of Machine/Time.lean -/

theorem modTb (h : u.Evolves s) {n f} : u.Evolves (s.modTb n f) := h.edit

theorem showPhase (h : u.Evolves s) : u.Evolves s.showPhase := h.setS.set

theorem setPhase (h : u.Evolves s) {p} : u.Evolves (s.setPhase p) := h.edit.showPhase

theorem netCycle (h : u.Evolves s) : u.Evolves s.netCycle := .ite h (.ite h.modTb.modTb h.modTb.modTb.setPhase)

theorem refCycle (h : u.Evolves s) : u.Evolves s.refCycle :=
  .ite (.ite h.netCycle h) (.ite h.modTb.modTb h.modTb.modTb.netCycle)

theorem holdTick (h : u.Evolves s) : u.Evolves s.holdTick := .ite h.modTb.modTb h

theorem sleepTick (h : u.Evolves s) : u.Evolves s.sleepTick := by
  unfold State.sleepTick
  split
  · exact h.edit
  · exact h

theorem latchAt (h : u.Evolves s) {a v} : u.Evolves (s.latchAt a v) := h.edit

theorem fracRead (h : u.Evolves s) {n} : u.Evolves (s.fracRead n) := h.latchAt.latchAt.latchAt

theorem capture (h : u.Evolves s) {n} : u.Evolves (s.capture n) := h.set.set.set.set

theorem captureMask (h : u.Evolves s) {m} : u.Evolves (s.captureMask m) := .each h fun _ _ h => h.capture

theorem setValid (h : u.Evolves s) {n b} : u.Evolves (s.setValid n b) := h.set

theorem setArm (h : u.Evolves s) {n b} : u.Evolves (s.setArm n b) := h.set

theorem stepTo (h : u.Evolves s) {n rel v} : u.Evolves (s.stepTo n rel v) :=
  .ite h.modTb.setValid.raise.setPhase.edit h.modTb.setValid.raise

theorem askStep (h : u.Evolves s) {n rel v} (hn : n < 3) : u.Evolves (s.askStep n rel v) :=
  Evolves.of_canon (s := s.setArm n false) h.setArm rfl rfl fun c => { c with
    steps := fun d hd => (List.mem_append.1 hd).elim (c.steps d) fun e => by
      rw [List.mem_singleton.1 e]
      exact hn }

theorem stepCmd (h : u.Evolves s) {n w} : u.Evolves (s.stepCmd n w) := by
  unfold State.stepCmd
  extract_lets s1 key s2
  have h1 : u.Evolves s1 := .ite h.capture h
  have h2 : u.Evolves s2 := .ite h1.setArm h1
  split
  · split
    · rename_i hn
      exact h2.askStep hn.2.1
    · exact h2.raise
  · exact h2

theorem adoptStep (h : u.Evolves s) {v} : u.Evolves (s.adoptStep v) := .ite (h.askStep (by decide)) h.raise

theorem takeOffset (h : u.Evolves s) {src o} : u.Evolves (s.takeOffset src o) := h.setS.setS.edit.setPhase

theorem untakeOffset (h : u.Evolves s) {w} : u.Evolves (s.untakeOffset w) := h.setReg.setReg.edit.setPhase

theorem acceptOffset (h : u.Evolves s) {src u'} : u.Evolves (s.acceptOffset src u') := by
  unfold State.acceptOffset
  split
  · exact .ite h.untakeOffset.takeOffset h
  · exact h.inc.takeOffset

theorem servoOffset (h : u.Evolves s) {src o before} : u.Evolves (s.servoOffset src o before) :=
  .ite h (.ite h.inc.raise (.ite h.inc h.acceptOffset))

theorem rateReheat (h : u.Evolves s) : u.Evolves s.rateReheat := by
  unfold State.rateReheat
  split
  · exact h.setS
  · exact h

theorem slewComplete (h : u.Evolves s) : u.Evolves s.slewComplete := .ite h h.modTb.setPhase

theorem slowCal (h : u.Evolves s) {mean} : u.Evolves (s.slowCal mean) := .ite h h.set.set.set.raise

theorem latchE0 (h : u.Evolves s) {slow} : u.Evolves (s.latchE0 slow) := h.setPhase.edit

theorem exitE1 (h : u.Evolves s) {slow} : u.Evolves (s.exitE1 slow) := by
  unfold State.exitE1
  split
  · exact h
  · exact .ite h.edit.modTb.modTb.setValid.raise (.ite h.edit.modTb.modTb.setReg.set.set.setValid.set.raise
      h.edit.modTb.modTb.setReg.set.set.set)

theorem tsuHold (h : u.Evolves s) : u.Evolves s.tsuHold := h.edit.set.showPhase

theorem tsuUnhold (h : u.Evolves s) : u.Evolves s.tsuUnhold := .showPhase (.set (.edit (by split; exacts [h.set, h])))

theorem stampAt (h : u.Evolves s) {a v} : u.Evolves (s.stampAt a v) := h.setReg.setReg

/-! ### The operations of Machine/Rtc.lean -/

theorem alarm (h : u.Evolves s) {n at_ ad wakeEn} : u.Evolves (s.alarm n at_ ad wakeEn) :=
  .ite (.ite h.raise.pulse.wake h.raise.pulse) h

theorem rtcSecond (h : u.Evolves s) : u.Evolves s.rtcSecond :=
  .pulse (.raise (.alarm (.alarm (.ite h.setReg.setReg.raise h.setReg.setReg))))

theorem rtcCarry (h : u.Evolves s) : u.Evolves s.rtcCarry := .ite h.set h.rtcSecond

theorem rtcEdge (h : u.Evolves s) : u.Evolves s.rtcEdge := by
  unfold State.rtcEdge
  extract_lets _ s1 _ _ s2 _ s3 s4 s5 s6
  have h1 : u.Evolves s1 := .ite h.edit h
  have h2 : u.Evolves s2 := h1.edit
  have h3 : u.Evolves s3 := h1.edit
  have h4 : u.Evolves s4 := h3.set
  have h5 : u.Evolves s5 := .ite h4.rtcCarry h4
  have h6 : u.Evolves s6 := .ite h5.rtcCarry h5
  split
  · exact h2.setReg.setReg.set.set.set.set.set
  · exact .ite h6.set.set h6.set

theorem rtcCmd (h : u.Evolves s) {w} : u.Evolves (s.rtcCmd w) := .ite (.ite h.edit.set h.raise) h

theorem rtcShiftCmd (h : u.Evolves s) {w} : u.Evolves (s.rtcShiftCmd w) := .ite h h.edit.set

theorem subsecRead (h : u.Evolves s) : u.Evolves s.subsecRead := h.latchAt.latchAt

/-! ### The operations of Machine/Timers.lean -/

theorem withPads {f : State → State} (h : u.Evolves (f s)) : u.Evolves (s.withPads f) :=
  .each h fun _ _ h => .ite h h.pulse

theorem padWrite (h : u.Evolves s) {mask v} : u.Evolves (s.padWrite mask v) := h.setReg.withPads

theorem padToggle (h : u.Evolves s) {k} : u.Evolves (s.padToggle k) := .ite h.setReg.withPads.edit h

theorem modTmr (h : u.Evolves s) {n f} : u.Evolves (s.modTmr n f) := h.edit

theorem setCount (h : u.Evolves s) {n v} : u.Evolves (s.setCount n v) := .ite h.modTmr.modTmr h.modTmr

theorem tmrLatch (h : u.Evolves s) {n} : u.Evolves (s.tmrLatch n) := .set (.ite h.modTmr.modTmr h.modTmr)

theorem setRun (h : u.Evolves s) {n b} : u.Evolves (s.setRun n b) := h.set.set

theorem tmrStop (h : u.Evolves s) {n} : u.Evolves (s.tmrStop n) := h.setRun.tmrLatch

theorem tmrClear (h : u.Evolves s) {n} : u.Evolves (s.tmrClear n) := h.setCount.modTmr

theorem tmrCmpEvent (h : u.Evolves s) {n} : u.Evolves (s.tmrCmpEvent n) := h.raise.pulse

theorem tmrWrapEvent (h : u.Evolves s) {n} : u.Evolves (s.tmrWrapEvent n) := h.raise.pulse

theorem tmrTick (h : u.Evolves s) {n period cmp} : u.Evolves (s.tmrTick n period cmp) := by
  unfold State.tmrTick
  exact .ite (.ite h.setCount.tmrCmpEvent h.setCount) (.ite h.tmrStop.tmrWrapEvent (.ite
    h.setCount.tmrWrapEvent.tmrCmpEvent h.setCount.tmrWrapEvent))

theorem tmrPeriodTick (h : u.Evolves s) {n period cmp} : u.Evolves (s.tmrPeriodTick n period cmp) :=
  .ite (.ite h.modTmr.tmrTick h.modTmr) h

theorem tmrSourcePeriod (h : u.Evolves s) {n period cmp} : u.Evolves (s.tmrSourcePeriod n period cmp) := by
  unfold State.tmrSourcePeriod
  extract_lets _ s1 s2 s3
  have h1 : u.Evolves s1 := .ite h.tmrClear h.tmrPeriodTick
  have h2 : u.Evolves s2 := .ite h1.tmrStop h1
  have h3 : u.Evolves s3 := .ite h2.setRun h2
  exact h3.modTmr

theorem tmrCtrl (h : u.Evolves s) {n w} : u.Evolves (s.tmrCtrl n w) := by
  unfold State.tmrCtrl
  extract_lets s1 _ s2 s3
  have h1 : u.Evolves s1 := h.set
  have h2 : u.Evolves s2 := .ite h1.setRun (.ite h1.tmrStop h1)
  have h3 : u.Evolves s3 := .ite h2.tmrLatch h2
  exact .ite h1.set (.ite h3.tmrClear h3)

theorem tmrCountWrite (h : u.Evolves s) {n w} : u.Evolves (s.tmrCountWrite n w) :=
  .ite h.edit (.ite (.ite h.edit h.edit.setCount) (.ite h h.setCount))

theorem setPair (h : u.Evolves s) {n v r} : u.Evolves (s.setPair n v r) := .ite h.setReg.setReg h.setReg

theorem tmrCapture (h : u.Evolves s) {n rising} : u.Evolves (s.tmrCapture n rising) := by
  unfold State.tmrCapture
  extract_lets _ s1 s2 s3 s4 s5 _ _ s6
  have h1 : u.Evolves s1 := h.tmrLatch
  have h2 : u.Evolves s2 := .ite h1.raise h1
  have h3 : u.Evolves s3 := h2.setPair.set
  have h4 : u.Evolves s4 := .ite h1.raise h1
  have h5 : u.Evolves s5 := h4.setPair.set
  have h6 : u.Evolves s6 := .ite h5.setPair.raise h5
  exact .ite h3.modTmr h6.modTmr

theorem tmrSleepAdvance (h : u.Evolves s) {u' n} : u.Evolves (s.tmrSleepAdvance u' n) := by
  unfold State.tmrSleepAdvance
  extract_lets _ _ _ _ _ _ s1 _ _ s2 _ s3 s4 _ s5 _ s6 s7
  have h1 : u.Evolves s1 := h.modTmr
  have h2 : u.Evolves s2 := h1.setCount
  have h3 : u.Evolves s3 := .ite h2.tmrStop.tmrWrapEvent h2
  have h4 : u.Evolves s4 := .ite h3.tmrCmpEvent h3
  have h5 : u.Evolves s5 := h1.setCount.set
  have h6 : u.Evolves s6 := .ite h5.tmrWrapEvent h5
  have h7 : u.Evolves s7 := .ite h6.tmrCmpEvent h6
  exact .ite (.ite (.ite h4.raise h4) (.ite h7.raise h7)) h

theorem evFlag (h : u.Evolves s) {k} : u.Evolves (s.evFlag k) := .ite h.raise h.raise

theorem setHeld (h : u.Evolves s) {k b} : u.Evolves (s.setHeld k b) := .ite h.set h.set

theorem coalesce (h : u.Evolves s) : u.Evolves s.coalesce := h.inc.raise

theorem overrun (h : u.Evolves s) {c} : u.Evolves (s.overrun c) := h.raise.raise

theorem chctl (h : u.Evolves s) {k w} : u.Evolves (s.chctl k w) := .ite h.set.enterEvent h.set

theorem tmrInput (h : u.Evolves s) {n kind} : u.Evolves (s.tmrInput n kind) := by
  unfold State.tmrInput
  exact .ite h (.ite (.ite h.setRun h.modTmr) (.ite (.ite (.ite h.tmrStop h) h.modTmr) (.ite (.ite h.tmrClear
    h.modTmr) (.ite h.tmrLatch (.ite h.tmrPeriodTick h)))))

/-! ### The operations of Machine/Queues.lean -/

theorem allocCells (h : u.Evolves s) {cs} : u.Evolves (s.allocCells cs) := .each h.edit fun _ _ h => h.wrote

theorem writeCells (h : u.Evolves s) {cs b} : u.Evolves (s.writeCells cs b) := by
  induction cs generalizing s b with
  | nil => exact h
  | cons c cs ih => exact ih h.setMbytes

theorem modQ (h : u.Evolves s) {q f} : u.Evolves (s.modQ q f) := h.edit

theorem rsvWrite (h : u.Evolves s) {o w} : u.Evolves (s.rsvWrite o w) := .ite h.set h.raise

theorem modJj (h : u.Evolves s) {p f} : u.Evolves (s.modJj p f) := h.edit

theorem jjEmit (h : u.Evolves s) {p x} : u.Evolves (s.jjEmit p x) := h.modJj

theorem jjCredit (h : u.Evolves s) {p ctl n} : u.Evolves (s.jjCredit p ctl n) := .ite h h.jjEmit

theorem jjHold (h : u.Evolves s) {p ctl cs} : u.Evolves (s.jjHold p ctl cs) := h.modJj.jjCredit

theorem jjTake (h : u.Evolves s) {p ctl} : u.Evolves (s.jjTake p ctl) := h.allocCells.modJj.jjHold

theorem jjReplenish (h : u.Evolves s) : u.Evolves s.jjReplenish := .each h fun _ _ h => .ite h.jjTake h

theorem freeCells (h : u.Evolves s) {cs} : u.Evolves (s.freeCells cs) := h.edit.jjReplenish

theorem releaseBuf (h : u.Evolves s) {p} : u.Evolves (s.releaseBuf p) := by
  unfold State.releaseBuf
  split
  · exact h.edit
  · exact h.edit.freeCells

theorem modPkt (h : u.Evolves s) {q pid f} : u.Evolves (s.modPkt q pid f) := h.modQ

theorem unlinkPkt (h : u.Evolves s) {q pid} : u.Evolves (s.unlinkPkt q pid) := h.modQ

theorem removePkt (h : u.Evolves s) {q p} : u.Evolves (s.removePkt q p) := h.unlinkPkt.releaseBuf

theorem dropGroup (h : u.Evolves s) {q g} : u.Evolves (s.dropGroup q g) :=
  .raise (.inc (.each h fun _ _ h => .ite h.modPkt h.removePkt.inc))

theorem dropPkt (h : u.Evolves s) {q p} : u.Evolves (s.dropPkt q p) := by
  unfold State.dropPkt
  split
  · exact h
  · split
    · exact .ite h.removePkt.inc h.removePkt.inc.dropGroup
    · exact h.removePkt.inc

theorem dropExpired (h : u.Evolves s) {q p} : u.Evolves (s.dropExpired q p) := .ite h.dropPkt.inc h

theorem failWork (h : u.Evolves s) : u.Evolves s.failWork := .ite h.edit h

theorem dropEcc (h : u.Evolves s) {q p e} : u.Evolves (s.dropEcc q p e) := h.eccReport.raiseHw.dropPkt.inc.raise.edit

theorem meterPkt (h : u.Evolves s) {n len} : u.Evolves (s.meterPkt n len).2 := by
  unfold State.meterPkt
  dsimp only
  split
  · exact h.edit.inc
  · exact h.edit.inc
  · exact h.edit.inc

theorem judge (h : u.Evolves s) {q o bytes pkts cells f} : u.Evolves (s.judge q o bytes pkts cells f).2 := by
  unfold State.judge
  extract_lets x len m r n
  have hr : u.Evolves r.2 := by
    by_cases hp : fieldOf x.cfg 6 1 = 1 ∧ (vget s.qsc.pols (fieldOf x.cfg 0 5)).en = true
    · rw [show r = _ from if_pos hp]
      exact .snd h.meterPkt
    · rw [show r = _ from if_neg hp]
      exact h
  generalize r = r at hr ⊢
  split
  · exact h
  obtain ⟨_ | x, t⟩ := r
  · dsimp only
    split
    · exact hr
    split
    · exact hr
    · exact hr
  · exact hr

theorem judgeAll (h : u.Evolves s) {q o fs b p c} : u.Evolves (s.judgeAll q o fs b p c).2 := by
  induction fs generalizing s b p c with
  | nil => exact h
  | cons f fs ih =>
    unfold State.judgeAll
    split
    · rename_i heq
      exact h.judge.of_snd heq
    · rename_i heq
      exact ih (h.judge.of_snd heq)

theorem enqueue (h : u.Evolves s) {q f buf} : u.Evolves (s.enqueue q f buf) :=
  .set (.inc (.modQ (.edit (.ite h.allocCells.writeCells h))))

theorem countRefusal (h : u.Evolves s) {r wait} : u.Evolves (s.countRefusal r wait) := by
  unfold State.countRefusal
  split
  · exact h.inc
  · exact h.inc.raise
  · exact h.inc.raise
  · exact h.inc.raise

theorem takeIn (h : u.Evolves s) {q o fs buf} : u.Evolves (s.takeIn q o fs buf).2 := by
  unfold State.takeIn
  split
  · rename_i heq
    exact h.judgeAll.of_snd heq
  · rename_i heq
    exact .each (h.judgeAll.of_snd heq) fun _ _ h => h.enqueue

theorem tryQueue (h : u.Evolves s) {q o f} : u.Evolves (s.tryQueue q o f).1 := .each h fun _ _ h => h.dropExpired

theorem charge (h : u.Evolves s) {q p} : u.Evolves (s.charge q p) := h.modQ

theorem selStrict (h : u.Evolves s) {o f l} : u.Evolves (s.selStrict o f l).1 := by
  induction l generalizing s with
  | nil => exact h
  | cons q l ih =>
    unfold State.selStrict
    split
    · split
      · rename_i heq
        exact h.tryQueue.of_fst heq
      · rename_i heq
        exact ih (h.tryQueue.of_fst heq)
    · exact ih h

theorem selWeighted (h : u.Evolves s) {o f l best} : u.Evolves (s.selWeighted o f l best).1 := by
  induction l generalizing s best with
  | nil => exact h
  | cons q l ih =>
    unfold State.selWeighted
    split
    · dsimp only
      split
      · rename_i heq
        exact ih (.of_fst (.tryQueue (.ite h h.modQ)) heq)
      · rename_i heq
        exact ih (.of_fst (.tryQueue (.ite h h.modQ)) heq)
    · exact ih h

theorem select (h : u.Evolves s) {o f take} (ht : ∀ s q p, u.Evolves s → u.Evolves (take s q p)) :
    u.Evolves (s.select o f take).1 := by
  unfold State.select
  dsimp only
  split
  · rename_i heq
    exact (ht _ _ _ (h.selStrict.of_fst heq)).charge
  · rename_i heq
    have h1 := h.selStrict.of_fst heq
    split
    · rename_i heq
      exact h1.selWeighted.of_fst heq
    · rename_i heq
      exact (ht _ _ _ (.modQ (.edit (h1.selWeighted.of_fst heq)))).charge

theorem markFlight (h : u.Evolves s) {q p} : u.Evolves (s.markFlight q p) := h.modPkt

theorem selectRadio (h : u.Evolves s) {o n at_} : u.Evolves (s.selectRadio o n at_).1 :=
  .select h fun _ _ _ h => h.markFlight

theorem selectBeacon (h : u.Evolves s) {q at_} : u.Evolves (s.selectBeacon q at_).1 := by
  unfold State.selectBeacon
  dsimp only
  split
  · split
    · exact .charge (.markFlight (.each h fun _ _ h => h.dropExpired))
    · exact .each h fun _ _ h => h.dropExpired
  · exact .each h fun _ _ h => h.dropExpired

theorem pktReleased (h : u.Evolves s) {q p} : u.Evolves (s.pktReleased q p) := h.removePkt.inc

theorem pktKept (h : u.Evolves s) {q p} : u.Evolves (s.pktKept q p) :=
  .ite (.ite h.removePkt.inc.inc h.removePkt.inc) (.ite h.dropExpired h.modPkt)

theorem applyQueueCfg (h : u.Evolves s) {q} : u.Evolves (s.applyQueueCfg q) :=
  .ite (.modQ (.each h.modQ.modQ fun _ _ h => h.removePkt.inc.inc)) h.modQ

theorem applyPolicer (h : u.Evolves s) {n} : u.Evolves (s.applyPolicer n) := h.edit

theorem residence (h : u.Evolves s) {q l} : u.Evolves (s.residence q l) := by
  induction l generalizing s with
  | nil => exact h
  | cons p l ih => exact .ite (ih h) (.ite (ih h.dropExpired) h)

theorem sampleQueue (h : u.Evolves s) {q} : u.Evolves (s.sampleQueue q) := h.set.set.set

theorem qscStep7 (h : u.Evolves s) : u.Evolves s.qscStep7 := by
  unfold State.qscStep7
  extract_lets _ s1 s2 s3 s4 k _ s5 s6 s7
  have h1 : u.Evolves s1 := h.edit
  have h2 : u.Evolves s2 := h1.each fun _ _ h => h.applyQueueCfg
  have h3 : u.Evolves s3 := h2.each fun _ _ h => h.applyPolicer
  have h4 : u.Evolves s4 := h3.each fun _ _ h => .ite h.raise h
  have h5 : u.Evolves s5 := h4.edit
  have h6 : u.Evolves s6 := h5.each fun _ _ h => h.residence
  have h7 : u.Evolves s7 := h6.each fun _ _ h => h.sampleQueue
  exact .ite h h7.set

/-! ### The operations of Machine/Mesh.lean -/

theorem lookupEcc (h : u.Evolves s) {a} : u.Evolves (s.lookupEcc a) := h.blockRead

theorem mshCount (h : u.Evolves s) {d} : u.Evolves (s.mshCount d) := by
  unfold State.mshCount
  split
  · exact h.inc.raise
  · exact h.inc.raise
  · exact h.inc.raise
  · exact h.inc
  · exact h.inc
  · exact h.inc
  · exact h.inc

theorem claim (h : u.Evolves s) {i} : u.Evolves (s.claim i).2 := by
  unfold State.claim
  split
  · exact h
  · split
    · exact h
    · exact h.edit

theorem unshare (h : u.Evolves s) {h'} : u.Evolves (s.unshare h') := by
  unfold State.unshare
  split
  · exact h.releaseBuf
  · exact h

theorem unclaim (h : u.Evolves s) {i h'} : u.Evolves (s.unclaim i h') := by
  unfold State.unclaim
  split
  · exact h.edit
  · exact h

theorem offerTo (h : u.Evolves s) {o q bytes desc h'} : u.Evolves (s.offerTo o q bytes desc h').2.2 := by
  unfold State.offerTo
  dsimp only
  split
  · rename_i _ t heq
    exact .of_snd (.takeIn (.ite h.edit h)) heq
  · rename_i t heq
    split
    · exact .of_snd (.takeIn (.ite h.edit h)) heq
    · split
      · exact .of_snd (.takeIn (.ite h.edit h)) heq
      · exact .of_snd (.takeIn (.ite h.edit h)) heq

theorem place (h : u.Evolves s) {i port o n hop h'} : u.Evolves (s.place i port o n hop h').2.2 := by
  unfold State.place
  dsimp only
  split
  · exact h
  · split
    · rename_i _ _ t heq
      exact .of_thd h.offerTo heq
    · rename_i _ t heq
      exact .of_thd h.offerTo heq

theorem lendCells (h : u.Evolves s) {cs} : u.Evolves (s.lendCells cs) := h.edit

theorem placeOne (h : u.Evolves s) {i port o n hop local_} : u.Evolves (s.placeOne i port o n hop local_).2 := by
  unfold State.placeOne
  split
  rename_i h0 s1 heq
  have h1 : u.Evolves s1 := h.claim.of_snd heq
  extract_lets lent
  have hp : u.Evolves (if lent = true then (s1.lendCells i.cells).place i port o n hop none
      else s1.place i port o n hop h0).2.2 := by
    split
    · exact h1.lendCells.place
    · exact h1.place
  split
  · rename_i heq
    have h2 := hp.of_thd heq
    exact .snd (.inc (.ite h2.unclaim h2.unshare))
  · rename_i heq
    have h2 := hp.of_thd heq
    exact .snd (.mshCount (.unclaim (.ite h2.allocCells h2)))
  · rename_i heq
    have h2 := hp.of_thd heq
    exact .snd (.ite (.countRefusal (.unclaim (.ite h2.allocCells h2)))
      (.mshCount (.countRefusal (.unclaim (.ite h2.allocCells h2)))))

theorem unflood (h : u.Evolves s) {k} : u.Evolves (s.unflood k) := h.edit

theorem enterFlood (h : u.Evolves s) {k} : u.Evolves (s.enterFlood k) := h.unflood.edit

theorem replicate (h : u.Evolves s) {i port hop l share ok} : u.Evolves (s.replicate i port hop l share ok).2.2 := by
  induction l generalizing s share ok with
  | nil => exact h
  | cons x l ih =>
    unfold State.replicate
    split
    · rename_i heq
      exact ih (.inc (h.place.of_thd heq))
    · rename_i heq
      refine ih (.mshCount ?_)
      split
      · exact .countRefusal (h.place.of_thd heq)
      · exact h.place.of_thd heq

theorem flood (h : u.Evolves s) {i port} : u.Evolves (s.flood i port).2 := by
  unfold State.flood
  extract_lets b g s1 outs here hopOk away reps
  have h1 : u.Evolves s1 := h.enterFlood
  split
  · exact .snd h.mshCount
  split
  · exact .snd h.mshCount
  split
  · split
    · exact .snd h1.mshCount
    · exact h1
  split
  rename_i heq
  have h2 := h1.claim.of_snd heq
  split
  · rename_i heq
    exact .snd (h2.replicate.of_thd heq).unshare
  · rename_i heq
    exact .snd (h2.replicate.of_thd heq).unclaim.unflood

theorem decideWhole (h : u.Evolves s) {i port rf} : u.Evolves (s.decideWhole i port rf).2 := by
  unfold State.decideWhole
  extract_lets b own s1
  have h1 : u.Evolves s1 := h.lookupEcc
  split
  · exact .snd h.mshCount
  split
  · exact h.flood
  split
  · exact h.placeOne
  by_cases hop : crustHop b < if isLink port = true then 2 else 1
  · rw [if_pos hop]
    exact .snd h.mshCount
  rw [if_neg hop]
  split
  · exact .snd h1.mshCount
  · exact .snd h1.mshCount
  · split
    · exact .snd h1.mshCount
    · exact h1.placeOne

theorem showReasm (h : u.Evolves s) : u.Evolves s.showReasm := h.set.set

theorem closeContext (h : u.Evolves s) {band src} : u.Evolves (s.closeContext band src) := h.edit.showReasm

theorem keepContext (h : u.Evolves s) {c} : u.Evolves (s.keepContext c) := h.closeContext.edit.showReasm

theorem dropContext (h : u.Evolves s) {c} : u.Evolves (s.dropContext c) := h.closeContext.freeCells.inc.raise

theorem fragment (h : u.Evolves s) {i rf} : u.Evolves (s.fragment i rf).2 := by
  unfold State.fragment
  dsimp only
  split
  · split
    · exact .keepContext (.writeCells (.allocCells (by split; exacts [h.dropContext, h])))
    · exact h
  · split
    · exact h.inc.raise
    · split
      · split
        · split
          · exact h.allocCells.writeCells.keepContext
          · split
            · rename_i t heq
              exact .of_snd h.allocCells.writeCells.closeContext.decideWhole heq
            · rename_i t heq
              exact .freeCells (.of_snd h.allocCells.writeCells.closeContext.decideWhole heq)
            · rename_i _ t heq
              exact .keepContext (.freeCells (.of_snd h.allocCells.writeCells.closeContext.decideWhole heq))
        · exact h
      · exact h.dropContext

theorem reasmTimeout (h : u.Evolves s) : u.Evolves s.reasmTimeout := .each h fun _ _ h => h.dropContext

theorem decidePacket (h : u.Evolves s) {i port rf} : u.Evolves (s.decidePacket i port rf).2 := by
  unfold State.decidePacket
  split
  · extract_lets q
    split
    · exact .snd h.mshCount
    split
    · rename_i heq
      exact .snd (h.offerTo.of_thd heq)
    · rename_i heq
      have h1 := h.offerTo.of_thd heq
      exact .snd (.ite h1.countRefusal h1.countRefusal.mshCount)
  split
  · exact .snd h.mshCount
  extract_lets b s1 i1
  have h1 : u.Evolves s1 := by
    unfold s1
    split
    · exact h.setMbytes
    · exact h
  split
  · exact .snd h1.mshCount
  split
  · split
    · exact h1.fragment
    · exact h1.decideWhole
  · exact h1.decideWhole

theorem retryDrop (h : u.Evolves s) {n} : u.Evolves (s.retryDrop n) := .ite h.edit.raise.raise h.edit

theorem retryReset (h : u.Evolves s) {n} : u.Evolves (s.retryReset n) := h.edit

theorem clearDown (h : u.Evolves s) {n} : u.Evolves (s.clearDown n) := h.set.retryReset

theorem downWrite (h : u.Evolves s) {i w} : u.Evolves (s.downWrite i w) := .each h fun _ _ h => h.clearDown

theorem modPort (h : u.Evolves s) {p f} : u.Evolves (s.modPort p f) := h.edit

theorem modEng (h : u.Evolves s) {e f} : u.Evolves (s.modEng e f) := h.edit

theorem notice (h : u.Evolves s) {tag code result} : u.Evolves (s.notice tag code result) := .ite h.edit h.inc

theorem pktRefused (h : u.Evolves s) {tag result} : u.Evolves (s.pktRefused tag result) := h.notice.inc.raise

theorem subEnd (h : u.Evolves s) {e r} : u.Evolves (s.subEnd e r) := h.set.set.raise

theorem cellsBack (h : u.Evolves s) {i} : u.Evolves (s.cellsBack i) := by
  unfold State.cellsBack
  split
  · exact h.modEng
  · exact h.modEng

theorem freeIngress (h : u.Evolves s) {i} : u.Evolves (s.freeIngress i) := by
  unfold State.freeIngress
  split
  · exact h.releaseBuf
  · exact h.freeCells

theorem jjSettle (h : u.Evolves s) {p i passed} : u.Evolves (s.jjSettle p i passed) :=
  .ite (.ite h h.freeCells) (.ite h.modJj.jjReplenish h.jjHold)

theorem sendPause (h : u.Evolves s) {quanta} : u.Evolves (s.sendPause quanta) := h.edit.inc

theorem ethPause (h : u.Evolves s) : u.Evolves s.ethPause := .ite h (.ite h.set.sendPause (.ite h.set.sendPause h))

theorem settlePort (h : u.Evolves s) {port i r} : u.Evolves (s.settlePort port i r) := by
  unfold State.settlePort
  split
  · exact h.jjSettle
  · split
    · exact h.ethPause
    · split
      · split
        · exact h
        · exact h.pktRefused
        · exact h.pktRefused
        · exact h.pktRefused
      · split
        · split
          · exact .ite h h.subEnd
          · exact .ite h.freeIngress h.cellsBack.subEnd
          · exact .ite h.freeIngress h.freeIngress.subEnd
        · exact h

theorem mshDecision (h : u.Evolves s) : u.Evolves s.mshDecision := by
  unfold State.mshDecision
  split
  · exact h
  split
  · exact h
  extract_lets w _ s1
  have h1 : u.Evolves s1 := h.edit
  split
  rename_i heq
  have h2 := h1.decidePacket.of_snd heq
  exact .ite h2.modPort h2.modPort.settlePort

theorem reoffer (h : u.Evolves s) {p i} : u.Evolves (s.reoffer p i) := by
  unfold State.reoffer
  split
  · exact h
  split
  rename_i heq
  have h1 := h.claim.of_snd heq
  split
  · rename_i heq
    exact .unclaim (h1.offerTo.of_thd heq)
  · rename_i heq
    exact (h1.offerTo.of_thd heq).unclaim.countRefusal.mshCount.modPort.settlePort
  · rename_i heq
    have h2 := h1.offerTo.of_thd heq
    exact .settlePort (.ite h2.unshare.modPort h2.unshare.modPort.inc)

/-! ### The operations of Machine/Links.lean -/

theorem addCredits (h : u.Evolves s) {p control n} : u.Evolves (s.addCredits p control n) := h.incBy

theorem jjUp (h : u.Evolves s) {p control n} : u.Evolves (s.jjUp p control n) :=
  h.modJj.allocCells.allocCells.jjHold.jjHold.set.raise.addCredits

theorem loseSending (h : u.Evolves s) {o} : u.Evolves (s.loseSending o) := by
  unfold State.loseSending
  split
  · exact h.edit.releaseBuf.inc
  · exact h

theorem jjDown (h : u.Evolves s) {p} : u.Evolves (s.jjDown p) :=
  .ite h.set h.set.loseSending.set.set.set.raise.modJj.modPort.freeCells

theorem jjDiscard (h : u.Evolves s) {p body} : u.Evolves (s.jjDiscard p body) := .ite h.raise h.raise.jjCredit

theorem jjReceive (h : u.Evolves s) {p body ending} : u.Evolves (s.jjReceive p body ending) := by
  unfold State.jjReceive
  split
  · exact h.jjDiscard
  · exact h.inc.jjDiscard
  · split
    · exact h.inc.jjDiscard
    · exact .ite h.inc h.inc.modJj.writeCells.modPort

theorem roleErr (h : u.Evolves s) {p} : u.Evolves (s.roleErr p) := h.set.raise

theorem basSend (h : u.Evolves s) {p} : u.Evolves (s.basSend p) := .ite h h.modJj.jjEmit

theorem basBoundary (h : u.Evolves s) : u.Evolves s.basBoundary := h.basSend.basSend

theorem basReceived (h : u.Evolves s) {p abn leader arr} : u.Evolves (s.basReceived p abn leader arr) := by
  unfold State.basReceived
  extract_lets _ _ s1 s2
  have h1 : u.Evolves s1 := .ite h.roleErr h.set
  have h2 : u.Evolves s2 := h1.modJj.raise
  exact .ite h1.jjEmit (.ite h1 (.ite (.ite h2.adoptStep h2) h1.modJj))

theorem jjSync (h : u.Evolves s) {p abn th} : u.Evolves (s.jjSync p abn th) :=
  .ite h.modJj.set.raise (.ite h.modJj.set h.modJj)

theorem bfuReceived (h : u.Evolves s) {p abn8 dep arr} : u.Evolves (s.bfuReceived p abn8 dep arr) := by
  unfold State.bfuReceived
  split
  · exact .ite h (.ite h.modJj.setS.set.jjSync.servoOffset h.modJj.setS.set.jjSync)
  · exact h

theorem jjCtrlWrite (h : u.Evolves s) {p w} : u.Evolves (s.jjCtrlWrite p w) := .ite h.setReg.jjDown h.setReg

theorem ethDrop (h : u.Evolves s) : u.Evolves s.ethDrop := h.inc.raise

theorem ethRxStamp (h : u.Evolves s) {ago} : u.Evolves (s.ethRxStamp ago) := h.stampAt

theorem ethQueue (h : u.Evolves s) {i} : u.Evolves (s.ethQueue i) := .ite h.ethDrop h.modPort.ethPause

theorem ethReceive (h : u.Evolves s) {f ago} : u.Evolves (s.ethReceive f ago) := by
  unfold State.ethReceive
  extract_lets s1
  have h1 : u.Evolves s1 := h.inc.ethRxStamp
  exact .ite h1.ethDrop (.ite h1.inc.raise (.ite h1.ethDrop (.ite h1.ethDrop (.ite (.ite h1.ethDrop h1.ethQueue) (.ite
    h1.ethQueue h1.ethDrop)))))

theorem ethDown (h : u.Evolves s) : u.Evolves s.ethDown := .ite h h.set.set.set.raise.loseSending

theorem mdioWrite (h : u.Evolves s) {w} : u.Evolves (s.mdioWrite w) := .ite h (.ite h.setReg.edit h.setReg)

theorem ethTxStamp (h : u.Evolves s) {p waited} : u.Evolves (s.ethTxStamp p waited) :=
  .ite h.stampAt.edit.inc.raise h.stampAt.edit

theorem ethLaunch (h : u.Evolves s) : u.Evolves s.ethLaunch := by
  unfold State.ethLaunch
  split
  · exact .ite h.ethTxStamp.edit h
  · exact h

theorem startWired (h : u.Evolves s) {o q p} : u.Evolves (s.startWired o q p) :=
  .edit (.ite (.ite h h.ethTxStamp) h.set.jjEmit)

theorem selectWired (h : u.Evolves s) {o} : u.Evolves (s.selectWired o) := by
  unfold State.selectWired
  split
  · exact h
  have ht : u.Evolves (s.select o {} (fun s q p => s.unlinkPkt q p.pid)).1 := .select h fun _ _ _ h => h.unlinkPkt
  split
  · rename_i heq
    exact ht.of_fst heq
  rename_i heq
  extract_lets s1
  have h1 : u.Evolves s1 := (ht.of_fst heq).corrected
  split
  · exact .dropEcc (.edit (.ite h1.startWired h1.startWired.jjEmit))
  · exact h1.startWired

theorem sendDone (h : u.Evolves s) {o} : u.Evolves (s.sendDone o) := by
  unfold State.sendDone
  split
  · exact .ite h (.ite h.edit.releaseBuf.inc.inc (.ite h.edit.releaseBuf.inc.jjEmit.inc h.edit.releaseBuf.inc))
  · exact h

/-! ### The operations of Machine/Engines.lean -/

theorem modCpu (h : u.Evolves s) {n f} : u.Evolves (s.modCpu n f) := h.modEng

theorem setEstate (h : u.Evolves s) {n v} : u.Evolves (s.setEstate n v) := .ite h.set h.set.modEng

theorem putBit (h : u.Evolves s) {l n b} : u.Evolves (s.putBit l n b) := h.set

theorem showMbox (h : u.Evolves s) {n} : u.Evolves (s.showMbox n) := h.set.set.set.set

theorem modMbox (h : u.Evolves s) {n f} : u.Evolves (s.modMbox n f) := h.modEng.showMbox

theorem showSend (h : u.Evolves s) {n left} : u.Evolves (s.showSend n left) := h.set.set

theorem abandonSend (h : u.Evolves s) {n} : u.Evolves (s.abandonSend n) :=
  .showSend (.modEng (by split; exacts [h.modMbox, h]))

theorem mailOpen (h : u.Evolves s) {n w} : u.Evolves (s.mailOpen n w) :=
  .ite h.abandonSend.raise h.abandonSend.modMbox.modEng.showSend

theorem mailWrite (h : u.Evolves s) {n w} : u.Evolves (s.mailWrite n w) := by
  unfold State.mailWrite
  split
  · exact .ite h.modEng h.raise
  · exact .ite h.wrote.modMbox.showSend.modEng h.wrote.modMbox.showSend

theorem mailRead (h : u.Evolves s) {n} : u.Evolves (s.mailRead n).2 := by
  unfold State.mailRead
  split
  · exact h.modMbox.modEng.setReg
  · exact h.raise

theorem mailFlush (h : u.Evolves s) {n} : u.Evolves (s.mailFlush n) := by
  unfold State.mailFlush
  extract_lets s1
  have h1 : u.Evolves s1 := h.each fun _ _ h => .raise (.showSend h.modEng)
  exact h1.modMbox

theorem pktGet (h : u.Evolves s) {n} : u.Evolves (s.pktGet n).2 := by
  unfold State.pktGet
  dsimp only
  split
  · exact h.setReg.setReg.setReg
  · split
    · rename_i t heq
      exact .of_fst (.select h.setReg.setReg.setReg fun _ _ _ h => h.unlinkPkt) heq
    · rename_i t _ _ heq
      split
      · exact .dropEcc (.corrected (.of_fst (.select h.setReg.setReg.setReg fun _ _ _ h => h.unlinkPkt) heq))
      · exact .setReg (.setReg (.setReg (.edit (.modEng (.corrected (.of_fst (.select h.setReg.setReg.setReg fun _ _ _
          h => h.unlinkPkt) heq))))))

theorem badCell (h : u.Evolves s) {n} : u.Evolves (s.badCell n) := h.raise

theorem pktDone (h : u.Evolves s) {n w} : u.Evolves (s.pktDone n w) := by
  unfold State.pktDone
  split
  · exact h
  · split
    · exact h.badCell
    · exact h.modEng.releaseBuf.inc

theorem cellAlloc (h : u.Evolves s) {n} : u.Evolves (s.cellAlloc n).2 := by
  unfold State.cellAlloc
  split
  · split
    · exact h.allocCells.modEng.edit
    · exact h
  · exact h

theorem cellFreeWrite (h : u.Evolves s) {n w} : u.Evolves (s.cellFreeWrite n w) :=
  .ite h (.ite h.modEng.freeCells h.badCell)

theorem linkWrite (h : u.Evolves s) {n w} : u.Evolves (s.linkWrite n w) := .ite h.modEng (.ite h.edit h.badCell)

theorem offerSubmit (h : u.Evolves s) {n i} : u.Evolves (s.offerSubmit n i) := h.set.set.modPort

theorem breakUp (h : u.Evolves s) {n cs p} : u.Evolves (s.breakUp n cs p) :=
  .ite h.modEng.releaseBuf h.modEng.modEng.edit

theorem submit (h : u.Evolves s) {n w} : u.Evolves (s.submit n w) := by
  unfold State.submit
  dsimp only
  split
  · exact h
  · split
    · exact h.badCell
    · split
      · exact h.modEng.offerSubmit
      · exact .ite (.offerSubmit (.freeCells (.modEng (.each h fun _ _ h => h.breakUp)))) (.offerSubmit (.modEng
          (.each h fun _ _ h => h.breakUp)))

theorem submitWrite (h : u.Evolves s) {n w} : u.Evolves (s.submitWrite n w) := .ite h.modEng h.submit

theorem unstall (h : u.Evolves s) : u.Evolves s.unstall :=
  .each h fun _ _ h => by split; exacts [.ite h h.modEng.submit, h]

theorem startEngine (h : u.Evolves s) {n} : u.Evolves (s.startEngine n) := h.modCpu.setEstate

theorem firstStarts (h : u.Evolves s) {m} : u.Evolves (s.firstStarts m) := h.edit

theorem endTask (h : u.Evolves s) {n} : u.Evolves (s.endTask n) := h.putBit.putBit.edit

theorem freeEngine (h : u.Evolves s) {n} : u.Evolves (s.freeEngine n) :=
  .modPort (.modEng (.freeCells (.each h fun _ _ h => h.releaseBuf)))

theorem clearEngine (h : u.Evolves s) {n} : u.Evolves (s.clearEngine n) := by
  unfold State.clearEngine
  exact .endTask (.modEng (.putBit (.set (.each h.abandonSend.mailFlush.freeEngine fun _ _ h => h.setReg))))

theorem engineReset (h : u.Evolves s) {n} : u.Evolves (s.engineReset n) := by
  unfold State.engineReset
  exact .ite h.clearEngine (.ite h.clearEngine.modCpu.modEng (.ite h.clearEngine.startEngine h.clearEngine.setEstate))

theorem swEngineReset (h : u.Evolves s) {n} : u.Evolves (s.swEngineReset n) := h.raise.engineReset

theorem runWrite (h : u.Evolves s) {w} : u.Evolves (s.runWrite w) := by
  unfold State.runWrite
  exact .each h fun _ _ h => .ite h.putBit.engineReset (.ite h.putBit.startEngine (.ite h.putBit.modCpu.modEng
    h.putBit))

theorem engineOn (h : u.Evolves s) {n off} : u.Evolves (s.engineOn n off) :=
  .ite h (.ite h.setEstate.engineReset h.setEstate)

theorem engineLeaves (h : u.Evolves s) {n off} : u.Evolves (s.engineLeaves n off) :=
  .ite h (.ite h.setEstate h.modEng.setEstate)

theorem beatStart (h : u.Evolves s) {n} : u.Evolves (s.beatStart n) := h.raise.modCpu

theorem unwatch (h : u.Evolves s) : u.Evolves s.unwatch := .each h fun _ _ h => .ite h h.modEng

theorem judgeKick (h : u.Evolves s) {n} : u.Evolves (s.judgeKick n).2 := by
  unfold State.judgeKick
  split
  · exact h
  · split
    · exact h.set
    · exact h.set.raiseBit.raiseHw

theorem watchdog (h : u.Evolves s) : u.Evolves s.watchdog.2 := by
  unfold State.watchdog
  extract_lets r
  have hr : u.Evolves r.2 := List.foldlRecOn (motive := fun r : List Nat × State => u.Evolves r.2) _ _ h fun x hx n _
    => by
    split
    · rename_i heq
      exact hx.judgeKick.of_snd heq
    · rename_i heq
      exact hx.judgeKick.of_snd heq
  exact .snd (hr.each fun _ _ h => h.modEng)

theorem kick (h : u.Evolves s) {n} : u.Evolves (s.kick n) := h.modEng

theorem halfBeat (h : u.Evolves s) : u.Evolves s.halfBeat :=
  .each h fun _ _ h => .ite h (.ite h.modEng.raise h.modEng)

theorem moveBit (h : u.Evolves s) {l n m} : u.Evolves (s.moveBit l n m) := h.putBit.putBit

theorem moveIdentity (h : u.Evolves s) {n m} : u.Evolves (s.moveIdentity n m) := by
  unfold State.moveIdentity
  exact .each (.setReg (.setReg (.moveBit (.moveBit (.ite (.set (.each h fun _ _ h => h.set)) (.each h fun _ _ h =>
    h.set)))))) fun _ _ h => h.set

theorem takeOver (h : u.Evolves s) {n} : u.Evolves (s.takeOver n) := by
  unfold State.takeOver
  exact .ite h.raise (.ite h.clearEngine.setEstate.moveIdentity.set.edit
    h.clearEngine.setEstate.moveIdentity.set.edit.wake)

theorem copyLocal (h : u.Evolves s) {n m} : u.Evolves (s.copyLocal n m) := by
  unfold State.copyLocal
  extract_lets own s1 bad inEng src base
  have h1 : u.Evolves s1 := h.corrected.unwrite
  refine h1.of_canon rfl rfl fun c => { c with lmem := ?_ }
  exact List.foldlRecOn (motive := fun l => Memory.wf 0 l) src _ (swf_sdrop _ _ _ c.lmem) fun l hl x _ => swf_sset _ l
    _ _ hl

theorem copyDone (h : u.Evolves s) : u.Evolves s.copyDone := by
  unfold State.copyDone
  split
  · exact .ite h h.copyLocal.edit.putBit.endTask.startEngine.set.set.set.raise
  · exact h

theorem engineClocks (h : u.Evolves s) : u.Evolves s.engineClocks := .each h fun _ _ h => .ite h.modCpu h

/-! ### The operations of Machine/Carriers.lean -/

theorem setCar (h : u.Evolves s) {c k} : u.Evolves (s.setCar c k) := h.edit

theorem modCar (h : u.Evolves s) {c f} : u.Evolves (s.modCar c f) := h.setCar

theorem showTx (h : u.Evolves s) {x} : u.Evolves (s.showTx x) :=
  .set (.set (.each h fun _ _ h => h.set.set.set.set.set))

theorem coexWires (h : u.Evolves s) : u.Evolves s.coexWires := h.set.set.set

theorem coexRequest (h : u.Evolves s) {c} : u.Evolves (s.coexRequest c) := h.modCar.coexWires

theorem calRun (h : u.Evolves s) {x} : u.Evolves (s.calRun x) := h.inc.set.set.set.edit

theorem retune (h : u.Evolves s) {x lo} : u.Evolves (s.retune x lo) := h.edit.set.calRun.showTx

theorem startHeld (h : u.Evolves s) {x} : u.Evolves (s.startHeld x) := by
  unfold State.startHeld
  split
  · exact .ite h.retune h
  · exact h

theorem freeCar (h : u.Evolves s) {c status} : u.Evolves (s.freeCar c status) := by
  unfold State.freeCar
  split
  · exact h
  · exact h.setCar.set.showTx.coexWires.startHeld

theorem hold (h : u.Evolves s) {c lo k} : u.Evolves (s.hold c lo k) :=
  .showTx (by split; exacts [h.setCar.set.set.retune, h.setCar.set.set])

theorem chargeDuty (h : u.Evolves s) {n air} : u.Evolves (s.chargeDuty n air) := h.edit

theorem countGate (h : u.Evolves s) {x status ack} : u.Evolves (s.countGate x status ack) :=
  .ite h.raise (.ite h.inc.raise (.ite h.inc.raise (.ite h.inc.raise h)))

theorem passGate (h : u.Evolves s) {c l n} : u.Evolves (s.passGate c l n) := by
  unfold State.passGate
  split
  · exact h
  · exact h.modCar.chargeDuty.showTx

/-! ### The operations of Machine/Random.lean -/

theorem modRng (h : u.Evolves s) {f} : u.Evolves (s.modRng f) := h.edit

theorem rngSeed (h : u.Evolves s) {d} : u.Evolves (s.rngSeed d) := h.modRng.draw

theorem rngRequest (h : u.Evolves s) : u.Evolves s.rngRequest.2 := by
  unfold State.rngRequest
  exact .snd (.modRng (.ite h h.rngSeed))

theorem rngRead (h : u.Evolves s) : u.Evolves s.rngRead.2 := by
  unfold State.rngRead
  split
  · exact h
  split
  · exact .snd h.modRng
  · exact .snd h.rngRequest.modRng

theorem rngDraw (h : u.Evolves s) {be} : u.Evolves (s.rngDraw be).2 := by
  unfold State.rngDraw
  split
  · exact h.rngRequest
  · split
    · exact h
    · exact h.draw

theorem rngScalar (h : u.Evolves s) : u.Evolves (s.rngScalar).2 := h.rngRequest

theorem maskRun (h : u.Evolves s) {n} (he : s.maskRun n = some t) : u.Evolves t := by
  unfold State.maskRun at he
  dsimp only at he
  split at he
  · split at he
    · cases he
    · cases he
      exact h.modRng
  · cases he
    exact .modRng (.ite (h.each fun _ _ h => h.rngRequest) h)

theorem rngFail (h : u.Evolves s) {rct apt} : u.Evolves (s.rngFail rct apt) := by
  unfold State.rngFail
  exact .ite (.ite (.set (.ite h.set.raise.set h.set.raise)) (.ite h.set.raise.set h.set.raise)) (.set (.modRng (.ite
    (.set (.ite h.set.raise.set h.set.raise)) (.ite h.set.raise.set h.set.raise))))

theorem rngJudge (h : u.Evolves s) {samples} : u.Evolves (s.rngJudge samples).2 := by
  unfold State.rngJudge
  dsimp only
  split
  · exact h.rngFail
  · exact h

theorem rngStart (h : u.Evolves s) : u.Evolves s.rngStart := h.set.set.set.rngSeed.rngRequest.modRng.set

theorem rngRestart (h : u.Evolves s) {w} : u.Evolves (s.rngRestart w) := .ite h.set h

/-! ### The operations of Machine/Frames.lean -/

theorem keyUse (h : u.Evolves s) {k} : u.Evolves (s.keyUse k) := .ite h.set.set.raise h.set

theorem secureFrame (h : u.Evolves s) {wave netid src k hdr payload mark} :
    u.Evolves (s.secureFrame wave netid src k hdr payload mark).2 :=
  h.keyUse

/-! ### The operations of Machine/Link.lean -/

theorem nbrScan (h : u.Evolves s) {a} : u.Evolves (s.nbrScan a) := h.blockRead

theorem txReport (h : u.Evolves s) {status nbr fails cell} : u.Evolves (s.txReport status nbr fails cell) :=
  h.set.set.set.set

theorem rxReport (h : u.Evolves s) {status nbr slice cell} : u.Evolves (s.rxReport status nbr slice cell) :=
  h.set.set.set.set.set

theorem releaseSlice (h : u.Evolves s) {n} : u.Evolves (s.releaseSlice n) := by
  unfold State.releaseSlice
  split
  · exact h.set
  · exact h

theorem endTx (h : u.Evolves s) {a} : u.Evolves (s.endTx a) := h.edit.releaseSlice

theorem endRx (h : u.Evolves s) {a} : u.Evolves (s.endRx a) := h.edit.releaseSlice.coexWires

theorem modTx (h : u.Evolves s) {id f} : u.Evolves (s.modTx id f) := h.edit

theorem modRx (h : u.Evolves s) {id f} : u.Evolves (s.modRx id f) := h.edit

theorem boReset (h : u.Evolves s) {n} : u.Evolves (s.boReset n) := h.set.set

theorem boRaise (h : u.Evolves s) {n} : u.Evolves (s.boRaise n) := h.rngDraw.set.set

theorem failPkt (h : u.Evolves s) {a n q p status} : u.Evolves (s.failPkt a n q p status) := by
  unfold State.failPkt
  extract_lets s1 s2 s3 s4 _ s5 s6 s7
  have h1 : u.Evolves s1 := h.inc
  have h2 : u.Evolves s2 := .ite h1.inc h1
  have h3 : u.Evolves s3 := .ite h2.inc (.ite h2.inc h2)
  have h4 : u.Evolves s4 := .ite h3.boRaise h3
  have h5 : u.Evolves s5 := h4.inc.raise.dropPkt
  have h6 : u.Evolves s6 := .ite h5.retryDrop h5
  have h7 : u.Evolves s7 := h4.modPkt
  exact .ite h6.txReport h7.pktKept.txReport

theorem txOutcome (h : u.Evolves s) {a status} : u.Evolves (s.txOutcome a status) := by
  unfold State.txOutcome
  extract_lets s1
  have h1 : u.Evolves s1 := h.endTx
  split
  · exact h1.txReport
  · split
    · exact h1.txReport
    · exact .ite (.txReport (.boReset (.ite (.pulse (.ite h1.pktReleased.inc.inc.retryReset h1.pktReleased.inc)) (.ite
        h1.pktReleased.inc.inc.retryReset h1.pktReleased.inc)))) (.ite h1.failPkt (.ite h1.inc.raise.dropPkt.txReport
        h1.pktKept.txReport))

theorem countSkip (h : u.Evolves s) {tx} : u.Evolves (s.countSkip tx) := h.raise.inc

theorem skipTx (h : u.Evolves s) {a} : u.Evolves (s.skipTx a) := h.countSkip.txOutcome

theorem nbrValidated (h : u.Evolves s) {n} : u.Evolves (s.nbrValidated n) := h.boReset.set.set.set.set

theorem applyPend (h : u.Evolves s) : u.Evolves s.applyPend :=
  .edit (.each h fun _ _ h => .ite h.wrote.setReg.nbrValidated h.wrote.setReg)

theorem nbrWrite (h : u.Evolves s) {n k w} : u.Evolves (s.nbrWrite n k w) := .ite h.raise h.edit

theorem keepFresh (h : u.Evolves s) {a} : u.Evolves (s.keepFresh a) := h.edit

theorem onStale (h : u.Evolves s) {f : State → State} (hf : ∀ s, u.Evolves s → u.Evolves (f s)) :
    u.Evolves (s.onStale f) :=
  .each (hf _ (h.each fun _ _ h => h.setReg)) fun _ _ h => h.setReg

theorem dupPush (h : u.Evolves s) {n q} : u.Evolves (s.dupPush n q) := h.set.set.set.set

theorem dupExpire (h : u.Evolves s) : u.Evolves s.dupExpire := .each h fun _ _ h => .ite h.set h

theorem contact (h : u.Evolves s) {n o} : u.Evolves (s.contact n o) :=
  .ite h.set (.set (.set (.set (.setS (.ite h.set.setS h.set)))))

theorem addUacc (h : u.Evolves s) : u.Evolves s.addUacc := .ite h (.each h.edit fun _ _ h => h.set)

theorem scanStop (h : u.Evolves s) : u.Evolves s.scanStop := by
  unfold State.scanStop
  dsimp only
  split
  · exact h.set.edit.set
  · exact h.set

theorem scanMatch (h : u.Evolves s) {slice src m} : u.Evolves (s.scanMatch slice src m) := by
  unfold State.scanMatch
  split
  · exact .ite (.scanStop (.raise (by split; exacts [h.set.set.set.set, h.set.set.set.draw.set]))) h
  · exact h

theorem brxEnd (h : u.Evolves s) {n held r} : u.Evolves (s.brxEnd n held r) := by
  unfold State.brxEnd
  extract_lets s1 _ s2 _ s3 _ s4 s5 _ s6
  have h1 : u.Evolves s1 := .ite h.set h
  have h2 : u.Evolves s2 := .ite h1 h1.set
  have h3 : u.Evolves s3 := h2.edit.raise
  have h4 : u.Evolves s4 := h1.set
  have h5 : u.Evolves s5 := h4.set
  have h6 : u.Evolves s6 := .ite h5.edit.raise h4
  split
  · exact h
  · exact .ite (.ite (.ite h3.scanStop h3) h2) (.ite h1 (.ite h4 (.ite h6.set h6)))

theorem timeSource (h : u.Evolves s) {n o m before} : u.Evolves (s.timeSource n o m before) :=
  .ite h (.ite h.raise h.servoOffset)

theorem skipRx (h : u.Evolves s) {a} : u.Evolves (s.skipRx a) := h.countSkip.endRx.rxReport

theorem idleRx (h : u.Evolves s) {a} : u.Evolves (s.idleRx a) := .ite h.endRx.rxReport.brxEnd h.endRx.rxReport

/-! ### The operations of Machine/Slices.lean -/

theorem modSlc (h : u.Evolves s) {n f} : u.Evolves (s.modSlc n f) := h.edit

theorem modRxc (h : u.Evolves s) {x f} : u.Evolves (s.modRxc x f) := h.edit

theorem showSlices (h : u.Evolves s) : u.Evolves s.showSlices :=
  .set (.each h fun _ _ h => .ite h.set.set.set.set h.set.set.set)

theorem applyTune (h : u.Evolves s) {n f wave} : u.Evolves (s.applyTune n f wave) := h.modSlc.set.set.set

theorem applyHeld (h : u.Evolves s) {n} : u.Evolves (s.applyHeld n) := by
  unfold State.applyHeld
  split
  · exact h.applyTune
  · exact h

theorem phyRecord (h : u.Evolves s) {n code f lq evm} : u.Evolves (s.phyRecord n code f lq evm) :=
  h.set.set.set.set.set.set.set.set

theorem endSync (h : u.Evolves s) {n} : u.Evolves (s.endSync n) := h.set.modSlc.applyHeld

theorem unreserve (h : u.Evolves s) {c} : u.Evolves (s.unreserve c) := by
  unfold State.unreserve
  split
  · exact h.freeCar
  · exact h

theorem lnkFailed (h : u.Evolves s) {n code} : u.Evolves (s.lnkFailed n code) := by
  unfold State.lnkFailed
  split
  · exact .ite h.txOutcome h
  · split
    · exact .ite h.endRx.rxReport.brxEnd h.endRx.rxReport
    · exact h.rxReport

theorem abandon (h : u.Evolves s) {n code} : u.Evolves (s.abandon n code) := by
  unfold State.abandon
  split
  · exact h
  · exact h.draw.phyRecord.inc.endSync.unreserve.lnkFailed

theorem setGain (h : u.Evolves s) {x g} : u.Evolves (s.setGain x g) := h.set.set

theorem gainStep (h : u.Evolves s) {x g} : u.Evolves (s.gainStep x g) := by
  unfold State.gainStep
  exact .ite h (.ite (.each h.setGain fun _ _ h => h.modSlc) (.raise (.each h.setGain fun _ _ h => h.modSlc)))

theorem agcJudge (h : u.Evolves s) {x below} : u.Evolves (s.agcJudge x below) := by
  unfold State.agcJudge
  exact .ite h.modRxc (.ite (.ite h.modRxc.gainStep.modRxc h.modRxc) (.ite (.ite h.modRxc.gainStep.modRxc h.modRxc)
    (.ite h.modRxc.gainStep.modRxc h.modRxc)))

theorem agcWindow (h : u.Evolves s) {x below} : u.Evolves (s.agcWindow x below) :=
  .ite h (.agcJudge (.ite h.set.inc.raise h.set))

theorem aimGain (h : u.Evolves s) {x g} : u.Evolves (s.aimGain x g) := .ite h.modRxc h.setGain

theorem manualGain (h : u.Evolves s) {x} : u.Evolves (s.manualGain x) := .ite h (.ite h.modRxc h.gainStep)

theorem rxfCtrlWrite (h : u.Evolves s) {x w} : u.Evolves (s.rxfCtrlWrite x w) := h.set.set.set.set.manualGain

theorem stopTasting (h : u.Evolves s) {n} : u.Evolves (s.stopTasting n) := h.set.set.set.modSlc

theorem endWindow (h : u.Evolves s) {x} : u.Evolves (s.endWindow x) := by
  unfold State.endWindow
  split
  · exact h
  · split
    · exact h.modRxc.set.abandon.stopTasting.showSlices
    · exact h.modRxc.set

theorem skipTaste (h : u.Evolves s) {x} : u.Evolves (s.skipTaste x) := h.inc.raise

theorem loseWindow (h : u.Evolves s) {x} : u.Evolves (s.loseWindow x) := .ite h.endWindow.skipTaste h

theorem setChainMode (h : u.Evolves s) {x m} : u.Evolves (s.setChainMode x m) := by
  unfold State.setChainMode
  extract_lets s1 s2 s3 s4
  have h1 : u.Evolves s1 := .ite h (.each h fun _ _ h => h.abandon)
  have h2 : u.Evolves s2 := .ite h1.loseWindow h1
  have h3 : u.Evolves s3 := h2.set.set
  have h4 : u.Evolves s4 := .ite h3.aimGain h3.manualGain
  exact .ite h h4.modRxc.showSlices

theorem deafen (h : u.Evolves s) {x} : u.Evolves (s.deafen x) :=
  .ite h (.showSlices (.each h.loseWindow.modRxc.set.setGain fun _ _ h => h.set.inc.abandon.edit))

theorem undeafen (h : u.Evolves s) {x} : u.Evolves (s.undeafen x) := .ite h.set.setGain h

theorem changeTune (h : u.Evolves s) {n f wave wr} (hw : u.Evolves (wr s)) : u.Evolves (s.changeTune n f wave wr) :=
  .ite h.raise (.ite hw.set.modSlc hw.applyTune)

theorem tuneWrite (h : u.Evolves s) {n w} : u.Evolves (s.tuneWrite n w) :=
  .ite h.raise (.ite (.changeTune h h.set) h.set)

theorem cfgWrite (h : u.Evolves s) {n w} : u.Evolves (s.cfgWrite n w) := by
  unfold State.cfgWrite
  exact .ite h.raise (.ite (.ite h.set.raise h.set) (.ite (.ite h.set.set (.changeTune h.set.set h.set.set.set))
    h.set.set.set))

theorem assignSlice (h : u.Evolves s) {n} : u.Evolves (s.assignSlice n) := by
  unfold State.assignSlice
  extract_lets s1 _ _ _ _ _ s2 _ s3 s4 s5
  have h1 : u.Evolves s1 := .ite h.loseWindow h
  have h2 : u.Evolves s2 := .ite h1.set.raise h1
  have h3 : u.Evolves s3 := .ite h2.abandon h2
  have h4 : u.Evolves s4 := h3.set.set
  have h5 : u.Evolves s5 := h4.set
  exact .ite h (.ite h2 (.ite h5.applyTune (.ite h4.set h4.set.set)))

theorem trimSlices (h : u.Evolves s) : u.Evolves s.trimSlices :=
  .ite (.each h fun _ _ h => h.set) (.raise (.each h fun _ _ h => h.set))

theorem assignSlices (h : u.Evolves s) : u.Evolves s.assignSlices :=
  .ite (.showSlices (.each h.trimSlices fun _ _ h => h.assignSlice)) h

theorem applyChainModes (h : u.Evolves s) : u.Evolves s.applyChainModes := .each h fun _ _ h => .ite h.setChainMode h

theorem takeSlice (h : u.Evolves s) {n} : u.Evolves (s.takeSlice n) := h.set

theorem schedTune (h : u.Evolves s) {n x wave f} : u.Evolves (s.schedTune n x wave f) :=
  h.set.set.set.set.set.applyTune.modSlc.showSlices

theorem rssiWindow (h : u.Evolves s) {n power gain} : u.Evolves (s.rssiWindow n power gain) :=
  .ite h (.ite (.set (.ite h h.set)) (.set (.ite h h.set)))

theorem frameSync (h : u.Evolves s) {n marker seen} : u.Evolves (s.frameSync n marker seen) := by
  unfold State.frameSync
  exact .ite h (.ite h.edit.modSlc.set.set.stampAt.edit.modRxc.set.set h.edit.modSlc.set.set.stampAt.edit)

theorem returnFrame (h : u.Evolves s) {c status} : u.Evolves (s.returnFrame c status) := by
  unfold State.returnFrame
  split
  · exact h
  · dsimp only
    split
    · exact .ite (.freeCar (.ite h.raise h)) (.txOutcome (.freeCar (.ite h.raise h)))
    · exact .freeCar (.ite h.raise h)

theorem reserveAck (h : u.Evolves s) {x f wave t' want n} : u.Evolves (s.reserveAck x f wave t' want n).1 := by
  unfold State.reserveAck
  dsimp only
  split
  · exact h
  · split
    · exact h
    · exact .hold (.each h fun _ _ h => h.returnFrame)

theorem headerFailed (h : u.Evolves s) {n code f} : u.Evolves (s.headerFailed n code f) := by
  unfold State.headerFailed
  dsimp only
  split
  · exact .ite h.phyRecord.inc.endSync.idleRx h.phyRecord.inc.endSync
  · split
    · exact h.phyRecord.inc.endSync.txOutcome
    · exact h.phyRecord.inc.endSync

theorem headerReceived (h : u.Evolves s) {n h' head rssi} : u.Evolves (s.headerReceived n h' head rssi) := by
  unfold State.headerReceived
  split
  · exact h
  · split
    · exact h
    · dsimp only
      split
      · exact h.headerFailed
      · exact .ite h.set.reserveAck.modSlc h.set.modSlc

theorem showPool (h : u.Evolves s) : u.Evolves s.showPool := h.set.set

theorem feedDecoders (h : u.Evolves s) : u.Evolves s.feedDecoders :=
  .showPool (.each h fun _ _ h => by split; exacts [h.edit, h])

theorem joinPool (h : u.Evolves s) {w} : u.Evolves (s.joinPool w) := h.edit

theorem cwStatus (h : u.Evolves s) {n fid code} : u.Evolves (s.cwStatus n fid code) := h.modSlc

theorem offerCodeword (h : u.Evolves s) {n f} : u.Evolves (s.offerCodeword n f) :=
  .ite h.modSlc (.ite h.modSlc.inc.raise.cwStatus h.modSlc.joinPool.set.feedDecoders)

theorem codewordReady (h : u.Evolves s) {n symbols} : u.Evolves (s.codewordReady n symbols) := by
  unfold State.codewordReady
  split
  · exact h
  · exact .ite h (.ite h.modSlc h.offerCodeword)

theorem codewordDecoded (h : u.Evolves s) {d} : u.Evolves (s.codewordDecoded d) := by
  unfold State.codewordDecoded
  split
  · exact h
  · exact .feedDecoders (.ite h.edit.inc.modSlc h.edit.inc.modSlc.inc.raise.cwStatus)

theorem judgeAck (h : u.Evolves s) {a m} : u.Evolves (s.judgeAck a m) := by
  unfold State.judgeAck
  split
  · exact h.txOutcome
  · exact .txOutcome (.ite h.contact h)

theorem lnkOk (h : u.Evolves s) {n f m lq} : u.Evolves (s.lnkOk n f m lq) := by
  unfold State.lnkOk
  split
  · exact .ite h.unreserve.judgeAck h.unreserve
  · exact .edit (by split; exacts [h.endRx, h])

theorem frameVerdict (h : u.Evolves s) {n body} : u.Evolves (s.frameVerdict n body) := by
  unfold State.frameVerdict
  split
  · exact h
  · exact .ite h (.ite h.phyRecord.endSync.inc.lnkOk h.phyRecord.endSync.inc.unreserve.lnkFailed)

/-! ### The operations of Machine/Transmit.lean -/

theorem cutCar (h : u.Evolves s) {c status} : u.Evolves (s.cutCar c status) := by
  unfold State.cutCar
  split
  · exact h
  · split
    · exact h.returnFrame
    · split
      · dsimp only
        split
        · exact h.modCar.set
        · split
          · exact h.modCar.set.txOutcome
          · exact h.modCar.set
      · exact h

theorem cutChain (h : u.Evolves s) {x status} : u.Evolves (s.cutChain x status) := .each h fun _ _ h => h.cutCar

theorem stopChain (h : u.Evolves s) {x status} : u.Evolves (s.stopChain x status) :=
  .each h.cutChain fun _ _ h => h.returnFrame

theorem maskWritten (h : u.Evolves s) {m} : u.Evolves (s.maskWritten m) := .ite h h.raise

theorem maskCheck (h : u.Evolves s) {c bins} : u.Evolves (s.maskCheck c bins) := by
  unfold State.maskCheck
  split
  · exact h
  · split
    · exact h
    · split
      · exact h
      · exact .ite h.raise (.ite (.ite h.inc.raise.cutCar h.inc.raise) h)

theorem glazeCut (h : u.Evolves s) {c level} : u.Evolves (s.glazeCut c level) := by
  unfold State.glazeCut
  split
  · exact h
  · exact .ite h.inc.raise.cutCar h

theorem rampUp (h : u.Evolves s) {c} : u.Evolves (s.rampUp c) := by
  unfold State.rampUp
  split
  · exact h
  split
  · exact h
  split
  · exact h.returnFrame
  extract_lets s1 s2
  have h1 : u.Evolves s1 := by
    unfold s1
    split
    · split
      · exact .ite h h.schedTune
      · exact h
    · exact h
  have h2 : u.Evolves s2 := .ite h1.raise h1
  exact h2.modCar.set.showTx.deafen

theorem gateAt (h : u.Evolves s) {c k now} : u.Evolves (s.gateAt c k now) := by
  unfold State.gateAt
  split
  · exact h.countGate.modCar.returnFrame
  · exact h.passGate

theorem txGate (h : u.Evolves s) {c grant} : u.Evolves (s.txGate c grant) := by
  unfold State.txGate
  dsimp only
  split
  · exact h.edit.coexWires
  · exact .ite h.edit.coexWires (.ite h.edit.coexWires.setCar.gateAt h.edit.coexWires.setCar.modCar)

theorem txLate (h : u.Evolves s) {c} : u.Evolves (s.txLate c) := by
  unfold State.txLate
  split
  · exact h
  · exact .ite h.countGate.returnFrame h

theorem gateAtLock (h : u.Evolves s) {c} : u.Evolves (s.gateAtLock c) := by
  unfold State.gateAtLock
  split
  · exact h
  · exact .ite h (.ite h.txLate (.ite h.setCar.gateAt.rampUp h.setCar.gateAt))

theorem synthLock (h : u.Evolves s) {x} : u.Evolves (s.synthLock x) :=
  .ite h (.each h.set.set.set fun _ _ h => h.gateAtLock)

theorem synthUnlock (h : u.Evolves s) {x} : u.Evolves (s.synthUnlock x) := .ite h h.raise.stopChain.raiseHw.calRun

theorem loWrite (h : u.Evolves s) {x w} : u.Evolves (s.loWrite x w) := .ite h (.ite h.retune h.edit.showTx)

theorem frameLaunch (h : u.Evolves s) {c} : u.Evolves (s.frameLaunch c) := by
  unfold State.frameLaunch
  split
  · exact h
  · split
    · exact h
    · dsimp only
      split
      · exact .ite h.setCar.stampAt h.setCar.stampAt.raise
      · exact h.setCar.stampAt

theorem nextCopy (h : u.Evolves s) {c k} : u.Evolves (s.nextCopy c k) := .ite h.setCar.gateAt.rampUp h.setCar.modCar

theorem paCheck (h : u.Evolves s) {x} : u.Evolves (s.paCheck x) := .ite h h.undeafen

theorem txSent (h : u.Evolves s) {a} : u.Evolves (s.txSent a) := .ite h.modTx h.txOutcome

theorem rampDownEnd (h : u.Evolves s) {c} : u.Evolves (s.rampDownEnd c) := by
  unfold State.rampDownEnd
  split
  · exact h
  · split
    · exact h
    · split
      · exact h.nextCopy.paCheck
      · dsimp only
        split
        · exact .ite h.freeCar.paCheck.inc h.freeCar.paCheck
        · split
          · exact h.freeCar.paCheck
          · split
            · exact h.freeCar.paCheck.txSent
            · exact h.freeCar.paCheck

theorem ackLaunch (h : u.Evolves s) {n} : u.Evolves (s.ackLaunch n) := by
  unfold State.ackLaunch
  split
  · exact h
  · dsimp only
    split
    · exact h.edit
    · split
      · split
        · exact .ite h.edit.setCar h.edit
        · exact h.edit
      · split
        · exact h.edit.hold
        · exact h.edit

theorem grantDrop (h : u.Evolves s) : u.Evolves s.grantDrop :=
  .ite h.edit.coexWires (.each h.edit.coexWires fun _ _ h => h.inc.raise.cutCar)

theorem sealWrite (h : u.Evolves s) {w} : u.Evolves (s.sealWrite w) := .ite h (.ite h.raise h.edit.set)

theorem stopBurn (h : u.Evolves s) : u.Evolves s.stopBurn := h.edit.set

theorem glazeReload (h : u.Evolves s) : u.Evolves s.glazeReload := by
  unfold State.glazeReload
  split
  · exact .set (.set (.set (.foldl h fun _ _ h => h.setReg)))
  · exact .set (.set (.foldl h fun _ _ h => h.setReg))

theorem fillDuty (h : u.Evolves s) : u.Evolves s.fillDuty := .each h fun _ _ h => h.edit

/-! ### The operations of Machine/Slot.lean -/

theorem dropStale (h : u.Evolves s) : u.Evolves s.dropStale := h.edit

theorem skipCell (h : u.Evolves s) {c} : u.Evolves (s.skipCell c) := .ite h.countSkip.txReport h.countSkip.rxReport

theorem overbook (h : u.Evolves s) {c} : u.Evolves (s.overbook c) := .ite h.raise.inc.txReport h.raise.inc.rxReport

theorem takeGuard (h : u.Evolves s) {n} : u.Evolves (s.takeGuard n).1 := .ite h h.set

theorem addActions (h : u.Evolves s) {c x f} : u.Evolves (s.addActions c x f) :=
  .ite (.edit (.takeGuard (.ite h.edit.edit h.edit))) (.ite h.edit.edit h.edit)

theorem loadCell {r : State × Booked} (h : u.Evolves r.1) {c} : u.Evolves (State.loadCell r c).1 := by
  unfold State.loadCell
  extract_lets _ s1
  have h1 : u.Evolves s1 := h.corrected
  split
  · exact Evolves.skipCell h1.eccReport.raiseHw
  split
  · exact h1.skipCell
  split
  · exact h1.skipCell
  dsimp only
  split
  · exact h1.overbook
  split
  · exact h1.addActions
  · exact h1.raise.skipCell

theorem loadBeat (h : u.Evolves s) : u.Evolves s.loadBeat := by
  unfold State.loadBeat
  refine .ite ?_ h
  exact List.foldlRecOn (motive := fun r : State × Booked => u.Evolves r.1) _ _ h fun _ hr _ _ => loadCell hr

theorem scanEnds (h : u.Evolves s) {evt} : u.Evolves (s.scanEnds evt) := h.scanStop.raise

theorem setScan (h : u.Evolves s) {c} : u.Evolves (s.setScan c) := h.edit

theorem scanStart (h : u.Evolves s) : u.Evolves s.scanStart := by
  unfold State.scanStart
  split
  · exact h.scanEnds
  · exact .ite h.scanEnds h.set.set.set.set.setScan

theorem scanStep5 (h : u.Evolves s) : u.Evolves s.scanStep5 := by
  unfold State.scanStep5
  split
  · exact .ite h.scanStart h
  · split
    · exact h.scanStop
    · split
      · exact h.setScan
      · split
        · exact h.scanEnds
        · exact .ite h.setScan h.set.set.setScan

theorem scanStep8 (h : u.Evolves s) : u.Evolves s.scanStep8 := by
  unfold State.scanStep8
  split
  · split
    · exact h
    · split
      · exact h.scanEnds
      · exact .setScan (.ite h h.tuneWrite)
  · exact h

theorem scanWrite (h : u.Evolves s) {w} : u.Evolves (s.scanWrite w) :=
  .ite h.setReg.set.set.set.scanStop h.setReg.set.set.set

theorem lnkStep8 (h : u.Evolves s) : u.Evolves s.lnkStep8 :=
  .ite (.onStale h.applyPend.dupExpire.addUacc.scanStep8.dropStale fun _ h => h.loadBeat) h

theorem frameBytes (h : u.Evolves s) {a q p x} {r : List Byte × State} (he : s.frameBytes a q p x = some r) :
    u.Evolves r.2 := by
  unfold State.frameBytes at he
  dsimp only at he
  split at he
  · cases he
    exact h
  split at he
  · cases he
  split at he
  · obtain ⟨s1, hm, rfl⟩ := Option.map_eq_some_iff.1 he
    exact Evolves.modPkt (.set (.secureFrame (h.blockRead.maskRun hm)))
  · cases he
    exact Evolves.modPkt h.set

theorem candidate (h : u.Evolves s) {o f l} : u.Evolves (s.candidate o f l).1 := by
  induction l generalizing s with
  | nil => exact h
  | cons q l ih =>
    unfold State.candidate
    split
    · split
      · rename_i heq
        exact h.tryQueue.of_fst heq
      · rename_i heq
        exact ih (h.tryQueue.of_fst heq)
    · exact ih h

theorem dropRx (h : u.Evolves s) {a} : u.Evolves (s.dropRx a) := h.edit

theorem requestCar (h : u.Evolves s) {a p t' m} : u.Evolves (s.requestCar a p t' m) := by
  unfold State.requestCar
  dsimp only
  split
  · exact h.raise.txOutcome
  · exact h.hold.modTx

theorem txSlice (h : u.Evolves s) {a} {r : State × TxAct} (he : s.txSlice a = some r) : u.Evolves r.1 := by
  unfold State.txSlice at he
  split at he
  · cases he
    exact h
  split at he
  · cases he
  split at he
  · cases he
  · cases he
    exact h.takeSlice

theorem txPacket (h : u.Evolves s) {a q p} : u.Evolves (s.txPacket a q p) := by
  unfold State.txPacket
  extract_lets a1 s1 s2
  have h2 : u.Evolves s2 := h.modTx.corrected
  split
  · exact h2.endTx.dropEcc
  split
  · exact h2.txOutcome
  split
  · exact .txOutcome (.ite h2.raise h2)
  rename_i heq
  have h3 := h2.frameBytes heq
  dsimp only
  split
  · exact h3.skipTx
  · rename_i heq
    exact (h3.txSlice heq).requestCar

theorem txSelect (h : u.Evolves s) {a} : u.Evolves (s.txSelect a).1 := by
  unfold State.txSelect
  split
  · exact h.selectBeacon
  · dsimp only
    split
    · exact .ite h.candidate.set h.candidate
    · exact h.selectRadio

theorem txCellStart (h : u.Evolves s) {cell} : u.Evolves (s.txCellStart cell) := by
  unfold State.txCellStart
  split
  · exact h
  · dsimp only
    split
    · exact h.modTx.skipTx
    · split
      · exact h.modTx.endTx
      · split
        · rename_i t heq
          exact .endTx (.of_fst h.modTx.txSelect heq)
        · rename_i t _ _ heq
          exact .ite (.txPacket (.dropRx (.of_fst h.modTx.txSelect heq))) (.skipTx (.dropRx (.of_fst h.modTx.txSelect
            heq)))

theorem ccaStart (h : u.Evolves s) {cell} : u.Evolves (s.ccaStart cell) := by
  unfold State.ccaStart
  split
  · exact h
  · split
    · exact h
    · exact h.schedTune.modTx

theorem ccaEnd (h : u.Evolves s) {cell power} : u.Evolves (s.ccaEnd cell power) := by
  unfold State.ccaEnd
  split
  · exact h
  · dsimp only
    split
    · exact h.modTx
    · exact .ite h.modTx.modTx.freeCar.txOutcome (.ite h.modTx.modCar h.modTx.modCar.modTx.releaseSlice)

theorem ackTimeout (h : u.Evolves s) {cell} : u.Evolves (s.ackTimeout cell) := by
  unfold State.ackTimeout
  split
  · exact h
  · exact .ite h.modTx h.txOutcome

theorem rxOpen (h : u.Evolves s) {cell} : u.Evolves (s.rxOpen cell) := by
  unfold State.rxOpen
  split
  · exact h
  · split
    · exact h.skipRx
    · split
      · exact h.skipRx
      · exact .ite h.skipRx (.ite h.takeSlice.schedTune.modRx.edit.coexWires h.takeSlice.schedTune.modRx)

theorem rxClose (h : u.Evolves s) {cell} : u.Evolves (s.rxClose cell) := by
  unfold State.rxClose
  split
  · exact h
  · exact .ite h.modRx h.idleRx

theorem remember (h : u.Evolves s) {src seq f stamp} : u.Evolves (s.remember src seq f stamp) := h.edit

theorem unsecure (h : u.Evolves s) {d hd idx} : u.Evolves (s.unsecure d hd idx).1 := by
  unfold State.unsecure
  split
  · split
    · exact h
    · rename_i heq
      split at heq
      · exact h.blockRead.maskRun heq
      · cases heq
  · split
    · exact h
    · exact h

theorem offerMesh (h : u.Evolves s) {d h' idx payload} : u.Evolves (s.offerMesh d h' idx payload).2 := by
  unfold State.offerMesh
  split
  · exact h
  · dsimp only
    split
    · rename_i _ t heq
      exact .of_snd h.decidePacket heq
    · rename_i _ t heq
      exact .of_snd h.decidePacket heq

theorem judgeFrame (h : u.Evolves s) {d} : u.Evolves (s.judgeFrame d).2.2 := by
  unfold State.judgeFrame
  split
  · exact h
  rename_i hd _
  extract_lets src s1 idx s2
  have h1 : u.Evolves s1 := .ite h.nbrScan h
  have h2 : u.Evolves s2 := h1.remember
  split
  · exact h1
  split
  · exact h2
  split
  · exact h2
  split
  · rename_i heq
    exact h2.unsecure.of_fst heq
  rename_i heq
  have h3 := h2.unsecure.of_fst heq
  split
  · exact h3
  split
  · exact h3
  split
  · rename_i heq
    exact h3.offerMesh.of_snd heq
  rename_i heq
  have h4 := h3.offerMesh.of_snd heq
  refine Evolves.pulse (.inc (.ite h4 (.clearDown ?_)))
  split
  · exact h4.dupPush.inc.set
  · exact h4.dupPush.inc

theorem countDecision (h : u.Evolves s) {status idx lq} : u.Evolves (s.countDecision status idx lq) := by
  unfold State.countDecision
  exact .ite (.ite (.inc (.inc (.ite h.set h))) (.inc (.ite h.set h))) (.ite (.raise (.inc (.ite h.set h))) (.ite
    (.raise (.ite h.set h)) (.ite h.set h)))

theorem actionEnds (h : u.Evolves s) {d status idx} : u.Evolves (s.actionEnds d status idx) := by
  unfold State.actionEnds
  split
  · exact h
  · exact .ite (.ite h.contact h) (.brxEnd (.ite (.timeSource (.ite h.contact h)) (.ite h.contact h)))

theorem oweAck (h : u.Evolves s) {d status idx} : u.Evolves (s.oweAck d status idx) := .ite h.edit h.edit.unreserve

theorem decideFrame (h : u.Evolves s) {n} : u.Evolves (s.decideFrame n) := by
  unfold State.decideFrame
  split
  · exact h
  · split
    · rename_i _ _ t heq
      split
      · split
        · exact .ite (.scanMatch (.actionEnds (.oweAck (.rxReport (.countDecision (.of_thd h.judgeFrame heq))))))
            (.actionEnds (.oweAck (.rxReport (.countDecision (.of_thd h.judgeFrame heq)))))
        · exact .actionEnds (.oweAck (.rxReport (.countDecision (.of_thd h.judgeFrame heq))))
      · exact .actionEnds (.oweAck (.rxReport (.countDecision (.of_thd h.judgeFrame heq))))

theorem frameAcceptance (h : u.Evolves s) {n} : u.Evolves (s.frameAcceptance n) :=
  .decideFrame (.each h fun _ _ h => h.decideFrame)

theorem radioStop (h : u.Evolves s) : u.Evolves s.radioStop := by
  unfold State.radioStop
  exact .each (.edit (.each (.loseWindow (.loseWindow (.cutChain (.cutChain (.each h fun _ _ h => h.abandon))))) fun _
    _ h => h.unreserve)) fun _ _ h => h.freeCar

/-! ### The operations of Machine/Tasting.lean -/

theorem tasteStart (h : u.Evolves s) {x} : u.Evolves (s.tasteStart x) := by
  unfold State.tasteStart
  dsimp only
  split
  · exact h
  · split
    · exact h.skipTaste
    · split
      · exact h.modRxc.set
      · split
        · exact h.skipTaste
        · exact h.modRxc.set.set.set.set.applyTune.showSlices

theorem tasteWrite (h : u.Evolves s) {x w} : u.Evolves (s.tasteWrite x w) := by
  unfold State.tasteWrite
  extract_lets s1 s2 s3 s4
  have h1 : u.Evolves s1 := h.set.set.set
  have h2 : u.Evolves s2 := h1.set.set
  have h3 : u.Evolves s3 := .ite h2 h2.set
  have h4 : u.Evolves s4 := .ite h3.aimGain h3
  exact .ite h4.tasteStart h4

theorem takeAwake (h : u.Evolves s) {x n} : u.Evolves (s.takeAwake x n) :=
  h.set.set.set.set.set.set.set.applyTune.modRxc.set.showSlices

theorem tasteDetected (h : u.Evolves s) {x} : u.Evolves (s.tasteDetected x) := by
  unfold State.tasteDetected
  exact .wake (.ite (.ite h.raise.inc.pulse.set.setChainMode.raise h.raise.inc.pulse.set.setChainMode.takeAwake)
    h.raise.inc.pulse)

theorem tasteDecision (h : u.Evolves s) {x power corr} : u.Evolves (s.tasteDecision x power corr) :=
  .ite h (.ite h.endWindow.tasteDetected h.endWindow)

theorem intervalStart (h : u.Evolves s) {x} : u.Evolves (s.intervalStart x) := .ite h.tasteStart h.modRxc.wake

theorem intervalTick (h : u.Evolves s) {x} : u.Evolves (s.intervalTick x) :=
  .ite h.modRxc (.ite h.modRxc h.modRxc.intervalStart)

theorem dueStart (h : u.Evolves s) {x} : u.Evolves (s.dueStart x) := .ite h.modRxc.tasteStart h

theorem awakeAgain (h : u.Evolves s) {x} : u.Evolves (s.awakeAgain x) := by
  unfold State.awakeAgain
  split
  · exact .ite h h.takeAwake
  · exact h

theorem awakeRelease (h : u.Evolves s) {x} : u.Evolves (s.awakeRelease x) := by
  unfold State.awakeRelease
  split
  · exact h
  · exact .ite h h.modRxc.set.set.raise

theorem awakeEnds (h : u.Evolves s) : u.Evolves s.awakeEnds :=
  .each h fun _ _ h => by split; exacts [.ite h.modRxc.set h, h]

theorem continuation (h : u.Evolves s) {n power} : u.Evolves (s.continuation n power) := by
  unfold State.continuation
  split
  · exact h
  · exact .ite (.ite h.raise.edit.unreserve h.raise.edit) h

/-! ### The operations of Machine/Events.lean -/

theorem inputActs (h : u.Evolves s) {c} : u.Evolves (s.inputActs c) :=
  .ite h.tmrInput (.ite h.tasteStart (.ite h.tasteStart (.ite h.edit (.ite h.padToggle h))))

theorem arrive (h : u.Evolves s) {c at_} : u.Evolves (s.arrive c at_) :=
  .ite h.coalesce (.ite h.edit.overrun h.edit.inputActs)

theorem eventSleeps (h : u.Evolves s) {k c wake} : u.Evolves (s.eventSleeps k c wake) :=
  .ite (.ite (.when h h.coalesce) h.setHeld.wake) h.inc.raise

theorem deliver (h : u.Evolves s) {k} : u.Evolves (s.deliver k) := by
  unfold State.deliver
  split
  · exact h
  · exact .ite (.when h.edit h.edit.evFlag) (.ite (.arrive (.when h.edit h.edit.evFlag)) (.eventSleeps (.when h.edit
      h.edit.evFlag)))

theorem deliverHeld (h : u.Evolves s) {d} : u.Evolves (s.deliverHeld d) :=
  .each h fun _ _ h => .ite h.setHeld.arrive h

theorem copyRoutes (h : u.Evolves s) : u.Evolves s.copyRoutes := h.edit

theorem evrCheck (h : u.Evolves s) : u.Evolves (s.evrCheck).2 := by
  unfold State.evrCheck
  split
  · exact h.set.set
  · exact h.set.set

/-! ### The operations of Machine/Memory.lean -/

theorem viewCorrected (h : u.Evolves s) {e a n} : u.Evolves (s.viewCorrected e a n) := .ite h h.corrected

theorem viewPut (h : u.Evolves s) {e a b} : u.Evolves (s.viewPut e a b) := by
  unfold State.viewPut
  split
  · exact h.modCpu.setLbyte
  · exact h.setLbyte
  · exact h.setMbyte
  · exact h.setMbyte
  · exact h.setMbyte
  · exact h

theorem viewPuts (h : u.Evolves s) {e a l} : u.Evolves (s.viewPuts e a l) := by
  induction l generalizing s a with
  | nil => exact h
  | cons b l ih => exact ih h.viewPut

theorem jobEcc (h : u.Evolves s) {blk e app a n} : u.Evolves (s.jobEcc blk e app a n) := by
  unfold State.jobEcc
  split
  · exact h
  · dsimp only
    split
    · exact h.viewCorrected.eccReport.raiseHw
    · exact h.viewCorrected

/-! ### The operations of Machine/HostIf.lean -/

theorem hifWrote (h : u.Evolves s) {base k n} : u.Evolves (s.hifWrote base k n) := .each h fun _ _ h => h.wrote

theorem pushItem (h : u.Evolves s) {item} : u.Evolves (s.pushItem item) := h.hifWrote.edit.raise

theorem hifTrunc (h : u.Evolves s) : u.Evolves s.hifTrunc := h.inc.raise

theorem hostFrameIn (h : u.Evolves s) {port f} : u.Evolves (s.hostFrameIn port f) := by
  unfold State.hostFrameIn
  extract_lets _ _ _ _ _ s1 s2
  have h1 : u.Evolves s1 := .ite h.set h
  have h2 : u.Evolves s2 := h1.inc
  exact .ite h1.inc.raise (.ite (.ite h2.pushItem h2.notice.inc.raise) (.ite h2.pktRefused h2.modPort))

theorem setMiso (h : u.Evolves s) {n frame} : u.Evolves (s.setMiso n frame) := .ite h h.edit

theorem spiWrite (h : u.Evolves s) {b} : u.Evolves (s.spiWrite b) :=
  .ite h.setMiso (.ite h.setMiso.hifTrunc h.setMiso.hostFrameIn)

theorem setUrx (h : u.Evolves s) {b} : u.Evolves (s.setUrx b) := h.edit

theorem uartHunt (h : u.Evolves s) {k b} : u.Evolves (s.uartHunt k b) := by
  induction k generalizing s b with
  | zero => exact h.setUrx
  | succ k ih =>
    cases b with
    | nil => exact h.setUrx
    | cons x t => exact .ite (ih h) (.ite h.setUrx (ih h.hostFrameIn))

theorem uartBytes (h : u.Evolves s) {b} : u.Evolves (s.uartBytes b) := h.uartHunt

theorem uartTimeout (h : u.Evolves s) : u.Evolves s.uartTimeout := by
  unfold State.uartTimeout
  split
  · exact h
  · exact h.hifTrunc.uartBytes

theorem setCur (h : u.Evolves s) {c} : u.Evolves (s.setCur c) := h.edit

theorem selectHost (h : u.Evolves s) : u.Evolves s.selectHost := by
  unfold State.selectHost
  split
  · exact h
  · split
    · rename_i t heq
      exact .of_fst (.select h fun _ _ _ h => h.unlinkPkt) heq
    · rename_i t _ _ heq
      dsimp only
      split
      · exact .dropEcc (.corrected (.of_fst (.select h fun _ _ _ h => h.unlinkPkt) heq))
      · exact .setCur (.edit (.corrected (.of_fst (.select h fun _ _ _ h => h.unlinkPkt) heq)))

theorem nextOutput (h : u.Evolves s) : u.Evolves s.nextOutput := by
  unfold State.nextOutput
  split
  · exact h
  · split
    · exact h.setCur
    · exact h.blockRead.setCur
    · exact h.selectHost

theorem outputDone (h : u.Evolves s) : u.Evolves s.outputDone := by
  unfold State.outputDone
  split
  · exact h
  · exact .ite h.setCur.inc.edit (.ite h.setCur.inc.edit h.setCur.inc.sendDone)

theorem hostOutput (h : u.Evolves s) : u.Evolves s.hostOutput := .ite h (.ite h.outputDone.nextOutput h.nextOutput)

theorem spiRead (h : u.Evolves s) {clocked} : u.Evolves (s.spiRead clocked) := by
  unfold State.spiRead
  split
  · exact h.setMiso
  · dsimp only
    split
    · exact .ite h.nextOutput.edit.outputDone h.nextOutput.edit
    · exact h.nextOutput.setMiso

theorem itemOut (h : u.Evolves s) {item} : u.Evolves (s.itemOut item) := .ite h.inc h.edit

theorem itemWhole (h : u.Evolves s) {item} : u.Evolves (s.itemWhole item) := h.hifWrote.itemOut

theorem txDataWrite (h : u.Evolves s) {w} : u.Evolves (s.txDataWrite w) := by
  unfold State.txDataWrite
  split
  · exact .ite h.raise (.ite h.hifWrote.itemOut h.hifWrote.edit)
  · exact .ite h.hifWrote.edit.itemOut h.hifWrote.edit

theorem txFlush (h : u.Evolves s) : u.Evolves s.txFlush := h.edit

theorem rxDataRead (h : u.Evolves s) : u.Evolves (s.rxDataRead).2 := by
  unfold State.rxDataRead
  split
  · exact h.edit
  · exact h.raise

theorem rxFlush (h : u.Evolves s) : u.Evolves s.rxFlush := h.edit

theorem hifLock (h : u.Evolves s) : u.Evolves s.hifLock := .ite h (.raise (.set (.ite h h.hifTrunc.setUrx)))

theorem hifUnlock (h : u.Evolves s) : u.Evolves s.hifUnlock := h.set

theorem selectMgmt (h : u.Evolves s) : u.Evolves s.selectMgmt := by
  unfold State.selectMgmt
  dsimp only
  split
  · exact h
  · split
    · rename_i t heq
      exact .of_fst (.select h fun _ _ _ h => h.unlinkPkt) heq
    · rename_i t _ _ heq
      split
      · exact .dropEcc (.corrected (.of_fst (.select h fun _ _ _ h => h.unlinkPkt) heq))
      · exact .pushItem (.edit (.modEng (.corrected (.of_fst (.select h fun _ _ _ h => h.unlinkPkt) heq))))

theorem outletSelect (h : u.Evolves s) {o} : u.Evolves (s.outletSelect o) :=
  .ite (.ite h.selectWired h) (.ite h.selectHost (.ite h.selectMgmt h))

theorem outletDone (h : u.Evolves s) {o} : u.Evolves (s.outletDone o) :=
  .ite (.ite h.outputDone h) (.ite h.sendDone h)

theorem goWrite (h : u.Evolves s) {n} : u.Evolves (s.goWrite n) := h.journal.set

theorem mirrorCopy (h : u.Evolves s) : u.Evolves s.mirrorCopy := .ite h (.set (.setFbytes (.ite h.eraseFlash h)))

theorem recoverLog (h : u.Evolves s) : u.Evolves s.recoverLog := by
  unfold State.recoverLog
  extract_lets jar mir s1
  have h1 : u.Evolves s1 := by
    unfold s1
    split
    · exact h.set.set
    · exact .set (.set (.each h fun _ _ h => h.setMbytes))
  exact .ite h1.set.journalHw h1.set

theorem dropHead (h : u.Evolves s) : u.Evolves s.dropHead := h.edit

theorem respond (h : u.Evolves s) {c result data} : u.Evolves (s.respond c result data) := h.journal.itemWhole

theorem serve (h : u.Evolves s) {code k answer} : u.Evolves (s.serve code k answer) := by
  unfold State.serve
  split
  · exact .ite h.dropHead.respond h
  · exact h

theorem rescueUnknown (h : u.Evolves s) : u.Evolves s.rescueUnknown := by
  unfold State.rescueUnknown
  split
  · exact .ite h.dropHead.itemWhole h
  · exact h

/-! ### The operations of Machine/Cipher.lean -/

theorem putCtx (h : u.Evolves s) {n b} : u.Evolves (s.putCtx n b) := .each h fun _ _ h => h.wrote.setReg

theorem aesStart (h : u.Evolves s) {j} : u.Evolves (s.aesStart j).1 := by
  unfold State.aesStart
  dsimp only
  split
  · exact h
  split
  · exact h
  rename_i heq
  have h1 := h.maskRun heq
  split
  · exact Evolves.blockRead (.ite h1 h1.keyUse)
  split
  · exact h1.blockRead
  · exact h1

theorem aesNext (h : u.Evolves s) : u.Evolves s.aesNext := by
  unfold State.aesNext
  split
  · split
    · exact h
    · split
      · rename_i t _ heq
        exact .edit (.of_fst h.aesStart heq)
  · exact h

theorem aesCmd (h : u.Evolves s) {e n w} : u.Evolves (s.aesCmd e n w) := .ite h.raise (.ite h h.set.edit.aesNext)

theorem jobWrite (h : u.Evolves s) {e app a b} : u.Evolves (s.jobWrite e app a b).2 := h.viewPuts

theorem aesRun (h : u.Evolves s) {j} : u.Evolves (s.aesRun j).2 := by
  unfold State.aesRun
  dsimp only
  split
  · exact h.jobEcc
  · split
    · rename_i t heq
      exact .of_snd h.putCtx.jobWrite heq
    · rename_i t heq
      split
      · exact .of_snd h.putCtx.jobWrite heq
      · split
        · split
          · exact .of_snd h.putCtx.jobWrite heq
          · exact .viewPuts (.of_snd h.putCtx.jobWrite heq)
        · exact .of_snd h.putCtx.jobWrite heq

theorem aesSave (h : u.Evolves s) {j} : u.Evolves (s.aesSave j).2 := by
  unfold State.aesSave
  dsimp only
  split
  · rename_i t heq
    exact .of_snd h.jobWrite heq
  · rename_i t heq
    exact .of_snd h.jobWrite heq

theorem aesRestore (h : u.Evolves s) {j} : u.Evolves (s.aesRestore j).2 := by
  unfold State.aesRestore
  dsimp only
  split
  · exact h.jobEcc
  · split
    · exact h.putCtx
    · exact h.putCtx

theorem aesWork (h : u.Evolves s) {j} : u.Evolves (s.aesWork j).2 := by
  unfold State.aesWork
  split
  · exact h
  · split
    · exact h.aesSave
    · split
      · exact h.aesRestore
      · split
        · exact h.putCtx
        · exact h.aesRun

theorem aesResult (h : u.Evolves s) {n r} : u.Evolves (s.aesResult n r) := by
  unfold State.aesResult
  extract_lets s1 s2 s3
  have h1 : u.Evolves s1 := h.set.set
  have h2 : u.Evolves s2 := .ite h1.raiseBit h1.raiseBit
  have h3 : u.Evolves s3 := .ite h2.raise h2
  exact .ite h3.raise h3

theorem aesEnd (h : u.Evolves s) : u.Evolves s.aesEnd := by
  unfold State.aesEnd
  split
  · exact h
  extract_lets _ s1
  have h1 : u.Evolves s1 := h.edit
  split
  rename_i heq
  exact (h1.aesWork.of_snd heq).aesResult.aesNext

/-! ### The operations of Machine/Keys.lean -/

theorem modPka (h : u.Evolves s) {c f} : u.Evolves (s.modPka c f) := h.edit

theorem pkaStart (h : u.Evolves s) {c} : u.Evolves (s.pkaStart c) := by
  unfold State.pkaStart
  split
  · exact h.edit
  · exact h.edit

theorem pkaNext (h : u.Evolves s) : u.Evolves s.pkaNext := .ite h (.ite h.pkaStart (.ite h.pkaStart h))

theorem keyLeave (h : u.Evolves s) : u.Evolves s.keyLeave := .ite h.edit.pkaNext h

theorem keyStored (h : u.Evolves s) {k} : u.Evolves (s.keyStored k) := .each h fun _ _ h => h.wrote

theorem loadKey (h : u.Evolves s) {k owner type usage limit b} : u.Evolves (s.loadKey k owner type usage limit b) :=
  h.setReg.setReg.set.keyStored.edit

theorem eraseKey (h : u.Evolves s) {k} : u.Evolves (s.eraseKey k) :=
  .edit (.setReg (.setReg (.setReg (.ite h.keyStored h))))

theorem keyCmd (h : u.Evolves s) {e w} : u.Evolves (s.keyCmd e w) := .ite h (.ite h.set h.edit.set.pkaNext)

theorem setLimit (h : u.Evolves s) {k limit} : u.Evolves (s.setLimit k limit) := .ite h.set.set.raise h.set

theorem keyAct (h : u.Evolves s) {c} : u.Evolves (s.keyAct c).2 := by
  unfold State.keyAct
  dsimp only
  split
  · split
    · exact h
    · exact .loadKey (by split; exacts [h.rngScalar, h.rngRequest])
  · split
    · exact .each h.loadKey fun _ _ h => h.setReg
    · split
      · split
        · exact h.jobEcc
        · split
          · exact h.keyUse
          · split
            · exact h.keyUse
            · exact h.keyUse.loadKey
      · split
        · split
          · exact h
          · exact h.keyUse.viewPuts
        · split
          · split
            · exact h.jobEcc
            · exact h.keyUse.loadKey
          · split
            · split
              · exact h.jobEcc
              · split
                · exact h
                · exact h.keyUse.loadKey
            · split
              · exact h.eraseKey
              · exact h.setLimit

theorem keyWork (h : u.Evolves s) {c} : u.Evolves (s.keyWork c).2 := by
  unfold State.keyWork
  split
  · exact h.blockRead
  · exact h.blockRead.keyAct

theorem keyDone (h : u.Evolves s) : u.Evolves s.keyDone := by
  unfold State.keyDone
  split
  · exact h
  · exact .ite h (.keyLeave (.set (.set (.edit (by split; exacts [h, h.keyWork])))))

theorem pkaOp (h : u.Evolves s) {e c w} : u.Evolves (s.pkaOp e c w) := .ite h h.modPka.set.pkaNext

theorem pkaWrite (h : u.Evolves s) {j b} : u.Evolves (s.pkaWrite j b).2 := by
  unfold State.pkaWrite
  split
  · exact h
  · exact h.viewPuts

theorem pkaHash (h : u.Evolves s) {c j} : u.Evolves (s.pkaHash c j).2 := by
  unfold State.pkaHash
  dsimp only
  split
  · exact h
  · split
    · exact h.jobEcc
    · split
      · exact h.modPka
      · exact h.modPka.pkaWrite

theorem pkaVerify (h : u.Evolves s) {j} : u.Evolves (s.pkaVerify j).2 := by
  unfold State.pkaVerify
  dsimp only
  split
  · split
    · split
      · exact h
      · split
        · exact h
        · exact h
    · split
      · split
        · exact h
        · split
          · exact h
          · exact h
      · exact h
  · exact h.jobEcc.jobEcc.jobEcc

theorem pkaSign (h : u.Evolves s) {j} : u.Evolves (s.pkaSign j).2 := by
  unfold State.pkaSign
  dsimp only
  split
  · exact h
  · split
    · exact h.blockRead
    · split
      · exact h.blockRead.jobEcc
      · exact h.blockRead.draw.keyUse.pkaWrite

theorem pkaAttest (h : u.Evolves s) {j} : u.Evolves (s.pkaAttest j).2 := by
  unfold State.pkaAttest
  split
  · exact h
  · split
    · exact h
    · split
      · exact h
      · split
        · exact h
        · split
          · exact h.jobEcc
          · exact .pkaWrite (.draw (.set (.set (.ite h.edit h))))

theorem pkaIdpub (h : u.Evolves s) {j} : u.Evolves (s.pkaIdpub j).2 := by
  unfold State.pkaIdpub
  split
  · exact h
  · exact h.pkaWrite

theorem pkaWork (h : u.Evolves s) {c j} : u.Evolves (s.pkaWork c j).2 := by
  unfold State.pkaWork
  split
  · exact h.pkaHash
  · split
    · exact h.pkaVerify
    · split
      · split
        · exact h
        · split
          · exact h.pkaSign
          · split
            · exact h.pkaAttest
            · exact h.pkaIdpub
      · exact h

theorem pkaDone (h : u.Evolves s) : u.Evolves s.pkaDone := by
  unfold State.pkaDone
  split
  · exact h
  · split
    · exact h
    · split
      · exact h
      · exact h.pkaWork.edit.modPka.set.set.set.set.raiseBit.pkaNext

/-- R348: a lifecycle move goes to no lower state. -/
theorem lc_le_of_moveOk {k : Nat} (hk : s.moveOk k = true) : s.sec.lc ≤ k := by
  unfold State.moveOk at hk
  dsimp only at hk
  split at hk
  · omega
  split at hk
  · omega
  · have := of_decide_eq_true hk
    omega

theorem moveTo (h : u.Evolves s) {k : Nat} (hk : s.sec.lc ≤ k) :
    u.Evolves { s with sec := { s.sec with lcMove := some k } } :=
  h.trans ⟨rfl, fun c => ⟨c.regs, c.mem, c.lmem, c.flash, c.steps⟩,
    fun _ => ⟨fun _ hc => Option.some.inj hc ▸ hk, le_rfl, le_rfl⟩⟩

theorem lcCmd (h : u.Evolves s) {w} : u.Evolves (s.lcCmd w) := by
  unfold State.lcCmd
  split
  · exact h
  split
  · exact h.raise
  rename_i hok
  simp only [Bool.or_eq_true, Bool.not_eq_true', not_or, Bool.not_eq_false] at hok
  obtain ⟨⟨_, hmove⟩, _⟩ := hok
  exact .set (h.moveTo (lc_le_of_moveOk hmove))

theorem showOtp (h : u.Evolves s) : u.Evolves s.showOtp := .each h.set.set fun _ _ h => h.setReg

theorem drawIdentity (h : u.Evolves s) : u.Evolves s.drawIdentity := h.rngScalar.rngRequest.edit

theorem lcDone (h : u.Evolves s) : u.Evolves s.lcDone := by
  unfold State.lcDone
  split
  · exact h
  rename_i k hk
  split
  · exact h
  extract_lets _ s1 s2 s3
  have h1 : u.Evolves s1 := h.trans ⟨rfl, fun c => ⟨c.regs, c.mem, c.lmem, c.flash, c.steps⟩,
    fun hs => ⟨fun _ hc => (nomatch hc), hs k hk, le_rfl⟩⟩
  have h2 : u.Evolves s2 := h1.each fun _ _ h => h.eraseKey
  have h3 : u.Evolves s3 := .ite h1.drawIdentity (.ite h2.set h1)
  exact h3.set.set.raise

theorem tokenVerdict (h : u.Evolves s) : u.Evolves s.tokenVerdict := by
  unfold State.tokenVerdict
  split
  · exact h
  · exact .ite h (.ite h.edit (.each h.edit fun _ _ h => h.putBit))

theorem park (h : u.Evolves s) : u.Evolves s.park := .ite h h.blockRead.setMbytes

theorem unparkSlot (h : u.Evolves s) {t'} : u.Evolves (s.unparkSlot t') := h.setReg.set.set.keyStored.edit

theorem unpark (h : u.Evolves s) : u.Evolves s.unpark := by
  unfold State.unpark
  split
  · exact h
  · dsimp only
    split
    · exact .set (.each h fun _ _ h => h.unparkSlot)
    · exact h.raise

theorem clearSec (h : u.Evolves s) : u.Evolves s.clearSec :=
  h.trans ⟨rfl, fun c => ⟨c.regs, c.mem, c.lmem, c.flash, c.steps⟩, fun _ => ⟨fun _ hc => (nomatch hc), le_rfl,
    le_rfl⟩⟩

/-! ### The operations of Machine/Reset.lean -/

theorem resetRegs (h : u.Evolves s) {p keep} : u.Evolves (s.resetRegs p keep) :=
  h.of_canon rfl rfl fun c => { c with regs := swf_smap _ _ _ c.regs }

theorem clearPer (h : u.Evolves s) : u.Evolves s.clearPer :=
  h.of_canon rfl rfl fun c => { c with steps := fun _ hd => (nomatch hd) }

theorem clearFab (h : u.Evolves s) : u.Evolves s.clearFab := h.edit

theorem clearDomain (h : u.Evolves s) {d} : u.Evolves (s.clearDomain d) := by
  unfold State.clearDomain
  exact .ite h.clearEngine (.ite h.modRxc (.ite h.edit (.ite h.edit (.ite (.set (.edit (.each h fun _ _ h =>
    h.setCar))) (.ite h.edit (.ite h.clearFab (.ite h.clearSec.edit (.ite h.edit (.ite h.edit (.ite h.edit (.ite
    h.clearPer h)))))))))))

theorem clearedTables (h : u.Evolves s) {d} : u.Evolves (s.clearedTables d) := h.unwrite

theorem dropMemory (h : u.Evolves s) {d} : u.Evolves (s.dropMemory d) := by
  unfold State.dropMemory
  refine .ite ?_ (.ite ?_ (.ite ?_ h.clearedTables))
  · exact h.of_canon rfl rfl fun c => ⟨c.regs, c.mem, swf_sdrop _ _ _ c.lmem, c.flash, c.steps⟩
  · exact h.of_canon rfl rfl fun c => ⟨c.regs, swf_sdrop _ _ _ c.mem, c.lmem, c.flash, c.steps⟩
  · exact h.of_canon rfl rfl fun c => ⟨c.regs, swf_sdrop _ _ _ c.mem, c.lmem, c.flash, c.steps⟩

theorem stopWork (h : u.Evolves s) {d} : u.Evolves (s.stopWork d) := by
  unfold State.stopWork
  exact .ite (.loseWindow (.each h fun _ _ h => h.abandon)) (.ite (.loseWindow (.loseWindow (.each h fun _ _ h =>
    h.abandon))) (.ite h.cutChain (.ite h.radioStop (.ite h.ethDown (.ite h.jjDown.jjDown h)))))

theorem keepUpdState (h : u.Evolves s) : u.Evolves s.keepUpdState := .ite h h.set

theorem showLive (h : u.Evolves s) {d} : u.Evolves (s.showLive d) :=
  .ite h.showSlices (.ite h.glazeReload (.ite h.keepUpdState.showOtp h))

theorem resetDomain (h : u.Evolves s) {d} : u.Evolves (s.resetDomain d) :=
  h.clearDomain.clearedTables.resetRegs.showLive

theorem domainReset (h : u.Evolves s) {w} : u.Evolves (s.domainReset w) :=
  .ite h (.ite h.raise (.ite h.engineReset h.stopWork.resetDomain))

theorem warmClear (h : u.Evolves s) : u.Evolves s.warmClear := h.clearPer.clearSec.edit

theorem warmReset (h : u.Evolves s) {act} : u.Evolves (s.warmReset act) := by
  unfold State.warmReset
  exact .wakeReady (.glazeReload (.unpark (.showOtp (.edit (.keepUpdState (.set (.set (.set (.foldl (.resetRegs
    (.warmClear (.ite h h.park))) fun _ _ h => h.clearedTables)))))))))

theorem beginWarm (h : u.Evolves s) {act} : u.Evolves (s.beginWarm act) :=
  .ite h.edit (.ite h.warmReset h.warmReset.journalHw)

theorem coldClear (h : u.Evolves s) : u.Evolves s.coldClear := by
  unfold State.coldClear
  extract_lets was s1 s2 s3 s4 tsu
  have h4 : u.Evolves s4 := h.resetRegs.set.set.set.set.set.setReg
  exact h4.of_canon rfl rfl fun c => { c with steps := fun _ hd => (nomatch hd) }

theorem coldReset (h : u.Evolves s) {cause} : u.Evolves (s.coldReset cause) :=
  h.coldClear.raise.glazeReload.fillDuty.beginWarm

theorem coldStart (h : u.Evolves s) {vbak} : u.Evolves (s.coldStart vbak) := by
  unfold State.coldStart
  extract_lets sec glz pad tsu _ t0 t1 t2 t3
  have h0 : u.Evolves t0 := h.trans ⟨rfl, fun c => ⟨rfl, rfl, rfl, c.flash, fun _ hd => (nomatch hd)⟩,
    fun _ => ⟨fun _ hc => (nomatch hc), le_rfl, le_rfl⟩⟩
  have h1 : u.Evolves t1 := h0.glazeReload.fillDuty.showOtp
  have h2 : u.Evolves t2 := h1.each fun _ _ h => h.setReg
  have h3 : u.Evolves t3 := h2.each fun _ _ h => h.setEstate
  exact .ite h3.set.set.set h1

/-! ### The operations of Machine/Clocks.lean -/

theorem enterHoldover (h : u.Evolves s) : u.Evolves s.enterHoldover :=
  .ite h h.radioStop.set.tsuHold.set.showPhase.showSlices

theorem refLoss (h : u.Evolves s) : u.Evolves s.refLoss :=
  .raiseHw (.edit (.each h.set.enterHoldover.set.set fun _ _ h => h.set.set))

theorem declareLoss (h : u.Evolves s) : u.Evolves s.declareLoss := .ite h.refLoss h.edit

theorem windowEnd (h : u.Evolves s) {ppm gap} : u.Evolves (s.windowEnd ppm gap) :=
  .ite h.declareLoss (.ite h (.ite h.edit h.edit.set))

theorem pllUnlock (h : u.Evolves s) {p} : u.Evolves (s.pllUnlock p) := .ite h h.enterHoldover.set.raiseHw.edit

theorem holdExit (h : u.Evolves s) : u.Evolves s.holdExit :=
  .ite h (.each h.set.raise.tsuUnhold.edit.set.set.set fun _ _ h => .ite h.calRun h)

theorem serUnlock (h : u.Evolves s) : u.Evolves s.serUnlock := .ite h h.set.jjDown.jjDown.ethDown.raiseHw

theorem scrubWord (h : u.Evolves s) {e u'} : u.Evolves (s.scrubWord e u') := by
  unfold State.scrubWord
  split
  · exact h
  · split
    · exact h.corrected
    · exact h.edit.corrected
    · exact h.edit.eccReport.raiseHw

theorem scrubRead (h : u.Evolves s) {m i u'} : u.Evolves (s.scrubRead m i u') := .ite h h.edit.scrubWord

/-! ### The operations of Machine/Power.lean -/

theorem saveRecord (h : u.Evolves s) {d} : u.Evolves (s.saveRecord d) := by
  unfold State.saveRecord
  split
  · exact h
  · exact h.setMbytes.set

theorem restoreRecord (h : u.Evolves s) {d} : u.Evolves (s.restoreRecord d) := by
  unfold State.restoreRecord
  split
  · exact h
  · exact .ite (.foldl h.set fun _ _ h => .ite h.setReg h) h.set.raise

theorem showBucks (h : u.Evolves s) : u.Evolves s.showBucks := h.set

theorem clocksAway (h : u.Evolves s) : u.Evolves s.clocksAway := by
  unfold State.clocksAway
  exact .ite (.set (.set (.set (.set (.set (.ite (.set (.ite h.set h)) (.ite h.set h))))))) (.ite (.set (.ite h.set
    h)) (.ite h.set h))

theorem latchPads (h : u.Evolves s) {d fail} : u.Evolves (s.latchPads d fail) :=
  .ite h.edit.set (.ite h.edit (.ite h.edit h))

theorem releaseGpio (h : u.Evolves s) : u.Evolves s.releaseGpio := h.edit.set.withPads

theorem releasePads (h : u.Evolves s) {d} : u.Evolves (s.releasePads d) :=
  .ite (.ite h.releaseGpio h) (.ite h.edit (.ite h.edit h))

theorem clocksStop (h : u.Evolves s) {d off} : u.Evolves (s.clocksStop d off) :=
  .ite h.engineLeaves (.ite h.ethDown (.ite h.jjDown.jjDown (.ite h.set h)))

theorem enterState (h : u.Evolves s) {d t' save} : u.Evolves (s.enterState d t' save) := by
  unfold State.enterState
  extract_lets _ s1 s2 s3 _ _ s4 s5 s6 s7 s8
  have h1 : u.Evolves s1 := h.clocksStop
  have h2 : u.Evolves s2 := .ite h1.saveRecord h1
  have h3 : u.Evolves s3 := .ite h2.park h2
  have h4 : u.Evolves s4 := .ite h3 h3.clearDomain
  have h5 : u.Evolves s5 := h4.resetRegs.dropMemory
  have h6 : u.Evolves s6 := .ite h1 h5.setReg
  have h7 : u.Evolves s7 := h6.setReg
  have h8 : u.Evolves s8 := h7.set.set
  exact .when h8.clocksAway.showBucks h8.clocksAway.showBucks.showSlices

theorem leave (h : u.Evolves s) {d t' fail} : u.Evolves (s.leave d t' fail) :=
  .ite h.edit.set (.enterState (.ite h.latchPads h))

theorem tryChange (h : u.Evolves s) {d} : u.Evolves (s.tryChange d) := .ite h (.ite h.leave h.set)

theorem powerStep (h : u.Evolves s) : u.Evolves s.powerStep :=
  .each (.each h fun _ _ h => h.turnOn) fun _ _ h => h.tryChange

theorem reqWrite (h : u.Evolves s) {d w} : u.Evolves (s.reqWrite d w) := .ite h h.set.set.set

theorem sleepEntry (h : u.Evolves s) {slow} : u.Evolves (s.sleepEntry slow) := by
  unfold State.sleepEntry
  split
  · exact .ite h.edit.latchE0.latchPads.enterState.turnOn h.edit.latchE0.latchPads.enterState
  · exact .ite h.latchE0 h

theorem timersBack (h : u.Evolves s) : u.Evolves s.timersBack := .ite (.each h.edit fun _ _ h => h.tmrSleepAdvance) h

theorem stageReady (h : u.Evolves s) {d l prev first} : u.Evolves (s.stageReady d l prev first) := .ite h.set h

theorem oscReady (h : u.Evolves s) {d} : u.Evolves (s.oscReady d) := by
  unfold State.oscReady
  extract_lets s1 s2 s3 s4 s5
  have h1 : u.Evolves s1 := h.set
  have h2 : u.Evolves s2 := h1.set
  have h3 : u.Evolves s3 := h2.set.set
  have h4 : u.Evolves s4 := .ite h3.set h3
  have h5 : u.Evolves s5 := .ite h1 (.ite h2 (.ite h4.set h4))
  exact .ite h (.ite h5 (.ite h5.set (.ite h5.set h5)))

theorem comeBack (h : u.Evolves s) {d off} : u.Evolves (s.comeBack d off) := by
  unfold State.comeBack
  refine .ite h.engineOn (.ite (.dueStart (.ite h.setChainMode h.showSlices)) (.ite (.awakeAgain (.awakeAgain
    (.ite h.showSlices h))) (.ite (.ite (.ite h.glazeReload h) (.calRun (.ite h.glazeReload h))) (.ite (.ite h h.edit)
    (.ite (.ite h.keepUpdState.showOtp.unpark h) (.ite ?_ h))))))
  refine .timersBack (.set (.setArm (.setArm (.setValid (.setValid (h.edit ?_ rfl))))))
  split
  · rfl
  · rfl

theorem logicReady (h : u.Evolves s) {d} : u.Evolves (s.logicReady d) := by
  unfold State.logicReady
  split
  · exact h
  · exact .ite h (.wakeReady (.deliverHeld (.comeBack (.releasePads (.setReg (.ite h.edit.restoreRecord h.edit))))))

theorem shed (h : u.Evolves s) : u.Evolves s.shed :=
  .ite h (.each h fun _ _ h => .ite h (.leave (.ite h.edit.stopWork h.edit)))

theorem pfWarning (h : u.Evolves s) : u.Evolves s.pfWarning :=
  .ite h h.set.raise.hifLock.journalHw.raiseHw.stopBurn.shed

theorem pfClear (h : u.Evolves s) : u.Evolves s.pfClear := .ite h h.set.raise.hifUnlock.journalHw

theorem powerFail (h : u.Evolves s) : u.Evolves s.powerFail := by
  unfold State.powerFail
  exact .ite h (.resetRegs (.edit (.set (.set (.set (.each (.each h.radioStop.stopBurn fun _ _ h => .ite h.latchPads
    h) fun _ _ h => h.enterState))))))

theorem supplyReturn (h : u.Evolves s) : u.Evolves s.supplyReturn := .ite h h.edit.set.pfClear.inc.set.set.beginWarm

theorem gpioWake (h : u.Evolves s) {k} : u.Evolves (s.gpioWake k) := .ite h.wake h

theorem vioDetect (h : u.Evolves s) {ok} : u.Evolves (s.vioDetect ok) :=
  .ite h.edit (.ite h.edit.withPads.edit.beginWarm h.edit.withPads)

/-! ### The operations of Machine/Update.lean -/

theorem writeRec (h : u.Evolves s) {r} : u.Evolves (s.writeRec r) := by
  unfold State.writeRec
  split
  · exact h.setFbytes
  · exact h.setFbytes

theorem markUnrooted (h : u.Evolves s) : u.Evolves s.markUnrooted := .ite h.set h

theorem appendSet (h : u.Evolves s) {c r} (he : s.appendSet c r = some t) : u.Evolves t := by
  unfold State.appendSet at he
  dsimp only at he
  split at he
  · cases he
  · cases he
    exact h.setFbytes

theorem fillCopy (h : u.Evolves s) {c keep} : u.Evolves (s.fillCopy c keep) := h.eraseFlash.setFbytes

theorem takeCopy (h : u.Evolves s) {c : Nat} : u.Evolves { s with upd := { s.upd with scur := c } } := h.edit

theorem storeSet (h : u.Evolves s) {r} : u.Evolves (s.storeSet r).2 := by
  unfold State.storeSet
  split
  · rename_i heq
    exact h.appendSet heq
  split
  · exact h
  dsimp only
  split
  · rename_i heq
    exact Evolves.appendSet (.takeCopy h.fillCopy.writeRec) heq
  · exact .snd (.takeCopy h.fillCopy.writeRec)

theorem bootCheck (h : u.Evolves s) : u.Evolves (s.bootCheck).2 := by
  unfold State.bootCheck
  split
  · exact h.set.set.set
  · split
    · exact h.set.set.set
    · exact h.set.set.set

theorem commitRun (h : u.Evolves s) : u.Evolves s.commitRun := by
  unfold State.commitRun
  exact .ite (.modCpu (.each h.set fun _ _ h => h.startEngine)) (.engineReset (.each h.set fun _ _ h =>
    h.startEngine))

theorem commitWrite (h : u.Evolves s) {w} : u.Evolves (s.commitWrite w) := by
  unfold State.commitWrite
  exact .ite h (.ite (.ite h.evrCheck.edit.set.copyRoutes.firstStarts.commitRun.raise
    h.evrCheck.edit.set.copyRoutes.firstStarts.commitRun) h.evrCheck)

theorem setUpdState (h : u.Evolves s) {v} : u.Evolves (s.setUpdState v) := .ite h.edit h.set

theorem updResult (h : u.Evolves s) {c code} : u.Evolves (s.updResult c code) := by
  unfold State.updResult
  split
  · exact h.set.set.raise.respond
  · exact h.set.set.raise

theorem updStart (h : u.Evolves s) {c} : u.Evolves (s.updStart c) := by
  unfold State.updStart
  exact .ite h.updResult (.ite h.updResult (.ite h.updResult (.ite h.updResult (.ite h.updResult (.ite
    h.edit.set.setUpdState h.edit.set)))))

theorem updCmdWrite (h : u.Evolves s) {e w} : u.Evolves (s.updCmdWrite e w) := .ite h h.updStart

theorem serveUpd (h : u.Evolves s) {op} : u.Evolves (s.serveUpd op) := by
  unfold State.serveUpd
  split
  · split
    · split
      · exact h.dropHead.updStart
      · exact h.dropHead.respond
    · exact h
  · exact h

theorem updEnd (h : u.Evolves s) {c code} : u.Evolves (s.updEnd c code) := h.edit.set.updResult

theorem markBad (h : u.Evolves s) : u.Evolves s.markBad := h.setFbytes.raise

theorem beginDone (h : u.Evolves s) {c} : u.Evolves (s.beginDone c) :=
  .updEnd (.setUpdState (.set (.ite h h.eraseFlash.setFbytes)))

theorem morselDone (h : u.Evolves s) {c flash} : u.Evolves (s.morselDone c flash) := by
  unfold State.morselDone
  split
  · exact h.updEnd
  · split
    · exact h.updEnd
    · split
      · exact h.updEnd
      · exact .ite h.setFbytes.markBad.updEnd h.setFbytes.setFbyte.set.updEnd

theorem activateDone (h : u.Evolves s) {c} : u.Evolves (s.activateDone c) :=
  .ite h.writeRec.edit.setUpdState.updEnd h.writeRec.edit.setUpdState.updEnd

theorem cancelDone (h : u.Evolves s) {c} : u.Evolves (s.cancelDone c) :=
  .updEnd (.setUpdState (.edit (.ite h.writeRec h)))

theorem counter_writeRec {r : BootRec} : (s.writeRec r).upd.counter = s.upd.counter := by
  unfold State.writeRec
  split
  · simp
  · simp

/-- R369: the counter takes a version that is not below it. -/
theorem riseTo (h : u.Evolves s) {n : Nat} (hn : s.upd.counter ≤ n) : u.Evolves { s with upd :=
  { s.upd with counter := n } } :=
  h.trans ⟨rfl, fun c => ⟨c.regs, c.mem, c.lmem, c.flash, c.steps⟩, fun hs => ⟨hs, le_rfl, hn⟩⟩

theorem confirmDone (h : u.Evolves s) {c} : u.Evolves (s.confirmDone c) := by
  unfold State.confirmDone
  extract_lets n r
  have hn : (s.writeRec { r with active := 1 - r.active, trial := 0, scur := s.upd.scur }).upd.counter ≤ n :=
    counter_writeRec.trans_le (le_max_left _ _)
  exact .updEnd (.journalHw (.setUpdState (.set (.raise (.set (h.writeRec.riseTo hn))))))

theorem savesetDone (h : u.Evolves s) {c} : u.Evolves (s.savesetDone c) := by
  unfold State.savesetDone
  dsimp only
  split
  · exact h.updEnd
  split
  · exact h.updEnd
  · exact h.storeSet.updEnd

/-! ### The operations of Machine/Beat.lean -/

theorem setChnLevel (h : u.Evolves s) {c} : u.Evolves (s.setChnLevel c) := h.edit.set

theorem setEngLevel (h : u.Evolves s) {e} : u.Evolves (s.setEngLevel e) := .ite h.edit h.edit.set

theorem levelStep (h : u.Evolves s) : u.Evolves s.levelStep := by
  unfold State.levelStep
  extract_lets e c ok s1
  have h1 : u.Evolves s1 := h.set.set
  refine .ite h1.raise ?_
  clear_value e c s1
  have h2 : u.Evolves (match c with | some c => s1.setChnLevel c | none => s1) := by
    split
    · exact h1.setChnLevel
    · exact h1
  split
  · exact h2.setEngLevel
  · exact h2

theorem plreqWrite (h : u.Evolves s) {w} : u.Evolves (s.plreqWrite w) := .ite h.setReg h.setReg.levelStep.edit.set

theorem railSettled (h : u.Evolves s) {chan} : u.Evolves (s.railSettled chan) := by
  unfold State.railSettled
  split
  · exact h.edit.showSlices
  · split
    · exact h.edit.set
    · exact h

theorem periodWrite (h : u.Evolves s) {w} : u.Evolves (s.periodWrite w) := h.setReg.edit

theorem doneWrite (h : u.Evolves s) {e w} : u.Evolves (s.doneWrite e w) := .ite h.putBit h

theorem enterBeat (h : u.Evolves s) : u.Evolves s.enterBeat := h.set.set.raise.basBoundary

theorem clearMarks (h : u.Evolves s) : u.Evolves s.clearMarks := h.edit

theorem step1 (h : u.Evolves s) : u.Evolves s.step1 := by
  unfold State.step1
  extract_lets s1 s2 s3 s4 s5
  have h1 : u.Evolves s1 := h.enterBeat
  have h2 : u.Evolves s2 := .ite h1.raise h1
  have h3 : u.Evolves s3 := .ite h2.inc h2
  have h4 : u.Evolves s4 := h3.clearMarks
  have h5 : u.Evolves s5 := .ite h4.set h4
  exact h5.pulse

theorem deferAct (h : u.Evolves s) : u.Evolves s.deferAct := .ite h h.edit.raise.journalHw

theorem openWindow (h : u.Evolves s) {d : Nat} : u.Evolves { s with upd := { s.upd with deadline := d } } := h.edit

theorem beginUpd (h : u.Evolves s) {a} : u.Evolves (s.beginUpd a) := by
  unfold State.beginUpd
  cases a with
  | activate => exact .set (.set (.openWindow h.raise.journalHw))
  | abandon => exact h.raise
  | rescue => exact h.raise.edit

theorem resetStep (h : u.Evolves s) (he : s.resetStep = some t) : u.Evolves t := by
  unfold State.resetStep at he
  extract_lets w _ s1 s2 due s3 s4 at he
  have h2 : u.Evolves s2 := .coldReset h.edit
  have h4 : u.Evolves s4 := .ite (.raise h.edit) h.edit
  clear_value w s2 due s4
  split at he
  · obtain rfl := Option.some.inj he
    exact .ite h2.raise h2
  split at he
  · cases he
  split at he
  · obtain rfl := Option.some.inj he
    exact h4.beginUpd.beginWarm
  · obtain rfl := Option.some.inj he
    exact h4.beginWarm

theorem step5 (h : u.Evolves s) : u.Evolves s.step5 := h.levelStep.scanStep5.assignSlices.awakeEnds

theorem recalibrate (h : u.Evolves s) : u.Evolves s.recalibrate := .each h fun _ _ h => .ite h.calRun h

theorem taskStep (h : u.Evolves s) {n} : u.Evolves (s.taskStep n) := by
  unfold State.taskStep
  exact .ite h (.ite (.ite h h.edit.beatStart) (.ite h.putBit.beatStart (.ite h.inc.raiseBit.raiseHw
    h.inc.raiseBit.raiseHw.failWork)))

theorem step9 (h : u.Evolves s) : u.Evolves s.step9 :=
  .each (.each h.edit.watchdog fun _ _ h => h.taskStep) fun _ _ h => h.takeOver

theorem stepsOn (h : u.Evolves s) : u.Evolves s.stepsOn := by
  unfold State.stepsOn
  exact .ite h.holdExit.step5.powerStep.applyChainModes.recalibrate
    h.holdExit.step5.powerStep.applyChainModes.recalibrate.qscStep7.reasmTimeout.lnkStep8.step9

theorem boundary (h : u.Evolves s) {tj} : u.Evolves (s.boundary tj) := by
  unfold State.boundary
  extract_lets txc s1 s2
  have h1 : u.Evolves s1 := Evolves.step1 h.edit
  have h2 : u.Evolves s2 := .ite h1.deferAct h1
  split
  · rename_i heq
    exact h2.resetStep heq
  · exact h2.stepsOn

/-! ### The operations of Machine/Views.lean -/

theorem countRead (h : u.Evolves s) {n} : u.Evolves (s.countRead n) := .ite h.set h

theorem captureRead (h : u.Evolves s) {n rising} : u.Evolves (s.captureRead n rising) := h.set

theorem readActs (h : u.Evolves s) {a} : u.Evolves (s.readActs a) := by
  unfold State.readActs
  split
  · exact .ite h.fracRead h
  · exact .ite h.subsecRead h
  · exact .ite (.ite h.countRead (.ite h.captureRead (.ite h.captureRead h))) h
  · exact h

theorem plainRead (h : u.Evolves s) {a} : u.Evolves (s.plainRead a).2 := by
  unfold State.plainRead
  split
  · exact h.edit.readActs
  · exact .readActs (by split; exacts [h.latchAt, h])

theorem regRead (h : u.Evolves s) {e a} : u.Evolves (s.regRead e a).2 := by
  unfold State.regRead
  split
  · exact h.rxDataRead
  · split
    · exact h.rngRead
    · split
      · exact h.mailRead
      · split
        · exact h.pktGet
        · split
          · exact h.cellAlloc
          · exact h.plainRead

/-! ### The operations of Machine/Bus.lean -/

theorem reheat (h : u.Evolves s) {a m} : u.Evolves (s.reheat a m) := .each h fun _ _ h => h.lift

theorem plainStore (h : u.Evolves s) {a r w} : u.Evolves (s.plainStore a r w) := h.setReg.reheat

theorem rstctlWrite (h : u.Evolves s) {w} : u.Evolves (s.rstctlWrite w) := by
  unfold State.rstctlWrite
  split
  · exact h
  · split
    · exact h.edit
    · exact h.edit
    · exact h.swEngineReset
    · exact h

theorem faultrecWrite (h : u.Evolves s) {w} : u.Evolves (s.faultrecWrite w) := .ite h.setReg.setReg.edit h

theorem wrCore (h : u.Evolves s) {e a r w} : u.Evolves (s.wrCore e a r w) := by
  unfold State.wrCore
  split
  · exact .ite h.rstctlWrite (.ite h.faultrecWrite h.plainStore)
  · exact .ite h.plainStore.clocksAway (.ite (.ite h.releaseGpio h) (.ite h.domainReset (.ite h.reqWrite
      h.plainStore)))
  · exact .ite h.periodWrite (.ite h.doneWrite (.ite h.plreqWrite (.ite h.plainStore.firstStarts h.plainStore)))

theorem tfreqWrite (h : u.Evolves s) {x w} : u.Evolves (s.tfreqWrite x w) := .ite h.setReg h

theorem wrRadio (h : u.Evolves s) {a r w} : u.Evolves (s.wrRadio a r w) := by
  unfold State.wrRadio
  split
  · exact .ite h.rxfCtrlWrite (.ite h.tasteWrite (.ite h.tfreqWrite h.plainStore))
  · exact .ite h.cfgWrite (.ite h.tuneWrite h.plainStore)
  · exact .ite h.loWrite (.ite h (.ite h.plainStore.maskWritten h.plainStore))
  · exact .ite h.sealWrite (.ite h h.plainStore)
  · exact h.plainStore

theorem wrLnk (h : u.Evolves s) {a r w} : u.Evolves (s.wrLnk a r w) := by
  unfold State.wrLnk
  exact .ite h.scanWrite (.ite (.ite h.nbrWrite h.wrote.plainStore) (.ite h.keepFresh.wrote.plainStore h.plainStore))

theorem qcfgWrite (h : u.Evolves s) {q a r w} : u.Evolves (s.qcfgWrite q a r w) := .ite h.plainStore.modQ h.plainStore

theorem wrFabric (h : u.Evolves s) {a r w} : u.Evolves (s.wrFabric a r w) := by
  unfold State.wrFabric
  split
  · exact .ite h.downWrite h.plainStore
  · exact .ite h.rsvWrite (.ite h.qcfgWrite h.plainStore)
  · exact .ite h.mdioWrite h.plainStore
  · exact .ite h.jjCtrlWrite h.plainStore

theorem wrTime (h : u.Evolves s) {a r w} : u.Evolves (s.wrTime a r w) := by
  unfold State.wrTime
  split
  · exact .ite h.captureMask (.ite (.ite h.stepCmd (.ite h (.ite h.plainStore.rateReheat h.plainStore))) h.plainStore)
  · exact .ite h.rtcCmd (.ite h.rtcShiftCmd h.plainStore)
  · exact .ite (.ite h.tmrCtrl (.ite h.tmrCountWrite (.ite (.plainStore (.ite h.set h)) h.plainStore))) h.plainStore

theorem wrSec (h : u.Evolves s) {e a r w} : u.Evolves (s.wrSec e a r w) := by
  unfold State.wrSec
  split
  · exact .ite h.aesCmd (.ite (.ite h h.wrote.plainStore) h.plainStore)
  · exact .ite h.pkaOp h.plainStore
  · exact .ite h.lcCmd (.ite h.keyCmd (.ite h.rngRestart (.ite h.setReg (.ite (.ite h.plainStore h) h.plainStore))))
  · exact .ite h.updCmdWrite (.ite h.commitWrite h.plainStore)
  · exact .ite h.goWrite h.plainStore

theorem wrPins (h : u.Evolves s) {a r m w} : u.Evolves (s.wrPins a r m w) := by
  unfold State.wrPins
  split
  · exact .ite h.chctl h.plainStore
  · exact .ite (.when h.plainStore h.plainStore.rxFlush) (.ite h.txDataWrite (.ite (.when h.plainStore
      h.plainStore.txFlush) h.plainStore.withPads))
  · exact .ite h.padWrite (.ite h.padWrite (.ite h.padWrite (.ite h.plainStore.withPads h.plainStore)))
  · exact .ite h.plainStore.coexWires h.plainStore

theorem wrEng (h : u.Evolves s) {a r w} : u.Evolves (s.wrEng a r w) := by
  unfold State.wrEng
  dsimp only
  split
  · exact h.runWrite
  · split
    · exact h.plainStore.unwatch
    · split
      · exact h.plainStore
      · split
        · exact h.kick
        · split
          · exact h.mailOpen
          · exact h.mailWrite
          · exact .when h.plainStore h.plainStore.mailFlush
          · exact h.pktDone
          · exact h.cellFreeWrite
          · exact h.linkWrite
          · exact h.submitWrite
          · exact h.plainStore

theorem writeEffect (h : u.Evolves s) {e a r w} : u.Evolves (s.writeEffect e a r w) := by
  unfold State.writeEffect
  exact .ite h.wrCore (.ite h.wrRadio (.ite h.wrLnk (.ite h.wrTime (.ite h.wrSec (.ite h.wrPins (.ite h.wrEng
    h.wrFabric))))))

theorem halfWrite (h : u.Evolves s) {e a r w} : u.Evolves (s.halfWrite e a r w) := by
  unfold State.halfWrite
  split
  · exact h.writeEffect
  · split
    · exact h.edit
    · split
      · exact h.writeEffect
      · split
        · exact h.writeEffect
        · exact .writeEffect (by split; exacts [h.edit.writeEffect, h.edit])

theorem regWrite (h : u.Evolves s) {e a w} : u.Evolves (s.regWrite e a w).1 := by
  unfold State.regWrite
  dsimp only
  split
  · split
    · exact h
    · exact h
    · exact h
    · exact h
  · split
    · exact h
    · split
      · exact h
      · split
        · exact h.halfWrite
        · split
          · exact h
          · exact h.halfWrite
          · exact h.halfWrite

theorem busWrite (h : u.Evolves s) {e size a v} : u.Evolves (s.busWrite e size a v).1 := by
  unfold State.busWrite
  split
  · exact h
  · split
    · exact h.regWrite
    · exact h.viewPuts

theorem regAccess (h : u.Evolves s) {e a} : u.Evolves (s.regAccess e a).2.1 := by
  unfold State.regAccess
  dsimp only
  split
  · exact h
  · exact h
  · split
    · exact h.corrected.eccReport
    · exact h.corrected.regRead

theorem busRead (h : u.Evolves s) {e size a} : u.Evolves (s.busRead e size a).2.1 := by
  unfold State.busRead
  split
  · exact h
  · split
    · exact h.regAccess
    · dsimp only
      split
      · exact h.viewCorrected.eccReport
      · exact h.viewCorrected

/-! ### The operations of Machine/Issue.lean -/

theorem stopEngine (h : u.Evolves s) {n} : u.Evolves (s.stopEngine n) := h.setEstate.raiseBit

theorem takeExc (h : u.Evolves s) {n cause eval} : u.Evolves (s.takeExc n cause eval) :=
  .ite h.modCpu.stopEngine h.modCpu

theorem faultExc (h : u.Evolves s) {n f unit len} : u.Evolves (s.faultExc n f unit len) := h.recordSync.takeExc

theorem interruptEntry (h : u.Evolves s) {n} : u.Evolves (s.interruptEntry n) := .ite h.modCpu h

theorem failBundle (h : u.Evolves s) {n len e} : u.Evolves (s.failBundle n len e) := .takeExc (.ite h.recordSync h)

theorem haltEngine (h : u.Evolves s) {n resume} : u.Evolves (s.haltEngine n resume) := h.modEng.setEstate.putBit

theorem atomicAccess (h : u.Evolves s) {n rd w a} : (s.atomicAccess n rd w a).EvolvedFrom u := by
  unfold State.atomicAccess
  extract_lets no s1 old b put
  have h1 : u.Evolves s1 := h.viewCorrected
  have hput (v : Word) : u.Evolves (put v) := h1.viewPuts
  split
  · exact .failed h
  split
  · exact .atomic
  split
  · exact .failed h
  split
  · exact .failed h1.eccReport
  split
  · exact .done (.ite (hput _) h1)
  · exact .done (hput _)
  · exact .done (hput _)

theorem memAccess (h : u.Evolves s) {n rd w} : (s.memAccess n rd w).EvolvedFrom u := by
  unfold State.memAccess
  extract_lets a op
  split
  · exact h.atomicAccess
  split
  · split
    · rename_i heq
      exact .failed (h.busWrite.of_fst heq)
    · rename_i heq
      exact .done (h.busWrite.of_fst heq)
  · split
    · rename_i heq
      exact .failed (h.busRead.of_mid heq)
    · rename_i heq
      exact .done (h.busRead.of_mid heq)

theorem commitBundle (h : u.Evolves s) {n old b k nxt} : u.Evolves (s.commitBundle n old b k nxt) := by
  unfold State.commitBundle
  extract_lets c s1 undo wait done
  have h1 : u.Evolves s1 := h.modCpu
  have hwait (t : State) (ht : u.Evolves t) : u.Evolves (wait t) := .ite ht.setEstate ht
  have hdone (t : State) (ht : u.Evolves t) : u.Evolves (done t) := hwait _ (.ite ht.modCpu ht)
  split
  · exact hdone _ h1
  rename_i w _
  have hm : (s1.memAccess n old w).EvolvedFrom u := h1.memAccess
  generalize s1.memAccess n old w = m at hm
  cases hm with
  | @done t v ht =>
    cases v with
    | none => exact hdone _ ht
    | some v => exact hdone _ ht.modCpu
  | failed ht => exact .faultExc ht.modCpu
  | atomic => exact .takeExc h1.modCpu

theorem runBundle (h : u.Evolves s) {n b} : u.Evolves (s.runBundle n b) := by
  unfold State.runBundle
  dsimp only
  split
  · exact h.failBundle
  · exact .ite h.modCpu.haltEngine h.commitBundle

theorem fetchCorrected (h : u.Evolves s) {n pc} : u.Evolves (s.fetchCorrected n pc) := h.viewCorrected

theorem issue (h : u.Evolves s) {n} : u.Evolves (s.issue n) := by
  unfold State.issue
  extract_lets c s1
  have h1 : u.Evolves s1 := h.fetchCorrected
  split
  · refine .takeExc ?_
    split
    · refine .recordSync ?_
      split
      · exact h1.eccReport
      · exact h1
    · split
      · exact h1.eccReport
      · exact h1
  · exact h1
  split
  · exact h1.takeExc
  · exact .ite h1.takeExc h1.runBundle

theorem debugStep (h : u.Evolves s) {n} : u.Evolves (s.debugStep n) :=
  .ite h.set.issue.haltEngine (.ite h.set.issue.haltEngine (.ite h.set.issue h.set.issue.putBit))

theorem debugWrite (h : u.Evolves s) {n what v} : u.Evolves (s.debugWrite n what v) := by
  unfold State.debugWrite
  split
  · exact h.modCpu
  · exact h.modCpu
  · exact h.viewPuts

theorem deliverFault (h : u.Evolves s) {e f} : u.Evolves (s.deliverFault e f) := by
  unfold State.deliverFault
  split
  · exact h
  · exact .ite h.faultExc h.recordSync

theorem writeBy (h : u.Evolves s) {e size a v} : u.Evolves (s.writeBy e size a v) := .ite h h.busWrite.deliverFault

theorem readBy (h : u.Evolves s) {e size a} : u.Evolves (s.readBy e size a) := .ite h h.busRead.deliverFault.edit

/-! ### The operations of Machine/Boot.lean -/

theorem putManifest (h : u.Evolves s) {m} : u.Evolves (s.putManifest m) := by
  unfold State.putManifest
  exact .each (.plreqWrite (.periodWrite (.set (.set (.set (.set (.each h.edit.set fun _ _ h => h.set))))))) fun _ _ h
    => h.set

theorem putRecord (h : u.Evolves s) {r} : u.Evolves (s.putRecord r).2 := by
  unfold State.putRecord
  split
  · exact h
  · exact h.busWrite

theorem putRecords (h : u.Evolves s) {l} : u.Evolves (s.putRecords l).2 := by
  induction l generalizing s with
  | nil => exact h
  | cons r l ih =>
    unfold State.putRecords
    dsimp only
    split
    · exact ih h.putRecord
    · exact h.putRecord

theorem putImage (h : u.Evolves s) {f i} : u.Evolves (s.putImage f i) := .ite h.setLbytes h

theorem putSetting (h : u.Evolves s) {f c i} : u.Evolves (s.putSetting f c i) := by
  unfold State.putSetting
  extract_lets e o put dflt add
  have hput (b : List Byte) : u.Evolves (put s b) := h.setLbytes
  have hadd (t : State) (ht : u.Evolves t) : u.Evolves (add t) := by
    unfold add
    cases he : t.appendSet c (makeSet i.target i.gver dflt) with
    | none => exact ht
    | some _ => exact ht.appendSet he
  split
  · exact hadd _ (hput _)
  · exact .ite (hput _) (.ite (hput _) (hadd _ (hput _)))

theorem putSettings (h : u.Evolves s) {f m c} : u.Evolves (s.putSettings f m c) :=
  .each h.edit fun _ _ h => h.putSetting

theorem applyRecipe (h : u.Evolves s) {f m b c} : u.Evolves (s.applyRecipe f m b c).2 := by
  unfold State.applyRecipe
  split
  · dsimp only
    split
    · exact .putRecords (.putManifest (.putSettings (.each h fun _ _ h => h.putImage)))
    · split
      · exact .bootCheck (.putRecords (.putManifest (.putSettings (.each h fun _ _ h => h.putImage))))
      · split
        · exact .commitWrite (.edit (.set (.set (.set (.bootCheck (.putRecords (.putManifest (.putSettings (.each h
            fun _ _ h => h.putImage)))))))))
        · exact .commitWrite (.edit (.set (.set (.set (.bootCheck (.putRecords (.putManifest (.putSettings (.each h
            fun _ _ h => h.putImage)))))))))
  · exact h

/-- A bank that the boot ROM turns down leaves of its recipe the flash. -/
theorem keepFlash (h : u.Evolves s) (k : u.Evolves t) : u.Evolves { s with flash := t.flash, lmem := [] } :=
  ⟨h.pending_eq, fun hu => ⟨(h.canon_of hu).regs, (h.canon_of hu).mem, rfl, (k.canon_of hu).flash, (h.canon_of
    hu).steps⟩,
    h.fuses_of⟩

theorem tryBank (h : u.Evolves s) {b c flash} : u.Evolves (s.tryBank b c flash).2 := by
  unfold State.tryBank
  split
  · exact h
  extract_lets f s1
  have h1 : u.Evolves s1 := h.markUnrooted
  split
  · exact .snd (.ite h1 h)
  extract_lets r t t1
  have hr : u.Evolves r.2 := h1.applyRecipe
  have ht : u.Evolves t := h1.unwrite.keepFlash hr
  have ht1 : u.Evolves t1 := .ite ht.setReg ht
  split
  · exact hr
  · exact .snd (.ite ht1.setReg ht1)

theorem abandonTrial (h : u.Evolves s) {r} : u.Evolves (s.abandonTrial r) := h.writeRec.set.set.set.raise

theorem beginTrial (h : u.Evolves s) {r} : u.Evolves (s.beginTrial r) := h.writeRec.fillCopy

theorem enterRescue (h : u.Evolves s) : u.Evolves s.enterRescue := h.edit.set

theorem tryTwo (h : u.Evolves s) {a b flash between} (hb : ∀ s, u.Evolves s → u.Evolves (between s)) :
    u.Evolves (s.tryTwo a b flash between).s := by
  unfold State.tryTwo
  dsimp only
  split
  · exact h.tryBank
  split
  · exact (hb _ h.tryBank).tryBank
  · exact (hb _ h.tryBank).tryBank

theorem bootActive (h : u.Evolves s) {r flash} : u.Evolves (s.bootActive r flash).s := by
  unfold State.bootActive
  dsimp only
  split
  · exact Evolves.set (h.tryTwo fun _ h => h)
  · exact h.tryTwo fun _ h => h

theorem abandoned {e : BootEnd} (h : u.Evolves e.s) {r} : u.Evolves (e.abandoned r).s := h.journalHw

theorem bootBanks (h : u.Evolves s) {flash} : u.Evolves (s.bootBanks flash).s := by
  unfold State.bootBanks
  extract_lets r st late s1 e s2
  have h1 : u.Evolves s1 := .ite h.beginTrial h
  have he : u.Evolves e.s := h1.tryTwo fun _ h => h.abandonTrial
  have h2 : u.Evolves s2 := h.writeRec.raise
  split
  · exact h.abandonTrial.bootActive.abandoned
  split
  · split
    · exact he.abandoned
    · exact he
  split
  · exact h.bootActive
  split
  · exact h2.journalHw.bootActive
  split
  · exact h.abandonTrial.bootActive.abandoned
  · exact h.set.bootActive

theorem clearCold (h : u.Evolves s) : u.Evolves { s with upd := { s.upd with cold := false } } := h.edit

theorem logCold (h : u.Evolves s) {v} :
    u.Evolves (if s.upd.cold then
      let s := s.recoverLog.journalHw 0xF001 v
      { s with upd := { s.upd with cold := false } } else s) := .ite h.recoverLog.journalHw.clearCold h

theorem bootRom (h : u.Evolves s) {flash time} : u.Evolves (s.bootRom flash time) := by
  unfold State.bootRom
  dsimp only
  split
  · exact .set (.set (.set (.set (Evolves.bootBanks (.logCold (.ite h.startEngine h))))))
  · exact .enterRescue (.set (.set (.set (Evolves.bootBanks (.logCold (.ite h.startEngine h))))))

theorem verifyDone (h : u.Evolves s) {c flash} : u.Evolves (s.verifyDone c flash) := by
  unfold State.verifyDone
  dsimp only
  split
  · exact h.setUpdState.updEnd
  · split
    · exact h.setUpdState.updEnd
    · split
      · exact .updEnd (.setUpdState (.ite h.markUnrooted h))
      · exact .ite h.markUnrooted.setUpdState.updEnd (.ite h.markUnrooted.setUpdState.updEnd (.ite
          h.markUnrooted.eraseFlash.setFbytes.raise.setUpdState.updEnd
          h.markUnrooted.eraseFlash.setFbytes.set.setUpdState.updEnd))

theorem updDone (h : u.Evolves s) {flash} : u.Evolves (s.updDone flash) := by
  unfold State.updDone
  split
  · exact h
  split
  · exact h
  split
  · exact h.beginDone
  · exact h.morselDone
  · exact h.verifyDone
  · exact h.activateDone
  · exact h.cancelDone
  · exact h.confirmDone
  · exact h.savesetDone

/-! ### The operations of Machine/Controls.lean -/

theorem timerTick (h : u.Evolves s) {n} : u.Evolves (s.timerTick n) := .ite h h.tmrSourcePeriod

/-! ### The operations of Machine/Idle.lean -/

theorem dueCapture (h : u.Evolves s) : u.Evolves s.dueCapture := .ite h.captureMask.edit h

theorem dueSteps (h : u.Evolves s) : u.Evolves s.dueSteps := by
  unfold State.dueSteps
  extract_lets due _ s1 s2
  have h1 : u.Evolves s1 := h.of_canon rfl rfl fun c => ⟨c.regs, c.mem, c.lmem, c.flash, fun _ hd => (nomatch hd)⟩
  have h2 : u.Evolves s2 := h1.each fun _ _ h => h.stepTo
  exact .ite h1 (.ite h2.halfBeat h2)

theorem showAttn (h : u.Evolves s) : u.Evolves s.showAttn := .ite h h.set.withPads

theorem idle (h : u.Evolves s) : u.Evolves s.idle :=
  .edit (.ite h h.refCycle.dueCapture.dueSteps.ethLaunch.engineClocks.unstall.rescueUnknown.showAttn)

end State.Evolves
end Sys2Proof.Machine
end

section
namespace Sys2Proof.Machine
/-- What a command answers keeps what the invariants of a step speak of: it answers a next state, which comes from `u`. -/
inductive State.Answers (u : State) : Host.Outcome State Fault Refusal → Prop
  | next {s} (h : u.Evolves s) : Answers u (.next s)

namespace State.Evolves

variable {u s : State}

theorem execCoexRequestAssert (h : u.Evolves s) {c} : u.Answers (execCoexRequestAssert c s) := by
  refine .next ?_
  split
  · exact .ite h.coexRequest h
  · exact h

theorem execGlazeProgramDone (h : u.Evolves s) : u.Answers (execGlazeProgramDone s) := by
  refine .next ?_
  split
  · exact h.edit.glazeReload
  · exact h

theorem execMdioDone (h : u.Evolves s) {data} : u.Answers (execMdioDone data s) := by
  refine .next ?_
  split
  · exact .ite h.edit.set.raise.set h.edit.set.raise
  · exact h

theorem execRngStartupDone (h : u.Evolves s) {samples} : u.Answers (execRngStartupDone samples s) := by
  refine .next ?_
  split
  · exact h
  split
  · rename_i heq
    exact h.rngJudge.of_snd heq
  · rename_i heq
    exact .ite (h.rngJudge.of_snd heq) (h.rngJudge.of_snd heq).rngStart

theorem execSlowLoss (h : u.Evolves s) : u.Answers (execSlowLoss s) := by
  refine .next (.ite h ?_)
  dsimp only
  split
  · exact h.set.set.edit
  · exact h.set.set

/-- Every command answers a next state that keeps what the invariants of a step speak of. -/
theorem exec (h : u.Evolves s) (c : Instr) : u.Answers (Machine.exec c s) := by
  cases c with
  | registerWrite | lowWordWrite | upperWordWrite | faultrecClear | irqmapWrite | swWarmResetRequest |
    swColdResetRequest | swEngineReset | perfLevelRequest | beatPeriodWrite | beatDone | queueFlush |
    manualGainWrite | sliceRetune | sliceAssignWrite | tasteStart | loWrite | glazeSeal | nbrTableWrite |
    scanRunWrite | mshDownClear | reservationWrite | mdioStart | tbSnapshot | tbStep | tbArm | tbCapture |
    engineRunWrite | watchdogKick | mailboxOpen | mailboxWrite | mailboxFlush | packetDone | cellLink | cellSelect |
    cellFree | packetSubmit | aesInit | aesCont | aesSavew | aesRestw | aesClear | keyGen | keyImport | keyUnwrap |
    keyWrap | keyDerive | keyEcdh | keyErase | keySetlimit | rngRestart | pkaHash256 | pkaHash384 | pkaEcverify |
    pkaHssverify | pkaVerify2 | pkaEcsign | pkaAttest | pkaIdpub | lcToProvisioned | lcToSealed | lcToRetired |
    recipeCommit | updBegin | updMorsel | updVerify | updActivate | updCancel | updConfirm | updSaveset |
    hifOutboundWrite | hifInboundFlush | hifOutboundFlush | journalAppend | domainRequest | domainReset | padRelease
    | rtcSet | rtcShift | timerStart | timerStop | timerClear | timerSnap | timerCountWrite | eventFire =>
    exact .next h.writeBy
  | lowWordRead | tbFracRead | mailboxRead | packetGet | cellAlloc | rngRead | hifInboundRead | rtcSubsecRead |
    timerCaptureRead =>
    exact .next h.readBy
  | hostBegin | hostMorsel | hostVerify | hostActivate | hostCancel | hostConfirm | hostSaveset =>
    exact .next h.serveUpd
  | serpllRelock | synthCalibrationEnd | jajorAlign | pauseQuantaExpiry => exact .next (.ite h.set h)
  | hostPing | hostJrnstat | hostJrnread => exact .next h.serve
  | dutyBucketRoll | flashResetPulse => exact .next h.edit
  | policerTick | keyDbgtoken => exact .next (.ite h.edit h)
  | vbakColdStart | powerOn => exact .next (.ite h.coldStart h)
  | vbakLowClear | slowClockReturn => exact .next (.ite h h.set)
  | scrubRead => exact .next h.scrubRead
  | refEdgeTimeout => exact .next (.ite h.declareLoss h)
  | refmonWindowEnd => exact .next (.ite h.windowEnd h)
  | pllUnlock => exact .next (.ite h.pllUnlock h)
  | serpllUnlock => exact .next (.ite h.serUnlock h)
  | beatBoundary => exact .next (.ite h.boundary h)
  | pllRelock => exact .next (.ite h.set.showSlices h)
  | railVoltageSettled => exact .next h.railSettled
  | takeoverCopyDone => exact .next h.copyDone
  | chainAgcWindow => exact .next h.agcWindow
  | sliceValidAgain => exact .next (.ite h.set.modSlc.showSlices h)
  | sliceSettled => exact .next (.ite h.modSlc h)
  | rssiWindow => exact .next h.rssiWindow
  | tasteDecision => exact .next h.tasteDecision
  | tasteIntervalTick => exact .next h.intervalTick
  | awakeRelease => exact .next h.awakeRelease
  | continuationCheck => exact .next h.continuation
  | frameSync => exact .next h.frameSync
  | headerReceived => exact .next h.headerReceived
  | codewordReady => exact .next h.codewordReady
  | codewordDecoded => exact .next h.codewordDecoded
  | frameVerdict => exact .next h.frameVerdict
  | frameAcceptance => exact .next h.frameAcceptance
  | ackLaunch => exact .next h.ackLaunch
  | txCellStart => exact .next h.txCellStart
  | ccaStart => exact .next h.ccaStart
  | ccaEnd => exact .next h.ccaEnd
  | txGate => exact .next h.txGate
  | txLateExpiry => exact .next h.txLate
  | rampUpStart => exact .next h.rampUp
  | frameLaunch => exact .next h.frameLaunch
  | lastSample => exact .next h.modCar
  | rampDownEnd => exact .next h.rampDownEnd
  | ackWaitTimeout => exact .next h.ackTimeout
  | rxWindowOpen => exact .next h.rxOpen
  | rxWindowClose => exact .next h.rxClose
  | maskCheckEnd => exact .next h.maskCheck
  | glazeCut => exact .next h.glazeCut
  | retuneHeldStart => exact .next (.ite h.startHeld h)
  | synthLock => exact .next h.synthLock
  | synthUnlock => exact .next h.synthUnlock
  | coexGrantDrop => exact .next h.grantDrop
  | mshDecision => exact .next h.mshDecision
  | nobufReoffer => exact .next (.ite (.each h fun _ _ h => h.reoffer) h)
  | outletSelect => exact .next h.outletSelect
  | outletSendDone => exact .next h.outletDone
  | jajorUp => exact .next (.ite h.jjUp h)
  | jajorDown => exact .next (.ite h.jjDown h)
  | jajorFrameReceived => exact .next (.ite h.jjReceive h)
  | jajorCreditReturn => exact .next (.ite h.addCredits h)
  | jajorBasReceived => exact .next (.ite h.basReceived h)
  | jajorBfuReceived => exact .next (.ite h.bfuReceived h)
  | ethLinkUp => exact .next (.ite h.set.set.set.raise h)
  | ethLinkDown => exact .next (.ite h.ethDown h)
  | ethFrameReceived => exact .next (.ite h.ethReceive h)
  | ethPauseReceived => exact .next (.ite (.ite h.inc.set h.inc) h)
  | tbSecondRollover => exact .next (.ite h.pulse h)
  | servoOffset => exact .next h.servoOffset
  | slewComplete => exact .next h.slewComplete
  | launchTimeReached => exact .next h.ethLaunch.outletSelect
  | slowCalWindow => exact .next h.slowCal
  | sleepEntryLatch => exact .next (.ite h h.sleepEntry)
  | sleepExitAdvance => exact .next (.ite h.exitE1.timersBack h)
  | bundleIssue => exact .next (.ite h.issue h)
  | interruptEntry => exact .next h.interruptEntry
  | wfiWake => exact .next (.ite h.setEstate h)
  | watchdogWarn => exact .next (.ite h.halfBeat h)
  | debugHalt => exact .next (.ite h.haltEngine h)
  | debugStep => exact .next (.ite h.debugStep h)
  | debugAccess => exact .next (.ite h (.ite h.debugWrite h.edit))
  | debugRelease => exact .next (.ite h.setEstate.putBit h)
  | aesJobEnd => exact .next (.ite h.aesEnd h)
  | keyCommandDone => exact .next (.ite h.keyDone h)
  | rngHealthFail => exact .next (.ite h.rngJudge h)
  | pkaJobEnd => exact .next (.ite h.pkaDone h)
  | lifecycleMoveDone => exact .next (.ite h.lcDone h)
  | debugTokenVerdict => exact .next (.ite h.tokenVerdict h)
  | bootRomStart => exact .next (.ite h.bootRom h)
  | updCommandDone => exact .next h.updDone
  | spiWrite => exact .next h.spiWrite
  | spiRead => exact .next h.spiRead
  | uartFrameReceived => exact .next (.ite h.uartBytes h)
  | uartRxTimeout => exact .next (.ite h.uartTimeout h)
  | hostOutputFrame => exact .next h.hostOutput
  | journalMirrorCopy => exact .next h.mirrorCopy
  | powerFailWarning => exact .next h.pfWarning
  | powerFailClear => exact .next (.ite h h.pfClear)
  | powerFail => exact .next h.powerFail
  | supplyReturn => exact .next h.supplyReturn
  | vbakLow => exact .next (.ite h (.ite h.set.raise.edit h.set.raise))
  | vbakHoldExpiry => exact .next (.ite h.coldStart.edit h)
  | regulatorReady => exact .next (.ite h.stageReady.set h)
  | oscillatorReady => exact .next h.oscReady
  | memoryReady => exact .next h.stageReady
  | logicReady => exact .next h.logicReady
  | gpioWake => exact .next h.gpioWake
  | vioDetect => exact .next h.vioDetect
  | rtcTick => exact .next (.ite h h.rtcEdge.sleepTick.holdTick)
  | timerTick => exact .next h.timerTick
  | timerCapture => exact .next (.ite h.tmrCapture h)
  | gpioEdge => exact .next h.edit.withPads
  | eventDelivery => exact .next h.deliver
  | pralineOutputChange => exact .next (.ite h h.set.pulse)
  | resetNPulse => exact .next (.ite h (.ite h.draw.coldReset h.draw))
  | coexRequestAssert => exact h.execCoexRequestAssert
  | glazeProgramDone => exact h.execGlazeProgramDone
  | mdioDone => exact h.execMdioDone
  | rngStartupDone => exact h.execRngStartupDone
  | slowLoss => exact h.execSlowLoss

end State.Evolves

/-- Every step keeps what the invariants speak of, but for the command that it takes off the queue. -/
theorem step_evolves {s t : State} (h : step s = .next t) :
    ({ s with pending := s.pending.tail } : State).Evolves t := by
  unfold step at h
  split at h
  · rename_i hp
    obtain rfl := Host.Outcome.next.inj h
    have hs : ({ s with pending := s.pending.tail } : State) = s := by rw [hp, List.tail_nil, ← hp]
    rw [hs]
    exact (State.Evolves.refl s).idle
  · rename_i c l hp
    have hs := (State.Evolves.refl { s with pending := l }).exec c
    rw [h] at hs
    rw [hp, List.tail_cons]
    cases hs with
    | next hs => exact hs

end Sys2Proof.Machine

open Sys2Proof Sys2Proof.Machine

/-- Settles O4: every operation keeps the canonical form, and so every command and the idle cycle do (R10, R32, R261). -/
theorem stepKeepsCanon : Obligations.StepKeepsCanon := fun _ _ hs h =>
  (step_evolves h).canon_of ⟨hs.regs, hs.mem, hs.lmem, hs.flash, hs.steps⟩
end

section
namespace Sys2Proof.Machine

/-- `s` comes from `u` by writes of the registers listed and of no memory. -/
structure State.Within (u : State) (l : List Nat) (s : State) : Prop where
  regs : KeepsRegs u s l
  mem : KeepsMemory u s

namespace State.Within

variable {u s t : State} {l : List Nat}

theorem refl (s : State) : s.Within l s := ⟨fun _ _ => rfl, fun _ => rfl, fun _ => rfl, fun _ => rfl⟩

theorem trans (h : u.Within l s) (k : s.Within l t) : u.Within l t where
  regs a ha := (k.regs a ha).trans (h.regs a ha)
  mem := ⟨fun a => (k.mem.1 a).trans (h.mem.1 a), fun a => (k.mem.2.1 a).trans (h.mem.2.1 a),
    fun a => (k.mem.2.2 a).trans (h.mem.2.2 a)⟩

theorem mono {k : List Nat} (h : u.Within k s) (hk : ∀ a ∈ k, a ∈ l) : u.Within l s :=
  ⟨fun a ha => h.regs a fun h => ha (hk a h), h.mem⟩

/-- An update of neither a register nor a memory. -/
theorem congr (h : u.Within l s) (hr : t.regs = s.regs := by rfl) (hm : t.mem = s.mem := by rfl)
    (hl : t.lmem = s.lmem := by rfl) (hf : t.flash = s.flash := by rfl) : u.Within l t :=
  h.trans ⟨fun a _ => State.reg_congr hr a, fun a => by unfold State.mbyte; rw [hm],
    fun a => by unfold State.lbyte; rw [hl], fun a => by unfold State.fbyte; rw [hf]⟩

theorem setReg (h : u.Within l s) {a v} (ha : a ∈ l := by simp) : u.Within l (s.setReg a v) :=
  h.trans ⟨fun _ hb => State.reg_setReg_ne s (by rintro rfl; exact hb ha) v, fun _ => rfl, fun _ => rfl, fun _ => rfl⟩

theorem set (h : u.Within l s) {k v} (ha : k.addr ∈ l := by simp) : u.Within l (s.set k v) := h.setReg ha

theorem incBy (h : u.Within l s) {k n} (ha : k.addr ∈ l := by simp) : u.Within l (s.incBy k n) := (h.set ha).congr

theorem inc (h : u.Within l s) {k} (ha : k.addr ∈ l := by simp) : u.Within l (s.inc k) := h.incBy ha

theorem raise (h : u.Within l s) {k} (ha : k.addr ∈ l := by simp) : u.Within l (s.raise k) := h.incBy ha

theorem raiseBit (h : u.Within l s) {k n} (ha : k.addr ∈ l := by simp) : u.Within l (s.raiseBit k n) := h.incBy ha

theorem ite {c : Prop} [Decidable c] (hs : u.Within l s) (ht : u.Within l t) : u.Within l (if c then s else t) := by
  split
  · exact hs
  · exact ht

theorem each {α : Type} {as : List α} {f : State → α → State} (h : u.Within l s)
    (hf : ∀ s, ∀ a ∈ as, u.Within l s → u.Within l (f s a)) : u.Within l (s.each as f) := by
  induction as generalizing s with
  | nil => exact h
  | cons a as ih => exact ih (hf s a List.mem_cons_self h) fun s b hb => hf s b (List.mem_cons_of_mem a hb)

theorem modEng (h : u.Within l s) {n f} : u.Within l (s.modEng n f) := h.congr

theorem modCpu (h : u.Within l s) {n f} : u.Within l (s.modCpu n f) := h.congr

theorem setEstate (h : u.Within l s) {n v} (hn : ENG_ESTAT.addr n ∈ l := by simp) : u.Within l (s.setEstate n v) :=
  .ite (h.set hn) (h.set hn).modEng

theorem stopEngine (h : u.Within l s) {n} (hn : ENG_ESTAT.addr n ∈ l := by simp) (he : ENG_EVT.addr ∈ l := by simp) :
    u.Within l (s.stopEngine n) := (h.setEstate hn).raiseBit he

theorem takeExc (h : u.Within l s) {n cause eval} (hn : ENG_ESTAT.addr n ∈ l := by simp)
    (he : ENG_EVT.addr ∈ l := by simp) : u.Within l (s.takeExc n cause eval) := .ite (h.modCpu.stopEngine hn he) h.modCpu

/-- R28: a fault shows in its record, the address of it and its count. -/
theorem recordSync (h : u.Within l s) {e f} (hr : SYS_FAULTREC.addr ∈ l := by simp)
    (ha : SYS_FAULTADDR.addr ∈ l := by simp) (hc : SYS_FAULTCNT.addr ∈ l := by simp) :
    u.Within l (s.recordSync e f) :=
  .ite ((h.setReg hr).setReg ha).congr (.ite (((h.inc hc).setReg hr).setReg ha) (h.inc hc))

end State.Within

/-! ### Engines -/

theorem State.engOf_modEng_same (s : State) {n : Nat} (f : EngState → EngState) (hn : n < 16) :
    (s.modEng n f).engOf n = f (s.engOf n) := by
  simp [State.engOf, State.modEng, vmod, vget_vset_same _ _ hn]

theorem State.cpu_modCpu_same (s : State) {n : Nat} (f : CpuState → CpuState) (hn : n < 16) :
    ((s.modCpu n f).engOf n).cpu = f (s.engOf n).cpu := by
  rw [State.modCpu, s.engOf_modEng_same _ hn]

/-- What an engine executes with is no part of its shown state. -/
theorem State.cpu_setEstate (s : State) {n v : Nat} (hn : n < 16) : ((s.setEstate n v).engOf n).cpu = (s.engOf n).cpu := by
  unfold State.setEstate
  split
  · rfl
  · rw [State.engOf_modEng_same _ _ hn]
    rfl

/-- R301: CAUSE and EVAL of the exception taken, also of one in a handler, which stops the engine (R305). -/
theorem State.cause_takeExc (s : State) {n : Nat} (cause eval : Word) (hn : n < 16) :
    ((s.takeExc n cause eval).engOf n).cpu.cause = cause ∧ ((s.takeExc n cause eval).engOf n).cpu.eval = eval := by
  unfold State.takeExc
  split
  · have h : ∀ t : State, ((t.stopEngine n).engOf n).cpu = (t.engOf n).cpu := fun t => t.cpu_setEstate hn
    rw [h, s.cpu_modCpu_same _ hn]
    exact ⟨rfl, rfl⟩
  · rw [s.cpu_modCpu_same _ hn]
    exact ⟨rfl, rfl⟩

end Sys2Proof.Machine
end

section
namespace Sys2Proof.Machine

/-! ### The fault record (R28) -/

/-- A field of a word that a number makes. -/
theorem fieldOf_ofNat {n lo w : Nat} (h : lo + w ≤ 32) : fieldOf (BitVec.ofNat 32 n) lo w = n / 2 ^ lo % 2 ^ w := by
  apply Nat.eq_of_testBit_eq
  intro i
  rw [testBit_fieldOf, BitVec.getLsbD_ofNat, Nat.testBit_mod_two_pow, Nat.testBit_div_two_pow]
  by_cases hi : i < w
  · simp [hi, show lo + i < 32 by omega, Nat.add_comm]
  · simp [hi]

theorem fieldOf_lt (x : Word) (lo w : Nat) : fieldOf x lo w < 2 ^ w := Nat.mod_lt _ (Nat.two_pow_pos w)

/-- A one-bit field that is not 1 is 0. -/
theorem State.get_eq_zero {s : State} {l : Loc} (hw : l.w = 1) (h : s.bit l = false) : s.get l = 0 := by
  have hlt : s.get l < 2 := by simpa [State.get, hw] using fieldOf_lt (s.reg l.addr) l.lo l.w
  have hne : s.get l ≠ 1 := of_decide_eq_false h
  omega

theorem blockOfAddr_periph {a o : Nat} (h : regionOf a = .periph o) : blockOfAddr a < 26 := by
  have ha : 0x20000000 ≤ a ∧ a < 0x201A0000 := by
    by_contra hn
    simp only [regionOf, if_neg hn] at h
    split_ifs at h
  unfold blockOfAddr
  omega

/-- The registers that a first fault leaves: the record and its address. -/
theorem State.latchFault_first {s : State} {c a : Nat} {w : Word} (h : s.get SYS_FAULTREC.VALID = 0) :
    (s.latchFault c w a).regs =
      ((s.setReg SYS_FAULTREC.addr w).setReg SYS_FAULTADDR.addr (BitVec.ofNat 32 a)).regs := by
  unfold State.latchFault
  rw [if_pos h]

/-- The record of a first fault by engine `e`. -/
theorem State.recordSync_first {s : State} {e : Nat} {f : AccFault} (h : s.get SYS_FAULTREC.VALID = 0) :
    (s.recordSync e f).reg SYS_FAULTREC.addr = faultWord false e f.cls f.block f.detail ∧
      (s.recordSync e f).reg SYS_FAULTADDR.addr = BitVec.ofNat 32 f.addr := by
  unfold State.recordSync
  rw [State.reg_congr (State.latchFault_first h), State.reg_congr (State.latchFault_first h),
    State.reg_setReg_ne _ (by decide), State.reg_setReg_same, State.reg_setReg_same]
  exact ⟨rfl, rfl⟩

/-- A later fault is counted. -/
theorem State.recordSync_count {s : State} {e : Nat} {f : AccFault} (h : s.get SYS_FAULTREC.VALID = 1) :
    (s.recordSync e f).get SYS_FAULTCNT.COUNT = min 65535 (s.get SYS_FAULTCNT.COUNT + 1) := by
  have hc : (s.inc SYS_FAULTCNT.COUNT).get SYS_FAULTCNT.COUNT = min 65535 (s.get SYS_FAULTCNT.COUNT + 1) :=
    s.get_incBy_same 1 (by decide)
  unfold State.recordSync State.latchFault
  rw [if_neg (by rw [h]; decide)]
  dsimp only
  split
  · rw [State.get_setReg_ne _ _ (by decide), State.get_setReg_ne _ _ (by decide), hc]
  · exact hc

/-! ### Alignment (R6) -/

/-- What an alignment fault by engine `e` at `a` leaves, the clauses of O59. -/
structure State.AlignRaised (s : State) (e a : Nat) (t : State) : Prop where
  first : s.bit SYS_FAULTREC.VALID = false → t.bit SYS_FAULTREC.VALID = true ∧ t.get SYS_FAULTREC.CLASS = 2 ∧
    t.get SYS_FAULTREC.ENGINE = e ∧ t.reg SYS_FAULTADDR.addr = BitVec.ofNat 32 a
  later : s.bit SYS_FAULTREC.VALID = true → t.get SYS_FAULTCNT.COUNT = min 65535 (s.get SYS_FAULTCNT.COUNT + 1)
  taken : s.estate e = stRun → (t.engOf e).cpu.cause.toNat % 256 = 5 ∧ (t.engOf e).cpu.eval = BitVec.ofNat 32 a
  frame : s.Within [SYS_FAULTREC.addr, SYS_FAULTADDR.addr, SYS_FAULTCNT.addr, ENG_ESTAT.addr e, ENG_EVT.addr] t

theorem faultWord_fields {e b : Nat} (he : e < 16) (hb : b < 256) :
    fieldOf (faultWord false e 2 b 0) 31 1 = 1 ∧ fieldOf (faultWord false e 2 b 0) 16 4 = 2 ∧
      fieldOf (faultWord false e 2 b 0) 20 4 = e := by
  unfold faultWord
  rw [fieldOf_ofNat (by omega), fieldOf_ofNat (by omega), fieldOf_ofNat (by omega)]
  simp only [b2n, Bool.false_eq_true, if_false]
  omega

/-- An alignment fault is recorded or counted, and is the exception of an engine that runs. -/
theorem State.deliverFault_align (s : State) {e a o : Nat} (he : e < 16) (ha : regionOf a = .periph o) :
    s.AlignRaised e a (s.deliverFault e (some (alignFault a))) := by
  have hb : (alignFault a).block < 256 := by
    have := blockOfAddr_periph ha
    simp only [alignFault, ha]
    omega
  have hk : (s.recordSync e (alignFault a)).Within [ENG_ESTAT.addr e, ENG_EVT.addr]
      (s.deliverFault e (some (alignFault a))) := by
    refine .ite ?_ (.refl _)
    exact (State.Within.refl _).takeExc
  have hreg {b : Nat} (hb : b < 0x20190000) : (s.deliverFault e (some (alignFault a))).reg b =
      (s.recordSync e (alignFault a)).reg b := hk.regs b (by
    simp only [List.mem_cons, List.not_mem_nil, or_false, ENG_ESTAT.addr, ENG_EVT.addr]
    omega)
  constructor
  case first =>
    intro h
    obtain ⟨hr, hx⟩ := s.recordSync_first (e := e) (f := alignFault a) (State.get_eq_zero rfl h)
    obtain ⟨h1, h2, h3⟩ := faultWord_fields he hb
    rw [← hreg (by decide)] at hr hx
    refine ⟨decide_eq_true ?_, ?_, ?_, hx⟩
    · exact (congrArg (fieldOf · 31 1) hr).trans h1
    · exact (congrArg (fieldOf · 16 4) hr).trans h2
    · exact (congrArg (fieldOf · 20 4) hr).trans h3
  case later =>
    intro h
    exact (congrArg (fieldOf · 0 16) (hreg (by decide))).trans (State.recordSync_count (of_decide_eq_true h))
  case taken =>
    intro h
    have hd : s.deliverFault e (some (alignFault a)) = s.faultExc e (alignFault a) 3 0 := if_pos h
    obtain ⟨hc, hv⟩ := (s.recordSync e (alignFault a)).cause_takeExc (causeWord 5 3 0) (BitVec.ofNat 32 a) he
    rw [hd]
    exact ⟨congrArg (·.toNat % 256) hc, hv⟩
  case frame => exact (State.Within.refl s).recordSync.trans (hk.mono (by simp))

end Sys2Proof.Machine

open Sys2Proof Sys2Proof.Machine

/-- Settles O59: the access fails the check of its alignment before anything else, and the fault is delivered (R6). -/
theorem narrowRegisterAccessFaults : Obligations.NarrowRegisterAccessFaults := by
  intro e addr off s hp hr raised
  have hfault {u : Use} {size : Nat} (h : size ≠ 4 ∨ addr.toNat % 4 ≠ 0) :
      s.accessFault e u size addr.toNat = some (alignFault addr.toNat) := by
    unfold State.accessFault
    rw [hr]
    exact if_pos h
  have hraised {t : State} (h : s.AlignRaised e addr.toNat t) : raised t := by
    obtain ⟨h1, h2, h3, h4⟩ := h
    rw [BitVec.ofNat_toNat, BitVec.setWidth_eq] at h1 h3
    exact ⟨h1, h2, h3, h4.regs, h4.mem⟩
  have hd := s.deliverFault_align e.isLt hr
  constructor
  · intro size v h
    refine ⟨_, rfl, hraised ?_⟩
    have hb : s.busWrite e (accBytes size) addr.toNat v = (s, some (alignFault addr.toNat)) := by
      unfold State.busWrite
      rw [hfault h]
    unfold State.writeBy
    rw [hb, if_neg (by simp [hp])]
    exact hd
  · intro h
    have hb : s.busRead e 4 addr.toNat = (0, s, some (alignFault addr.toNat)) := by
      unfold State.busRead
      rw [hfault (.inr h)]
    refine ⟨_, rfl, hraised ?_⟩
    unfold State.readBy
    rw [hb, if_neg (by simp [hp])]
    exact ⟨hd.first, hd.later, hd.taken, hd.frame.congr⟩
end

section
namespace Sys2Proof.Machine

/-- E1 is in reset with its bit of ENG_RUN 1, and it stands as the spare of a takeover whose failed engine has no number: the
address that UPD_ENTRY would have for that engine is the address of ENG_ESTAT1. No run reaches this state. -/
def namelessTakeover : State :=
  { State.reset.set ENG_RUN.EN 2 with takeover := some { failed := 0x27FF1, spare := 1 } }

/-- The reset address is read from ENG_ESTAT1 before that register shows RUN, and so differs from the one read after. -/
theorem pc_ne_resetAddr_namelessTakeover {t : State} (h : exec (.swEngineReset 0 1) namelessTakeover = .next t) :
    (t.engOf 1).cpu.pc ≠ t.resetAddr 1 := by
  obtain rfl := Host.Outcome.next.inj h
  decide +kernel

end Sys2Proof.Machine

open Sys2Proof Sys2Proof.Machine

/-- Refutes O9: its last clause asks for the pc to be the reset address that the next state shows, and in `namelessTakeover`
the restart itself changes the register that the reset address is read from. -/
theorem not_sysWritesComplete : ¬ Obligations.SysWritesComplete := by
  intro h
  obtain ⟨-, -, -, -, hreset⟩ := h
  have hreach : namelessTakeover.reaches (0 : Fin 16) SYS_RSTCTL.addr := by
    refine ⟨rfl, ?_, ?_⟩ <;> decide +kernel
  obtain ⟨t, ht, -, -, hrun, -⟩ := hreset 0 1 namelessTakeover hreach (by decide +kernel)
  rw [if_pos (by decide +kernel)] at hrun
  exact pc_ne_resetAddr_namelessTakeover ht hrun.2
end

section
namespace Sys2Proof.Machine

/-! ### Writes and reads that nothing stands against -/

/-- A register that stands alone, has no RWL field, and whose block raises no fault for what a written word names. -/
def simpleAddr (a : Nat) : Bool :=
  (match regionOf a with
    | .periph _ => true
    | _ => false) &&
    decide (a % 4 = 0) && decide ((findRow a).map (·.rwl) = some 0) && alone a && decide (blockOfAddr a ∉ [0, 2, 25])

theorem State.wordFault_none {s : State} {e a : Nat} {v : Word} (h : blockOfAddr a ∉ [0, 2, 25]) :
    s.wordFault e a v = none := by
  simp only [List.mem_cons, List.not_mem_nil, or_false, not_or] at h
  obtain ⟨h0, h2, h25⟩ := h
  simp [State.wordFault, h0, h2, h25]

/-- A stack engine's write of such a register does what the row of the register says. -/
theorem State.writeBy_simple {s : State} {e a : Nat} (h : s.reaches e a) (hs : simpleAddr a = true) :
    ∃ r, findRow a = some r ∧ ∀ v, s.writeBy e 4 a v = s.writeEffect e a r v := by
  simp only [simpleAddr, Bool.and_eq_true, decide_eq_true_eq] at hs
  obtain ⟨⟨⟨⟨hp, ha⟩, hr⟩, hal⟩, hb⟩ := hs
  have hp : ∃ o, regionOf a = .periph o := by
    split at hp
    · exact ⟨_, ‹_›⟩
    · cases hp
  have hf : foreign e a = false := by
    simp only [List.mem_cons, List.not_mem_nil, or_false, not_or] at hb
    simp [foreign, hb.2.2]
  obtain ⟨r, hr, hl⟩ := Option.map_eq_some_iff.1 hr
  exact ⟨r, hr, fun v => State.writeBy_stack h hp ha hr (.inl hl) hf (.inl hal) (State.wordFault_none hb)⟩

/-- The stack partition may read every register (R326). -/
theorem State.rightOf_stack_reads {s : State} {e a : Nat} (h : s.isApp e = false) :
    s.rightOf e (blockOfAddr a) (a % 0x10000) ≠ .none ∧ s.rightOf e (blockOfAddr a) (a % 0x10000) ≠ .refused := by
  unfold State.rightOf
  rw [h]
  split_ifs <;> simp_all

/-- Nothing is corrected where no word is met. -/
theorem State.corrected_none (s : State) : s.corrected (fun w => decide ((none : Option (Nat × Nat × Nat)) = some w)) = s := by
  simp [State.corrected]

/-- No ECC word lies behind the register and no queue: of ENG, none but the fields of PKTST. -/
def behindNothing (a : Nat) : Bool :=
  decide (blockOfAddr a ∉ [8, 12, 14, 20]) && (decide (blockOfAddr a ≠ 25) || decide (a % 64 = 0x1C))

/-- A stack engine's read of such a register. -/
theorem State.readBy_stack {s : State} {e a : Nat} (he : e < 16) (h : s.reaches e a) (hp : ∃ o, regionOf a = .periph o)
    (ha : a % 4 = 0) (hb : behindNothing a = true) :
    s.readBy e 4 a = { (s.plainRead a).2 with rdata := (s.plainRead a).1 } := by
  obtain ⟨hao, happ, hon⟩ := h
  obtain ⟨o, hp⟩ := hp
  simp only [behindNothing, Bool.and_eq_true, Bool.or_eq_true, decide_eq_true_eq, List.mem_cons, List.not_mem_nil,
    or_false, not_or] at hb
  obtain ⟨⟨h8, h12, h14, h20⟩, h25⟩ := hb
  have hacc : s.accessFault e .read 4 a = none := by
    unfold State.accessFault
    rw [hp]
    simp [ha, hon]
  have heng {b : Nat} (hb : blockOfAddr b = 25) (hm : b % 64 ≠ 0x1C) : a ≠ b := by
    rintro rfl
    exact hm (h25.resolve_left (not_not_intro hb))
  have hrx : a ≠ ENG_RXDATA.addr e := heng (by unfold blockOfAddr ENG_RXDATA.addr; omega) (by unfold ENG_RXDATA.addr; omega)
  have hget : a ≠ ENG_PKTGET.addr e := heng (by unfold blockOfAddr ENG_PKTGET.addr; omega) (by unfold ENG_PKTGET.addr; omega)
  have hall : a ≠ ENG_ALLOC.addr e := heng (by unfold blockOfAddr ENG_ALLOC.addr; omega) (by unfold ENG_ALLOC.addr; omega)
  have hlink : a ≠ ENG_LINK.addr e := heng (by unfold blockOfAddr ENG_LINK.addr; omega) (by unfold ENG_LINK.addr; omega)
  have hhif : a ≠ HIF_RXDATA.addr := by rintro rfl; exact h20 rfl
  have hrng : a ≠ KEY_RNG.addr := by rintro rfl; exact h14 rfl
  have htab : s.tableWord e a = none := by simp [State.tableWord, h8, h12, hrx, hhif, hlink]
  have hread : s.regRead e a = s.plainRead a := by simp [State.regRead, hhif, hrng, hrx, hget, hall]
  have hreg : s.regAccess e a = ((s.plainRead a).1, (s.plainRead a).2, none) := by
    obtain ⟨hn, hr⟩ := s.rightOf_stack_reads (e := e) (a := a) happ
    unfold State.regAccess
    simp only [htab, State.corrected_none, Option.filter_none, hread, happ, Bool.false_eq_true, false_and, if_false]
  unfold State.readBy State.busRead
  rw [if_neg (by simp [hao]), hacc]
  dsimp only
  rw [hp]
  dsimp only
  rw [hreg]
  rfl

end Sys2Proof.Machine
end

section
namespace Sys2Proof.Machine

/-! ### Captures (R259) -/

/-- What each of the steps keeps, all of them keep. -/
theorem State.each_keeps {α β : Type} (f : State → β) {g : State → α → State} (h : ∀ s a, f (g s a) = f s) {s : State}
    {l : List α} : f (s.each l g) = f s := by
  induction l generalizing s with
  | nil => rfl
  | cons a l ih => exact (ih (s := g s a)).trans (h s a)

/-- The registers of a snapshot. -/
def snapRegs (n : Nat) : List Nat := [TSU_SNAPNS.addr n, TSU_SNAPSECLO.addr n, TSU_SNAPX.addr n]

theorem State.Within.capture {u s : State} {l : List Nat} {n : Nat} (h : u.Within l s) (hl : ∀ a ∈ snapRegs n, a ∈ l) :
    u.Within l (s.capture n) :=
  (((h.set (k := TSU_SNAPNS.NS n) (hl _ (by simp [snapRegs, TSU_SNAPNS.NS]))).set (k := TSU_SNAPSECLO.SEC n)
    (hl _ (by simp [snapRegs, TSU_SNAPSECLO.SEC]))).set (k := TSU_SNAPX.SECHI n)
    (hl _ (by simp [snapRegs, TSU_SNAPX.SECHI]))).set (k := TSU_SNAPX.FRAC n) (hl _ (by simp [snapRegs, TSU_SNAPX.FRAC]))

@[simp] theorem State.tsu_capture (s : State) (n : Nat) : (s.capture n).tsu = s.tsu := by
  simp [State.capture]

/-- A capture copies the base. -/
theorem State.get_capture (s : State) (n : Nat) : (s.capture n).get (TSU_SNAPNS.NS n) = tbNs (s.tb n) ∧
    (s.capture n).get (TSU_SNAPSECLO.SEC n) = tbSec (s.tb n) % 2 ^ 32 ∧
    (s.capture n).get (TSU_SNAPX.FRAC n) = tbFrac (s.tb n) := by
  have hns : tbNs (s.tb n) < 2 ^ 32 := by unfold tbNs; omega
  have hfr : tbFrac (s.tb n) < 2 ^ 16 := by unfold tbFrac; omega
  have apart_of_ne {l k : Loc} (h : l.addr ≠ k.addr) : l.apart k = true := by simp [Loc.apart, h]
  have hnx : TSU_SNAPNS.addr n ≠ TSU_SNAPX.addr n := by unfold TSU_SNAPNS.addr TSU_SNAPX.addr; omega
  have hnl : TSU_SNAPNS.addr n ≠ TSU_SNAPSECLO.addr n := by unfold TSU_SNAPNS.addr TSU_SNAPSECLO.addr; omega
  have hlx : TSU_SNAPSECLO.addr n ≠ TSU_SNAPX.addr n := by unfold TSU_SNAPSECLO.addr TSU_SNAPX.addr; omega
  unfold State.capture
  refine ⟨?_, ?_, ?_⟩
  · rw [State.get_set_apart _ _ (apart_of_ne hnx), State.get_set_apart _ _ (apart_of_ne hnx),
      State.get_set_apart _ _ (apart_of_ne hnl), State.get_set_same _ _ rfl]
    exact Nat.mod_eq_of_lt hns
  · rw [State.get_set_apart _ _ (apart_of_ne hlx), State.get_set_apart _ _ (apart_of_ne hlx), State.get_set_same _ _ rfl]
    rfl
  · rw [State.get_set_same _ _ rfl]
    exact Nat.mod_eq_of_lt hfr

/-- The registers of another base's snapshot stay. -/
theorem State.reg_capture_of_ne {s : State} {n m a : Nat} (hn : n ≠ m) (ha : a ∈ snapRegs n) :
    (s.capture m).reg a = s.reg a := by
  refine ((State.Within.refl (l := snapRegs m) s).capture fun _ => id).regs a ?_
  simp only [snapRegs, List.mem_cons, List.not_mem_nil, or_false, TSU_SNAPNS.addr, TSU_SNAPSECLO.addr,
    TSU_SNAPX.addr] at ha ⊢
  omega

theorem State.reg_each_capture {s : State} {l : List Nat} {n a : Nat} (hn : n ∉ l) (ha : a ∈ snapRegs n) :
    (s.each l State.capture).reg a = s.reg a := by
  induction l generalizing s with
  | nil => rfl
  | cons m l ih =>
    rw [List.mem_cons, not_or] at hn
    exact (ih hn.2).trans (State.reg_capture_of_ne hn.1 ha)

theorem State.tsu_each_capture (s : State) (l : List Nat) : (s.each l State.capture).tsu = s.tsu :=
  State.each_keeps State.tsu State.tsu_capture

theorem State.within_each_capture (s : State) (l : List Nat) :
    s.Within (l.flatMap snapRegs) (s.each l State.capture) :=
  (State.Within.refl s).each fun _ m hm h => h.capture fun _ ha => List.mem_flatMap.2 ⟨m, hm, ha⟩

/-- Every base of the list is captured. -/
theorem State.get_each_capture {s : State} {l : List Nat} {n : Nat} (hn : n ∈ l) :
    (s.each l State.capture).get (TSU_SNAPNS.NS n) = tbNs (s.tb n) ∧
      (s.each l State.capture).get (TSU_SNAPSECLO.SEC n) = tbSec (s.tb n) % 2 ^ 32 ∧
      (s.each l State.capture).get (TSU_SNAPX.FRAC n) = tbFrac (s.tb n) := by
  induction l generalizing s with
  | nil => cases hn
  | cons m l ih =>
    rw [State.each_cons]
    by_cases hl : n ∈ l
    · have htb : (s.capture m).tb n = s.tb n := by unfold State.tb; rw [s.tsu_capture]
      simpa only [htb] using ih (s := s.capture m) hl
    · obtain rfl : n = m := (List.mem_cons.1 hn).resolve_right hl
      have hreg {a : Nat} (ha : a ∈ snapRegs n) := State.reg_each_capture (s := s.capture n) hl ha
      obtain ⟨h1, h2, h3⟩ := s.get_capture n
      refine ⟨?_, ?_, ?_⟩
      · exact (congrArg (fieldOf · 0 32) (hreg (a := TSU_SNAPNS.addr n) (by simp [snapRegs]))).trans h1
      · exact (congrArg (fieldOf · 0 32) (hreg (a := TSU_SNAPSECLO.addr n) (by simp [snapRegs]))).trans h2
      · exact (congrArg (fieldOf · 0 16) (hreg (a := TSU_SNAPX.addr n) (by simp [snapRegs]))).trans h3

/-! ### The latched read (R7, R259) -/

theorem aget_adel_same {α : Type} (l : List (Nat × α)) (k : Nat) : aget (adel l k) k = none := by
  simp [aget, adel, List.find?_eq_none]

theorem aget_adel_ne {α : Type} (l : List (Nat × α)) {j k : Nat} (h : j ≠ k) : aget (adel l k) j = aget l j := by
  unfold aget adel
  rw [List.find?_filter]
  congr 2
  funext p
  by_cases hp : p.1 = j
  · simp [hp, h]
  · simp [hp]

theorem aget_append {α : Type} (l t : List (Nat × α)) (k : Nat) : aget (l ++ t) k = (aget l k).or (aget t k) := by
  unfold aget
  rw [List.find?_append, Option.map_or]

theorem aget_aput_same {α : Type} (l : List (Nat × α)) (k : Nat) (v : α) : aget (aput l k v) k = some v := by
  have h := aget_append (adel l k) [(k, v)] k
  rw [aget_adel_same] at h
  exact h.trans (by simp [aget])

theorem aget_aput_ne {α : Type} (l : List (Nat × α)) {j k : Nat} (v : α) (h : j ≠ k) : aget (aput l k v) j = aget l j := by
  have hk := aget_append (adel l k) [(k, v)] j
  rw [aget_adel_ne l h] at hk
  exact hk.trans (by simp [aget, Ne.symm h])

/-- The read of a register that is no lower word, with no latched half of it waiting. -/
theorem State.plainRead_lone {s : State} {a : Nat} (hl : aget s.sys.latched a = none) (ha : a ∉ pairLows) :
    s.plainRead a = (s.regView a, s.readActs a) := by
  unfold State.plainRead
  rw [hl, s.upperOf_none ha]

theorem tbFrac_readable : ∀ n : Fin 4, ∃ o, regionOf (TSU_TBFRAC.addr n) = .periph o ∧ TSU_TBFRAC.addr n % 4 = 0 ∧
    behindNothing (TSU_TBFRAC.addr n) = true ∧ TSU_TBFRAC.addr n ∉ pairLows
  | 0 => ⟨_, rfl, rfl, rfl, by decide⟩
  | 1 => ⟨_, rfl, rfl, rfl, by decide⟩
  | 2 => ⟨_, rfl, rfl, rfl, by decide⟩
  | 3 => ⟨_, rfl, rfl, rfl, by decide⟩

theorem State.viewOf_tbFrac (s : State) (w : Word) :
    ∀ n : Fin 4, s.viewOf (TSU_TBFRAC.addr n) w = BitVec.ofNat 32 (tbFrac (s.tb n))
  | 0 => rfl
  | 1 => rfl
  | 2 => rfl
  | 3 => rfl

theorem State.readActs_tbFrac (s : State) : ∀ n : Fin 4, s.readActs (TSU_TBFRAC.addr n) = s.fracRead n
  | 0 => rfl
  | 1 => rfl
  | 2 => rfl
  | 3 => rfl

theorem State.regView_tbFrac (s : State) (n : Fin 4) :
    s.regView (TSU_TBFRAC.addr n) = BitVec.ofNat 32 (tbFrac (s.tb n)) := by
  have hrow : ∀ n : Fin 4, (findRow (TSU_TBFRAC.addr n)).map (·.wo) = some 0 := by decide
  obtain ⟨r, hr, hwo⟩ := Option.map_eq_some_iff.1 (hrow n)
  unfold State.regView
  rw [hr]
  dsimp only
  rw [hwo, State.viewOf_tbFrac]
  exact BitVec.and_allOnes

/-! ### Commands of a time base (R261) -/

theorem State.writeEffect_snap (s : State) (e : Nat) (r : RegRow) (v : Word) :
    s.writeEffect e TSU_SNAP.addr r v = s.captureMask (fieldOf v 0 4) := rfl

theorem State.writeEffect_stepCmd (s : State) (e : Nat) (n : Fin 3) (r : RegRow) (v : Word) :
    s.writeEffect e (TSU_STEPCMD.addr n) r v = s.stepCmd n v := by
  match n with
  | 0 => rfl
  | 1 => rfl
  | 2 => rfl

theorem simpleAddr_stepCmd : ∀ n : Fin 3, simpleAddr (TSU_STEPCMD.addr n) = true := by decide

theorem simpleAddr_snap : simpleAddr TSU_SNAP.addr = true := by decide

/-- A one-bit field of a word. -/
theorem fieldOf_one (x : Word) (i : Nat) : fieldOf x i 1 = b2n (x.getLsbD i) := by
  unfold fieldOf
  rw [BitVec.toNat_ushiftRight, Nat.shiftRight_eq_div_pow, pow_one, ← Nat.toNat_testBit, BitVec.testBit_toNat]
  cases x.getLsbD i
  · rfl
  · rfl

/-- A bit of a map, written as a field of its own. -/
theorem State.bitOf_get_set {s : State} {l : Loc} {n : Nat} (b : Bool) (hn : n < l.w) (hl : l.fits = true) :
    bitOf ((s.set ⟨l.addr, l.lo + n, 1⟩ (b2n b)).get l) n = b := by
  have hlt : l.lo + n < 32 := by
    have : l.lo + l.w ≤ 32 := by simpa [Loc.fits] using hl
    omega
  unfold bitOf State.get
  rw [State.reg_set_same _ _ rfl, testBit_fieldOf, getLsbD_putField]
  simp only [hn, decide_true, Bool.true_and, hlt, le_refl, true_and, Nat.lt_add_one, if_true, Nat.sub_self]
  cases b
  · rfl
  · rfl

theorem State.bitOf_setArm_same (s : State) {n : Nat} (b : Bool) (hn : n < 3) :
    bitOf ((s.setArm n b).get TSU_STAT.ARM) n = b := by
  have := s.bitOf_get_set (l := TSU_STAT.ARM) b hn rfl
  rwa [show TSU_STAT.ARM.lo + n = n from Nat.zero_add n] at this

/-- The other one-bit fields of a word with bit `k` set. -/
theorem fieldOf_putBit {v : Word} {i k : Nat} {b : Bool} (hi : i ≠ k) (h : v.getLsbD i = b) :
    fieldOf (putField v k 1 1) i 1 = b2n b := by
  rw [fieldOf_putField_ne _ _ (by omega), fieldOf_one, h]

/-- The command word with its ARM bit set. -/
theorem State.stepCmd_arm {s : State} {n : Nat} {v : Word} (hn : n < 3) (h0 : v.getLsbD 0 = false)
    (h3 : v.getLsbD 3 = false) (hk : fieldOf v 16 16 = 0xC6A0) : s.stepCmd n (putField v 2 1 1) = s.setArm n true := by
  have hk' : fieldOf (putField v 2 1 1) 16 16 = 0xC6A0 := (fieldOf_putField_ne _ _ (by omega)).trans hk
  have h2 : fieldOf (putField v 2 1 1) 2 1 = 1 := fieldOf_putField_same _ _ (by omega)
  unfold State.stepCmd
  simp [fieldOf_putBit (k := 2) (by decide) h0, fieldOf_putBit (k := 2) (by decide) h3, hk', h2, b2n, hn]

/-- The command word with its CAP bit set. -/
theorem State.stepCmd_capture {s : State} {n : Nat} {v : Word} (hn : n < 3) (h0 : v.getLsbD 0 = false)
    (h2 : v.getLsbD 2 = false) : s.stepCmd n (putField v 3 1 1) = s.capture n := by
  have h3 : fieldOf (putField v 3 1 1) 3 1 = 1 := fieldOf_putField_same _ _ (by omega)
  unfold State.stepCmd
  simp [fieldOf_putBit (k := 3) (by decide) h0, fieldOf_putBit (k := 3) (by decide) h2, h3, b2n, hn]

/-- The command word with its STEP bit set: the step is asked for or refused. -/
theorem State.stepCmd_step {s : State} {n : Nat} {v : Word} (hn : n < 3) (h2 : v.getLsbD 2 = false)
    (h3 : v.getLsbD 3 = false) : s.stepCmd n (putField v 0 1 1) =
      if fieldOf v 16 16 = 0xC6A0 ∧ bitOf (s.get TSU_STAT.ARM) n = true ∧ s.get (TSU_STEPNS.NS n) ≤ 999999999 then
        s.askStep n (v.getLsbD 1) (s.stepValue n)
      else s.raise TSU_EVT.STEPREF := by
  have hk : fieldOf (putField v 0 1 1) 16 16 = fieldOf v 16 16 := fieldOf_putField_ne _ _ (by omega)
  have h0 : fieldOf (putField v 0 1 1) 0 1 = 1 := fieldOf_putField_same _ _ (by omega)
  have h1 : decide (fieldOf (putField v 0 1 1) 1 1 = 1) = v.getLsbD 1 := by
    rw [fieldOf_putBit (by decide) rfl]
    cases v.getLsbD 1
    · rfl
    · rfl
  unfold State.stepCmd
  rw [h1]
  simp only [fieldOf_putBit (k := 0) (by decide) h2, fieldOf_putBit (k := 0) (by decide) h3, hk, h0, hn, State.armed]
  simp [b2n]

/-! ### The step at the REF edge (R261) -/

theorem State.tb_stepTo (s : State) (n : Nat) (rel : Bool) (v : Nat) :
    (s.stepTo n rel v).tsu.tb = vmod s.tsu.tb n
      (fun b => if rel then { b with v := (b.v + v) % tbMod } else { v := v % tbMod, res := 0 }) := by
  unfold State.stepTo
  dsimp only
  split <;> simp [State.setPhase, State.showPhase, State.setValid, State.modTb]

theorem State.stepDue_stepTo (s : State) (n : Nat) (rel : Bool) (v : Nat) :
    (s.stepTo n rel v).tsu.stepDue = s.tsu.stepDue := by
  unfold State.stepTo
  dsimp only
  split <;> simp [State.setPhase, State.showPhase, State.setValid, State.modTb]

/-- The step marks the base valid, and is latched. -/
theorem State.get_stepTo (s : State) {n : Nat} (rel : Bool) (v : Nat) (hn : n < 4) :
    bitOf ((s.stepTo n rel v).get TSU_STAT.VALID) n = true ∧ (s.stepTo n rel v).bit TSU_EVT.STEP = true := by
  have key (t : State) : bitOf (((t.setValid n true).raise TSU_EVT.STEP).get TSU_STAT.VALID) n = true ∧
      ((t.setValid n true).raise TSU_EVT.STEP).get TSU_EVT.STEP = 1 := by
    refine ⟨?_, ?_⟩
    · rw [State.raise, State.get_incBy_apart _ _ (by decide)]
      exact t.bitOf_get_set (l := TSU_STAT.VALID) true hn rfl
    · rw [State.raise, State.get_incBy_same _ _ (by decide)]
      exact min_eq_left (Nat.le_add_left _ _)
  have hphase (t : State) {l : Loc} (h1 : l.apart TSU_PHASE.P = true) (h2 : l.apart TSU_STAT.SLEWING = true) :
      (t.setPhase 0).get l = t.get l := by
    unfold State.setPhase State.showPhase State.setS
    rw [State.get_set_apart _ _ h2, State.get_set_apart _ _ h1]
    rfl
  obtain ⟨hv, he⟩ := key (s.modTb n (fun b => if rel then { b with v := (b.v + v) % tbMod } else { v := v % tbMod, res := 0 }))
  unfold State.stepTo
  dsimp only
  split
  · refine ⟨?_, decide_eq_true ?_⟩
    · exact (congrArg (bitOf · n) (hphase _ (by decide) (by decide))).trans hv
    · exact (hphase _ (by decide) (by decide)).trans he
  · exact ⟨hv, decide_eq_true he⟩

/-- The half-beat test writes the warnings of the engines. -/
theorem State.within_halfBeat (s : State) :
    s.Within ((List.range 16).map ENG_IRQSTAT.addr) s.halfBeat := by
  refine (State.Within.refl s).each fun s n hn h => .ite h (.ite (h.modEng.raise ?_) h.modEng)
  exact List.mem_map_of_mem hn

theorem State.tsu_halfBeat (s : State) : s.halfBeat.tsu = s.tsu := by
  refine State.each_keeps State.tsu fun s n => ?_
  split
  · rfl
  · dsimp only
    split
    · rfl
    · rfl

/-- What the steps at a REF edge do where one waits: beside the step, at most the half-beat test. -/
theorem State.dueSteps_one {s : State} {n v : Nat} {rel : Bool} (h : s.tsu.stepDue = [(n, rel, v)]) (hd : s.dOn 28 = true) :
    s.dueSteps.tsu = (({ s with tsu := { s.tsu with stepDue := [] } } : State).stepTo n rel v).tsu ∧
      ∀ a, a < 0x20190000 →
        s.dueSteps.reg a = (({ s with tsu := { s.tsu with stepDue := [] } } : State).stepTo n rel v).reg a := by
  have hon : (!({ s with tsu := { s.tsu with stepDue := [] } } : State).dOn 28) = false := by
    rw [show ({ s with tsu := { s.tsu with stepDue := [] } } : State).dOn 28 = s.dOn 28 from rfl, hd]
    rfl
  unfold State.dueSteps
  dsimp only
  rw [if_neg (by rw [hon]; exact Bool.false_ne_true), h, State.each_cons, State.each_nil]
  generalize ({ s with tsu := { s.tsu with stepDue := [] } } : State).stepTo n rel v = u
  split
  · refine ⟨u.tsu_halfBeat, fun a ha => u.within_halfBeat.regs a ?_⟩
    simp only [List.mem_map, List.mem_range, not_exists, not_and, ENG_IRQSTAT.addr]
    omega
  · exact ⟨rfl, fun _ _ => rfl⟩

end Sys2Proof.Machine

open Sys2Proof Sys2Proof.Machine

/-- Settles O34: the writes are those of TSU_SNAP and TSU_STEPnCMD, the read latches its three words (R7), and at the REF edge
the half-beat test touches no base (R259, R261). -/
theorem timeBaseAccessesComplete : Obligations.TimeBaseAccessesComplete := by
  refine ⟨?_, ?_, ?_, ?_, ?_⟩
  · intro e v s h
    obtain ⟨r, -, hw⟩ := State.writeBy_simple h simpleAddr_snap
    refine ⟨_, rfl, ?_⟩
    rw [hw, State.writeEffect_snap]
    have hmem {n : Nat} (hn : n < 4) : bitOf (fieldOf v 0 4) n = v.getLsbD n := by
      simp [bitOf, testBit_fieldOf, hn]
    refine ⟨?_, ?_, s.tsu_each_capture _, (s.within_each_capture _).mem⟩
    · intro n hn hb
      refine State.get_each_capture (List.mem_filter.2 ⟨List.mem_range.2 hn, ?_⟩)
      rw [hmem hn, hb]
    · intro n hn hb
      refine State.reg_each_capture (n := n) (fun hc => ?_) (by simp [snapRegs])
      rw [List.mem_filter, hmem hn, hb] at hc
      exact Bool.false_ne_true hc.2
  · intro e n s h hl
    obtain ⟨o, hp, ha, hb, hlow⟩ := tbFrac_readable n
    have hread : s.readBy e 4 (TSU_TBFRAC.addr n) =
        { s.fracRead n with rdata := BitVec.ofNat 32 (tbFrac (s.tb n)) } := by
      rw [State.readBy_stack e.isLt h ⟨o, hp⟩ ha hb, State.plainRead_lone hl hlow, State.regView_tbFrac,
        State.readActs_tbFrac]
    refine ⟨_, rfl, ?_⟩
    rw [hread]
    have hne : TSU_TBNS.addr n ≠ TSU_TBSECLO.addr n ∧ TSU_TBNS.addr n ≠ TSU_TBSECHI.addr n ∧
        TSU_TBSECLO.addr n ≠ TSU_TBSECHI.addr n := by
      unfold TSU_TBNS.addr TSU_TBSECLO.addr TSU_TBSECHI.addr
      omega
    obtain ⟨h12, h13, h23⟩ := hne
    have hs : s.Within [] { s.fracRead n with rdata := BitVec.ofNat 32 (tbFrac (s.tb n)) } := (State.Within.refl s).congr
    refine ⟨rfl, ?_, ?_, aget_aput_same _ _ _, rfl, hs.regs, hs.mem⟩
    · exact (aget_aput_ne _ _ h13).trans ((aget_aput_ne _ _ h12).trans (aget_aput_same _ _ _))
    · exact (aget_aput_ne _ _ h23).trans (aget_aput_same _ _ _)
  · intro e n v s h h0
    obtain ⟨r, -, hw⟩ := State.writeBy_simple h (simpleAddr_stepCmd n)
    constructor
    · intro hk h3
      refine ⟨_, rfl, ?_⟩
      rw [hw, State.writeEffect_stepCmd, State.stepCmd_arm n.isLt h0 h3 hk]
      have hs : s.Within [TSU_STAT.addr] (s.setArm n true) := (State.Within.refl s).set
      exact ⟨s.bitOf_setArm_same true n.isLt, rfl, hs.regs, hs.mem⟩
    · intro h2
      refine ⟨_, rfl, ?_⟩
      rw [hw, State.writeEffect_stepCmd, State.stepCmd_capture n.isLt h0 h2]
      have hs : s.Within (snapRegs n) (s.capture n) := (State.Within.refl s).capture fun _ => id
      obtain ⟨hns, -, hfr⟩ := s.get_capture n
      exact ⟨hns, hfr, s.tsu_capture n, hs.regs, hs.mem⟩
  · intro e n v s h h2 h3
    obtain ⟨r, -, hw⟩ := State.writeBy_simple h (simpleAddr_stepCmd n)
    refine ⟨_, rfl, ?_⟩
    rw [hw, State.writeEffect_stepCmd, State.stepCmd_step n.isLt h2 h3]
    split
    · have hs : s.Within [TSU_STAT.addr] (s.askStep n (v.getLsbD 1) (s.stepValue n)) :=
        .congr (State.Within.set (k := ⟨TSU_STAT.addr, n, 1⟩) (.refl s))
      exact ⟨⟨rfl, s.bitOf_setArm_same false n.isLt, hs.regs⟩, hs.mem⟩
    · have hs : s.Within [TSU_EVT.addr] (s.raise TSU_EVT.STEPREF) := (State.Within.refl s).raise (List.mem_singleton_self _)
      have hr : (s.raise TSU_EVT.STEPREF).get TSU_EVT.STEPREF = 1 :=
        (s.get_incBy_same 1 (by decide)).trans (min_eq_left (Nat.le_add_left _ _))
      exact ⟨⟨rfl, decide_eq_true hr, hs.regs⟩, hs.mem⟩
  · intro n rel o s hdue hon
    obtain ⟨htsu, hreg⟩ := State.dueSteps_one hdue hon
    have htb (k : Nat) : s.dueSteps.tb k = (vget (vmod s.tsu.tb n
        (fun b => if rel then { b with v := (b.v + o) % tbMod } else { v := o % tbMod, res := 0 })) k).v := by
      unfold State.tb
      rw [htsu, State.tb_stepTo]
    have hn : n.val < 4 := by omega
    obtain ⟨hv, he⟩ := State.get_stepTo { s with tsu := { s.tsu with stepDue := [] } } rel o hn
    refine ⟨?_, ?_, ?_, ?_, ?_⟩
    · rw [htb, vmod, vget_vset_same _ _ hn]
      cases rel
      · rfl
      · rfl
    · intro k _ hk
      rw [htb, vmod, vget_vset_ne _ _ hk]
      rfl
    · rw [htsu, State.stepDue_stepTo]
    · exact (congrArg (fun w => bitOf (fieldOf w 4 4) n) (hreg TSU_STAT.addr (by decide))).trans hv
    · exact (congrArg (fun w => decide (fieldOf w 0 1 = 1)) (hreg TSU_EVT.addr (by decide))).trans he
end

section
namespace Sys2Proof.Machine

/-! ### What a write stores (R3, R8) -/

/-- Nothing is lifted where hardware raised nothing in the register. -/
theorem State.reheat_calm {s : State} {a : Nat} {m : Word} (h : s.calm [a]) : s.reheat a m = s := by
  have hf : s.hot.filter (fun x => decide (x.1.addr = a) && m.getLsbD x.1.lo) = [] := by
    rw [List.filter_eq_nil_iff]
    intro x hx hc
    rw [Bool.and_eq_true, decide_eq_true_eq] at hc
    exact h x hx (by rw [hc.1]; exact List.mem_singleton_self _)
  unfold State.reheat
  rw [hf]
  rfl

/-- The word that a write leaves by the access codes of the row. -/
def RegRow.merge (r : RegRow) (a : Nat) (old w : Word) : Word :=
  let rw := BitVec.ofNat 32 (r.rw ||| r.rwl)
  (((old &&& ~~~rw) ||| (storedWord a old w &&& rw)) &&& ~~~(w &&& BitVec.ofNat 32 r.w1c)) |||
    (w &&& BitVec.ofNat 32 r.w1s)

theorem State.plainStore_eq (s : State) (a : Nat) (r : RegRow) (w : Word) :
    s.plainStore a r w =
      (s.setReg a (r.merge a (s.reg a) w)).reheat a (BitVec.ofNat 32 (r.rw ||| r.rwl) ||| BitVec.ofNat 32 r.w1c) := rfl

theorem State.plainStore_calm {s : State} {a : Nat} (r : RegRow) (w : Word) (h : s.calm [a]) :
    s.plainStore a r w = s.setReg a (r.merge a (s.reg a) w) := by
  rw [s.plainStore_eq]
  exact State.reheat_calm h

/-- The word left, bit by bit. -/
theorem RegRow.getLsbD_merge (r : RegRow) (a : Nat) (old w : Word) {i : Nat} (hi : i < 32) :
    (r.merge a old w).getLsbD i =
      if (r.w1s.testBit i && w.getLsbD i) = true then true
      else if (r.w1c.testBit i && w.getLsbD i) = true then false
      else if (r.rw.testBit i || r.rwl.testBit i) = true then (storedWord a old w).getLsbD i
      else old.getLsbD i := by
  simp only [RegRow.merge, BitVec.getLsbD_or, BitVec.getLsbD_and, BitVec.getLsbD_not, BitVec.getLsbD_ofNat, hi,
    Nat.testBit_or, decide_true, Bool.true_and]
  generalize r.w1s.testBit i = s, r.w1c.testBit i = c, r.rw.testBit i = k, r.rwl.testBit i = l, w.getLsbD i = b,
    old.getLsbD i = o, (storedWord a old w).getLsbD i = n
  revert s c k l b o n
  decide

/-- Registers that are RW throughout take the word. -/
theorem RegRow.merge_rw {r : RegRow} {a : Nat} {old w : Word} (hrw : r.rw = 0xFFFFFFFF) (hc : r.w1c = 0) (hs : r.w1s = 0)
    (hw : storedWord a old w = w) : r.merge a old w = w := by
  refine BitVec.eq_of_getLsbD_eq fun i hi => ?_
  have hb : (0xFFFFFFFF : Nat).testBit i = true := by
    rw [show (0xFFFFFFFF : Nat) = 2 ^ 32 - 1 from rfl, Nat.testBit_two_pow_sub_one]
    exact decide_eq_true hi
  rw [r.getLsbD_merge a old w hi, hc, hs, hw, hrw, hb]
  simp

/-! ### Halves of two-register values (R7) -/

/-- A stack engine's write that nothing stands against, before the rule of two-register values. -/
theorem State.writeBy_half {s : State} {e a : Nat} {v : Word} {r : RegRow} (h : s.reaches e a)
    (hp : ∃ o, regionOf a = .periph o) (ha : a % 4 = 0) (hr : findRow a = some r)
    (hl : r.rwl = 0 ∨ s.upd.locked = false) (hf : foreign e a = false) (hw : s.wordFault e a v = none) :
    s.writeBy e 4 a v = s.halfWrite e a r v := by
  obtain ⟨hao, happ, hon⟩ := h
  obtain ⟨o, hp⟩ := hp
  have hacc : s.accessFault e .write 4 a = none := by
    unfold State.accessFault
    rw [hp]
    simp [ha, hon]
  have hlock : (if s.upd.locked then BitVec.ofNat 32 r.rwl else 0) = 0#32 := by
    rcases hl with hl | hl <;> simp [hl]
  have hgate : s.gate r a 0#32 v = { word := some v, fault := none } := by
    have hones (x : Word) : x &&& 4294967295#32 = x := BitVec.and_allOnes
    unfold State.gate
    simp only [hlock]
    simp [State.wouldChange, hones]
  have hps : s.psBits e a r = some 0#32 := by
    unfold State.psBits
    simp only [State.rightOf_stack happ hf, happ]
    rfl
  have hwrite : s.regWrite e a v = (s.halfWrite e a r v, none) := by
    simp only [State.regWrite, hr, hps, hgate, hw, happ, Bool.false_eq_true, false_and, and_false, if_false]
  unfold State.writeBy State.busWrite
  simp only [hacc, hp, hwrite, hao, Bool.false_eq_true, if_false]
  rfl
/-! ### Where a lower word stands -/

theorem regionOf_periph {a : Nat} (h : 0x20000000 ≤ a) (h' : a < 0x201A0000) : ∃ o, regionOf a = .periph o := by
  unfold regionOf
  rw [if_neg (by omega), if_neg (by omega), if_neg (by omega), if_neg (by omega), if_neg (by omega), if_neg (by omega),
    if_neg (by omega), if_pos ⟨h, h'⟩]
  exact ⟨_, rfl⟩

/-- Where a lower word can stand: in the peripheral space, word by word, with no ECC word and no queue behind it, and where its
read latches no other value. -/
def lowPlace (a : Nat) : Bool :=
  decide (0x20000000 ≤ a) && decide (a < 0x201A0000) && decide (a % 4 = 0) && behindNothing a &&
    decide (blockOfAddr a ≠ 17) && (decide (blockOfAddr a ≠ 11) || decide (0x200 ≤ a % 0x10000) || decide (a % 64 ≠ 0))

theorem lowPlace_of_mem : ∀ a ∈ pairLows, lowPlace a = true := by decide

/-- The lower words that software can write: UPD_ACTLO, the MAC addresses, and PERIOD, CMP and the count of a timer. -/
theorem writable_lows :
    ∀ a ∈ pairLows, (∀ r, findRow a = some r → r.writable = 0#32) ∨ blockOfAddr a ∈ [15, 18, 21] := by decide

/-- The lower words that stand where a timer's count does are the counts. -/
theorem count_lows :
    ∀ a ∈ pairLows, blockOfAddr a = 18 → a % 64 = 0xC → ∃ n, n < 8 ∧ a = TMR_CNT.addr n := by decide

/-- An address with an upper word is in the list of lower words. -/
theorem State.mem_pairLows {s : State} {a hi : Nat} (h : s.upperOf a = some hi) : a ∈ pairLows := by
  by_contra hn
  rw [s.upperOf_none hn] at h
  cases h

/-! ### What the read of a lower word does beside returning it (R446, R448) -/

theorem State.countRead_keeps (s : State) (n : Nat) : (s.countRead n).sys = s.sys ∧ KeepsMemory s (s.countRead n) := by
  unfold State.countRead
  generalize (if s.tmrFollower n = true then n - 1 else n) = head
  dsimp only
  split
  · exact ⟨rfl, fun _ => rfl, fun _ => rfl, fun _ => rfl⟩
  · exact ⟨rfl, fun _ => rfl, fun _ => rfl, fun _ => rfl⟩

/-- It marks a timer at most. -/
theorem State.readActs_low (s : State) {a : Nat} (h : lowPlace a = true) :
    (s.readActs a).sys = s.sys ∧ KeepsMemory s (s.readActs a) := by
  simp only [lowPlace, Bool.and_eq_true, Bool.or_eq_true, decide_eq_true_eq] at h
  obtain ⟨⟨-, h17⟩, h11⟩ := h
  have hsame : s.sys = s.sys ∧ KeepsMemory s s := ⟨rfl, fun _ => rfl, fun _ => rfl, fun _ => rfl⟩
  unfold State.readActs
  dsimp only
  split
  · rw [if_neg (by omega)]
    exact hsame
  · exact absurd ‹_› h17
  · split_ifs
    · exact s.countRead_keeps _
    · exact ⟨rfl, fun _ => rfl, fun _ => rfl, fun _ => rfl⟩
    · exact ⟨rfl, fun _ => rfl, fun _ => rfl, fun _ => rfl⟩
    · exact hsame
    · exact hsame
  · exact hsame

/-- R7: the read of a lower word latches the upper one. -/
theorem State.plainRead_low {s : State} {a hi : Nat} (hu : s.upperOf a = some hi) (hl : aget s.sys.latched a = none) :
    s.plainRead a = (s.regView a, (s.latchAt hi (s.regView hi)).readActs a) := by
  unfold State.plainRead
  rw [hl]
  dsimp only
  rw [hu]

theorem lowWordRead_latches {e : Fin 16} {a : Nat} {hi : Nat} {s : State} (h : s.reaches e a)
    (hu : s.upperOf a = some hi) (hl : aget s.sys.latched a = none) :
    (s.readBy e 4 a).rdata = s.regView a ∧ aget (s.readBy e 4 a).sys.latched hi = some (s.regView hi) ∧
      KeepsMemory s (s.readBy e 4 a) := by
  have hm := lowPlace_of_mem a (State.mem_pairLows hu)
  obtain ⟨hsys, hmem⟩ := (s.latchAt hi (s.regView hi)).readActs_low hm
  simp only [lowPlace, Bool.and_eq_true, Bool.or_eq_true, decide_eq_true_eq] at hm
  obtain ⟨⟨⟨⟨⟨h1, h2⟩, h3⟩, h4⟩, -⟩, -⟩ := hm
  rw [State.readBy_stack e.isLt h (regionOf_periph h1 h2) h3 h4, State.plainRead_low hu hl]
  refine ⟨rfl, ?_, hmem⟩
  exact (congrArg (aget ·.latched hi) hsys).trans (aget_aput_same _ _ _)

/-! ### The write of a lower word -/

/-- R7: the word is held. -/
theorem State.writeBy_low {e : Fin 16} {a hi : Nat} {v : Word} {r : RegRow} {s : State} (h : s.reaches e a)
    (hu : s.upperOf a = some hi) (hr : findRow a = some r) (hw : r.writable ≠ 0#32)
    (hl : r.rwl = 0 ∨ s.upd.locked = false) (hc : ∀ n, n < 8 → a ≠ TMR_CNT.addr n) :
    s.writeBy e 4 a v = { s with sys := { s.sys with held := aput s.sys.held a v } } := by
  have ha := State.mem_pairLows hu
  have hm := lowPlace_of_mem a ha
  have hb : blockOfAddr a ∈ [15, 18, 21] := (writable_lows a ha).resolve_left fun h => hw (h r hr)
  simp only [lowPlace, Bool.and_eq_true, Bool.or_eq_true, decide_eq_true_eq] at hm
  obtain ⟨⟨⟨⟨⟨h1, h2⟩, h3⟩, -⟩, -⟩, -⟩ := hm
  have hb' : blockOfAddr a ∉ [0, 2, 25] ∧ blockOfAddr a ≠ 25 := by
    simp only [List.mem_cons, List.not_mem_nil, or_false] at hb ⊢
    omega
  have hf : foreign e a = false := by simp [foreign, hb'.2]
  have hn : ¬ (blockOfAddr a = 18 ∧ a % 64 = 0xC) := fun ⟨h18, hC⟩ =>
    let ⟨n, hn, he⟩ := count_lows a ha h18 hC
    hc n hn he
  rw [State.writeBy_half h (regionOf_periph h1 h2) h3 hr hl hf (State.wordFault_none hb'.1)]
  unfold State.halfWrite
  rw [if_neg hn, if_pos ⟨by rw [hu]; rfl, hw⟩]

/-! ### The write of an upper word -/

/-- Two plain stores where hardware raised nothing in either register (R8). -/
theorem State.two_stores {s : State} {hi lo : Nat} {v w : Word} {r rl : RegRow} (hc : s.calm [lo, hi]) (hne : lo ≠ hi) :
    (s.plainStore lo rl v).plainStore hi r w =
      (s.setReg lo (rl.merge lo (s.reg lo) v)).setReg hi (r.merge hi (s.reg hi) w) := by
  have hlo : s.calm [lo] := fun x hx hm => hc x hx (by rw [List.mem_singleton.1 hm]; exact List.mem_cons_self)
  have hhi : s.calm [hi] := fun x hx hm => hc x hx (List.mem_cons_of_mem _ hm)
  rw [State.plainStore_calm rl v hlo, State.plainStore_calm (s := s.setReg lo _) r w hhi,
    State.reg_setReg_ne _ (Ne.symm hne)]

/-- R7: it brings both words in. -/
theorem State.writeBy_upper {s : State} {e hi lo : Nat} {v w : Word} {r rl : RegRow} (h : s.reaches e hi)
    (hp : 0x20000000 ≤ hi ∧ hi < 0x201A0000 ∧ hi % 4 = 0) (hr : findRow hi = some r) (hrl : findRow lo = some rl)
    (hl : r.rwl = 0) (hb : blockOfAddr hi ∉ [0, 2, 25]) (hc : hi % 64 ≠ 0xC) (hhi : hi ∉ pairLows)
    (hlo : s.lowerOf hi = some lo) (hv : aget s.sys.held lo = some v) :
    s.writeBy e 4 hi w =
      (({ s with sys := { s.sys with held := adel s.sys.held lo } } : State).writeEffect e lo rl v).writeEffect e hi r w := by
  obtain ⟨h1, h2, h4⟩ := hp
  have hf : foreign e hi = false := by
    simp only [List.mem_cons, List.not_mem_nil, or_false, not_or] at hb
    simp [foreign, hb.2.2]
  rw [State.writeBy_half h (regionOf_periph h1 h2) h4 hr (.inl hl) hf (State.wordFault_none hb)]
  unfold State.halfWrite
  rw [if_neg (fun h => hc h.2), s.upperOf_none hhi, hlo]
  simp only [Option.isSome_none, Bool.false_eq_true, false_and, if_false, hv, hrl]

/-- What stands after it, where both writes are plain stores. -/
theorem State.stored_both {s : State} {hi lo : Nat} {x y : Word} {t : State} (hne : lo ≠ hi)
    (ht : t = (({ s with sys := { s.sys with held := adel s.sys.held lo } } : State).setReg lo x).setReg hi y) :
    t.reg lo = x ∧ t.reg hi = y ∧ aget t.sys.held lo = none ∧ KeepsRegs s t [lo, hi] ∧ KeepsMemory s t := by
  subst ht
  have hw : s.Within [lo, hi]
      ((({ s with sys := { s.sys with held := adel s.sys.held lo } } : State).setReg lo x).setReg hi y) :=
    ((State.Within.refl s).congr.setReg).setReg
  refine ⟨?_, State.reg_setReg_same _ _ _, aget_adel_same _ _, hw.regs, hw.mem⟩
  rw [State.reg_setReg_ne _ hne, State.reg_setReg_same]

theorem updAct_rows : ∃ rl r, findRow UPD_ACTLO.addr = some rl ∧ findRow UPD_ACTHI.addr = some r ∧ r.rwl = 0 ∧
    (rl.rw = 0xFFFFFFFF ∧ rl.w1c = 0 ∧ rl.w1s = 0) ∧ r.rw = 255 ∧ r.w1c = 0 ∧ r.w1s = 0 :=
  ⟨_, _, rfl, rfl, rfl, ⟨rfl, rfl, rfl⟩, rfl, rfl, rfl⟩

/-- A field of RW bits takes that field of the word. -/
theorem RegRow.fieldOf_merge {r : RegRow} {a lo n : Nat} {old w : Word} (hn : lo + n ≤ 32)
    (hrw : ∀ i, i < n → r.rw.testBit (lo + i) = true) (hc : r.w1c = 0) (hs : r.w1s = 0) (hw : storedWord a old w = w) :
    fieldOf (r.merge a old w) lo n = fieldOf w lo n := by
  apply Nat.eq_of_testBit_eq
  intro i
  rw [testBit_fieldOf, testBit_fieldOf]
  by_cases hi : i < n
  · rw [r.getLsbD_merge a old w (by omega), hc, hs, hw, hrw i hi]
    simp
  · simp [hi]

theorem State.lowerOf_updActHi (s : State) : s.lowerOf UPD_ACTHI.addr = some UPD_ACTLO.addr := by
  have h : s.upperOf (UPD_ACTHI.addr - 4) = some UPD_ACTHI.addr := rfl
  unfold State.lowerOf
  rw [List.findSome?_cons, if_pos h]
  rfl

/-- The rows of PERIOD. -/
theorem tmrPeriod_rows : ∀ n : Fin 8, ∃ r, findRow (TMR_PERIOD.addr n) = some r ∧ r.rwl = 0 ∧
    r.rw = 0xFFFFFFFF ∧ r.w1c = 0 ∧ r.w1s = 0
  | 0 => ⟨_, rfl, rfl, rfl, rfl, rfl⟩
  | 1 => ⟨_, rfl, rfl, rfl, rfl, rfl⟩
  | 2 => ⟨_, rfl, rfl, rfl, rfl, rfl⟩
  | 3 => ⟨_, rfl, rfl, rfl, rfl, rfl⟩
  | 4 => ⟨_, rfl, rfl, rfl, rfl, rfl⟩
  | 5 => ⟨_, rfl, rfl, rfl, rfl, rfl⟩
  | 6 => ⟨_, rfl, rfl, rfl, rfl, rfl⟩
  | 7 => ⟨_, rfl, rfl, rfl, rfl, rfl⟩

theorem storedWord_tmrPeriod (old w : Word) : ∀ n : Fin 8, storedWord (TMR_PERIOD.addr n) old w = w
  | 0 => rfl
  | 1 => rfl
  | 2 => rfl
  | 3 => rfl
  | 4 => rfl
  | 5 => rfl
  | 6 => rfl
  | 7 => rfl

theorem State.writeEffect_tmrPeriod (s : State) (e : Nat) (r : RegRow) (w : Word) :
    ∀ n : Fin 8, s.writeEffect e (TMR_PERIOD.addr n) r w = s.plainStore (TMR_PERIOD.addr n) r w
  | 0 => rfl
  | 1 => rfl
  | 2 => rfl
  | 3 => rfl
  | 4 => rfl
  | 5 => rfl
  | 6 => rfl
  | 7 => rfl

/-- The upper word of a chained pair's PERIOD (R449). -/
theorem State.upperOf_tmrPeriod {s : State} : ∀ n : Fin 4, s.bit (TMR_CFG.CHAIN (2 * n)) = true →
    s.upperOf (TMR_PERIOD.addr (2 * n)) = some (TMR_PERIOD.addr (2 * n + 1))
  | 0, (h : s.bit (TMR_CFG.CHAIN 0) = true) => by simp only [State.upperOf, List.find?, h]; rfl
  | 1, (h : s.bit (TMR_CFG.CHAIN 2) = true) => by simp only [State.upperOf, List.find?, h]; rfl
  | 2, (h : s.bit (TMR_CFG.CHAIN 4) = true) => by simp only [State.upperOf, List.find?, h]; rfl
  | 3, (h : s.bit (TMR_CFG.CHAIN 6) = true) => by simp only [State.upperOf, List.find?, h]; rfl

/-- A count of an odd timer stands in front of its PERIOD, and neither is a lower word. -/
theorem odd_tmrPeriod_lone : ∀ n : Fin 4, TMR_PERIOD.addr (2 * n + 1) ∉ pairLows ∧
    TMR_PERIOD.addr (2 * n + 1) - 4 ∉ pairLows ∧ TMR_PERIOD.addr (2 * n + 1) - 0x40 = TMR_PERIOD.addr (2 * n) := by
  decide

theorem odd_tmrPeriod_place : ∀ n : Fin 4,
    (0x20000000 ≤ TMR_PERIOD.addr (2 * n + 1) ∧ TMR_PERIOD.addr (2 * n + 1) < 0x201A0000 ∧
      TMR_PERIOD.addr (2 * n + 1) % 4 = 0) ∧ blockOfAddr (TMR_PERIOD.addr (2 * n + 1)) ∉ [0, 2, 25] ∧
      TMR_PERIOD.addr (2 * n + 1) % 64 ≠ 0xC := by
  decide

theorem State.lowerOf_tmrPeriod {s : State} {n : Fin 4} (h : s.bit (TMR_CFG.CHAIN (2 * n)) = true) :
    s.lowerOf (TMR_PERIOD.addr (2 * n + 1)) = some (TMR_PERIOD.addr (2 * n)) := by
  obtain ⟨-, h4, h40⟩ := odd_tmrPeriod_lone n
  simp [State.lowerOf, s.upperOf_none h4, h40, State.upperOf_tmrPeriod n h]

end Sys2Proof.Machine

open Sys2Proof Sys2Proof.Machine

/-- Settles O8: the lower words are those of `pairLows`, a read of one latches through `plainRead`, a write of one goes to the
words held, and the upper write is two plain stores (R7). -/
theorem twoWordValuesComplete : Obligations.TwoWordValuesComplete := by
  refine ⟨?_, ?_, ?_, ?_⟩
  · intro e addr hi s h hu hl
    exact ⟨_, rfl, lowWordRead_latches h hu hl⟩
  · intro e addr v hi r s h hu hr hw hl hc
    refine ⟨_, rfl, ?_⟩
    rw [State.writeBy_low h hu hr hw hl hc]
    exact ⟨aget_aput_same _ _ _, fun _ _ => rfl, fun _ => rfl, fun _ => rfl, fun _ => rfl⟩
  · intro e v w s h hv hc
    obtain ⟨rl, r, hrl, hr, hl, ⟨hlrw, hlc, hls⟩, hrw, hrc, hrs⟩ := updAct_rows
    have hw := (State.writeBy_upper (w := w) h (by decide) hr hrl hl (by decide) (by decide) (by decide)
      s.lowerOf_updActHi hv).trans (State.two_stores hc (by decide))
    obtain ⟨h1, h2, h3⟩ := State.stored_both (by decide) hw
    refine ⟨_, rfl, h1.trans (RegRow.merge_rw hlrw hlc hls rfl), ?_, h3⟩
    refine (congrArg (fieldOf · 0 8) h2).trans ?_
    rw [RegRow.fieldOf_merge (by decide) (by rw [hrw]; decide) hrc hrs rfl]
    rfl
  · intro e n v w s h hchain hv hc
    have hn := n.isLt
    let lo : Fin 8 := ⟨2 * n, by omega⟩
    let hi : Fin 8 := ⟨2 * n + 1, by omega⟩
    have hne : TMR_PERIOD.addr lo ≠ TMR_PERIOD.addr hi := by simp [TMR_PERIOD.addr, lo, hi]
    obtain ⟨hlone, -, -⟩ := odd_tmrPeriod_lone n
    obtain ⟨rl, hrl, -, hlrw, hlc, hls⟩ := tmrPeriod_rows lo
    obtain ⟨r, hr, hl, hrw, hrc, hrs⟩ := tmrPeriod_rows hi
    have hw := State.writeBy_upper (w := w) h (odd_tmrPeriod_place n).1 hr hrl hl (odd_tmrPeriod_place n).2.1
      (odd_tmrPeriod_place n).2.2 hlone (State.lowerOf_tmrPeriod hchain) hv
    rw [State.writeEffect_tmrPeriod _ _ _ _ lo, State.writeEffect_tmrPeriod _ _ _ _ hi] at hw
    obtain ⟨h1, h2, h3⟩ := State.stored_both hne (hw.trans (State.two_stores hc hne))
    have haddr : (BitVec.ofNat 32 (TMR_PERIOD.addr hi)).toNat = TMR_PERIOD.addr hi := by
      simp [TMR_PERIOD.addr, hi]
      omega
    refine ⟨_, rfl, ?_⟩
    rw [haddr]
    exact ⟨h1.trans (RegRow.merge_rw hlrw hlc hls (storedWord_tmrPeriod _ _ lo)),
      h2.trans (RegRow.merge_rw hrw hrc hrs (storedWord_tmrPeriod _ _ hi)), h3⟩
end

section
namespace Sys2Proof.Machine

/-! ### Registers whose write only stores (R3) -/

/-- What the list of plain registers says of one. -/
theorem plainAddr_iff (a : Nat) : plainAddr a = true ↔
    (0x20000000 ≤ a ∧ a < 0x201A0000 ∧ a % 4 = 0 ∧ alone a = true) ∧
      (blockOfAddr a = 0 ∧ a % 0x10000 < 0x100 ∧ a % 0x10000 ∉ [0x24, 0x30] ∨
        blockOfAddr a = 2 ∧ a % 0x10000 ∉ [0, 0x10, 0x24] ∨ blockOfAddr a = 5 ∨
        blockOfAddr a = 9 ∧ (a % 0x10000 < 0x100 ∨ 0x120 ≤ a % 0x10000) ∨ blockOfAddr a = 21 ∧ a % 0x10000 ≠ 0x18) := by
  unfold plainAddr
  generalize blockOfAddr a = b
  split <;> simp_all [and_assoc]

/-- Beside the store no register and no memory changes: a first start of beat tasks is all there can be (R44). -/
theorem State.writeEffect_plain {s : State} {e a : Nat} {r : RegRow} {w : Word} (h : plainAddr a = true) :
    (s.plainStore a r w).Within [] (s.writeEffect e a r w) := by
  obtain ⟨-, h⟩ := (plainAddr_iff a).1 h
  have hrefl : (s.plainStore a r w).Within [] (s.plainStore a r w) := State.Within.refl _
  simp only [List.mem_cons, List.not_mem_nil, or_false, not_or] at h
  unfold State.writeEffect
  rcases h with ⟨hb, ho, h24, h30⟩ | ⟨hb, h0, h10, h24⟩ | hb | ⟨hb, ho⟩ | ⟨hb, ho⟩
  · simpa [hb, State.wrCore, h24, h30] using hrefl
  · simp only [hb, State.wrCore, h0, h10, h24]
    simp only [show (2:Nat) < 3 from by decide, if_true, if_false]
    exact .ite hrefl.congr hrefl
  · simpa [hb, State.wrRadio] using hrefl
  · simpa [hb, State.wrFabric, show ¬ (0x100 ≤ a % 0x10000 ∧ a % 0x10000 < 0x120) by omega] using hrefl
  · simpa [hb, State.wrFabric, ho] using hrefl

/-- A stack engine's write of such a register. -/
theorem State.writeBy_plain {s : State} {e a : Nat} {v : Word} {r : RegRow} (h : s.reaches e a) (hp : plainAddr a = true)
    (hr : findRow a = some r) (hl : r.rwl = 0 ∨ s.upd.locked = false) :
    s.writeBy e 4 a v = s.writeEffect e a r v := by
  obtain ⟨⟨h1, h2, h4, hal⟩, hb⟩ := (plainAddr_iff a).1 hp
  simp only [List.mem_cons, List.not_mem_nil, or_false, not_or] at hb
  have h25 : blockOfAddr a ≠ 25 := by omega
  have hf : foreign e a = false := by simp [foreign, h25]
  have hw : s.wordFault e a v = none := by
    unfold State.wordFault
    rw [if_neg (by omega), if_neg (by omega), if_neg (by omega)]
  exact State.writeBy_stack h (regionOf_periph h1 h2) h4 hr hl hf (.inl hal) hw

/-- A store writes its own register and no other. -/
theorem State.within_plainStore (s : State) (a : Nat) (r : RegRow) (w : Word) : s.Within [a] (s.plainStore a r w) := by
  rw [s.plainStore_eq]
  refine ((State.Within.refl s).setReg).each fun t h hh ht => ht.set ?_
  rw [List.mem_filter, Bool.and_eq_true, decide_eq_true_eq] at hh
  rw [hh.2.1]
  exact List.mem_singleton_self a

theorem State.within_writeEffect_plain {s : State} {e a : Nat} {r : RegRow} {w : Word} (h : plainAddr a = true) :
    s.Within [a] (s.writeEffect e a r w) :=
  (s.within_plainStore a r w).trans ((s.writeEffect_plain h).mono (by simp))

/-- What hardware raised in one field of the register is lifted on top of the store (R8). -/
theorem State.plainStore_raised {s : State} {a : Nat} (r : RegRow) (w : Word) {l : Loc} {k : Nat}
    (h : s.hot.filter (fun x => decide (x.1.addr = a)) = [(l, k)])
    (hm : (BitVec.ofNat 32 (r.rw ||| r.rwl) ||| BitVec.ofNat 32 r.w1c : Word).getLsbD l.lo = true) :
    s.plainStore a r w = (s.setReg a (r.merge a (s.reg a) w)).lift l k := by
  rw [s.plainStore_eq]
  have hf : s.hot.filter (fun x => decide (x.1.addr = a) &&
      (BitVec.ofNat 32 (r.rw ||| r.rwl) ||| BitVec.ofNat 32 r.w1c : Word).getLsbD x.1.lo) = [(l, k)] := by
    simp_rw [Bool.and_comm (decide _)]
    rw [← List.filter_filter, h]
    exact List.filter_cons_of_pos hm
  unfold State.reheat
  rw [show (s.setReg a (r.merge a (s.reg a) w)).hot = s.hot from rfl, hf]
  rfl

/-- The field after it. -/
theorem State.get_lift (s : State) {l : Loc} (k : Nat) (h : l.fits = true) :
    (s.lift l k).get l = min (2 ^ l.w - 1) (s.get l + k) :=
  (State.get_congr (State.incBy_regs s l k) l).symm.trans (s.get_incBy_same k h)

/-- A field without bits reads zero. -/
theorem State.get_zero_width {s : State} {l : Loc} (h : l.w = 0) : s.get l = 0 := by
  have := fieldOf_lt (s.reg l.addr) l.lo l.w
  rw [h] at this
  exact Nat.lt_one_iff.1 (by simpa [State.get, h] using this)

/-- The bits of a field within the register are among those that the access codes let software change. -/
theorem RegRow.getLsbD_mask {r : RegRow} {i : Nat} (hi : i < 32) (h : (r.rw ||| r.rwl ||| r.w1c).testBit i = true) :
    (BitVec.ofNat 32 (r.rw ||| r.rwl) ||| BitVec.ofNat 32 r.w1c : Word).getLsbD i = true := by
  rw [BitVec.getLsbD_or, BitVec.getLsbD_ofNat, BitVec.getLsbD_ofNat, decide_eq_true hi, Bool.true_and, Bool.true_and,
    ← Nat.testBit_or]
  exact h

/-- The raised field after a write, against the write alone. -/
theorem State.get_raised {s : State} {e a : Nat} {r : RegRow} {w : Word} {l : Loc} {k : Nat} (hp : plainAddr a = true)
    (h : s.hot.filter (fun x => decide (x.1.addr = a)) = [(l, k)]) (hfit : l.lo + l.w ≤ 32)
    (hm : (r.rw ||| r.rwl ||| r.w1c).testBit l.lo = true) :
    (s.writeEffect e a r w).get l =
      min (2 ^ l.w - 1) ((({ s with hot := [] } : State).writeEffect e a r w).get l + k) := by
  rcases Nat.eq_zero_or_pos l.w with hw | hw
  · rw [State.get_zero_width hw, hw]
    exact (Nat.zero_min _).symm
  have hla : l.addr ∉ ([] : List Nat) := List.not_mem_nil
  have ht := congrArg (fieldOf · l.lo l.w) ((s.writeEffect_plain (e := e) (r := r) (w := w) hp).regs l.addr hla)
  have hu := congrArg (fieldOf · l.lo l.w)
    ((({ s with hot := [] } : State).writeEffect_plain (e := e) (r := r) (w := w) hp).regs l.addr hla)
  rw [State.plainStore_raised r w h (RegRow.getLsbD_mask (by omega) hm)] at ht
  rw [State.plainStore_calm r w (fun _ hx => absurd hx List.not_mem_nil)] at hu
  calc (s.writeEffect e a r w).get l
      = ((s.setReg a (r.merge a (s.reg a) w)).lift l k).get l := ht
    _ = min (2 ^ l.w - 1) ((s.setReg a (r.merge a (s.reg a) w)).get l + k) :=
        State.get_lift _ k (decide_eq_true hfit)
    _ = _ := by
        rw [show (s.setReg a (r.merge a (s.reg a) w)).get l =
          (({ s with hot := [] } : State).writeEffect e a r w).get l from hu.symm]

/-! ### Stores to the own data memory (R11, R18) -/

/-- The number's byte `k`. -/
theorem getElem_leBytes {n v k : Nat} (h : k < (leBytes n v).length) : (leBytes n v)[k] = BitVec.ofNat 8 (v / 256 ^ k) := by
  induction n generalizing v k with
  | zero => cases h
  | succ n ih =>
    cases k with
    | zero => simp [leBytes]
    | succ k =>
      simp only [leBytes, List.getElem_cons_succ, ih]
      rw [Nat.div_div_eq_div_mul, pow_succ, Nat.mul_comm]

@[simp] theorem length_leBytes (n v : Nat) : (leBytes n v).length = n := by
  induction n generalizing v with
  | zero => rfl
  | succ n ih => simp [leBytes, ih]

/-- Bytes not among those written read as before. -/
theorem State.lbyte_setLbytes_ne {s : State} {a b : Nat} {l : List Byte} (h : b < a ∨ a + l.length ≤ b) :
    (s.setLbytes a l).lbyte b = s.lbyte b := by
  induction l generalizing s a with
  | nil => rfl
  | cons x l ih =>
    rw [List.length_cons] at h
    exact (ih (s := s.setLbyte a x) (by omega)).trans (sget_sset_ne _ _ (by omega) _)

/-- The bytes written. -/
theorem State.lbyte_setLbytes {s : State} {a : Nat} {l : List Byte} {k : Nat} (h : k < l.length) :
    (s.setLbytes a l).lbyte (a + k) = l[k] := by
  induction l generalizing s a k with
  | nil => cases h
  | cons x l ih =>
    cases k with
    | zero =>
      have hsame : (s.setLbyte a x).lbyte a = x := sget_sset_same _ _ _ _
      exact (State.lbyte_setLbytes_ne (s := s.setLbyte a x) (.inl (Nat.lt_succ_self a))).trans hsame
    | succ k =>
      have hk := ih (s := s.setLbyte a x) (a := a + 1) (Nat.lt_of_succ_lt_succ h)
      rwa [Nat.add_assoc, Nat.add_comm 1 k] at hk

theorem regionOf_dmem {a : Nat} (h : 0x10000 ≤ a) (h' : a < 0x20000) : regionOf a = .dmem (a - 0x10000) := by
  unfold regionOf
  rw [if_neg (by omega), if_pos h', show a % 0x10000 = a - 0x10000 by omega]

theorem of_regionOf_dmem {a off : Nat} (h : regionOf a = .dmem off) : a = 0x10000 + off ∧ off < 0x10000 := by
  unfold regionOf at h
  split_ifs at h
  cases h
  omega

/-- Bytes written through an engine's view of its data memory. -/
theorem State.viewPuts_dmem {s : State} {e a : Nat} {l : List Byte} (h : 0x10000 ≤ a) (h' : a + l.length ≤ 0x20000) :
    s.viewPuts e a l = s.setLbytes (e * 0x20000 + a) l := by
  induction l generalizing s a with
  | nil => rfl
  | cons x l ih =>
    rw [List.length_cons] at h'
    have hput : s.viewPut e a x = s.setLbyte (e * 0x20000 + a) x := by
      unfold State.viewPut
      rw [regionOf_dmem h (by omega), show e * 0x20000 + a = e * 0x20000 + 0x10000 + (a - 0x10000) by omega]
    unfold State.viewPuts State.setLbytes
    rw [ih (by omega) (by omega), hput, Nat.add_assoc]

/-- The engine's data memory faults on no access while its domain is on. -/
theorem State.memFault_dmem {s : State} {e a off : Nat} {app : Bool} {u : Use} (h : regionOf a = .dmem off)
    (hd : s.dOn e = true) : s.memFault e app u a = none := by
  unfold State.memFault
  rw [h]
  simp [State.regionOff, State.denied, hd]

/-- An aligned access of the data memory stays within it. -/
theorem aligned_end {a k m : Nat} (ha : a < m) (hk : k ∣ m) (hm : a % k = 0) : a + k ≤ m := by
  obtain ⟨c, rfl⟩ := hk
  obtain ⟨d, rfl⟩ := Nat.dvd_of_mod_eq_zero hm
  have : d < c := Nat.lt_of_mul_lt_mul_left ha
  calc k * d + k = k * (d + 1) := rfl
    _ ≤ k * c := Nat.mul_le_mul_left k this

theorem State.accessFault_dmem {s : State} {e a off k : Nat} {u : Use} (h : regionOf a = .dmem off) (hz : a % k = 0)
    (hd : s.dOn e = true) : s.accessFault e u k a = none := by
  unfold State.accessFault
  rw [h]
  simp only [hz, ne_eq, not_true_eq_false, if_false]
  exact State.memFault_dmem h hd

/-- A store to the engine's own data memory, aligned. -/
theorem State.busWrite_dmem {s : State} {e a off k : Nat} {v : Word} (h : regionOf a = .dmem off) (hk : k ∣ 0x20000)
    (hz : a % k = 0) (hd : s.dOn e = true) :
    s.busWrite e k a v = (s.setLbytes (e * 0x20000 + 0x10000 + off) (leBytes k v.toNat), none) := by
  have hacc : s.accessFault e .write k a = none := State.accessFault_dmem h hz hd
  obtain ⟨rfl, hoff⟩ := of_regionOf_dmem h
  have hend := aligned_end (by omega) hk hz
  unfold State.busWrite
  simp only [hacc, h]
  rw [State.viewPuts_dmem (by omega) (by simpa using hend), Nat.add_assoc]

theorem accBytes_dvd : ∀ z : AccSize, accBytes z ∣ 0x20000
  | .byte => ⟨0x20000, rfl⟩
  | .half => ⟨0x10000, rfl⟩
  | .word => ⟨0x8000, rfl⟩

theorem State.writeBy_dmem {s : State} {e a off : Nat} {z : AccSize} {v : Word} (h : regionOf a = .dmem off)
    (hz : a % accBytes z = 0) (hao : s.pwr.aoDown = false) (hd : s.dOn e = true) :
    s.writeBy e (accBytes z) a v = s.setLbytes (e * 0x20000 + 0x10000 + off) (leBytes (accBytes z) v.toNat) := by
  unfold State.writeBy
  rw [State.busWrite_dmem h (accBytes_dvd z) hz hd, hao]
  rfl

end Sys2Proof.Machine

open Sys2Proof Sys2Proof.Machine

/-- Settles O7: a plain register's write is `plainStore`, read bit by bit; a flag raised in the clock is lifted on top of it
(R8); a store goes byte by byte to the engine's local memory. -/
theorem registerWriteCompletes : Obligations.RegisterWriteCompletes := by
  refine ⟨?_, ?_, ?_⟩
  · intro e addr v r s hp hr h hl hc
    have ht := s.writeEffect_plain (e := e) (r := r) (w := v) hp
    rw [State.plainStore_calm r v hc] at ht
    have hw := ((State.Within.refl (l := [addr.toNat]) s).setReg).trans (ht.mono (by simp))
    refine ⟨_, rfl, ?_⟩
    rw [accBytes, State.writeBy_plain h hp hr hl]
    refine ⟨fun i hi => ?_, hw.regs, hw.mem⟩
    rw [ht.regs _ List.not_mem_nil, State.reg_setReg_same]
    exact r.getLsbD_merge _ _ _ hi
  · intro e addr v r l k s hp hr h hl hh hfit hm
    let u : State := { s with hot := [] }
    refine ⟨_, _, rfl, rfl, ?_⟩
    rw [accBytes, State.writeBy_plain h hp hr hl, State.writeBy_plain (s := u) h hp hr hl]
    have hs := s.within_writeEffect_plain (e := e) (r := r) (w := v) hp
    have hu := u.within_writeEffect_plain (e := e) (r := r) (w := v) hp
    exact ⟨State.get_raised hp hh hfit hm, fun a ha => (hs.regs a ha).trans (hu.regs a ha).symm, hs.mem⟩
  · intro e z addr v off s hreg hz hao hd
    refine ⟨_, rfl, ?_⟩
    rw [State.writeBy_dmem hreg hz hao hd]
    refine ⟨fun k hk => ?_, fun a ha => ?_, fun a _ => ?_, fun a => ?_, fun a => ?_⟩
    · rw [State.lbyte_setLbytes (by simpa using hk), getElem_leBytes]
    · refine State.lbyte_setLbytes_ne ?_
      rw [length_leBytes]
      by_contra hn
      exact ha (a - (e * 0x20000 + 0x10000 + off)) (by omega) (by omega)
    · exact State.reg_congr (by simp) a
    · unfold State.mbyte; simp
    · unfold State.fbyte; simp
end

section
namespace Sys2Proof.Machine

/-! ### What a correction of single-bit errors leaves alone (R30) -/

/-- `t` differs from `s` at most in the count of corrected errors and in which words hold one. -/
structure State.SameView (s t : State) : Prop where
  regs : KeepsRegs s t [SYS_ECCCORR.addr]
  mem : t.mem = s.mem
  lmem : t.lmem = s.lmem
  flash : t.flash = s.flash
  eng : t.eng = s.eng
  qsc : t.qsc = s.qsc
  ecc : t.ecc = s.ecc

namespace State.SameView

variable {s t : State}

theorem refl (s : State) : s.SameView s := ⟨fun _ _ => rfl, rfl, rfl, rfl, rfl, rfl, rfl⟩

theorem corrected (s : State) (p : Nat × Nat × Nat → Bool) : s.SameView (s.corrected p) := by
  unfold State.corrected
  dsimp only
  split
  · exact refl s
  · exact ⟨((State.Within.refl s).congr.incBy (k := SYS_ECCCORR.COUNT)
      (List.mem_singleton_self _)).regs, rfl, rfl, rfl, rfl, rfl, rfl⟩

theorem viewCorrected (s : State) (e a n : Nat) : s.SameView (s.viewCorrected e a n) := by
  unfold State.viewCorrected
  split
  · exact refl s
  · exact corrected s _

theorem get (h : s.SameView t) {l : Loc} (hl : l.addr ≠ SYS_ECCCORR.addr) : t.get l = s.get l :=
  congrArg (fieldOf · l.lo l.w) (h.regs l.addr (by simpa using hl))

theorem dOn (h : s.SameView t) (d : Nat) : t.dOn d = s.dOn d := by
  have hd : PWR_DSTAT.addr d ≠ SYS_ECCCORR.addr := by
    unfold PWR_DSTAT.addr SYS_ECCCORR.addr
    omega
  simp only [State.dOn, State.bit, h.get (l := PWR_DSTAT.STATE d) hd, h.get (l := PWR_DSTAT.LOGRDY d) hd]

theorem isApp (h : s.SameView t) (n : Nat) : t.isApp n = s.isApp n :=
  congrArg (bitOf · n) (h.get (by decide))

theorem appCell (h : s.SameView t) (c : Nat) : t.appCell c = s.appCell c := by
  have hq (q : Nat) : t.appQueue q = s.appQueue q := by
    unfold State.appQueue
    rw [h.get (l := QSC_OWNL.OWN) (by decide), h.get (l := QSC_OWNH.OWN) (by decide)]
  have hh (n : Nat) : t.holdsCell n c = s.holdsCell n c := by
    unfold State.holdsCell State.engOf
    rw [h.eng]
  simp only [State.appCell, hq, hh, h.isApp, State.q, h.qsc]

theorem memFault (h : s.SameView t) (e : Nat) (app : Bool) (u : Use) (a : Nat) :
    t.memFault e app u a = s.memFault e app u a := by
  have hoff (r : Region) : t.regionOff e r = s.regionOff e r := by
    have hall : t.dOn = s.dOn := funext h.dOn
    simp only [State.regionOff, State.clusterOn, hall]
  have hden (r : Region) : t.denied app u r = s.denied app u r := by
    simp only [State.denied, h.appCell]
  simp only [State.memFault, hoff, hden]

theorem eccBad (h : s.SameView t) (e a n : Nat) : t.eccBad e a n = s.eccBad e a n := by
  simp only [State.eccBad, h.ecc]

theorem engOf (h : s.SameView t) (n : Nat) : t.engOf n = s.engOf n := by unfold State.engOf; rw [h.eng]

theorem lbyte (h : s.SameView t) (a : Nat) : t.lbyte a = s.lbyte a := by unfold State.lbyte; rw [h.lmem]

theorem lbytes (h : s.SameView t) (a k : Nat) : t.lbytes a k = s.lbytes a k := by
  unfold State.lbytes
  rw [funext h.lbyte]

theorem fetchWord (h : s.SameView t) (n a : Nat) : t.fetchWord n a = s.fetchWord n a := by
  have hv : t.viewByte n = s.viewByte n := by
    funext x
    simp only [State.viewByte, State.mbyte, State.lbyte, h.mem, h.lmem]
  simp only [State.fetchWord, State.viewBytes, hv, State.engOf, h.eng, h.lbyte]

theorem fetchOne (h : s.SameView t) (n a : Nat) (first : Bool) : t.fetchOne n a first = s.fetchOne n a first := by
  simp only [State.fetchOne, h.memFault, h.isApp, h.eccBad, h.fetchWord]

theorem fetchFrom (h : s.SameView t) (n k a : Nat) (acc : List Word) : t.fetchFrom n k a acc = s.fetchFrom n k a acc := by
  induction k generalizing a acc with
  | zero => rfl
  | succ k ih => simp only [State.fetchFrom, h.fetchOne, ih]

/-- It fetches the same bundles. -/
theorem fetchBundle (h : s.SameView t) (n : Nat) (pc : Word) : t.fetchBundle n pc = s.fetchBundle n pc :=
  h.fetchFrom n 9 pc.toNat []

end State.SameView

/-! ### One L syllable (R281) -/

/-- A legal L syllable alone makes a legal bundle. -/
theorem illegal_lone {w : Word} (hw : legalSyl w = true) (hu : sylUnit w = 3) :
    (⟨[w], true⟩ : Bundle).illegal false = none := by
  have hleg : legalityOf none w [w] = none := by simp [legalityOf, hw]
  have hd : noRepeat ([w].filterMap sylDest) = true := by
    cases h : sylDest w <;> simp [noRepeat, List.filterMap, h]
  have hbr : (⟨[w], true⟩ : Bundle).breaks false = false := by
    simp [Bundle.breaks, Bundle.has, hu, hd]
  simp [Bundle.illegal, hleg, hbr]

/-- The program state in which the access of the bundle is made. -/
def CpuState.past (c : CpuState) : CpuState := { c with pc := c.pc + 4#32 }

/-- The issue of an L syllable alone: its access, with the pc moved on. -/
theorem State.issue_lone {s : State} {n : Fin 16} {w : Word} (h : s.issuesOne n w) (hu : sylUnit w = 3) :
    ∃ u, s.SameView u ∧ exec (.bundleIssue n) s = .next (u.commitBundle n (s.engOf n).cpu ⟨[w], true⟩
      { cpu := (s.engOf n).cpu.past } ((s.engOf n).cpu.pc + 4#32)) := by
  obtain ⟨hrun, hstall, hirq, hfetch, hleg, hrep⟩ := h
  have hv : s.SameView (s.fetchCorrected n (s.engOf n).cpu.pc) := State.SameView.viewCorrected s _ _ _
  refine ⟨_, hv, ?_⟩
  have hill := illegal_lone hleg hu
  have hbody (nxt : Word) : (s.fetchCorrected n (s.engOf n).cpu.pc).repBodyBad n ⟨[w], true⟩ nxt = false := by
    simp [State.repBodyBad, Bundle.has, hu]
  have hissue : s.issue n = (s.fetchCorrected n (s.engOf n).cpu.pc).runBundle n ⟨[w], true⟩ := by
    unfold State.issue
    dsimp only
    rw [hv.fetchBundle, hfetch]
    dsimp only
    rw [hrep, hill]
    dsimp only
    exact if_neg (by rw [hbody]; exact Bool.false_ne_true)
  have hexec : exec (.bundleIssue n) s = .next (s.issue n) :=
    congrArg Host.Outcome.next (if_pos ⟨hrun, hstall, by simp [hirq]⟩)
  rw [hexec, hissue]
  unfold State.runBundle
  rw [hv.engOf]
  simp only [State.unitsRun, State.unitStep, hu]
  rfl

/-- Its program state: nothing but the pc moves. -/
theorem State.commitCpu_lone (s : State) {n : Nat} {c : CpuState} {pc nxt : Word} (h : c.flag 9 = false) :
    s.commitCpu n { cpu := c.past } pc nxt = c.past := by
  have hst : c.past.status ||| 0 = c.past.status := BitVec.or_zero
  have hflag : ¬ c.past.flag 9 = true := by
    rw [show c.past.flag 9 = c.flag 9 from rfl, h]
    exact Bool.false_ne_true
  unfold State.commitCpu
  dsimp only [Option.getD]
  rw [hst]
  exact (if_neg Bool.false_ne_true).trans (if_neg hflag)

/-- The value that an access loads goes to d. -/
def State.loaded (t : State) (n : Nat) (w : Word) (v : Option Word) : State :=
  match v with
  | some v => t.modCpu n (fun c => c.setGpr (sylD w) v)
  | none => t

theorem State.commit_lone {u t : State} {n : Nat} {c : CpuState} {w nxt : Word} {v : Option Word} (hu : sylUnit w = 3)
    (h : c.flag 9 = false) (hm : (u.modCpu n (fun _ => c.past)).memAccess n c w = .done t v) :
    u.commitBundle n c ⟨[w], true⟩ { cpu := c.past } nxt = t.loaded n w v := by
  unfold State.commitBundle
  simp only [State.commitCpu_lone u h, List.find?_cons, hu, decide_true, hm]
  cases v with
  | none => rfl
  | some v => rfl

/-! ### The access (R291 to R293) -/

theorem readBytes_congr {f g : Nat → Byte} {a b k : Nat} (h : ∀ i, i < k → f (a + i) = g (b + i)) :
    readBytes f a k = readBytes g b k := by
  induction k generalizing a b with
  | zero => rfl
  | succ k ih =>
    have h0 : f a = g b := h 0 (Nat.succ_pos k)
    have hs : readBytes f (a + 1) k = readBytes g (b + 1) k := ih fun i hi => by
      have := h (i + 1) (Nat.succ_lt_succ hi)
      rwa [Nat.add_comm i 1, ← Nat.add_assoc, ← Nat.add_assoc] at this
    simp only [readBytes, h0, hs]

/-- The bytes that an engine's view shows of its data memory. -/
theorem State.viewBytes_dmem {s : State} {e a off k : Nat} (h : regionOf a = .dmem off) (hk : a + k ≤ 0x20000) :
    s.viewBytes e a k = s.lbytes (e * 0x20000 + 0x10000 + off) k := by
  obtain ⟨rfl, -⟩ := of_regionOf_dmem h
  refine readBytes_congr fun i hi => ?_
  unfold State.viewByte
  rw [regionOf_dmem (by omega) (by omega)]
  exact congrArg s.lbyte (by omega)

/-- The word that the access meets. -/
def State.dmemWord (s : State) (base size : Nat) : Word := BitVec.ofNat 32 (leNat (s.lbytes base size))

/-- The value a load gives of the word it meets (R292). -/
def extended (op : Nat) (v : Word) : Word :=
  if op = 0 then (v.setWidth 8).signExtend 32 else if op = 2 then (v.setWidth 16).signExtend 32 else v

/-- What an atomic stores where it stores (R293). -/
def CpuState.atomicNew (c : CpuState) (w old : Word) : Word :=
  if sylOp w = 0x11 then old + c.gpr (sylB w) else c.gpr (sylB w)

theorem memSize_dvd (op : Nat) : memSize op ∣ 0x20000 := by
  unfold memSize
  split_ifs
  · exact ⟨0x20000, rfl⟩
  · exact ⟨0x10000, rfl⟩
  · exact ⟨0x8000, rfl⟩

section
variable {s : State} {n off base : Nat} {c : CpuState} {w v : Word}

theorem State.memAccess_load (hop : sylOp w ≤ 5) (hr : regionOf (memAddr c w) = .dmem off) (hd : s.dOn n = true)
    (hz : memAddr c w % memSize (sylOp w) = 0) (he : s.eccBad n (memAddr c w) (memSize (sylOp w)) = none)
    (hw : s.dmemWord (n * 0x20000 + 0x10000 + off) (memSize (sylOp w)) = v) :
    s.memAccess n c w =
      .done (s.viewCorrected n (memAddr c w) (memSize (sylOp w))) (some (extended (sylOp w) v)) := by
  subst hw
  have hend := aligned_end (m := 0x20000) (by have := of_regionOf_dmem hr; omega) (memSize_dvd (sylOp w)) hz
  have hv := State.SameView.viewCorrected s n (memAddr c w) (memSize (sylOp w))
  unfold State.memAccess State.busRead
  simp only [State.accessFault_dmem hr hz hd, hr, hv.eccBad, he, State.viewBytes_dmem hr hend, hv.lbytes]
  rw [if_neg (by omega), if_neg (by omega)]
  rfl

theorem State.memAccess_store (hop : 8 ≤ sylOp w) (hop' : sylOp w < 0x10) (hr : regionOf (memAddr c w) = .dmem off)
    (hd : s.dOn n = true) (hz : memAddr c w % memSize (sylOp w) = 0) :
    s.memAccess n c w = .done
      (s.setLbytes (n * 0x20000 + 0x10000 + off) (leBytes (memSize (sylOp w)) (c.gpr (sylD w)).toNat)) none := by
  unfold State.memAccess
  simp only [State.busWrite_dmem hr (memSize_dvd _) hz hd]
  rw [if_neg (by omega), if_pos hop]

/-- CAS stores where the word equals d; the other two always store. -/
def CpuState.atomicStores (c : CpuState) (w old : Word) : Bool := decide (sylOp w ≠ 0x10) || decide (old = c.gpr (sylD w))

theorem State.memAccess_atomic (hop : 0x10 ≤ sylOp w) (hr : regionOf (memAddr c w) = .dmem off) (hd : s.dOn n = true)
    (hz : memAddr c w % 4 = 0) (he : s.eccBad n (memAddr c w) 4 = none) (hb : base = n * 0x20000 + 0x10000 + off)
    (hw : s.dmemWord base 4 = v) :
    s.memAccess n c w = .done ((s.viewCorrected n (memAddr c w) 4).when (c.atomicStores w v)
      (fun u => u.setLbytes base (leBytes 4 (c.atomicNew w v).toNat))) (some v) := by
  subst hb
  obtain ⟨ha, hoff⟩ := of_regionOf_dmem hr
  have hend := aligned_end (m := 0x20000) (by omega) ⟨0x8000, rfl⟩ hz
  have hv := State.SameView.viewCorrected s n (memAddr c w) 4
  unfold State.memAccess
  dsimp only
  rw [if_pos hop]
  unfold State.atomicAccess
  dsimp only
  rw [hr]
  dsimp only
  rw [if_neg (by simp [hz]), if_neg Bool.false_ne_true, State.accessFault_dmem hr hz hd]
  dsimp only
  generalize s.viewCorrected n (memAddr c w) 4 = u at hv ⊢
  have hold : BitVec.ofNat 32 (leNat (u.viewBytes n (memAddr c w) 4)) = v := by
    rw [State.viewBytes_dmem hr hend, hv.lbytes]
    exact hw
  have hput (x : Word) : u.viewPuts n (memAddr c w) (leBytes 4 x.toNat) =
      u.setLbytes (n * 0x20000 + 0x10000 + off) (leBytes 4 x.toNat) := by
    rw [State.viewPuts_dmem (by omega) (by simpa using hend)]
    exact congrArg (u.setLbytes · _) (by omega)
  rw [hv.eccBad, he]
  dsimp only
  rw [hold, hput, hput]
  unfold State.when CpuState.atomicStores CpuState.atomicNew
  split
  · next h =>
    rw [h]
    simp only [ne_eq, not_true_eq_false, decide_false, Bool.false_or, decide_eq_true_eq, Nat.reduceEqDiff, if_false]
  · next h => rw [h]; rfl
  · next h10 h11 =>
    have h10 : sylOp w ≠ 0x10 := h10
    have h11 : sylOp w ≠ 0x11 := h11
    simp [h10, h11]

/-! ### What stands after it -/

/-- Engine `n` of `t` has the program state `c`; beside it, `t` differs from `s` at most in local memory and in the count of
corrected errors. -/
structure State.Runs (s : State) (n : Nat) (c : CpuState) (t : State) : Prop where
  cpu : (t.engOf n).cpu = c
  regs : KeepsRegs s t [SYS_ECCCORR.addr]
  mem : t.mem = s.mem
  flash : t.flash = s.flash

namespace State.Runs

variable {t u : State}

theorem view (h : s.Runs n c t) (hv : t.SameView u) : s.Runs n c u where
  cpu := by rw [hv.engOf, h.cpu]
  regs a ha := (hv.regs a ha).trans (h.regs a ha)
  mem := hv.mem.trans h.mem
  flash := hv.flash.trans h.flash

theorem modCpu (h : s.Runs n c t) (hn : n < 16) (f : CpuState → CpuState) : s.Runs n (f c) (t.modCpu n f) where
  cpu := by rw [State.cpu_modCpu_same _ _ hn, h.cpu]
  regs a ha := h.regs a ha
  mem := h.mem
  flash := h.flash

theorem setLbytes (h : s.Runs n c t) (a : Nat) (l : List Byte) : s.Runs n c (t.setLbytes a l) where
  cpu := by rw [← h.cpu]; simp [State.engOf]
  regs b hb := (State.reg_congr (by simp) b).trans (h.regs b hb)
  mem := by simp [h.mem]
  flash := by simp [h.flash]

theorem when (h : s.Runs n c t) (b : Bool) (base : Nat) (l : List Byte) :
    s.Runs n c (t.when b fun u => u.setLbytes base l) := by
  cases b with
  | true => exact h.setLbytes base l
  | false => exact h

/-- What the obligation says of the rest of the state. -/
theorem frame (h : s.Runs n c t) :
    KeepsRegs s t [SYS_ECCCORR.addr] ∧ (∀ a, t.mbyte a = s.mbyte a) ∧ ∀ a, t.fbyte a = s.fbyte a :=
  ⟨h.regs, fun a => by unfold State.mbyte; rw [h.mem], fun a => by unfold State.fbyte; rw [h.flash]⟩

end State.Runs

end

/-- A general register after the load of d. -/
theorem CpuState.gpr_setGpr (c : CpuState) {d r : Nat} (v : Word) (hd : d < 32) :
    (c.setGpr d v).gpr r = if r = d ∧ r ≠ 0 then v else c.gpr r := by
  unfold CpuState.setGpr CpuState.gpr
  by_cases h0 : r = 0
  · simp [h0]
  · by_cases hrd : r = d
    · subst hrd
      simp [h0, vget_vset_same _ _ hd]
    · by_cases hd0 : d = 0
      · simp [hd0]
      · simp [h0, hrd, hd0, vget_vset_ne _ _ hrd]

theorem CpuState.pc_setGpr (c : CpuState) (d : Nat) (v : Word) : (c.setGpr d v).pc = c.pc := by
  unfold CpuState.setGpr
  split
  · rfl
  · rfl

theorem leNat_lt (l : List Byte) : leNat l < 256 ^ l.length := by
  induction l with
  | nil => exact Nat.one_pos
  | cons b l ih =>
    have := b.isLt
    rw [List.length_cons, pow_succ, leNat]
    omega

theorem leNat_div {l : List Byte} {k : Nat} (hk : k < l.length) : leNat l / 256 ^ k % 256 = l[k].toNat := by
  induction l generalizing k with
  | nil => cases hk
  | cons b l ih =>
    have hb := b.isLt
    cases k with
    | zero =>
      rw [pow_zero, Nat.div_one, leNat, Nat.add_mul_mod_self_left, Nat.mod_eq_of_lt hb]
      rfl
    | succ k =>
      rw [pow_succ, Nat.mul_comm, ← Nat.div_div_eq_div_mul, leNat, Nat.add_mul_div_left _ _ (by decide),
        Nat.div_eq_of_lt hb, Nat.zero_add]
      exact ih (Nat.lt_of_succ_lt_succ hk)

/-- The bytes of the word that little-endian bytes make. -/
theorem byte_leNat {l : List Byte} {k : Nat} (hl : l.length ≤ 4) (hk : k < l.length) :
    BitVec.ofNat 8 ((BitVec.ofNat 32 (leNat l)).toNat / 256 ^ k) = l[k] := by
  have hlt : leNat l < 2 ^ 32 := (leNat_lt l).trans_le (Nat.pow_le_pow_right (n := 256) (by decide) hl)
  apply BitVec.eq_of_toNat_eq
  rw [BitVec.toNat_ofNat, BitVec.toNat_ofNat, Nat.mod_eq_of_lt hlt]
  exact leNat_div hk

@[simp] theorem length_readBytes (f : Nat → Byte) (a n : Nat) : (readBytes f a n).length = n := by
  induction n generalizing a with
  | zero => rfl
  | succ n ih => simp [readBytes, ih]

theorem getElem_readBytes {f : Nat → Byte} {a n k : Nat} (h : k < (readBytes f a n).length) :
    (readBytes f a n)[k] = f (a + k) := by
  induction n generalizing a k with
  | zero => cases h
  | succ n ih =>
    cases k with
    | zero => rfl
    | succ k =>
      simp only [readBytes, List.getElem_cons_succ, ih]
      congr 1
      omega

/-- Storing the word that stands there changes nothing. -/
theorem State.byte_dmemWord (s : State) {base k : Nat} (hk : k < 4) :
    BitVec.ofNat 8 ((s.dmemWord base 4).toNat / 256 ^ k) = s.lbyte (base + k) := by
  have hl : (s.lbytes base 4).length = 4 := length_readBytes _ _ _
  exact (byte_leNat hl.le (by rwa [hl])).trans (getElem_readBytes _)

/-- The bytes of `x` stand at `base`, and the others as in `s`. -/
def State.Stored (s t : State) (base size : Nat) (x : Word) : Prop :=
  (∀ k, k < size → t.lbyte (base + k) = BitVec.ofNat 8 (x.toNat / 256 ^ k)) ∧
    ∀ a, a < base ∨ base + size ≤ a → t.lbyte a = s.lbyte a

theorem State.stored_setLbytes {s u : State} (h : ∀ a, u.lbyte a = s.lbyte a) (base size : Nat) (x : Word) :
    s.Stored (u.setLbytes base (leBytes size x.toNat)) base size x :=
  ⟨fun k hk => by rw [State.lbyte_setLbytes (by simpa using hk), getElem_leBytes],
    fun a ha => (State.lbyte_setLbytes_ne (by simpa using ha)).trans (h a)⟩

theorem CpuState.atomic_leaves (c : CpuState) (w v : Word) :
    (if c.atomicStores w v then c.atomicNew w v else v) =
      if sylOp w = 0x10 then (if v = c.gpr (sylD w) then c.gpr (sylB w) else v)
      else if sylOp w = 0x11 then v + c.gpr (sylB w) else c.gpr (sylB w) := by
  unfold CpuState.atomicStores CpuState.atomicNew
  by_cases h : sylOp w = 0x10
  · simp [h]
  · simp [h]

/-- What an atomic leaves in the word. -/
theorem State.stored_atomic {s u : State} {size : Nat} (h : ∀ a, u.lbyte a = s.lbyte a) (hs : size = 4) (base : Nat)
    (b : Bool) (x : Word) : s.Stored (u.when b fun u => u.setLbytes base (leBytes 4 x.toNat)) base size
      (if b then x else s.dmemWord base 4) := by
  subst hs
  cases b with
  | true => exact State.stored_setLbytes h base 4 x
  | false => exact ⟨fun k hk => (h _).trans (s.byte_dmemWord hk).symm, fun a _ => h a⟩

/-- The OPs of a legal L syllable: loads, stores, atomics (R291). -/
theorem legal_load_store_atomic {w : Word} (h : legalSyl w = true) (hu : sylUnit w = 3) :
    sylOp w ≤ 5 ∨ 8 ≤ sylOp w ∧ sylOp w < 0x10 ∨ 0x10 ≤ sylOp w := by
  unfold legalSyl at h
  rw [hu] at h
  dsimp only [legalL] at h
  split_ifs at h
  · omega
  · omega

end Sys2Proof.Machine

open Sys2Proof Sys2Proof.Machine

/-- Settles O41: the fetch corrects errors at most, the commit moves the pc on, and the access is one of the local memory. -/
theorem localAccessCompletes : Obligations.LocalAccessCompletes := by
  intro n w off s hone hu hd hr hz he c op base v loads stores
  obtain ⟨x, hx, hexec⟩ := State.issue_lone hone hu
  obtain ⟨-, -, -, -, hleg, hrep⟩ := hone
  have hD : sylD w < 32 := fieldOf_lt w 17 5
  let p : State := x.modCpu n (fun _ => c.past)
  have hp : s.Runs n c.past p := 
    State.Runs.modCpu (c := (x.engOf n).cpu) ⟨rfl, hx.regs, hx.mem, hx.flash⟩ n.isLt (fun _ => c.past)
  have hpl : ∀ a, p.lbyte a = s.lbyte a := hx.lbyte
  have hpd : p.dOn n = true := (hx.dOn n).trans hd
  have hpe : p.eccBad n (memAddr c w) (memSize (sylOp w)) = none := (hx.eccBad _ _ _).trans he
  have hpw : p.dmemWord base (memSize op) = v := congrArg (BitVec.ofNat 32 ∘ leNat) (hx.lbytes base (memSize op))
  have hv := State.SameView.viewCorrected p n (memAddr c w) (memSize op)
  have hloads {t : State} {y : Word} (ht : s.Runs n (c.past.setGpr (sylD w) y) t) :
      (t.engOf n).cpu.pc = c.pc + 4#32 ∧ loads t y := by
    rw [ht.cpu, CpuState.pc_setGpr]
    exact ⟨rfl, fun r _ => by rw [ht.cpu, CpuState.gpr_setGpr _ _ hD]; rfl⟩
  rcases legal_load_store_atomic hleg hu with hop | ⟨hop, hop'⟩ | hop
  · have hm := State.memAccess_load hop hr hpd hz hpe hpw
    have ht := (hp.view hv).modCpu n.isLt (fun c => c.setGpr (sylD w) (extended op v))
    obtain ⟨hpc, hl⟩ := hloads ht
    refine ⟨_, hexec.trans (congrArg _ (State.commit_lone hu hrep hm)), hpc,
      fun _ => ⟨hl, fun a => (hv.lbyte a).trans (hpl a)⟩, fun h8 => ?_, fun h10 => ?_, ht.frame⟩
    · exact absurd h8 (by omega)
    · exact absurd h10 (by omega)
  · have hm := State.memAccess_store hop hop' hr hpd hz
    have ht := hp.setLbytes base (leBytes (memSize op) (c.gpr (sylD w)).toNat)
    have hst := State.stored_setLbytes hpl base (memSize op) (c.gpr (sylD w))
    refine ⟨_, hexec.trans (congrArg _ (State.commit_lone hu hrep hm)), congrArg CpuState.pc ht.cpu, fun h5 => ?_,
      fun _ _ => ⟨hst, fun r => (congrArg (CpuState.gpr · r) ht.cpu).trans rfl⟩, fun h10 => ?_, ht.frame⟩
    · exact absurd h5 (by omega)
    · exact absurd h10 (by omega)
  · have h4 : memSize (sylOp w) = 4 := by
      unfold memSize
      rw [if_neg (by omega), if_neg (by omega)]
    rw [h4] at hz hpe
    have hb : base = n * 0x20000 + 0x10000 + off := rfl
    have hpv : p.dmemWord base 4 = v := by rw [← hpw, show memSize op = 4 from h4]
    have hm := State.memAccess_atomic hop hr hpd hz hpe hb hpv
    have hv := State.SameView.viewCorrected p n (memAddr c w) 4
    have hst := State.stored_atomic (fun a => (hv.lbyte a).trans (hpl a)) h4 base (c.atomicStores w v) (c.atomicNew w v)
    rw [show s.dmemWord base 4 = v from (congrArg _ h4.symm).trans rfl, CpuState.atomic_leaves] at hst
    have ht := ((hp.view hv).when (c.atomicStores w v) base (leBytes 4 (c.atomicNew w v).toNat)).modCpu n.isLt
      (fun c => c.setGpr (sylD w) v)
    obtain ⟨hpc, hl⟩ := hloads ht
    refine ⟨_, hexec.trans (congrArg _ (State.commit_lone hu hrep hm)), hpc, fun h5 => ?_, fun _ h10 => ?_,
      fun _ => ⟨hl, ?_⟩, ht.frame⟩
    · exact absurd h5 (by omega)
    · exact absurd h10 (by omega)
    · exact hst
end

section
namespace Sys2Proof.Machine

/-! ### What an operation of the transmitter writes -/

/-- Fields that share no bit with the fields `P` names read in `s` as they do in `u`. -/
def State.Writes (u : State) (P : Loc → Prop) (s : State) : Prop :=
  ∀ l, (∀ k, P k → l.apart k = true) → s.get l = u.get l

/-- The fields of the blocks listed (R20). -/
abbrev inBlocks (l : List Nat) (k : Loc) : Prop := blockOfAddr k.addr ∈ l

/-- The fields of the registers listed. -/
abbrev inRegs (l : List Nat) (k : Loc) : Prop := k.addr ∈ l

/-- A register as the field that fills it. -/
theorem State.reg_eq_ofNat_get (s : State) (a : Nat) : s.reg a = BitVec.ofNat 32 (s.get ⟨a, 0, 32⟩) := by
  unfold State.get fieldOf
  rw [BitVec.ushiftRight_zero, Nat.mod_eq_of_lt (s.reg a).isLt, BitVec.ofNat_toNat, BitVec.setWidth_eq]

theorem Loc.apart_of_addr {l k : Loc} (h : l.addr ≠ k.addr) : l.apart k = true := by simp [Loc.apart, h]

theorem State.bit_set_one (s : State) {l : Loc} (hl : l.fits = true) (hw : l.w = 1) : (s.set l 1).bit l = true := by
  rw [State.bit_eq, State.get_set_same s 1 hl, hw]
  rfl

theorem State.bit_set_zero (s : State) {l : Loc} (hl : l.fits = true) : (s.set l 0).bit l = false := by
  rw [State.bit_eq, State.get_set_same s 0 hl, Nat.zero_mod]
  rfl

/-- A flag that hardware sets is set (R8). -/
theorem State.bit_raise (s : State) {l : Loc} (hl : l.fits = true) (hw : l.w = 1) : (s.raise l).bit l = true := by
  rw [State.bit_eq, State.raise, State.get_incBy_same s 1 hl, hw, decide_eq_true_eq]
  omega

theorem State.bit_set_apart (s : State) {l k : Loc} (v : Nat) (h : l.apart k = true) : (s.set k v).bit l = s.bit l := by
  rw [State.bit_eq, State.get_set_apart s v h, State.bit_eq]

namespace State.Writes

variable {u s t : State} {P Q : Loc → Prop}

theorem refl (s : State) : s.Writes P s := fun _ _ => rfl

theorem trans (h : u.Writes P s) (k : s.Writes P t) : u.Writes P t := fun l hl => (k l hl).trans (h l hl)

theorem mono (h : u.Writes P s) (hq : ∀ k, P k → Q k) : u.Writes Q s := fun l hl => h l fun k hk => hl k (hq k hk)

/-- Fields are read from the register file alone. -/
theorem congr (h : u.Writes P s) (hr : t.regs = s.regs := by rfl) : u.Writes P t :=
  h.trans fun l _ => State.get_congr hr l

theorem set (h : u.Writes P s) {k v} (hk : P k) : u.Writes P (s.set k v) :=
  h.trans fun _ hl => State.get_set_apart s v (hl k hk)

theorem incBy (h : u.Writes P s) {k n} (hk : P k) : u.Writes P (s.incBy k n) :=
  h.trans fun _ hl => State.get_incBy_apart s n (hl k hk)

theorem inc (h : u.Writes P s) {k} (hk : P k) : u.Writes P (s.inc k) := h.incBy hk

theorem raise (h : u.Writes P s) {k} (hk : P k) : u.Writes P (s.raise k) := h.incBy hk

theorem setReg (h : u.Writes P s) {a v} (ha : ∀ k : Loc, k.addr = a → P k) : u.Writes P (s.setReg a v) := by
  refine h.trans fun l hl => ?_
  by_cases hla : l.addr = a
  · have hw : l.w = 0 := by simpa [Loc.apart] using hl l (ha l hla)
    rw [State.get_zero_width hw, State.get_zero_width hw]
  · exact State.get_setReg_ne s v hla

theorem ite {c : Prop} [Decidable c] (hs : u.Writes P s) (ht : u.Writes P t) : u.Writes P (if c then s else t) := by
  split
  · exact hs
  · exact ht

theorem each {α : Type} {as : List α} {f : State → α → State} (h : u.Writes P s)
    (hf : ∀ s, ∀ a ∈ as, u.Writes P s → u.Writes P (f s a)) : u.Writes P (s.each as f) := by
  induction as generalizing s with
  | nil => exact h
  | cons a as ih => exact ih (hf s a List.mem_cons_self h) fun s b hb => hf s b (List.mem_cons_of_mem a hb)

theorem reg (h : u.Writes P s) {a : Nat} (ha : ∀ k, P k → (⟨a, 0, 32⟩ : Loc).apart k = true) : s.reg a = u.reg a := by
  rw [s.reg_eq_ofNat_get, u.reg_eq_ofNat_get, h _ ha]

theorem keepsRegs {l : List Nat} (h : u.Writes (inRegs l) s) : KeepsRegs u s l := fun _ ha =>
  h.reg fun _ hk => Loc.apart_of_addr (by rintro rfl; exact ha hk)

theorem keepsBlocks {l : List Nat} (h : u.Writes (inBlocks l) s) : KeepsBlocks u s l := fun _ ha =>
  h.reg fun _ hk => Loc.apart_of_addr (by rintro rfl; exact ha hk)

/-- The fields of an operation's list lie in the blocks listed. -/
theorem intoBlocks {L : List Loc} {l : List Nat} (h : u.Writes (· ∈ L) s) (hl : ∀ k ∈ L, blockOfAddr k.addr ∈ l) :
    u.Writes (inBlocks l) s := h.mono hl

/-- A field outside the blocks. -/
theorem get_of_block {l : List Nat} (h : u.Writes (inBlocks l) s) {k : Loc} (hk : blockOfAddr k.addr ∉ l) :
    s.get k = u.get k :=
  h k fun _ hm => Loc.apart_of_addr fun he => hk (he ▸ hm)

end State.Writes

/-- Shared memory, the local memories and the flash. -/
def State.memories (s : State) : List Host.Cell × List Host.Cell × List Host.Cell := (s.mem, s.lmem, s.flash)

theorem State.memories_eq {s t : State} (hm : t.mem = s.mem := by rfl) (hl : t.lmem = s.lmem := by rfl)
    (hf : t.flash = s.flash := by rfl) : t.memories = s.memories := by
  unfold State.memories
  rw [hm, hl, hf]

theorem keepsMemory_of_memories {s t : State} (h : t.memories = s.memories) : KeepsMemory s t := by
  simp only [State.memories, Prod.mk.injEq] at h
  obtain ⟨hm, hl, hf⟩ := h
  exact ⟨fun a => by unfold State.mbyte; rw [hm], fun a => by unfold State.lbyte; rw [hl],
    fun a => by unfold State.fbyte; rw [hf]⟩

/-- The carriers, the duty buckets, the actions and the memories of `s` are those of `u`. -/
structure State.KeepsCarriers (u s : State) : Prop where
  car : s.car = u.car
  glz : s.glz = u.glz
  lnk : s.lnk = u.lnk
  mem : s.memories = u.memories

theorem State.KeepsCarriers.trans {u s t : State} (h : u.KeepsCarriers s) (k : s.KeepsCarriers t) : u.KeepsCarriers t :=
  ⟨k.car.trans h.car, k.glz.trans h.glz, k.lnk.trans h.lnk, k.mem.trans h.mem⟩

/-- What the synthesisers hold stays as well: of the transmitter, registers alone are written. -/
structure State.KeepsRadio (u s : State) : Prop extends u.KeepsCarriers s where
  txc : s.txc = u.txc

namespace State.KeepsRadio

variable {u s t : State}

theorem refl (s : State) : s.KeepsRadio s := ⟨⟨rfl, rfl, rfl, rfl⟩, rfl⟩

theorem set (h : u.KeepsRadio s) {k v} : u.KeepsRadio (s.set k v) := ⟨⟨h.car, h.glz, h.lnk, h.mem⟩, h.txc⟩

theorem incBy (h : u.KeepsRadio s) {k n} : u.KeepsRadio (s.incBy k n) := ⟨⟨h.car, h.glz, h.lnk, h.mem⟩, h.txc⟩

theorem inc (h : u.KeepsRadio s) {k} : u.KeepsRadio (s.inc k) := h.incBy

theorem raise (h : u.KeepsRadio s) {k} : u.KeepsRadio (s.raise k) := h.incBy

theorem ite {c : Prop} [Decidable c] (hs : u.KeepsRadio s) (ht : u.KeepsRadio t) : u.KeepsRadio (if c then s else t) := by
  split
  · exact hs
  · exact ht

theorem each {α : Type} {as : List α} {f : State → α → State} (h : u.KeepsRadio s)
    (hf : ∀ s a, u.KeepsRadio s → u.KeepsRadio (f s a)) : u.KeepsRadio (s.each as f) := by
  induction as generalizing s with
  | nil => exact h
  | cons a as ih => exact ih (hf s a h)

end State.KeepsRadio

/-! ### The fields that show the carriers, and a calibration run (R123, R131, R133) -/

/-- The fields of the carriers and of the chain that `showTx` writes. -/
def shownTx (x : Nat) : List Loc :=
  (carriersOf x).flatMap (fun c => [TXF_CARSTAT.SEND c, TXF_CARSTAT.RES c, TXF_CARSTAT.ACK c,
    ⟨(TXF_STAT.RES x).addr, 8 + c % 4, 1⟩, ⟨(TXF_STAT.ACT x).addr, 4 + c % 4, 1⟩]) ++
    [TXF_STAT.PAON x, TXF_STAT.RETPEND x]

/-- The fields that a calibration run writes. -/
def calFields (x : Nat) : List Loc :=
  [if x = 0 then TXF_CALCNT.A else TXF_CALCNT.B, TXF_STAT.CAL x, TXF_STAT.LOCK x, syLock x]

/-- The fields that a retune writes. -/
def retuneFields (x : Nat) : List Loc := TXF_LO.FREQ x :: calFields x ++ shownTx x

/-- The fields that show the coexistence wires. -/
def coexFields : List Loc := [COEX_STAT.REQ, COEX_STAT.PRI, COEX_STAT.GNT]

theorem State.keepsRadio_showTx (s : State) (x : Nat) : s.KeepsRadio (s.showTx x) :=
  ((State.KeepsRadio.refl s).each fun _ _ h => h.set.set.set.set.set).set.set

theorem State.keepsRadio_coexWires (s : State) : s.KeepsRadio s.coexWires := (State.KeepsRadio.refl s).set.set.set

theorem State.keepsRadio_countGate (s : State) (x status : Nat) (ack : Bool) : s.KeepsRadio (s.countGate x status ack) :=
  have h := State.KeepsRadio.refl s
  .ite h.raise (.ite h.inc.raise (.ite h.inc.raise (.ite h.inc.raise h)))

theorem State.writes_showTx (s : State) (x : Nat) : s.Writes (· ∈ shownTx x) (s.showTx x) := by
  unfold State.showTx
  refine ((State.Writes.refl s).each fun s c hc h => ?_).set (by simp [shownTx]) |>.set (by simp [shownTx])
  have hm {k : Loc} (hk : k ∈ [TXF_CARSTAT.SEND c, TXF_CARSTAT.RES c, TXF_CARSTAT.ACK c,
      ⟨(TXF_STAT.RES x).addr, 8 + c % 4, 1⟩, ⟨(TXF_STAT.ACT x).addr, 4 + c % 4, 1⟩]) : k ∈ shownTx x :=
    List.mem_append_left _ (List.mem_flatMap.2 ⟨c, hc, hk⟩)
  exact ((((h.set (hm (by simp))).set (hm (by simp))).set (hm (by simp))).set (hm (by simp))).set (hm (by simp))

theorem State.writes_coexWires (s : State) : s.Writes (· ∈ coexFields) s.coexWires :=
  (((State.Writes.refl s).set (by simp [coexFields])).set (by simp [coexFields])).set (by simp [coexFields])

/-- The registers that a calibration run writes: it is counted, and CAL stands in place of the lock. -/
def State.calMark (s : State) (x : Nat) : State :=
  (((s.inc (if x = 0 then TXF_CALCNT.A else TXF_CALCNT.B)).set (TXF_STAT.CAL x) 1).set (TXF_STAT.LOCK x) 0).set
    (syLock x) 0

theorem State.regs_calRun (s : State) (x : Nat) : (s.calRun x).regs = (s.calMark x).regs := rfl

/-- R131: beside registers, a calibration run keeps the temperature it ran at, and no more. -/
theorem State.txc_calRun (s : State) (x : Nat) :
    (s.calRun x).txc = vmod s.txc x (fun t => { t with lastTj := t.tj }) := rfl

theorem State.keepsCarriers_calRun (s : State) (x : Nat) : s.KeepsCarriers (s.calRun x) := ⟨rfl, rfl, rfl, rfl⟩

theorem State.writes_calRun (s : State) (x : Nat) : s.Writes (· ∈ calFields x) (s.calRun x) := by
  have h : s.Writes (· ∈ calFields x) (s.calMark x) :=
    ((((State.Writes.refl s).inc (by simp [calFields])).set (by simp [calFields])).set (by simp [calFields])).set
      (by simp [calFields])
  exact h.congr (s.regs_calRun x)

theorem vget_vmod_same {α : Type} {n : Nat} [Inhabited α] (v : Vector α n) {i : Nat} (f : α → α) (h : i < n) :
    vget (vmod v i f) i = f (vget v i) := vget_vset_same v _ h

/-- Where LOCK and CAL of a chain and the lock of its synthesiser lie. -/
theorem lockFields : ∀ x : Fin 2, (TXF_STAT.CAL x).fits = true ∧ (TXF_STAT.LOCK x).fits = true ∧
    (syLock x).fits = true ∧ (syLock x).w = 1 ∧ (TXF_STAT.CAL x).apart (TXF_STAT.LOCK x) = true ∧
    (TXF_STAT.CAL x).apart (syLock x) = true ∧
    (TXF_STAT.LOCK x).apart (syLock x) = true ∧ (TXF_STAT.LOCK x).apart (TXF_STAT.CAL x) = true ∧
    (syLock x).apart (TXF_STAT.CAL x) = true := by decide

/-- R131: a calibration shows, and the lock is gone. -/
theorem State.get_calRun (s : State) (x : Fin 2) : (s.calRun x).bit (TXF_STAT.CAL x) = true ∧
    (s.calRun x).bit (TXF_STAT.LOCK x) = false ∧ (s.calRun x).synLocked x = false := by
  obtain ⟨hc, hl, hs, -, hcl, hcs, hls, -, -⟩ := lockFields x
  have h (l : Loc) : (s.calRun x).bit l = (s.calMark x).bit l := by
    rw [State.bit_eq, State.get_congr (s.regs_calRun x), State.bit_eq]
  rw [State.synLocked, h, h, h, State.calMark]
  refine ⟨?_, ?_, State.bit_set_zero _ hs⟩
  · rw [State.bit_set_apart _ _ hcs, State.bit_set_apart _ _ hcl]
    exact State.bit_set_one _ hc rfl
  · rw [State.bit_set_apart _ _ hls]
    exact State.bit_set_zero _ hl

/-- R123: RETPEND shows whether a retune is held. -/
theorem State.bit_retpend_showTx (s : State) (x : Nat) :
    (s.showTx x).bit (TXF_STAT.RETPEND x) = (vget s.txc x).heldLo.isSome := by
  unfold State.showTx
  rw [State.bit_eq, State.get_set_same _ _ rfl,
    ((State.KeepsRadio.refl s).each fun _ _ h => h.set.set.set.set.set).txc]
  cases (vget s.txc x).heldLo.isSome
  · rfl
  · rfl

/-- A retune stays within SYS and TXF. -/
theorem retuneFields_blocks : ∀ x : Fin 2, ∀ k ∈ retuneFields x, blockOfAddr k.addr ∈ [0, 6] := by decide

/-- What shows the carriers lies apart from the LO and from what shows the synthesiser. -/
theorem apart_shownTx : ∀ x : Fin 2, ∀ l ∈ [TXF_STAT.CAL x, TXF_STAT.LOCK x, syLock x, TXF_LO.FREQ x],
    ∀ k ∈ shownTx x, l.apart k = true := by decide

theorem lo_apart_calFields : ∀ x : Fin 2, ∀ k ∈ calFields x, (TXF_LO.FREQ x).apart k = true := by decide

/-- The LO written with a retune, and none held any more. -/
def State.tuned (s : State) (x lo : Nat) : State :=
  State.set { s with txc := vmod s.txc x (fun t => { t with heldLo := none }) } (TXF_LO.FREQ x) lo

theorem State.retune_eq (s : State) (x lo : Nat) : s.retune x lo = ((s.tuned x lo).calRun x).showTx x := rfl

theorem State.writes_retune (s : State) (x lo : Nat) : s.Writes (· ∈ retuneFields x) (s.retune x lo) := by
  have h0 : s.Writes (· ∈ retuneFields x) (s.tuned x lo) := (State.Writes.refl s).congr.set (by simp [retuneFields])
  rw [State.retune_eq]
  exact (h0.trans ((State.writes_calRun _ x).mono fun k hk => by simp [retuneFields, hk])).trans
    ((State.writes_showTx _ x).mono fun k hk => by simp [retuneFields, hk])

theorem State.keepsCarriers_retune (s : State) (x lo : Nat) : s.KeepsCarriers (s.retune x lo) := by
  have h0 : s.KeepsCarriers (s.tuned x lo) := ⟨rfl, rfl, rfl, rfl⟩
  rw [State.retune_eq]
  exact (h0.trans (State.keepsCarriers_calRun _ x)).trans (State.keepsRadio_showTx _ x).toKeepsCarriers

/-- R123, R131: what a retune leaves: the LO as requested, a calibration that runs, no lock, and no retune held. -/
theorem State.retune_leaves (s : State) (x : Fin 2) (lo : Nat) : (s.retune x lo).get (TXF_LO.FREQ x) = lo % 2 ^ 32 ∧
    (s.retune x lo).bit (TXF_STAT.CAL x) = true ∧ (s.retune x lo).bit (TXF_STAT.LOCK x) = false ∧
    (s.retune x lo).synLocked x = false ∧ (s.retune x lo).bit (TXF_STAT.RETPEND x) = false ∧
    (vget (s.retune x lo).txc x).heldLo = none := by
  have hshow := ((s.tuned x lo).calRun x).writes_showTx x
  obtain ⟨hcal, hlock, hsyn⟩ := (s.tuned x lo).get_calRun x
  have hheld : (vget ((s.tuned x lo).calRun x).txc x).heldLo = none := by
    rw [State.txc_calRun, vget_vmod_same _ _ x.isLt]
    exact congrArg TxChain.heldLo (vget_vmod_same s.txc _ x.isLt)
  simp only [State.retune_eq, State.synLocked, State.bit_eq] at hcal hlock hsyn ⊢
  refine ⟨?_, ?_, ?_, ?_, ?_, ?_⟩
  · rw [hshow _ (apart_shownTx x _ (by simp)), State.writes_calRun _ x _ (lo_apart_calFields x)]
    exact State.get_set_same _ lo rfl
  · rwa [hshow _ (apart_shownTx x _ (by simp))]
  · rwa [hshow _ (apart_shownTx x _ (by simp))]
  · rwa [hshow _ (apart_shownTx x _ (by simp))]
  · exact (State.bit_retpend_showTx _ x).trans (by rw [hheld]; rfl)
  · rw [(State.keepsRadio_showTx _ x).txc, hheld]

end Sys2Proof.Machine
end

section
namespace Sys2Proof.Machine

/-! ### Memories kept: the operations that all blocks share -/

@[simp] theorem State.memories_set (s : State) (l : Loc) (v : Nat) : (s.set l v).memories = s.memories :=
  State.memories_eq

@[simp] theorem State.memories_inc (s : State) (l : Loc) : (s.inc l).memories = s.memories :=
  State.memories_eq

@[simp] theorem State.memories_raise (s : State) (l : Loc) : (s.raise l).memories = s.memories :=
  State.memories_eq

@[simp] theorem State.memories_turnOn (s : State) (d : Nat) : (s.turnOn d).memories = s.memories := by
  unfold State.turnOn
  dsimp only
  split_ifs <;> rfl

@[simp] theorem State.memories_wakeReady (s : State) : s.wakeReady.memories = s.memories := by
  unfold State.wakeReady
  dsimp only
  split_ifs <;> rfl

@[simp] theorem State.memories_latchFault (s : State) (c : Nat) (w : Word) (a : Nat) :
    (s.latchFault c w a).memories = s.memories := by
  unfold State.latchFault
  dsimp only
  split_ifs <;> rfl

/-- R422: the cause of a recorded wake, as PWR_LASTWAKE shows it: of two in one clock the lower. -/
def State.wakeCause (s : State) (same : Option Nat) (cause detail : Nat) : State :=
  match same with
  | some k => if cause < k then (s.set PWR_LASTWAKE.CAUSE cause).set PWR_LASTWAKE.DETAIL detail else s
  | none => ((s.inc PWR_LASTWAKE.COUNT).set PWR_LASTWAKE.CAUSE cause).set PWR_LASTWAKE.DETAIL detail

/-- What a wake comes to: nothing, the domains turned on, or the record of it as well. -/
theorem State.wake_cases (s : State) (ds : List Nat) (cause detail : Nat) (recorded : Bool) :
    s.wake ds cause detail recorded = s ∨ s.wake ds cause detail recorded = s.each ds State.turnOn ∨
      ∃ p q same, s.wake ds cause detail recorded =
        ({ State.wakeCause { s.each ds State.turnOn with pwr := p } same cause detail with pwr := q } : State).wakeReady := by
  unfold State.wake
  split_ifs
  · exact .inl rfl
  · exact .inr (.inl rfl)
  · exact .inr (.inr ⟨_, _, _, rfl⟩)

@[simp] theorem State.memories_wakeCause (s : State) (same : Option Nat) (cause detail : Nat) :
    (s.wakeCause same cause detail).memories = s.memories := by
  unfold State.wakeCause
  split
  · split_ifs <;> rfl
  · rfl

@[simp] theorem State.memories_wake (s : State) (ds : List Nat) (cause detail : Nat) (recorded : Bool) :
    (s.wake ds cause detail recorded).memories = s.memories := by
  have hon : (s.each ds State.turnOn).memories = s.memories := State.each_keeps _ State.memories_turnOn
  obtain h | h | ⟨p, q, same, h⟩ := s.wake_cases ds cause detail recorded
  · rw [h]
  · rw [h, hon]
  · rw [h, State.memories_wakeReady]
    exact (State.memories_wakeCause _ same cause detail).trans hon

@[simp] theorem State.memories_raiseHw (s : State) (cls block detail : Nat) :
    (s.raiseHw cls block detail).memories = s.memories := by
  unfold State.raiseHw
  dsimp only
  split_ifs
  · simp
  · simp

/-! ### What a fault raised by hardware writes (R27, R28, R422) -/

theorem State.Writes.turnOn {u s : State} {d : Nat} (h : u.Writes (inBlocks [1]) s) :
    u.Writes (inBlocks [1]) (s.turnOn d) := by
  unfold State.turnOn
  split_ifs with hd
  case neg => exact h
  have hlt : d < 40 := by
    simp only [allDomains, List.mem_append, List.mem_map, List.mem_range] at hd
    omega
  have hreq : inBlocks [1] (PWR_REQ.PEND d) ∧ inBlocks [1] (PWR_REQ.WAIT d) := by
    simp only [inBlocks, PWR_REQ.PEND, PWR_REQ.WAIT, PWR_REQ.addr, blockOfAddr, List.mem_singleton]
    omega
  have hstat (k : Loc) (hk : k.addr = PWR_DSTAT.addr d) : inBlocks [1] k := by
    simp only [inBlocks, hk, PWR_DSTAT.addr, blockOfAddr, List.mem_singleton]
    omega
  have h1 := (h.set (v := 0) hreq.1).set (v := 0) hreq.2
  dsimp only
  split_ifs
  · exact h1.congr
  · exact h1
  · exact h1.congr.setReg hstat

theorem State.writes_wake (s : State) (ds : List Nat) (cause detail : Nat) (recorded : Bool) :
    s.Writes (inBlocks [1]) (s.wake ds cause detail recorded) := by
  have hon : s.Writes (inBlocks [1]) (s.each ds State.turnOn) := (State.Writes.refl s).each fun _ _ _ h => h.turnOn
  have hin : inBlocks [1] PWR_LASTWAKE.CAUSE ∧ inBlocks [1] PWR_LASTWAKE.DETAIL ∧ inBlocks [1] PWR_LASTWAKE.COUNT ∧
      inBlocks [1] PWR_EVT.WAKE := by decide
  obtain ⟨hc, hd, hn, hw⟩ := hin
  obtain h | h | ⟨p, q, same, h⟩ := s.wake_cases ds cause detail recorded
  · rw [h]
    exact .refl s
  · rw [h]
    exact hon
  · rw [h]
    have hcause : s.Writes (inBlocks [1])
        (State.wakeCause { s.each ds State.turnOn with pwr := p } same cause detail) := by
      unfold State.wakeCause
      split
      · exact .ite ((hon.congr.set hc).set hd) hon.congr
      · exact ((hon.congr.inc hn).set hc).set hd
    exact .ite (hcause.congr.raise hw) hcause.congr

theorem State.writes_latchFault (s : State) (c : Nat) (w : Word) (a : Nat) :
    s.Writes (inBlocks [0]) (s.latchFault c w a) := by
  have hr (k : Loc) (hk : k.addr = SYS_FAULTREC.addr) : inBlocks [0] k := by simp only [inBlocks, hk]; decide
  have ha (k : Loc) (hk : k.addr = SYS_FAULTADDR.addr) : inBlocks [0] k := by simp only [inBlocks, hk]; decide
  have hn : inBlocks [0] SYS_FAULTCNT.COUNT := by decide
  have h := State.Writes.refl (P := inBlocks [0]) s
  unfold State.latchFault
  exact .ite ((h.setReg hr).setReg ha).congr (.ite (((h.inc hn).setReg hr).setReg ha) (h.inc hn))

theorem State.writes_raiseHw (s : State) (cls block detail : Nat) :
    s.Writes (inBlocks [0, 1]) (s.raiseHw cls block detail) := by
  have h := (s.writes_latchFault cls (faultWord true 0 cls block detail) 0).mono (Q := inBlocks [0, 1])
    fun k (hk : _ ∈ _) => List.mem_cons.2 (.inl (List.mem_singleton.1 hk))
  exact .ite h (h.trans ((State.writes_wake _ _ _ _ _).mono fun k hk => List.mem_cons_of_mem _ hk))

/-- R28: after a fault a record stands, where the word of a record has VALID. -/
theorem State.bit_valid_latchFault (s : State) (c : Nat) {w : Word} (a : Nat) (hw : fieldOf w 31 1 = 1) :
    (s.latchFault c w a).bit SYS_FAULTREC.VALID = true := by
  have hrec (t : State) : ((t.setReg SYS_FAULTREC.addr w).setReg SYS_FAULTADDR.addr (BitVec.ofNat 32 a)).get
      SYS_FAULTREC.VALID = 1 := by
    rw [State.get_setReg_ne _ _ (by decide), State.get_setReg_same (a := SYS_FAULTREC.addr) t w rfl]
    exact hw
  have hlt : s.get SYS_FAULTREC.VALID < 2 := fieldOf_lt _ _ 1
  rw [State.bit_eq, decide_eq_true_eq]
  unfold State.latchFault
  split_ifs with h0
  · exact hrec s
  · dsimp only
    split_ifs
    · exact hrec _
    · refine (State.get_incBy_apart s 1 (by decide)).trans ?_
      omega

theorem State.bit_valid_raiseHw (s : State) (cls block detail : Nat)
    (hw : fieldOf (faultWord true 0 cls block detail) 31 1 = 1) :
    (s.raiseHw cls block detail).bit SYS_FAULTREC.VALID = true := by
  have h := s.bit_valid_latchFault cls 0 hw
  unfold State.raiseHw
  dsimp only
  split_ifs
  · exact h
  · rwa [State.bit_eq, (State.writes_wake _ _ _ _ _).get_of_block (by decide)]

end Sys2Proof.Machine
end

section
namespace Sys2Proof.Machine

/-! ### The synthesisers' commands (R16, R123, R131) -/

theorem State.each_eq_self {α : Type} {s : State} {l : List α} {f : State → α → State} (h : ∀ a ∈ l, f s a = s) :
    s.each l f = s := by
  induction l with
  | nil => rfl
  | cons a l ih =>
    rw [State.each_cons, h a List.mem_cons_self]
    exact ih fun b hb => h b (List.mem_cons_of_mem a hb)

theorem simpleAddr_lo : ∀ x : Fin 2, simpleAddr (TXF_LO.addr x) = true := by decide

theorem State.writeEffect_lo (s : State) (e : Nat) (x : Fin 2) (r : RegRow) (w : Word) :
    s.writeEffect e (TXF_LO.addr x) r w = s.loWrite x w := by
  match x with
  | 0 => rfl
  | 1 => rfl

/-- R123: a write of `f` to the LO acts: the chain is in FIXED mode, and `f` lies in the LO's range. -/
abbrev State.loTaken (s : State) (x f : Nat) : Prop :=
  s.bit (TXF_CTRL.LOMODE x) = true ∧ (if x = 0 then 380000000 else 2380000000) ≤ f ∧
    f ≤ (if x = 0 then 980000000 else 2503500000)

/-- R123: a retune held, and shown. -/
def State.heldRetune (s : State) (x f : Nat) : State :=
  State.showTx { s with txc := vmod s.txc x (fun t => { t with heldLo := some f }) } x

theorem State.loWrite_ignored {s : State} {x : Nat} {w : Word} (h : ¬ s.loTaken x w.toNat) : s.loWrite x w = s := by
  refine if_pos ?_
  simp only [Bool.or_eq_true, Bool.not_eq_true', decide_eq_true_eq]
  by_contra hn
  simp only [not_or, Bool.not_eq_false, not_lt] at hn
  exact h ⟨hn.1.1, hn.1.2, hn.2⟩

theorem State.loWrite_taken {s : State} {x : Nat} {w : Word} (h : s.loTaken x w.toNat) : s.loWrite x w =
    if s.chainIdle x = true ∧ s.holdover = false then s.retune x w.toNat else s.heldRetune x w.toNat := by
  obtain ⟨hm, hlo, hhi⟩ := h
  have hn : ¬ (!s.bit (TXF_CTRL.LOMODE x) || decide (w.toNat < if x = 0 then 380000000 else 2380000000) ||
      decide ((if x = 0 then 980000000 else 2503500000) < w.toNat)) = true := by
    simp only [hm, Bool.not_true, Bool.false_or, Bool.or_eq_true, decide_eq_true_eq]
    omega
  refine (if_neg hn).trans ?_
  simp only [Bool.and_eq_true, Bool.not_eq_true']
  rfl

/-- R123: the retune is held, RETPEND shows it, and the LO stays. -/
theorem State.heldRetune_leaves (s : State) (x : Fin 2) (f : Nat) : (vget (s.heldRetune x f).txc x).heldLo = some f ∧
    (s.heldRetune x f).bit (TXF_STAT.RETPEND x) = true ∧ s.Writes (· ∈ shownTx x) (s.heldRetune x f) ∧
    (s.heldRetune x f).memories = s.memories := by
  have hh : (vget (vmod s.txc x (fun t => { t with heldLo := some f })) x).heldLo = some f :=
    congrArg TxChain.heldLo (vget_vmod_same s.txc _ x.isLt)
  refine ⟨?_, ?_, ?_, (State.keepsRadio_showTx _ x).mem⟩
  · rw [State.heldRetune, (State.keepsRadio_showTx _ x).txc, hh]
  · rw [State.heldRetune, State.bit_retpend_showTx, hh]
    rfl
  · exact (State.Writes.refl s).congr.trans (State.writes_showTx _ x)

/-- R132: a carrier that does not wait has nothing to do with the lock. -/
theorem State.gateAtLock_eq_self {s : State} {c : Nat} (h : ∀ k, s.cr c = some k → k.phase ≠ .waiting) :
    s.gateAtLock c = s := by
  unfold State.gateAtLock
  split
  · rfl
  · rename_i k hk
    exact if_pos (h k hk)

/-- R122, R131: where no carrier is held there is nothing to stop. -/
theorem State.stopChain_eq_self {s : State} {x : Nat} (status : Nat) (h : ∀ c ∈ carriersOf x, s.cr c = none) :
    s.stopChain x status = s := by
  have hcut : s.cutChain x status = s := by
    unfold State.cutChain
    rw [List.filter_eq_nil_iff.2 (fun c hc => by simp [h c hc])]
    rfl
  unfold State.stopChain
  rw [hcut, List.filter_eq_nil_iff.2 (fun c hc => by simp [h c hc])]
  rfl

/-- A lock that no carrier waits for is shown, and nothing else (R131). -/
theorem State.synthLock_eq {s : State} {x : Nat} (hd : s.dOn (20 + x) = true) (ho : s.holdover = false)
    (hw : ∀ c k, c ∈ carriersOf x → s.cr c = some k → k.phase ≠ .waiting) :
    s.synthLock x = ((s.set (TXF_STAT.LOCK x) 1).set (syLock x) 1).set (TXF_STAT.CAL x) 0 := by
  unfold State.synthLock
  rw [if_neg (by simp [ho, hd])]
  exact State.each_eq_self fun c hc => State.gateAtLock_eq_self fun k hk => hw c k hc hk

/-- Where no carrier is held, a loss of lock is an event, a fault and a calibration run (R16, R131). -/
theorem State.synthUnlock_eq {s : State} {x : Nat} (hd : s.dOn (20 + x) = true) (hl : s.synLocked x = true)
    (hc : ∀ c ∈ carriersOf x, s.cr c = none) :
    s.synthUnlock x = ((s.raise (byChain x TXF_EVT.UNLOCKA TXF_EVT.UNLOCKB)).raiseHw 8 0 0).calRun x := by
  unfold State.synthUnlock
  rw [if_neg (by simp [hl, hd])]
  dsimp only
  rw [State.stopChain_eq_self 5 (s := s.raise _) hc]

/-- The event of a loss of lock, and where it and the fault record lie. -/
theorem unlockFields : ∀ x : Fin 2, (byChain x TXF_EVT.UNLOCKA TXF_EVT.UNLOCKB).fits = true ∧
    (byChain x TXF_EVT.UNLOCKA TXF_EVT.UNLOCKB).w = 1 ∧
    blockOfAddr (byChain x TXF_EVT.UNLOCKA TXF_EVT.UNLOCKB).addr = 6 ∧
    (∀ k ∈ calFields x, (byChain x TXF_EVT.UNLOCKA TXF_EVT.UNLOCKB).apart k = true) ∧
    (∀ k ∈ calFields x, SYS_FAULTREC.VALID.apart k = true) := by decide

end Sys2Proof.Machine

open Sys2Proof Sys2Proof.Machine

/-- Settles O22: a retune and a calibration run write the LO, the lock and what shows the chain; an idle chain has no carrier
to judge at lock or to stop at its loss (R16, R123, R131). -/
theorem synthesisersComplete : Obligations.SynthesisersComplete := by
  refine ⟨fun e x v s hr => ?_, fun x s hd => ⟨fun lo hh hi ho => ?_, ?_, fun ho hw => ?_, fun hl hc => ?_⟩⟩
  · obtain ⟨r, -, hwr⟩ := State.writeBy_simple hr (simpleAddr_lo x)
    refine ⟨_, congrArg Host.Outcome.next ((hwr v).trans (s.writeEffect_lo e x r v)), ?_⟩
    dsimp only
    by_cases hin : s.loTaken x v.toNat
    · rw [if_pos hin, State.loWrite_taken hin]
      split_ifs with hidle
      · obtain ⟨hlo, hcal, hlock, hsyn, -, hheld⟩ := s.retune_leaves x v.toNat
        refine ⟨⟨?_, hcal, hlock, hsyn, hheld⟩, ((s.writes_retune x _).intoBlocks (retuneFields_blocks x)).keepsBlocks,
          keepsMemory_of_memories (s.keepsCarriers_retune x _).mem⟩
        rw [State.reg_eq_ofNat_get, show (⟨TXF_LO.addr x, 0, 32⟩ : Loc) = TXF_LO.FREQ x from rfl, hlo,
          Nat.mod_eq_of_lt v.isLt, BitVec.ofNat_toNat, BitVec.setWidth_eq]
      · obtain ⟨hheld, hpend, hw, hm⟩ := s.heldRetune_leaves x v.toNat
        refine ⟨⟨hheld, hpend, ?_⟩, (hw.intoBlocks fun k hk => ?_).keepsBlocks, keepsMemory_of_memories hm⟩
        · exact hw.reg (apart_shownTx x (TXF_LO.FREQ x) (by simp))
        · exact retuneFields_blocks x k (by simp [retuneFields, hk])
    · rw [if_neg hin, State.loWrite_ignored hin]
      exact ⟨⟨fun _ _ => rfl, rfl⟩, fun _ _ => rfl, fun _ => rfl, fun _ => rfl, fun _ => rfl⟩
  · have hs : s.startHeld x = s.retune x lo := by simp [State.startHeld, hh, hi, ho]
    obtain ⟨hlo, hcal, -, -, hpend, hheld⟩ := s.retune_leaves x lo
    refine ⟨_, congrArg Host.Outcome.next ((if_pos hd).trans hs), hlo, hheld, hcal, hpend,
      ((s.writes_retune x _).intoBlocks (retuneFields_blocks x)).keepsBlocks,
      keepsMemory_of_memories (s.keepsCarriers_retune x _).mem⟩
  · obtain ⟨hfit, -⟩ := lockFields x
    exact ⟨_, congrArg Host.Outcome.next (if_pos hd), State.bit_set_zero s hfit,
      State.Writes.keepsRegs ((State.Writes.refl s).set (List.mem_singleton.2 rfl)), keepsMemory_of_memories rfl⟩
  · obtain ⟨hcal, hlock, hsyn, hw1, -, -, hls, hlc, hsc⟩ := lockFields x
    have haddr : (syLock x).addr = SYS_CLKSTAT.addr := by
      unfold syLock
      split <;> rfl
    refine ⟨_, congrArg Host.Outcome.next (State.synthLock_eq hd ho hw), ?_, ?_, State.bit_set_zero _ hcal,
      State.Writes.keepsRegs ((((State.Writes.refl s).set ?_).set ?_).set ?_), keepsMemory_of_memories rfl⟩
    · rw [State.bit_set_apart _ _ hlc, State.bit_set_apart _ _ hls]
      exact State.bit_set_one _ hlock rfl
    · rw [State.synLocked, State.bit_set_apart _ _ hsc]
      exact State.bit_set_one _ hsyn hw1
    · exact List.mem_cons_self
    · rw [inRegs, haddr]
      exact List.mem_cons_of_mem _ List.mem_cons_self
    · exact List.mem_cons_self
  · obtain ⟨hfit, hw1, hblk, hap, hvalid⟩ := unlockFields x
    let a := s.raise (byChain x TXF_EVT.UNLOCKA TXF_EVT.UNLOCKB)
    let b := a.raiseHw 8 0 0
    have hb : a.Writes (inBlocks [0, 1]) b := a.writes_raiseHw 8 0 0
    have hcal := b.writes_calRun x
    obtain ⟨hc1, hlock, hsyn⟩ := b.get_calRun x
    refine ⟨b.calRun x, congrArg Host.Outcome.next (State.synthUnlock_eq hd hl hc), ?_, ?_, hsyn, hlock, hc1,
      State.Writes.keepsBlocks ?_,
      keepsMemory_of_memories ((b.keepsCarriers_calRun x).mem.trans (a.memories_raiseHw 8 0 0))⟩
    · rw [State.bit_eq, hcal _ hap, hb.get_of_block (by rw [hblk]; decide)]
      exact s.bit_raise hfit hw1
    · rw [State.bit_eq, hcal _ hvalid]
      exact a.bit_valid_raiseHw 8 0 0 (by decide)
    · have ha : s.Writes (inBlocks [0, 1, 6]) a := (State.Writes.refl s).raise (by simp [inBlocks, hblk])
      refine (ha.trans (hb.mono fun k hk => ?_)).trans (hcal.mono fun k hk => ?_)
      · exact List.mem_append_left [6] hk
      · have := retuneFields_blocks x k (by simp [retuneFields, hk])
        simp only [inBlocks, List.mem_cons, List.not_mem_nil, or_false] at this ⊢
        omega
end

section
namespace Sys2Proof.Machine

/-! ### Step 1 of a beat boundary (R40, R41, R43) -/

/-- Producers pulse into the event router: what an event that enters it keeps, a pulse keeps. -/
theorem State.pulse_keeps {β : Type} (f : State → β) (h : ∀ s k, f (State.enterEvent s k) = f s) (s : State) (p : Nat) :
    f (s.pulse p) = f s := by
  unfold State.pulse
  split_ifs
  · rfl
  · exact State.each_keeps f fun s k => by split_ifs; exacts [h s k, rfl]
  · exact State.each_keeps f fun s r => by split_ifs; exacts [h s r.1, rfl]

/-- What a boundary judges and shows: the registers, and what BEAT, SYS and UPD keep. -/
def State.boundaryView (s : State) : List (Nat × Word) × BeatState × SysState × UpdState := (s.regs, s.beat, s.sys, s.upd)

theorem State.boundaryView_pulse (s : State) (p : Nat) : (s.pulse p).boundaryView = s.boundaryView :=
  State.pulse_keeps _ (fun _ _ => rfl) s p

theorem State.boundaryView_basBoundary (s : State) : s.basBoundary.boundaryView = s.boundaryView := by
  have h (s : State) (p : Nat) : (s.basSend p).boundaryView = s.boundaryView := by
    unfold State.basSend
    split_ifs
    · rfl
    · rfl
  exact (h _ 1).trans (h s 0)

/-- What step 1 makes of the state, where no window to confirm runs. -/
structure State.StepOne (s u : State) : Prop where
  abn : u.abn = s.tb 0 / (s.beatNs * 65536) % 2 ^ 40
  boundary : u.bit BEAT_STAT.BOUNDARY = true
  step : s.beat.stepped = true → u.bit BEAT_STAT.STEP = true
  stepped : u.beat.stepped = false
  regs : KeepsRegs s u [BEAT_ABNLO.addr, BEAT_ABNHI.addr, BEAT_STAT.addr, BEAT_OUTAGE.addr]
  sys : u.sys = s.sys

/-- The registers that step 1 writes, with the sets of the Jajor ports between them. -/
def State.stepMarks (s : State) : State :=
  let s := s.enterBeat
  let s := if s.beat.stepped then s.raise BEAT_STAT.STEP else s
  if s.beat.outage then s.inc BEAT_OUTAGE.COUNT else s

/-- R40: the ABN of a boundary. -/
def State.newAbn (s : State) : Nat := s.tb 0 / (s.beatNs * 65536) % 2 ^ 40

/-- R40, R41: the registers that show the beat that begins. -/
def State.newBeat (s : State) : State :=
  ((s.set BEAT_ABNLO.ABN (s.newAbn % 2 ^ 32)).set BEAT_ABNHI.ABN (s.newAbn / 2 ^ 32)).raise BEAT_STAT.BOUNDARY

theorem State.boundaryView_enterBeat (s : State) : s.enterBeat.boundaryView = s.newBeat.boundaryView :=
  State.boundaryView_basBoundary _

theorem State.writes_enterBeat (s : State) :
    s.Writes (· ∈ [BEAT_ABNLO.ABN, BEAT_ABNHI.ABN, BEAT_STAT.BOUNDARY]) s.enterBeat := by
  have h : s.Writes (· ∈ [BEAT_ABNLO.ABN, BEAT_ABNHI.ABN, BEAT_STAT.BOUNDARY]) s.newBeat :=
    (((State.Writes.refl s).set (by simp)).set (by simp)).raise (by simp)
  exact h.congr (congrArg Prod.fst s.boundaryView_enterBeat)

/-- R40, R41: the ABN of the boundary, which is flagged. -/
theorem State.enterBeat_leaves (s : State) : s.enterBeat.abn = s.newAbn ∧
    s.enterBeat.bit BEAT_STAT.BOUNDARY = true ∧ s.enterBeat.beat = s.beat ∧ s.enterBeat.sys = s.sys := by
  have hv := s.boundaryView_enterBeat
  simp only [State.boundaryView, Prod.mk.injEq] at hv
  obtain ⟨hregs, hbeat, hsys, -⟩ := hv
  have hlo : s.newBeat.get BEAT_ABNLO.ABN = s.newAbn % 2 ^ 32 % 2 ^ 32 := by
    rw [State.newBeat, State.raise, State.get_incBy_apart _ _ (by decide), State.get_set_apart _ _ (by decide),
      State.get_set_same _ _ (by decide)]
    rfl
  have hhi : s.newBeat.get BEAT_ABNHI.ABN = s.newAbn / 2 ^ 32 % 2 ^ 8 := by
    rw [State.newBeat, State.raise, State.get_incBy_apart _ _ (by decide), State.get_set_same _ _ (by decide)]
    rfl
  have hlt : s.newAbn < 2 ^ 40 := Nat.mod_lt _ (by decide)
  refine ⟨?_, ?_, hbeat, hsys⟩
  · rw [State.abn, State.get_congr hregs, State.get_congr hregs, hlo, hhi]
    omega
  · rw [State.bit_eq, State.get_congr hregs]
    exact State.bit_raise _ (by decide) rfl

theorem State.writes_stepMarks (s : State) :
    s.enterBeat.Writes (· ∈ [BEAT_STAT.STEP, BEAT_OUTAGE.COUNT]) s.stepMarks := by
  have h := State.Writes.refl (P := (· ∈ [BEAT_STAT.STEP, BEAT_OUTAGE.COUNT])) s.enterBeat
  have hc := State.Writes.ite (c := s.enterBeat.beat.stepped = true) (h.raise (k := BEAT_STAT.STEP) (by simp)) h
  exact .ite (hc.inc (by simp)) hc

/-- R41: a step of TB0 is flagged. -/
theorem State.bit_step_stepMarks {s : State} (h : s.beat.stepped = true) : s.stepMarks.bit BEAT_STAT.STEP = true := by
  obtain ⟨-, -, hbeat, -⟩ := s.enterBeat_leaves
  have hb : s.enterBeat.beat.stepped = true := by rw [hbeat, h]
  have hr : (s.enterBeat.raise BEAT_STAT.STEP).bit BEAT_STAT.STEP = true := State.bit_raise _ (by decide) rfl
  unfold State.stepMarks
  dsimp only
  rw [if_pos hb]
  split_ifs
  · exact (congrArg (decide <| · = 1) (State.get_incBy_apart _ 1 (by decide))).trans hr
  · exact hr

theorem State.sys_stepMarks (s : State) : s.stepMarks.sys = s.sys := by
  obtain ⟨-, -, -, hsys⟩ := s.enterBeat_leaves
  rw [← hsys]
  unfold State.stepMarks
  dsimp only
  split_ifs <;> rfl

/-- Where no window to confirm runs, step 1 writes its marks, clears those of the beat that ends, and pulses. -/
theorem State.boundaryView_step1 {s : State} (h : s.stepMarks.get UPD_STAT.STATE ≠ 5) :
    s.step1.boundaryView = s.stepMarks.clearMarks.boundaryView := by
  have hs : s.step1 = s.stepMarks.clearMarks.pulse 1 := congrArg (State.pulse · 1) (if_neg h)
  rw [hs, State.boundaryView_pulse]

/-- Step 1 looks at nothing of the synthesisers. -/
theorem State.StepOne.of_txc {s u : State} {c : Vector TxChain 2} (h : State.StepOne { s with txc := c } u) : s.StepOne u :=
  ⟨h.abn, h.boundary, h.step, h.stepped, h.regs, h.sys⟩

theorem State.step1_leaves {s : State} (h : s.get UPD_STAT.STATE ≠ 5) : s.StepOne s.step1 := by
  obtain ⟨habn, hbd, hbeat, hsys⟩ := s.enterBeat_leaves
  have he := s.writes_enterBeat
  have hm := s.writes_stepMarks
  have hstate : s.stepMarks.get UPD_STAT.STATE ≠ 5 := by
    rwa [hm _ (by decide), he _ (by decide)]
  have hu := State.boundaryView_step1 hstate
  simp only [State.boundaryView, Prod.mk.injEq] at hu
  obtain ⟨hregs, hubeat, husys, -⟩ := hu
  have hget (l : Loc) : s.step1.get l = s.stepMarks.get l := State.get_congr hregs l
  constructor
  case abn =>
    refine Eq.trans ?_ habn
    rw [State.abn, hget, hget, hm _ (by decide), hm _ (by decide), State.abn]
  case boundary => rwa [State.bit_eq, hget, hm _ (by decide)]
  case step =>
    intro hs
    rw [State.bit_eq, hget]
    exact State.bit_step_stepMarks hs
  case stepped => exact congrArg BeatState.stepped hubeat
  case regs =>
    refine State.Writes.keepsRegs (((he.mono ?_).trans (hm.mono ?_)).congr hregs)
    · decide
    · decide
  case sys => exact husys.trans s.sys_stepMarks

/-! ### Steps 2 to 9 (R36, R43) -/

/-- R373, R374: nothing of the update controller is due below ARMED. -/
theorem State.updDue_none {s : State} (h : s.get UPD_STAT.STATE < 4) : s.updDue = none := by
  have hr : s.rescue = false := decide_eq_false (by omega)
  unfold State.updDue
  simp only [hr, Bool.false_eq_true, if_false]
  rw [if_neg (by omega), if_neg (by omega)]

/-- The state with the synthesisers' record of the junction temperature brought up to date (R131). -/
def State.warmedTo (s : State) (tj : Int) : State := { s with txc := s.txc.map fun t => { t with tj := tj } }

/-- R43: what follows step 1 where nothing of the update controller is due: a reset that is held, or steps 4 to 9. -/
theorem State.boundary_quiet {s : State} {tj : Int} (h : (s.warmedTo tj).step1.get UPD_STAT.STATE < 4) :
    s.boundary tj = (s.warmedTo tj).step1.resetStep.getD (s.warmedTo tj).step1.stepsOn := by
  unfold State.boundary
  unfold State.warmedTo at h ⊢
  dsimp only
  generalize State.step1 _ = u at h ⊢
  have hn : ¬ (u.bit PWR_STAT.PFW && decide (u.updDue = some .activate)) = true := by simp [State.updDue_none h]
  rw [if_neg hn]
  cases u.resetStep with
  | none => rfl
  | some t => rfl

theorem State.resetStep_quiet {u : State} (h : u.get UPD_STAT.STATE < 4) : u.resetStep =
    if u.sys.coldReq then
      some (if u.sys.warmReq then (State.coldReset { u with sys := { u.sys with warmReq := false, coldReq := false } }
          SYS_RSTCAUSE.SWCOLD).raise SYS_RSTCAUSE.SWWARM
        else State.coldReset { u with sys := { u.sys with warmReq := false, coldReq := false } } SYS_RSTCAUSE.SWCOLD)
    else if u.sys.warmReq then
      some ((State.raise { u with sys := { u.sys with warmReq := false } } SYS_RSTCAUSE.SWWARM).beginWarm false)
    else none := by
  unfold State.resetStep
  simp only [State.updDue_none h, ite_self, Option.isNone_none, Bool.and_true, Bool.not_eq_true']
  cases u.sys.coldReq <;> cases u.sys.warmReq <;> rfl

/-- R41, R43: steps 4 to 6 at every boundary, steps 7 to 9 where it repeats none. -/
theorem State.stepsOn_eq (u : State) : u.stepsOn =
    (let w := ((u.holdExit.levelStep.scanStep5.assignSlices.awakeEnds).powerStep.applyChainModes).recalibrate
     if w.repeated then w else (w.qscStep7.reasmTimeout.lnkStep8).step9) := by
  unfold State.stepsOn State.step5
  rfl

end Sys2Proof.Machine

open Sys2Proof Sys2Proof.Machine

/-- Settles O12: step 1 leaves the requests as they are, and with nothing of the update controller due they alone decide
between a reset and the steps that follow (R36, R40, R41, R43). -/
theorem beatBoundaryCompletes : Obligations.BeatBoundaryCompletes := by
  intro tj s hd hw h
  have hstate (c : Vector TxChain 2) : State.get { s with txc := c } UPD_STAT.STATE ≠ 5 := Nat.ne_of_lt (by
    change s.get UPD_STAT.STATE < 5
    omega)
  have h1 : s.StepOne (s.warmedTo tj).step1 := (State.step1_leaves (hstate _)).of_txc
  have hb := State.boundary_quiet (s := s) (tj := tj)
  generalize (s.warmedTo tj).step1 = u at h1 hb
  obtain ⟨habn, hbd, hstep, hstepped, hregs, hsys⟩ := h1
  have hstate : u.get UPD_STAT.STATE < 4 := by
    rwa [State.get, hregs _ (by decide)]
  have hexec : exec (.beatBoundary tj) s = .next (s.boundary tj) :=
    congrArg Host.Outcome.next (if_pos (by rw [hd, hw]; rfl))
  replace hb := hb hstate
  rw [State.resetStep_quiet hstate] at hb
  have hcold : u.sys.coldReq = s.sys.coldReq := congrArg SysState.coldReq hsys
  have hwarm : u.sys.warmReq = s.sys.warmReq := congrArg SysState.warmReq hsys
  rw [hcold, hwarm] at hb
  refine ⟨u, s.boundary tj, hexec, habn, hbd, hstep, hstepped, hregs, fun hc hw => ?_, fun hc hw => ?_, fun hc hw => ?_,
    fun hc hw => ?_⟩
  · rw [hb, hc, hw]
    rfl
  · rw [hb, hc, hw]
    rfl
  · rw [hb, hc, hw]
    rfl
  · rw [hc, hw, if_neg Bool.false_ne_true, if_neg Bool.false_ne_true, Option.getD_none] at hb
    exact hb.trans u.stepsOn_eq
end

section
namespace Sys2Proof.Machine

/-! ### Memories kept: what the outcome of a transmit attempt does (R176 to R178, R216, R242, R247) -/

@[simp] theorem State.memories_modJj (s : State) (p : Nat) (f : JjPort → JjPort) : (s.modJj p f).memories = s.memories :=
  State.memories_eq

@[simp] theorem State.memories_modPkt (s : State) (q pid : Nat) (f : Packet → Packet) :
    (s.modPkt q pid f).memories = s.memories :=
  State.memories_eq

@[simp] theorem State.memories_unlinkPkt (s : State) (q pid : Nat) : (s.unlinkPkt q pid).memories = s.memories :=
  State.memories_eq

@[simp] theorem State.memories_wrote (s : State) (e : Nat × Nat × Nat) : (s.wrote e).memories = s.memories :=
  State.memories_eq

@[simp] theorem State.memories_retryReset (s : State) (n : Nat) : (s.retryReset n).memories = s.memories :=
  State.memories_eq

@[simp] theorem State.memories_modRng (s : State) (f : Rng → Rng) : (s.modRng f).memories = s.memories :=
  State.memories_eq

@[simp] theorem State.memories_draw (s : State) : s.draw.memories = s.memories :=
  State.memories_eq

@[simp] theorem State.memories_allocCells (s : State) (cs : List Nat) : (s.allocCells cs).memories = s.memories := by
  unfold State.allocCells
  rw [State.each_keeps State.memories fun s c => s.memories_wrote (4, 0, c)]
  rfl

@[simp] theorem State.memories_jjCredit (s : State) (p : Nat) (ctl : Bool) (n : Nat) :
    (s.jjCredit p ctl n).memories = s.memories := by
  unfold State.jjCredit
  split_ifs
  · rfl
  · rfl

@[simp] theorem State.memories_jjTake (s : State) (p : Nat) (ctl : Bool) : (s.jjTake p ctl).memories = s.memories := by
  simp only [State.jjTake, State.jjHold, State.memories_jjCredit, State.memories_modJj, State.memories_allocCells]

@[simp] theorem State.memories_jjReplenish (s : State) : s.jjReplenish.memories = s.memories := by
  unfold State.jjReplenish
  refine State.each_keeps State.memories fun s p => ?_
  split_ifs
  · exact s.memories_jjTake p.1 p.2
  · rfl

@[simp] theorem State.memories_freeCells (s : State) (cs : List Nat) : (s.freeCells cs).memories = s.memories := by
  unfold State.freeCells
  rw [State.memories_jjReplenish]
  rfl

@[simp] theorem State.memories_releaseBuf (s : State) (p : Packet) : (s.releaseBuf p).memories = s.memories := by
  unfold State.releaseBuf
  split
  · rfl
  · rw [State.memories_freeCells]
    rfl

@[simp] theorem State.memories_removePkt (s : State) (q : Nat) (p : Packet) : (s.removePkt q p).memories = s.memories := by
  simp only [State.removePkt, State.memories_releaseBuf, State.memories_unlinkPkt]

@[simp] theorem State.memories_dropGroup (s : State) (q g : Nat) : (s.dropGroup q g).memories = s.memories := by
  unfold State.dropGroup
  rw [State.memories_raise, State.memories_inc]
  refine State.each_keeps State.memories fun s p => ?_
  split_ifs
  · exact s.memories_modPkt _ _ _
  · rw [State.memories_inc, State.memories_removePkt]

@[simp] theorem State.memories_dropPkt (s : State) (q : Nat) (p : Packet) : (s.dropPkt q p).memories = s.memories := by
  unfold State.dropPkt
  split
  · rfl
  dsimp only
  split
  · split_ifs
    · simp
    · simp
  · simp

@[simp] theorem State.memories_dropExpired (s : State) (q : Nat) (p : Packet) :
    (s.dropExpired q p).memories = s.memories := by
  unfold State.dropExpired
  split_ifs
  · simp
  · rfl

@[simp] theorem State.memories_pktReleased (s : State) (q : Nat) (p : Packet) :
    (s.pktReleased q p).memories = s.memories := by simp [State.pktReleased]

@[simp] theorem State.memories_pktKept (s : State) (q : Nat) (p : Packet) : (s.pktKept q p).memories = s.memories := by
  unfold State.pktKept
  dsimp only
  split_ifs
  · simp
  · simp
  · simp
  · simp

@[simp] theorem State.memories_retryDrop (s : State) (n : Nat) : (s.retryDrop n).memories = s.memories := by
  unfold State.retryDrop
  dsimp only
  split_ifs
  · rfl
  · rfl

@[simp] theorem State.memories_rngRequest (s : State) : s.rngRequest.2.memories = s.memories := by
  unfold State.rngRequest
  dsimp only
  rw [State.memories_modRng]
  split_ifs
  · rfl
  · simp [State.rngSeed]

@[simp] theorem State.memories_rngDraw (s : State) (be : Nat) : (s.rngDraw be).2.memories = s.memories := by
  unfold State.rngDraw
  split_ifs
  · exact s.memories_rngRequest
  · rfl
  · rfl

@[simp] theorem State.memories_boRaise (s : State) (n : Nat) : (s.boRaise n).memories = s.memories := by
  simp [State.boRaise]

@[simp] theorem State.memories_boReset (s : State) (n : Nat) : (s.boReset n).memories = s.memories :=
  State.memories_eq

@[simp] theorem State.memories_txReport (s : State) (status nbr fails cell : Nat) :
    (s.txReport status nbr fails cell).memories = s.memories :=
  State.memories_eq

@[simp] theorem State.memories_pulse (s : State) (p : Nat) : (s.pulse p).memories = s.memories :=
  State.pulse_keeps State.memories (fun _ _ => rfl) s p

@[simp] theorem State.memories_endTx (s : State) (a : TxAct) : (s.endTx a).memories = s.memories := by
  unfold State.endTx State.releaseSlice
  split
  · rfl
  · rfl

@[simp] theorem State.memories_failPkt (s : State) (a : TxAct) (n q : Nat) (p : Packet) (status : Nat) :
    (s.failPkt a n q p status).memories = s.memories := by
  unfold State.failPkt
  extract_lets s1 s2 s3 s4 _ s5 s6 s7
  have h2 : s2.memories = s.memories := by
    dsimp only [s2]
    split_ifs
    · rfl
    · rfl
  have h3 : s3.memories = s.memories := by
    dsimp only [s3]
    split_ifs
    · exact h2
    · exact h2
    · exact h2
  have h4 : s4.memories = s.memories := by
    dsimp only [s4]
    split_ifs
    · simp [h3]
    · exact h3
  have h6 : s6.memories = s.memories := by
    dsimp only [s6, s5]
    split_ifs
    · simp [h4]
    · simp [h4]
  split_ifs
  · simp [h6]
  · simp [s7, h4]

/-- R176: the outcome of a transmit attempt reaches queues, registers and the neighbour table, and no memory. -/
@[simp] theorem State.memories_txOutcome (s : State) (a : TxAct) (status : Nat) :
    (s.txOutcome a status).memories = s.memories := by
  unfold State.txOutcome
  extract_lets s1 n
  have h1 : s1.memories = s.memories := s.memories_endTx a
  split
  · rw [State.memories_txReport, h1]
  split
  · rw [State.memories_txReport, h1]
  extract_lets s2 s3 s4
  have h3 : s3.memories = s.memories := by
    have h2 : s2.memories = s.memories := by simp [s2, h1]
    dsimp only [s3]
    split_ifs
    · simp [h2]
    · exact h2
  have h4 : s4.memories = s.memories := by
    dsimp only [s4]
    split_ifs
    · simp [h3]
    · exact h3
  split_ifs
  · simp [h4]
  · simp [h1]
  · simp [h1]
  · simp [h1]

/-! ### The release of a carrier (R122, R133) -/

theorem State.keepsCarriers_startHeld (s : State) (x : Nat) : s.KeepsCarriers (s.startHeld x) := by
  unfold State.startHeld
  split
  · split_ifs
    · exact s.keepsCarriers_retune x _
    · exact ⟨rfl, rfl, rfl, rfl⟩
  · exact ⟨rfl, rfl, rfl, rfl⟩

theorem State.writes_startHeld (s : State) (x : Nat) : s.Writes (· ∈ retuneFields x) (s.startHeld x) := by
  unfold State.startHeld
  split
  · exact .ite (s.writes_retune x _) (.refl s)
  · exact .refl s

/-- The carrier gone, with its status. -/
def State.released (s : State) (c status : Nat) : State := (s.setCar c none).set (TXF_CARSTAT.STATUS c) status

theorem State.freeCar_eq {s : State} {c : Nat} {k : Carrier} (status : Nat) (h : s.cr c = some k) :
    s.freeCar c status = (((s.released c status).showTx (c / 4)).coexWires).startHeld (c / 4) := by
  unfold State.freeCar
  rw [h]
  rfl

/-- The fields that show what a release leads to. -/
def releaseFields (x : Nat) : List Loc := retuneFields x ++ coexFields

theorem State.keepsCarriers_freeCar {s : State} {c : Nat} {k : Carrier} (status : Nat) (h : s.cr c = some k) :
    (s.released c status).KeepsCarriers (s.freeCar c status) := by
  rw [State.freeCar_eq status h]
  exact ((State.keepsRadio_showTx _ _).toKeepsCarriers.trans (State.keepsRadio_coexWires _).toKeepsCarriers).trans
    (State.keepsCarriers_startHeld _ _)

theorem State.writes_freeCar {s : State} {c : Nat} {k : Carrier} (status : Nat) (h : s.cr c = some k) :
    (s.released c status).Writes (· ∈ releaseFields (c / 4)) (s.freeCar c status) := by
  rw [State.freeCar_eq status h]
  exact (((State.writes_showTx _ _).mono fun k hk => by simp [releaseFields, retuneFields, hk]).trans
    ((State.writes_coexWires _).mono fun k hk => by simp [releaseFields, hk])).trans
    ((State.writes_startHeld _ _).mono fun k hk => by simp [releaseFields, hk])

theorem State.cr_setCar_same (s : State) {c : Nat} (k : Option Carrier) (h : c < 8) : (s.setCar c k).cr c = k :=
  vget_vset_same s.car k h

theorem carStatus_apart : ∀ c : Fin 8, (TXF_CARSTAT.STATUS c).fits = true ∧
    ∀ k ∈ releaseFields (c / 4), (TXF_CARSTAT.STATUS c).apart k = true := by decide

/-- R122: a released carrier is free, and its status shows. -/
theorem State.freeCar_leaves {s : State} {c : Fin 8} {k : Carrier} (status : Nat) (h : s.cr c = some k) :
    (s.freeCar c status).cr c = none ∧ (s.freeCar c status).get (TXF_CARSTAT.STATUS c) = status % 16 ∧
      (s.freeCar c status).glz = s.glz ∧ (s.freeCar c status).lnk = s.lnk ∧
      (s.freeCar c status).memories = s.memories := by
  obtain ⟨hfit, hap⟩ := carStatus_apart c
  have hk := State.keepsCarriers_freeCar status h
  refine ⟨?_, ?_, hk.glz, hk.lnk, hk.mem⟩
  · rw [State.cr, hk.car]
    exact s.cr_setCar_same none c.isLt
  · rw [State.writes_freeCar status h _ hap]
    exact State.get_set_same _ status hfit

end Sys2Proof.Machine
end

section
namespace Sys2Proof.Machine

/-! ### The gate of a carrier (R132, R141, R142) -/

/-- A field apart from all that the release of a carrier shows. -/
theorem State.get_freeCar {s : State} {c : Nat} {k : Carrier} {status : Nat} (h : s.cr c = some k) {l : Loc}
    (hl : ∀ f ∈ TXF_CARSTAT.STATUS c :: releaseFields (c / 4), l.apart f = true) :
    (s.freeCar c status).get l = s.get l := by
  rw [State.writes_freeCar status h l fun f hf => hl f (List.mem_cons_of_mem _ hf)]
  exact State.get_set_apart _ status (hl _ List.mem_cons_self)

@[simp] theorem State.memories_freeCar (s : State) (c status : Nat) : (s.freeCar c status).memories = s.memories := by
  cases h : s.cr c with
  | none => simp only [State.freeCar, h]
  | some k => exact (State.keepsCarriers_freeCar status h).mem.trans State.memories_eq

/-- A frame that no action holds is returned by the release of its carrier. -/
theorem State.returnFrame_eq {s : State} {c status : Nat} {k : Carrier} (h : s.cr c = some k) (ha : s.actOf c = none) :
    s.returnFrame c status = (if status = 2 then s.raise TXF_EVT.NOCAR else s).freeCar c status := by
  have hu : (if status = 2 then s.raise TXF_EVT.NOCAR else s).cr c = some k := by
    split_ifs
    · exact h
    · exact h
  have hlnk : ((if status = 2 then s.raise TXF_EVT.NOCAR else s).freeCar c status).lnk = s.lnk := by
    refine (State.keepsCarriers_freeCar status hu).lnk.trans ?_
    split_ifs <;> rfl
  unfold State.returnFrame
  rw [h]
  dsimp only
  rw [hlnk, show s.lnk.tx.find? (fun a => decide (a.carrier = some c)) = none from ha]

/-- R122: what is left of a carrier returned with a status, where no action holds it. -/
theorem State.returnFrame_leaves {s : State} {c : Fin 8} {k : Carrier} {status : Nat} (h : s.cr c = some k)
    (ha : s.actOf c = none) : (s.returnFrame c status).cr c = none ∧
      (s.returnFrame c status).get (TXF_CARSTAT.STATUS c) = status % 16 ∧ (s.returnFrame c status).glz = s.glz := by
  rw [State.returnFrame_eq h ha]
  split_ifs
  · obtain ⟨hcr, hst, hglz, -⟩ := State.freeCar_leaves (s := s.raise TXF_EVT.NOCAR) status h
    exact ⟨hcr, hst, hglz⟩
  · obtain ⟨hcr, hst, hglz, -⟩ := State.freeCar_leaves status h
    exact ⟨hcr, hst, hglz⟩

/-- R176: a frame returned reaches no memory, whether an action holds it or not. -/
@[simp] theorem State.memories_returnFrame (s : State) (c status : Nat) : (s.returnFrame c status).memories = s.memories := by
  have hu : (if status = 2 then s.raise TXF_EVT.NOCAR else s).memories = s.memories := by
    split_ifs
    · exact s.memories_raise _
    · rfl
  unfold State.returnFrame
  split
  · rfl
  dsimp only
  split
  · split_ifs
    all_goals simp
  · simp [hu]

/-- R138, R141: the sub-band of a carrier is one of the sixteen. -/
theorem State.subBand_lt {s : State} {x f wave n : Nat} (hx : x < 2) (h : s.subBand x f wave = some n) : n < 16 := by
  have hm := List.mem_of_find?_eq_some h
  simp only [List.mem_map, List.mem_range] at hm
  omega

theorem State.glazeCheck_inr {s : State} {c n now : Nat} {k : Carrier} {lvl : Int} (hc : c < 8)
    (h : s.glazeCheck c k lvl now = .inr n) : n < 16 := by
  unfold State.glazeCheck at h
  dsimp only at h
  split at h
  · cases h
  split at h
  · cases h
  rename_i m hm
  split_ifs at h
  cases h
  exact State.subBand_lt (by omega) hm

theorem State.glazeCheck_inl {s : State} {c now e : Nat} {k : Carrier} {lvl : Int}
    (h : s.glazeCheck c k lvl now = .inl e) : e < 16 := by
  unfold State.glazeCheck at h
  dsimp only at h
  split at h
  · cases h; decide
  split at h
  · cases h; decide
  split_ifs at h <;> cases h <;> decide

theorem State.gateChecks_inr {s : State} {c n now : Nat} {k : Carrier} {l : Int} (hc : c < 8)
    (h : s.gateChecks c k now = .inr (l, n)) : n < 16 := by
  unfold State.gateChecks at h
  dsimp only at h
  split at h
  · cases h
  split at h
  · cases h
  · rename_i m hm
    cases h
    exact State.glazeCheck_inr hc hm

/-- R141: the status of a failing check is one that STATUS can hold. -/
theorem State.gateChecks_inl {s : State} {c now e : Nat} {k : Carrier} (h : s.gateChecks c k now = .inl e) : e < 16 := by
  unfold State.gateChecks at h
  dsimp only at h
  split at h
  · cases h; decide
  split at h
  · rename_i m hm
    cases h
    exact State.glazeCheck_inl hm
  · cases h

/-- The wires as the gate finds them (R144). -/
def State.gateWires (s : State) (grant : Bool) : State := State.coexWires { s with pad := { s.pad with gnt := grant } }

theorem State.keepsRadio_gateWires (s : State) (grant : Bool) : s.KeepsRadio (s.gateWires grant) :=
  have h := State.keepsRadio_coexWires { s with pad := { s.pad with gnt := grant } }
  ⟨⟨h.car, h.glz, h.lnk, h.mem⟩, h.txc⟩

theorem State.writes_gateWires (s : State) (grant : Bool) : s.Writes (· ∈ coexFields) (s.gateWires grant) :=
  (State.Writes.refl s).congr.trans (State.writes_coexWires _)

/-- What the gate of chain `x` reads lies apart from the wires. -/
theorem apart_coexFields : ∀ x : Fin 2,
    ∀ l ∈ [TXF_CTRL.EXTFE x, TXF_FE.PALEAD x, syLock x, SYS_CLKSTAT.HOLDOVER], ∀ k ∈ coexFields, l.apart k = true := by
  decide

theorem State.rampUs_gateWires (s : State) (grant : Bool) (x : Fin 2) : (s.gateWires grant).rampUs x = s.rampUs x := by
  have hg := s.writes_gateWires grant
  have hext := hg (TXF_CTRL.EXTFE x) (apart_coexFields x _ (by simp))
  have hlead := hg (TXF_FE.PALEAD x) (apart_coexFields x _ (by simp))
  unfold State.rampUs State.paOn State.cr
  rw [(s.keepsRadio_gateWires grant).car, State.bit_eq, hext, hlead, State.bit_eq]

theorem State.txReady_gateWires (s : State) (grant : Bool) (x : Fin 2) : (s.gateWires grant).txReady x = s.txReady x := by
  have hg := s.writes_gateWires grant
  unfold State.txReady State.synLocked State.holdover
  rw [State.bit_eq, hg _ (apart_coexFields x (syLock x) (by simp)), State.bit_eq,
    hg _ (apart_coexFields x SYS_CLKSTAT.HOLDOVER (by simp))]
  rfl

end Sys2Proof.Machine
end

section
namespace Sys2Proof.Machine

theorem State.setCar_setCar (s : State) (c : Nat) (k l : Option Carrier) : (s.setCar c k).setCar c l = s.setCar c l := by
  simp only [State.setCar, vset, Vector.setIfInBounds_setIfInBounds]

theorem State.modCar_eq {s : State} {c : Nat} {k : Carrier} (f : Carrier → Carrier) (h : s.cr c = some k) :
    s.modCar c f = s.setCar c (some (f k)) := by
  rw [State.modCar, h]
  rfl

/-- R132, R141: at the gate of a carrier whose frame is known, and whose action makes no CCA, the ramp-up length is fixed;
the carrier is judged where the chain can send, and waits otherwise. -/
theorem State.txGate_eq {s : State} {c : Fin 8} {k : Carrier} (grant : Bool) (h : s.cr c = some k) (hp : k.phase = .held)
    (ha : k.ack = true → k.armed = true) (hact : ∀ a, s.actOf c = some a → a.sensing = false ∧ a.cca = false) :
    s.txGate c grant =
      if s.txReady (c / 4) then ((s.gateWires grant).setCar c (some { k with ru := s.rampUs (c / 4) })).gateAt c
        { k with ru := s.rampUs (c / 4) } ((s.gateWires grant).rampOf (c / 4) { k with ru := s.rampUs (c / 4) })
      else (s.gateWires grant).setCar c (some { k with ru := s.rampUs (c / 4), phase := .waiting }) := by
  have hg := s.keepsRadio_gateWires grant
  have hcr : (s.gateWires grant).cr c = some k := by rw [State.cr, hg.car]; exact h
  have hn : ¬ (k.phase ≠ .held ∨ (k.ack ∧ !k.armed) ∨
      ((s.gateWires grant).actOf c).any (fun a => a.sensing || a.cca)) := by
    have hany : ((s.gateWires grant).actOf c).any (fun a => a.sensing || a.cca) = false := by
      rw [State.actOf, hg.lnk]
      cases hs : s.actOf c with
      | none => rw [State.actOf] at hs; rw [hs]; rfl
      | some a =>
        obtain ⟨h1, h2⟩ := hact a hs
        rw [State.actOf] at hs
        simp [hs, h1, h2]
    rw [hany]
    simp only [hp, ne_eq, not_true_eq_false, Bool.false_eq_true, or_false, false_or, not_and]
    intro hk
    simp [ha hk]
  have hx : c.val / 4 < 2 := by omega
  have hru : (s.gateWires grant).rampUs (c / 4) = s.rampUs (c / 4) := s.rampUs_gateWires grant ⟨c / 4, hx⟩
  have hready (o : Option Carrier) : ((s.gateWires grant).setCar c o).txReady (c / 4) = s.txReady (c / 4) :=
    s.txReady_gateWires grant ⟨c / 4, hx⟩
  unfold State.txGate
  unfold State.gateWires at *
  generalize State.coexWires { s with pad := { s.pad with gnt := grant } } = g at *
  dsimp only
  rw [hcr]
  dsimp only
  rw [if_neg hn, hru, hready]
  split_ifs
  · rfl
  · rw [State.modCar_eq _ (State.cr_setCar_same g _ c.isLt), State.setCar_setCar]

/-- A carrier that passes its gate is gated at its level, and its sub-band is charged (R142). -/
theorem State.gateAt_passes {w : State} {c n now : Nat} {k : Carrier} {l : Int} (hc : w.cr c = some k)
    (h : w.gateChecks c k now = .inr (l, n)) : w.gateAt c k now =
      ((w.setCar c (some { k with phase := .gated, level := l })).chargeDuty n k.air).showTx (c / 4) := by
  unfold State.gateAt
  rw [h]
  dsimp only
  unfold State.passGate
  rw [hc]
  dsimp only
  rw [State.modCar_eq _ hc]

/-- A carrier that fails a check is returned with that check's status, its request for the wires given up. -/
theorem State.gateAt_fails {w : State} {c e now : Nat} {k : Carrier} (h : w.gateChecks c k now = .inl e) :
    w.gateAt c k now = ((w.countGate (c / 4) e k.ack).modCar c
      (fun k => { k with req := false, pri := false })).returnFrame c e := by
  unfold State.gateAt
  rw [h]

/-- What a gate leaves of a carrier that passes: its level and its charge, within TXF. -/
theorem State.gateAt_passes_leaves {w : State} {c : Fin 8} {n now : Nat} {k : Carrier} {l : Int} (hc : w.cr c = some k)
    (h : w.gateChecks c k now = .inr (l, n)) :
    (w.gateAt c k now).cr c = some { k with phase := .gated, level := l } ∧
      (vget (w.gateAt c k now).glz.duty n).charges = (vget w.glz.duty n).charges ++ [((vget w.glz.duty n).secs, k.air)] ∧
      w.Writes (· ∈ shownTx (c / 4)) (w.gateAt c k now) ∧ (w.gateAt c k now).memories = w.memories := by
  let v := (w.setCar c (some { k with phase := .gated, level := l })).chargeDuty n k.air
  have hv := v.keepsRadio_showTx (c / 4)
  rw [State.gateAt_passes hc h]
  refine ⟨?_, ?_, (State.Writes.refl w).congr.trans (v.writes_showTx _), hv.mem.trans State.memories_eq⟩
  · rw [State.cr, hv.car]
    exact w.cr_setCar_same _ c.isLt
  · rw [hv.glz]
    exact congrArg Duty.charges (vget_vmod_same w.glz.duty _ (State.gateChecks_inr c.isLt h))

/-- What a gate leaves of a carrier that fails and that no action holds: its status. -/
theorem State.gateAt_fails_leaves {w : State} {c : Fin 8} {e now : Nat} {k : Carrier} (hc : w.cr c = some k)
    (ha : w.actOf c = none) (h : w.gateChecks c k now = .inl e) :
    (w.gateAt c k now).cr c = none ∧ (w.gateAt c k now).get (TXF_CARSTAT.STATUS c) = e ∧
      (w.gateAt c k now).glz = w.glz := by
  have hk := w.keepsRadio_countGate (c / 4) e k.ack
  have hcr : (w.countGate (c / 4) e k.ack).cr c = some k := by rw [State.cr, hk.car]; exact hc
  rw [State.gateAt_fails h, State.modCar_eq _ hcr]
  generalize w.countGate (c / 4) e k.ack = v at hk
  have hv := v.cr_setCar_same (some { k with req := false, pri := false }) c.isLt
  have hva : (v.setCar c (some { k with req := false, pri := false })).actOf c = none := by
    rw [← ha, State.actOf, State.actOf, ← hk.lnk]
    rfl
  obtain ⟨hfree, hst, hglz⟩ := State.returnFrame_leaves (status := e) hv hva
  exact ⟨hfree, hst.trans (Nat.mod_eq_of_lt (State.gateChecks_inl h)), hglz.trans hk.glz⟩

theorem shownTx_block : ∀ x : Fin 2, ∀ k ∈ shownTx x, blockOfAddr k.addr = 6 := by decide

/-- The gate reaches no memory. -/
theorem State.memories_gateAt {w : State} {c : Fin 8} {now : Nat} {k : Carrier} (hc : w.cr c = some k) :
    (w.gateAt c k now).memories = w.memories := by
  cases h : w.gateChecks c k now with
  | inl e =>
    rw [State.gateAt_fails h, State.memories_returnFrame]
    exact (w.keepsRadio_countGate (c / 4) e k.ack).mem
  | inr p =>
    obtain ⟨-, -, -, hm⟩ := State.gateAt_passes_leaves hc h
    exact hm

/-! ### A carrier that is late (R132) -/

/-- The counter and the flag of late frames, by chain, and where they lie. -/
theorem lateFields : ∀ c : Fin 8,
    let n := if c.val / 4 = 0 then TXF_LATECNT.A else TXF_LATECNT.B
    let e := if c.val / 4 = 0 then TXF_EVT.LATEA else TXF_EVT.LATEB
    n.fits = true ∧ n.w = 16 ∧ e.fits = true ∧ e.w = 1 ∧ n.apart e = true ∧
      (∀ f ∈ TXF_CARSTAT.STATUS c :: releaseFields (c / 4), n.apart f = true ∧ e.apart f = true) ∧
      (c / 4 = 0 ↔ c.val / 4 = 0) := by decide

theorem State.txLate_eq {s : State} {c : Nat} {k : Carrier} (h : s.cr c = some k) (hp : k.phase = .waiting) :
    s.txLate c = (s.countGate (c / 4) 3 k.ack).returnFrame c 3 := by
  unfold State.txLate
  rw [h]
  exact if_pos hp

end Sys2Proof.Machine

open Sys2Proof Sys2Proof.Machine

/-- Settles O19: the gate reads nothing of the wires but the grant, and a carrier passes, waits, or is returned; a return
reaches no memory (R122, R132, R141, R142). -/
theorem carrierGatesComplete : Obligations.CarrierGatesComplete := by
  refine ⟨fun c grant k s hc hp ha hact => ?_, fun c k s hc hp ha => ?_⟩
  · have hg := s.keepsRadio_gateWires grant
    have hw := s.writes_gateWires grant
    let k' : Carrier := { k with ru := s.rampUs (c / 4) }
    let w := (s.gateWires grant).setCar c (some k')
    have hwc : w.cr c = some k' := State.cr_setCar_same _ _ c.isLt
    have hwm : w.memories = s.memories := hg.mem
    have hwa : w.actOf c = s.actOf c := congrArg (fun l : LnkState => l.tx.find? _) hg.lnk
    have ht := State.txGate_eq grant hc hp ha hact
    refine ⟨s.txGate c grant, rfl, ⟨fun hr => ?_, fun l n hr hx => ?_, fun x hr hn hx => ?_⟩,
      keepsMemory_of_memories ?_⟩
    · rw [ht, if_neg (by simp [hr])]
      refine ⟨State.cr_setCar_same _ _ c.isLt, State.Writes.keepsRegs (hw.congr.mono ?_)⟩
      decide
    · rw [ht, if_pos hr]
      obtain ⟨hcr, hdu, hwr, -⟩ := State.gateAt_passes_leaves hwc hx
      refine ⟨hcr, hdu.trans (by rw [show w.glz = s.glz from hg.glz]),
        State.Writes.keepsBlocks (.trans (hw.congr.mono ?_) (hwr.mono ?_))⟩
      · decide
      · exact fun f hf => List.mem_cons.2 (.inl (shownTx_block ⟨c / 4, by omega⟩ f hf))
    · rw [ht, if_pos hr]
      obtain ⟨hcr, hst, hglz⟩ := State.gateAt_fails_leaves hwc (hwa.trans hn) hx
      exact ⟨hcr, hst, hglz.trans hg.glz⟩
    · rw [ht]
      split_ifs
      · exact (State.memories_gateAt hwc).trans hwm
      · exact hwm
  · obtain ⟨hnf, hnw, hef, hew, hne, hap, hif⟩ := lateFields c
    let n := if c.val / 4 = 0 then TXF_LATECNT.A else TXF_LATECNT.B
    let e := if c.val / 4 = 0 then TXF_EVT.LATEA else TXF_EVT.LATEB
    have hs : s.txLate c = ((s.inc n).raise e).returnFrame c 3 := State.txLate_eq hc hp
    have hcr : ((s.inc n).raise e).cr c = some k := hc
    have hact : ((s.inc n).raise e).actOf c = none := ha
    obtain ⟨hfree, hst, -⟩ := State.returnFrame_leaves (status := 3) hcr hact
    have hget {l : Loc} (hl : ∀ f ∈ TXF_CARSTAT.STATUS c :: releaseFields (c / 4), l.apart f = true) :
        (s.txLate c).get l = ((s.inc n).raise e).get l := by
      rw [hs, State.returnFrame_eq hcr hact, if_neg (by decide)]
      exact State.get_freeCar hcr hl
    simp only [hif]
    refine ⟨s.txLate c, rfl, by rw [hs, hfree], by rw [hs, hst], ?_, ?_, keepsMemory_of_memories ?_⟩
    · rw [hget fun f hf => (hap f hf).1]
      refine (State.get_incBy_apart _ 1 hne).trans ((s.get_incBy_same 1 hnf).trans ?_)
      rw [hnw]
      rfl
    · rw [State.bit_eq, hget fun f hf => (hap f hf).2]
      exact (s.inc n).bit_raise hef hew
    · rw [hs, State.memories_returnFrame, State.memories_raise, State.memories_inc]
end

section
namespace Sys2Proof.Machine

/-! ### Writes of the BEAT registers with a row of their own (R39, R44, R48) -/

/-- BEAT raises a fault for a written word at BEAT_DONE alone. -/
theorem State.wordFault_beat {s : State} {e a : Nat} {v : Word} (hb : blockOfAddr a = 2) (ha : a % 0x10000 ≠ 0x10) :
    s.wordFault e a v = none := by
  simp [State.wordFault, hb, ha]

/-- R39: a stack engine's write of BEAT_CTRL before the commit. -/
theorem State.writeBy_beatCtrl {s : State} {e : Nat} {v : Word} (h : s.reaches e BEAT_CTRL.addr)
    (hl : s.upd.locked = false) : s.writeBy e 4 BEAT_CTRL.addr v = s.periodWrite v :=
  State.writeBy_stack h ⟨_, rfl⟩ rfl rfl (.inr hl) rfl (.inl (by decide)) (State.wordFault_beat rfl (by decide))

/-- R44: a stack engine's write of BEAT_PLREQ. -/
theorem State.writeBy_plreq {s : State} {e : Nat} {v : Word} (h : s.reaches e BEAT_PLREQ.addr) :
    s.writeBy e 4 BEAT_PLREQ.addr v = s.plreqWrite v :=
  State.writeBy_stack h ⟨_, rfl⟩ rfl rfl (.inl rfl) rfl (.inl (by decide)) (State.wordFault_beat rfl (by decide))

/-- R20, R48: both partitions have the full right at BEAT_DONE. -/
theorem State.rightOf_beatDone (s : State) (e : Nat) :
    s.rightOf e (blockOfAddr BEAT_DONE.addr) (BEAT_DONE.addr % 0x10000) = .full := by
  unfold State.rightOf
  split
  · rfl
  · rfl

/-- The gate passes the whole word where nothing of the row is refused to the writer and no field of it locks (R4). -/
theorem State.gate_open (s : State) {r : RegRow} (a : Nat) (v : Word) (hr : r.rwl = 0) :
    s.gate r a 0#32 v = { word := some v, fault := none } := by
  have hones (x : Word) : x &&& 4294967295#32 = x := BitVec.and_allOnes
  simp [State.gate, hr, State.wouldChange, hones]

/-- R48: the write of BEAT_DONE by an engine of either partition that names no other engine. -/
theorem State.writeBy_beatDone {s : State} {e : Nat} {v : Word} (hao : s.pwr.aoDown = false) (hon : s.dOn 28 = true)
    (hv : v &&& 0xFFFF#32 &&& ~~~BitVec.ofNat 32 (2 ^ e) = 0#32) :
    s.writeBy e 4 BEAT_DONE.addr v = s.doneWrite e v := by
  obtain ⟨r, hrow, hps0, hrwl⟩ : ∃ r, findRow BEAT_DONE.addr = some r ∧ r.ps = 0 ∧ r.rwl = 0 := ⟨_, rfl, rfl, rfl⟩
  have hacc : s.accessFault e .write 4 BEAT_DONE.addr = none := if_pos hon
  have hps : s.psBits e BEAT_DONE.addr r = some 0#32 := by
    simp [State.psBits, s.rightOf_beatDone, hps0]
  have hword : s.wordFault e BEAT_DONE.addr v = none := if_neg (not_not_intro hv)
  have hhalf : s.halfWrite e BEAT_DONE.addr r v = s.doneWrite e v := by
    unfold State.halfWrite
    rw [s.upperOf_none (by decide), s.lowerOf_none (by decide) (by decide)]
    rfl
  have hwrite : s.regWrite e BEAT_DONE.addr v = (s.doneWrite e v, none) := by
    have hqsc : blockOfAddr BEAT_DONE.addr ≠ 10 := by decide
    simp only [State.regWrite, hrow, hps, s.gate_open BEAT_DONE.addr v hrwl, hword, hhalf, hqsc, false_and, if_false]
  have hbus : s.busWrite e 4 BEAT_DONE.addr v = (s.doneWrite e v, none) := by
    unfold State.busWrite
    rw [hacc]
    exact hwrite
  unfold State.writeBy
  simp only [hao, hbus, Bool.false_eq_true, if_false]
  rfl

/-! ### What these writes leave (R39, R48) -/

/-- The code of BEAT_CTRL is the low bits of the word. -/
theorem State.get_period_periodWrite (s : State) (v : Word) :
    (s.periodWrite v).get BEAT_CTRL.PERIOD = v.toNat % 8 := by
  have h : (s.periodWrite v).get BEAT_CTRL.PERIOD = fieldOf (v &&& 7#32) 0 3 :=
    State.get_setReg_same s (l := BEAT_CTRL.PERIOD) _ rfl
  rw [h, fieldOf, BitVec.ushiftRight_zero, BitVec.toNat_and]
  exact (congrArg (· % 8) (Nat.and_two_pow_sub_one_eq_mod v.toNat 3)).trans (Nat.mod_mod _ _)

theorem State.within_periodWrite (s : State) (v : Word) : s.Within [BEAT_CTRL.addr] (s.periodWrite v) :=
  ((State.Within.refl s).setReg (a := BEAT_CTRL.addr)).congr

/-- R39: the period in force is that of a valid code; any other code leaves it. -/
theorem State.period_periodWrite (s : State) (v : Word) :
    (s.periodWrite v).beat.period = if v.toNat % 8 ≤ 4 then v.toNat % 8 else s.beat.period := by
  rw [← s.get_period_periodWrite v]
  rfl

theorem State.within_doneWrite (s : State) (e : Nat) (v : Word) : s.Within [BEAT_DONE.addr] (s.doneWrite e v) :=
  .ite (.set (.refl s) (List.mem_singleton.2 rfl)) (.refl s)

/-- The other bits of a map read as before where one is written. -/
theorem State.bitOf_get_set_ne {s : State} {l : Loc} {m n : Nat} (b : Bool) (hn : n ≠ m) :
    bitOf ((s.set ⟨l.addr, l.lo + m, 1⟩ (b2n b)).get l) n = bitOf (s.get l) n := by
  unfold bitOf State.get
  rw [State.reg_set_same _ _ rfl, testBit_fieldOf, testBit_fieldOf, getLsbD_putField, if_neg (by dsimp only; omega)]

/-- R48: the write of BEAT_DONE sets the writer's bit, where the word has it. -/
theorem State.bitOf_done_doneWrite (s : State) {e n : Nat} (v : Word) (hn : n < 16) :
    bitOf ((s.doneWrite e v).get BEAT_DONE.DONE) n =
      (bitOf (s.get BEAT_DONE.DONE) n || (decide (n = e) && v.getLsbD n)) := by
  unfold State.doneWrite State.putBit
  by_cases hne : n = e
  · subst hne
    rw [show bitOf v.toNat n = v.getLsbD n from BitVec.testBit_toNat v]
    cases v.getLsbD n
    · simp
    · simpa using s.bitOf_get_set (l := BEAT_DONE.DONE) true hn rfl
  · split_ifs
    · simpa [hne] using s.bitOf_get_set_ne (l := BEAT_DONE.DONE) true hne
    · simp [hne]

/-! ### Performance levels (R43 to R45) -/

/-- Both pending bits of the request are taken back. -/
def State.clearPend (s : State) : State := (s.set BEAT_PLREQ.ENGPEND 0).set BEAT_PLREQ.CHNPEND 0

theorem State.clearPend_pend (s : State) :
    s.clearPend.bit BEAT_PLREQ.ENGPEND = false ∧ s.clearPend.bit BEAT_PLREQ.CHNPEND = false :=
  ⟨(State.bit_set_apart _ 0 (by decide)).trans (State.bit_set_zero s rfl), State.bit_set_zero _ rfl⟩

theorem State.Within.setChnLevel {u s : State} {l : List Nat} (h : u.Within l s) {c : Nat}
    (hl : BEAT_PLCUR.addr ∈ l) : u.Within l (s.setChnLevel c) := h.congr.set hl

theorem State.Within.setEngLevel {u s : State} {l : List Nat} (h : u.Within l s) {e : Nat}
    (hl : BEAT_PLCUR.addr ∈ l) : u.Within l (s.setEngLevel e) := .ite h.congr (h.congr.set hl)

/-- R45: a request judged takes back its pending bits, and beside them shows the levels or the refusal. -/
theorem State.within_levelStep (s : State) : s.clearPend.Within [BEAT_PLCUR.addr, BEAT_STAT.addr] s.levelStep := by
  have hl : BEAT_PLCUR.addr ∈ [BEAT_PLCUR.addr, BEAT_STAT.addr] := by decide
  have h := State.Within.refl (l := [BEAT_PLCUR.addr, BEAT_STAT.addr]) s.clearPend
  have hchn (c : Option Nat) : s.clearPend.Within [BEAT_PLCUR.addr, BEAT_STAT.addr]
      (match c with | some c => s.clearPend.setChnLevel c | none => s.clearPend) := by
    cases c with
    | none => exact h
    | some c => exact h.setChnLevel hl
  refine .ite (h.raise (by decide)) ?_
  split
  · exact (hchn _).setEngLevel hl
  · exact hchn _

/-- R44: after the commit the request waits for the boundary. -/
theorem State.plreqWrite_locked {s : State} {v : Word} (h : s.upd.locked = true) :
    s.plreqWrite v = s.setReg BEAT_PLREQ.addr (v &&& 0xC000000F#32) := if_pos h

/-- R44: before the commit it is judged at the write. -/
theorem State.within_plreqWrite {s : State} (v : Word) (h : s.upd.locked = false) :
    (s.setReg BEAT_PLREQ.addr (v &&& 0xC000000F#32)).clearPend.Within [BEAT_PLCUR.addr, BEAT_STAT.addr]
      (s.plreqWrite v) := by
  have hw : s.plreqWrite v = _ := if_neg (by simp [h])
  rw [hw]
  exact ((State.within_levelStep _).congr).set (by decide)

/-- The slices show what they are in registers alone. -/
theorem State.showSlices_keeps {β : Type} (f : State → β) (h : ∀ s l v, f (State.set s l v) = f s) (s : State) :
    f s.showSlices = f s := by
  refine (h _ _ _).trans (State.each_keeps f fun s n => ?_)
  dsimp only
  split
  · simp only [h]
  · simp only [h]

end Sys2Proof.Machine

open Sys2Proof Sys2Proof.Machine

/-- Settles O11: each command writes its own register, and the levels of a request judged at once (R39, R43, R44, R48). -/
theorem beatWritesComplete : Obligations.BeatWritesComplete := by
  refine ⟨fun e v s hr hl => ?_, fun e v s hao hon hv => ?_, fun e v s hr => ?_, fun s => ?_, fun l s hraise => ?_⟩
  · obtain ⟨hregs, hmem⟩ := s.within_periodWrite v
    exact ⟨_, congrArg Host.Outcome.next (State.writeBy_beatCtrl hr hl), s.get_period_periodWrite v,
      s.period_periodWrite v, hregs, hmem⟩
  · obtain ⟨hregs, hmem⟩ := s.within_doneWrite e v
    exact ⟨_, congrArg Host.Outcome.next (State.writeBy_beatDone hao hon hv), fun n => s.bitOf_done_doneWrite v,
      hregs, hmem⟩
  · refine ⟨_, congrArg Host.Outcome.next (State.writeBy_plreq hr), ?_⟩
    cases hlock : s.upd.locked with
    | true =>
      rw [State.plreqWrite_locked hlock]
      obtain ⟨hregs, hmem⟩ := (State.Within.refl (l := [BEAT_PLREQ.addr]) s).setReg (a := BEAT_PLREQ.addr)
        (v := v &&& 0xC000000F#32)
      exact ⟨fun _ => ⟨State.reg_setReg_same _ _ _, hregs⟩, nofun, hmem⟩
    | false =>
      let u := s.setReg BEAT_PLREQ.addr (v &&& 0xC000000F#32)
      have hjudged : u.clearPend.Within [BEAT_PLCUR.addr, BEAT_STAT.addr] (s.plreqWrite v) :=
        s.within_plreqWrite v hlock
      have hreg : (s.plreqWrite v).reg BEAT_PLREQ.addr = u.clearPend.reg BEAT_PLREQ.addr :=
        hjudged.regs _ (by decide)
      have hbit {l : Loc} (hl : l.addr = BEAT_PLREQ.addr) : (s.plreqWrite v).bit l = u.clearPend.bit l := by
        unfold State.bit State.get
        rw [hl, hreg]
      obtain ⟨heng, hchn⟩ := u.clearPend_pend
      have hpend : s.Within [BEAT_PLREQ.addr, BEAT_PLCUR.addr, BEAT_STAT.addr] u.clearPend :=
        (((State.Within.refl s).setReg (by decide)).set (by decide)).set (by decide)
      obtain ⟨hregs, hmem⟩ := hpend.trans (hjudged.mono (by decide))
      exact ⟨nofun, fun _ => ⟨(hbit rfl).trans heng, (hbit rfl).trans hchn, hregs⟩, hmem⟩
  · exact ⟨_, rfl, congrArg BeatState.slcSettling (State.showSlices_keeps State.beat (fun _ _ _ => rfl) _),
      keepsMemory_of_memories (State.showSlices_keeps State.memories (fun _ _ _ => rfl) _)⟩
  · have hs : s.railSettled false =
        ({ s with beat := { s.beat with engRaise := none } } : State).set BEAT_PLCUR.ENGPL l := by
      simp only [State.railSettled, hraise, Bool.false_eq_true, if_false]
    obtain ⟨hregs, hmem⟩ := ((State.Within.refl s).congr (t := { s with beat := { s.beat with engRaise := none } })).set
      (k := BEAT_PLCUR.ENGPL) (v := l) (List.mem_singleton.2 rfl)
    exact ⟨_, congrArg Host.Outcome.next hs, rfl, State.get_set_same _ l rfl, hregs, hmem⟩
end

section
namespace Sys2Proof.Machine

/-! ### The gain of a receive chain (R62 to R65) -/

/-- The fields that show the analog gain. -/
def gainFields (x : Nat) : List Loc := [RXF_STAT.GAINIDX x, RXF_STAT.LNA x]

/-- The fields that a step of the analog gain writes. -/
def stepFields (x : Nat) : List Loc := byChain x RXF_EVT.GSTEPA RXF_EVT.GSTEPB :: gainFields x

theorem simpleAddr_rxf : ∀ x : Fin 2, simpleAddr (RXF_CTRL.addr x) = true ∧ simpleAddr (RXF_TASTE.addr x) = true := by
  decide

theorem State.writes_setGain (s : State) (x g : Nat) : s.Writes (· ∈ gainFields x) (s.setGain x g) :=
  ((State.Writes.refl s).set (by simp [gainFields])).set (by simp [gainFields])

/-- R62: the index in force. -/
theorem State.get_setGain (s : State) (x : Fin 2) (g : Nat) : (s.setGain x g).get (RXF_STAT.GAINIDX x) = g % 16 := by
  have hap : ∀ x : Fin 2, (RXF_STAT.GAINIDX x).apart (RXF_STAT.LNA x) = true := by decide
  exact (State.get_set_apart _ _ (hap x)).trans (State.get_set_same s g rfl)

/-- The index in force, and the slices whose frames the step marks changed by `f`. -/
def State.gainMarked (s : State) (x g : Nat) (hit : List Nat) (f : SliceState → SliceState) : State :=
  (s.setGain x g).each hit fun s n => s.modSlc n f

/-- R64: what a step of the gain comes to: nothing where the index stands already; else the index, the frames in reception
marked, and the event where there are any. -/
theorem State.gainStep_cases (s : State) (x g : Nat) : s.get (RXF_STAT.GAINIDX x) = g ∧ s.gainStep x g = s ∨
    ∃ hit f, s.gainStep x g = s.gainMarked x g hit f ∨
      s.gainStep x g = (s.gainMarked x g hit f).raise (byChain x RXF_EVT.GSTEPA RXF_EVT.GSTEPB) := by
  unfold State.gainStep
  split_ifs with hsame
  · exact .inl ⟨hsame, rfl⟩
  · dsimp only
    split
    · exact .inr ⟨_, _, .inl rfl⟩
    · exact .inr ⟨_, _, .inr rfl⟩

/-- Frames are marked beside the registers. -/
theorem State.gainMarked_keeps {β : Type} (f : State → β) (h : ∀ s n k, f (State.modSlc s n k) = f s) {s : State} {x g : Nat}
    {hit : List Nat} {k : SliceState → SliceState} : f (s.gainMarked x g hit k) = f (s.setGain x g) :=
  State.each_keeps f fun s n => h s n k

@[simp] theorem State.memories_gainStep (s : State) (x g : Nat) : (s.gainStep x g).memories = s.memories := by
  obtain ⟨-, h⟩ | ⟨hit, f, h | h⟩ := s.gainStep_cases x g <;> rw [h]
  · exact State.gainMarked_keeps State.memories fun _ _ _ => rfl
  · exact (State.memories_raise _ _).trans (State.gainMarked_keeps State.memories fun _ _ _ => rfl)

theorem State.writes_gainStep (s : State) (x g : Nat) : s.Writes (· ∈ stepFields x) (s.gainStep x g) := by
  have hgain := (s.writes_setGain x g).mono (Q := (· ∈ stepFields x)) fun k hk => List.mem_cons_of_mem _ hk
  have hmark (hit f) : s.Writes (· ∈ stepFields x) (s.gainMarked x g hit f) :=
    hgain.congr (State.gainMarked_keeps State.regs fun _ _ _ => rfl)
  obtain ⟨-, h⟩ | ⟨hit, f, h | h⟩ := s.gainStep_cases x g <;> rw [h]
  · exact .refl s
  · exact hmark hit f
  · exact (hmark hit f).raise List.mem_cons_self

theorem State.get_gainStep (s : State) (x : Fin 2) {g : Nat} (hg : g < 16) :
    (s.gainStep x g).get (RXF_STAT.GAINIDX x) = g := by
  have hap : ∀ x : Fin 2, (RXF_STAT.GAINIDX x).apart (byChain x RXF_EVT.GSTEPA RXF_EVT.GSTEPB) = true := by decide
  have hmark (hit f) : (s.gainMarked x g hit f).get (RXF_STAT.GAINIDX x) = g :=
    (State.gainMarked_keeps (State.get · _) fun _ _ _ => rfl).trans ((s.get_setGain x g).trans (Nat.mod_eq_of_lt hg))
  obtain ⟨hsame, h⟩ | ⟨hit, f, h | h⟩ := s.gainStep_cases x g <;> rw [h]
  · exact hsame
  · exact hmark hit f
  · exact (State.get_incBy_apart _ 1 (hap x)).trans (hmark hit f)

/-- R63: the windows below LOW in a row, once one more has been judged. -/
def State.lowRunAfter (s : State) (x below : Nat) : Nat :=
  if s.get (RXF_AGC.LOW x) * 100 < below then (vget s.rxc x).lowRun + 1 else 0

/-- R63: the signal has been low for HOLD, and no slice of the chain holds SYNC. -/
abbrev State.agcLow (s : State) (x below : Nat) : Prop :=
  s.get (RXF_AGC.HOLD x) * 10 ≤ s.lowRunAfter x below ∧ ∀ n ∈ s.slicesOf x, s.bit (SLC_STAT.SYNC n) = false

/-- R63: the index that the AGC answers a window with. -/
def State.agcAnswer (s : State) (x below : Nat) : Nat :=
  let g := s.get (RXF_STAT.GAINIDX x)
  if s.bit (RXF_CTRL.AGCMAN x) = true ∨ 2 ≤ (vget s.rxc x).agcWait then g
  else if below = 0 then min 15 (g + 3)
  else if below ≤ s.get (RXF_AGC.HIGH x) * 100 then min 15 (g + 1)
  else if s.agcLow x below then g - 1
  else g

/-- The AGC leaves the gain at an index, having written of the registers what a step of the gain writes. -/
structure State.Stepped (u : State) (x g : Nat) (s : State) : Prop where
  gain : s.get (RXF_STAT.GAINIDX x) = g
  writes : u.Writes (· ∈ stepFields x) s
  mem : s.memories = u.memories

theorem State.stepped_self {s t : State} (x : Nat) {g : Nat} (hg : g = s.get (RXF_STAT.GAINIDX x)) (hr : t.regs = s.regs)
    (hm : t.memories = s.memories) : s.Stepped x g t :=
  ⟨(State.get_congr hr _).trans hg.symm, (State.Writes.refl s).congr hr, hm⟩

/-- A step between updates of what the AGC remembers. -/
theorem State.stepped_gainStep (s : State) (x : Fin 2) {g : Nat} (hg : g < 16) (f k : RxChain → RxChain) :
    s.Stepped x g (((s.modRxc x f).gainStep x g).modRxc x k) where
  gain := State.get_gainStep (s.modRxc x f) x hg
  writes := ((State.Writes.refl s).congr (t := s.modRxc x f)).trans ((State.writes_gainStep _ x g).congr)
  mem := State.memories_gainStep (s.modRxc x f) x g

/-- R63: a window noted: the run below LOW, and one window less to wait for. -/
def State.agcNoted (s : State) (x below : Nat) : State :=
  s.modRxc x fun c => { c with lowRun := s.lowRunAfter x below, agcWait := c.agcWait - 1 }

/-- R63: the AGC's step of the gain to `g`. -/
def State.agcStep (s : State) (x below g : Nat) : State :=
  ((s.agcNoted x below).gainStep x g).modRxc x fun c => { c with lowRun := 0, agcWait := 2 }

theorem State.agcJudge_eq (s : State) (x below : Nat) : s.agcJudge x below =
    if s.bit (RXF_CTRL.AGCMAN x) = true ∨ 2 ≤ (vget s.rxc x).agcWait then s.agcNoted x below
    else if below = 0 then
      (if s.get (RXF_STAT.GAINIDX x) < 15 then s.agcStep x below (min 15 (s.get (RXF_STAT.GAINIDX x) + 3))
      else s.agcNoted x below)
    else if below ≤ s.get (RXF_AGC.HIGH x) * 100 then
      (if s.get (RXF_STAT.GAINIDX x) < 15 then s.agcStep x below (s.get (RXF_STAT.GAINIDX x) + 1) else s.agcNoted x below)
    else if s.agcLow x below ∧ 0 < s.get (RXF_STAT.GAINIDX x) then s.agcStep x below (s.get (RXF_STAT.GAINIDX x) - 1)
    else s.agcNoted x below := by
  have hlow : s.agcLow x below ∧ 0 < s.get (RXF_STAT.GAINIDX x) ↔
      (decide (s.get (RXF_AGC.HOLD x) * 10 ≤ s.lowRunAfter x below) && decide (0 < s.get (RXF_STAT.GAINIDX x)) &&
        (s.slicesOf x).all (fun n => !s.bit (SLC_STAT.SYNC n))) = true := by
    simp only [Bool.and_eq_true, decide_eq_true_eq, List.all_eq_true, Bool.not_eq_true']
    tauto
  have hman : s.bit (RXF_CTRL.AGCMAN x) = true ∨ 2 ≤ (vget s.rxc x).agcWait ↔
      (s.bit (RXF_CTRL.AGCMAN x) || decide (1 < (vget s.rxc x).agcWait)) = true := by
    rw [Bool.or_eq_true, decide_eq_true_eq]
    rfl
  simp only [hlow, hman]
  rfl

/-- R63: the AGC's answer, branch by branch. -/
theorem State.agcJudge_steps (s : State) (x : Fin 2) (below : Nat) :
    s.Stepped x (s.agcAnswer x below) (s.agcJudge x below) := by
  have hlt : s.get (RXF_STAT.GAINIDX x) < 16 := fieldOf_lt _ _ 4
  have hnote {g : Nat} (hg : g = s.get (RXF_STAT.GAINIDX x)) : s.Stepped x g (s.agcNoted x below) :=
    State.stepped_self x hg rfl rfl
  have hstep {g : Nat} (hg : g < 16) : s.Stepped x g (s.agcStep x below g) := s.stepped_gainStep x hg _ _
  rw [State.agcJudge_eq]
  unfold State.agcAnswer
  extract_lets g
  split_ifs with hman hsat hup hhigh hup hlow hdown hdown
  · exact hnote rfl
  · exact hstep (by omega)
  · exact hnote (by omega)
  · rw [show min 15 (g + 1) = g + 1 by omega]
    exact hstep (by omega)
  · exact hnote (by omega)
  · exact hstep (by omega)
  · exact hnote (by have := mt (And.intro hlow) hdown; omega)
  · exact absurd hdown.1 hlow
  · exact hnote rfl

/-- R65, R68: where AGCMAN holds, the chain is out of taste mode and hears, the manual index is put in force. -/
theorem State.manualGain_cases (s : State) (x : Nat) : s.manualGain x = s ∨
    (∃ f, s.manualGain x = s.modRxc x f) ∨ s.manualGain x = s.gainStep x (s.get (RXF_CTRL.GAINIDX x)) := by
  unfold State.manualGain
  dsimp only
  split_ifs
  · exact .inl rfl
  · exact .inr (.inl ⟨_, rfl⟩)
  · exact .inr (.inr rfl)

theorem State.manualGain_auto {s : State} {x : Nat} (h : s.bit (RXF_CTRL.AGCMAN x) = false) : s.manualGain x = s :=
  if_pos (by simp [h])

theorem State.manualGain_hears {s : State} {x : Nat} (hm : s.bit (RXF_CTRL.AGCMAN x) = true)
    (ht : s.get (RXF_STAT.MODE x) ≠ 2) (hd : s.bit (RXF_STAT.DEAF x) = false) :
    s.manualGain x = s.gainStep x (s.get (RXF_CTRL.GAINIDX x)) := by
  unfold State.manualGain
  simp [hm, ht, hd]

theorem State.writes_manualGain (s : State) (x : Nat) : s.Writes (· ∈ stepFields x) (s.manualGain x) := by
  obtain h | ⟨f, h⟩ | h := s.manualGain_cases x <;> rw [h]
  · exact .refl s
  · exact (State.Writes.refl s).congr
  · exact s.writes_gainStep x _

@[simp] theorem State.memories_manualGain (s : State) (x : Nat) : (s.manualGain x).memories = s.memories := by
  obtain h | ⟨f, h⟩ | h := s.manualGain_cases x <;> rw [h]
  · rfl
  · exact s.memories_gainStep x _

/-! ### The writes of RXF_CTRL (R65, R82) -/

theorem State.writeEffect_rxfCtrl (s : State) (e : Nat) (x : Fin 2) (r : RegRow) (w : Word) :
    s.writeEffect e (RXF_CTRL.addr x) r w = s.rxfCtrlWrite x w := by
  match x with
  | 0 => rfl
  | 1 => rfl

/-- R82: the fields of RXF_CTRL as a write leaves them: MODE keeps its value for code 3. -/
def State.ctrlStored (s : State) (x : Nat) (w : Word) : State :=
  (((s.set (RXF_CTRL.GAINIDX x) (fieldOf w 8 4)).set (RXF_CTRL.AUTOFULL x) (fieldOf w 4 1)).set
    (RXF_CTRL.AGCMAN x) (fieldOf w 3 1)).set (RXF_CTRL.MODE x)
      (if fieldOf w 0 2 = 3 then s.get (RXF_CTRL.MODE x) else fieldOf w 0 2)

theorem State.writes_ctrlStored (s : State) (x : Nat) (w : Word) :
    s.Writes (inRegs [RXF_CTRL.addr x]) (s.ctrlStored x w) := by
  have hin {l : Loc} (hl : l.addr = RXF_CTRL.addr x) : inRegs [RXF_CTRL.addr x] l := List.mem_singleton.2 hl
  unfold State.ctrlStored
  exact ((((State.Writes.refl s).set (hin rfl)).set (hin rfl)).set (hin rfl)).set (hin rfl)

theorem State.rxfCtrlWrite_eq (s : State) (x : Nat) (w : Word) : s.rxfCtrlWrite x w = (s.ctrlStored x w).manualGain x := rfl

/-- The fields of RXF_CTRL that a write stores, and where they lie. -/
theorem ctrlFields_apart : ∀ x : Fin 2, (RXF_CTRL.GAINIDX x).apart (RXF_CTRL.AUTOFULL x) = true ∧
    (RXF_CTRL.GAINIDX x).apart (RXF_CTRL.AGCMAN x) = true ∧ (RXF_CTRL.GAINIDX x).apart (RXF_CTRL.MODE x) = true ∧
    (RXF_CTRL.AUTOFULL x).apart (RXF_CTRL.AGCMAN x) = true ∧ (RXF_CTRL.AUTOFULL x).apart (RXF_CTRL.MODE x) = true ∧
    (RXF_CTRL.AGCMAN x).apart (RXF_CTRL.MODE x) = true ∧
    (∀ l ∈ [RXF_CTRL.GAINIDX x, RXF_CTRL.AUTOFULL x, RXF_CTRL.AGCMAN x, RXF_CTRL.MODE x, RXF_STAT.MODE x],
      ∀ k ∈ stepFields x, l.apart k = true) ∧
    (∀ k ∈ stepFields x, k.addr ∈ [RXF_CTRL.addr x, RXF_STAT.addr x, RXF_EVT.addr]) ∧
    RXF_STAT.addr x ≠ RXF_CTRL.addr x := by decide

theorem State.ctrlStored_leaves (s : State) (x : Fin 2) (w : Word) :
    (s.ctrlStored x w).get (RXF_CTRL.GAINIDX x) = fieldOf w 8 4 ∧
      (s.ctrlStored x w).get (RXF_CTRL.AUTOFULL x) = fieldOf w 4 1 ∧
      (s.ctrlStored x w).get (RXF_CTRL.AGCMAN x) = fieldOf w 3 1 ∧
      (s.ctrlStored x w).get (RXF_CTRL.MODE x) =
        if fieldOf w 0 2 = 3 then s.get (RXF_CTRL.MODE x) else fieldOf w 0 2 := by
  obtain ⟨hga, hgm, hgo, ham, hao, hmo, -⟩ := ctrlFields_apart x
  unfold State.ctrlStored
  refine ⟨?_, ?_, ?_, ?_⟩
  · rw [State.get_set_apart _ _ hgo, State.get_set_apart _ _ hgm, State.get_set_apart _ _ hga, State.get_set_same _ _ rfl]
    exact Nat.mod_eq_of_lt (fieldOf_lt w 8 4)
  · rw [State.get_set_apart _ _ hao, State.get_set_apart _ _ ham, State.get_set_same _ _ rfl]
    exact Nat.mod_eq_of_lt (fieldOf_lt w 4 1)
  · rw [State.get_set_apart _ _ hmo, State.get_set_same _ _ rfl]
    exact Nat.mod_eq_of_lt (fieldOf_lt w 3 1)
  · rw [State.get_set_same _ _ rfl]
    refine Nat.mod_eq_of_lt ?_
    split_ifs
    · exact fieldOf_lt _ 0 2
    · exact fieldOf_lt w 0 2

/-! ### A window of the chain (R63) -/

/-- R63, R82: the window shown in CLIP, and counted where it is saturated. -/
def State.windowShown (s : State) (x below : Nat) : State :=
  let t := s.set (RXF_STAT.CLIP x) (b2n (decide (below ≤ s.get (RXF_AGC.HIGH x) * 100)))
  if below = 0 then (t.inc (RXF_CLIPCNT.COUNT x)).raise (byChain x RXF_EVT.CLIPA RXF_EVT.CLIPB) else t

theorem State.agcWindow_eq {s : State} {x below : Nat} (hon : s.dOn (16 + x) = true) (hm : s.get (RXF_STAT.MODE x) = 1)
    (hd : s.bit (RXF_STAT.DEAF x) = false) : s.agcWindow x below = (s.windowShown x below).agcJudge x below := by
  unfold State.agcWindow
  rw [if_neg (by simp [hon, hm, hd])]
  rfl

/-- The fields that showing a window writes. -/
def clipFields (x : Nat) : List Loc := [RXF_STAT.CLIP x, RXF_CLIPCNT.COUNT x, byChain x RXF_EVT.CLIPA RXF_EVT.CLIPB]

theorem State.writes_windowShown (s : State) (x below : Nat) : s.Writes (· ∈ clipFields x) (s.windowShown x below) :=
  have h := (State.Writes.refl s).set (k := RXF_STAT.CLIP x) (P := (· ∈ clipFields x))
    (v := b2n (decide (below ≤ s.get (RXF_AGC.HIGH x) * 100))) (by simp [clipFields])
  .ite ((h.inc (by simp [clipFields])).raise (by simp [clipFields])) h

@[simp] theorem State.bit_set_b2n (s : State) {l : Loc} (b : Bool) (hl : l.fits = true) (hw : l.w = 1) :
    (s.set l (b2n b)).bit l = b := by
  cases b
  · exact s.bit_set_zero hl
  · exact s.bit_set_one hl hw

end Sys2Proof.Machine
end

section
namespace Sys2Proof.Machine

/-! ### The slices of a chain, as writes of other blocks leave them -/

theorem blockOfAddr_slc {a n : Nat} (hn : n < 16) (ha : a = SLC_STAT.addr n ∨ a = SLC_CFG.addr n) : blockOfAddr a = 4 := by
  unfold SLC_STAT.addr SLC_CFG.addr at ha
  unfold blockOfAddr
  omega

theorem State.Writes.get_slc {u s : State} {L : List Nat} (h : u.Writes (inBlocks L) s) (hL : 4 ∉ L) {n : Nat} (hn : n < 16)
    {l : Loc} (hl : l.addr = SLC_STAT.addr n ∨ l.addr = SLC_CFG.addr n) : s.get l = u.get l :=
  h.get_of_block (by rwa [blockOfAddr_slc hn hl])

theorem State.slicesOf_congr {s t : State} (h : ∀ n, n < 16 → t.get (SLC_STAT.MODE n) = s.get (SLC_STAT.MODE n) ∧
    t.get (SLC_STAT.CHAIN n) = s.get (SLC_STAT.CHAIN n)) (x : Nat) : t.slicesOf x = s.slicesOf x := by
  refine List.filter_congr fun n hn => ?_
  obtain ⟨hm, hc⟩ := h n (List.mem_range.1 hn)
  rw [State.slcChain, State.slcChain, hm, hc]

theorem State.lt_of_mem_slicesOf {s : State} {x n : Nat} (h : n ∈ s.slicesOf x) : n < 16 :=
  List.mem_range.1 (List.mem_of_mem_filter h)

/-- What the AGC reads lies apart from what shows the window. -/
theorem agcReads_apart : ∀ x : Fin 2, (∀ k ∈ clipFields x, blockOfAddr k.addr = 3) ∧
    ∀ l ∈ [RXF_CTRL.AGCMAN x, RXF_STAT.GAINIDX x, RXF_AGC.HIGH x, RXF_AGC.LOW x, RXF_AGC.HOLD x],
      ∀ k ∈ clipFields x, l.apart k = true := by decide

theorem State.agcAnswer_windowShown (s : State) (x : Fin 2) (below : Nat) :
    (s.windowShown x below).agcAnswer x below = s.agcAnswer x below := by
  obtain ⟨hblk, hap⟩ := agcReads_apart x
  have hw := s.writes_windowShown x below
  have hb : s.Writes (inBlocks [3]) (s.windowShown x below) := hw.intoBlocks fun k hk => by simp [hblk k hk]
  have hsl : (s.windowShown x below).slicesOf x = s.slicesOf x :=
    State.slicesOf_congr (fun n hn => ⟨hb.get_slc (by decide) hn (.inl rfl), hb.get_slc (by decide) hn (.inl rfl)⟩) x
  have hsync : (∀ n ∈ s.slicesOf x, (s.windowShown x below).bit (SLC_STAT.SYNC n) = false) ↔
      ∀ n ∈ s.slicesOf x, s.bit (SLC_STAT.SYNC n) = false := by
    refine forall₂_congr fun n hn => ?_
    rw [State.bit_eq, hb.get_slc (by decide) (State.lt_of_mem_slicesOf hn) (.inl rfl), State.bit_eq]
  have hrxc : (s.windowShown x below).rxc = s.rxc := by
    unfold State.windowShown
    split_ifs <;> rfl
  have hget {l : Loc} (hl : l ∈ [RXF_CTRL.AGCMAN x, RXF_STAT.GAINIDX x, RXF_AGC.HIGH x, RXF_AGC.LOW x, RXF_AGC.HOLD x]) :
      (s.windowShown x below).get l = s.get l := hw l (hap l hl)
  have hman : (s.windowShown x below).bit (RXF_CTRL.AGCMAN x) = s.bit (RXF_CTRL.AGCMAN x) := by
    rw [State.bit_eq, hget List.mem_cons_self, State.bit_eq]
  simp only [State.agcAnswer, State.agcLow, State.lowRunAfter, hsl, hsync, hrxc, hman,
    hget (l := RXF_STAT.GAINIDX x) (by simp), hget (l := RXF_AGC.HIGH x) (by simp),
    hget (l := RXF_AGC.LOW x) (by simp), hget (l := RXF_AGC.HOLD x) (by simp)]
  congr

/-- Where CLIP, the count of saturated windows and its event lie. -/
theorem clipFields_apart : ∀ x : Fin 2, (RXF_STAT.CLIP x).apart (RXF_CLIPCNT.COUNT x) = true ∧
    (RXF_STAT.CLIP x).apart (byChain x RXF_EVT.CLIPA RXF_EVT.CLIPB) = true ∧
    (RXF_CLIPCNT.COUNT x).apart (byChain x RXF_EVT.CLIPA RXF_EVT.CLIPB) = true ∧
    (RXF_CLIPCNT.COUNT x).apart (RXF_STAT.CLIP x) = true ∧
    (byChain x RXF_EVT.CLIPA RXF_EVT.CLIPB).fits = true ∧ (byChain x RXF_EVT.CLIPA RXF_EVT.CLIPB).w = 1 ∧
    (∀ l ∈ clipFields x, ∀ k ∈ stepFields x, l.apart k = true) ∧
    ∀ k ∈ clipFields x ++ stepFields x, k.addr ∈ [RXF_STAT.addr x, RXF_CLIPCNT.addr x, RXF_EVT.addr] := by decide

/-- R63, R82: CLIP, the count and the latch of a window. -/
theorem State.windowShown_leaves (s : State) (x : Fin 2) (below : Nat) :
    (s.windowShown x below).bit (RXF_STAT.CLIP x) = decide (below ≤ s.get (RXF_AGC.HIGH x) * 100) ∧
      (below = 0 → (s.windowShown x below).get (RXF_CLIPCNT.COUNT x) = min 65535 (s.get (RXF_CLIPCNT.COUNT x) + 1) ∧
        (s.windowShown x below).bit (byChain x RXF_EVT.CLIPA RXF_EVT.CLIPB) = true) ∧
      (below ≠ 0 → (s.windowShown x below).get (RXF_CLIPCNT.COUNT x) = s.get (RXF_CLIPCNT.COUNT x)) ∧
      (s.windowShown x below).memories = s.memories := by
  obtain ⟨hcc, hce, hne, hnc, hfit, hw1, -, -⟩ := clipFields_apart x
  unfold State.windowShown
  extract_lets t
  have hclip : t.bit (RXF_STAT.CLIP x) = decide (below ≤ s.get (RXF_AGC.HIGH x) * 100) := State.bit_set_b2n s _ rfl rfl
  have hcnt : t.get (RXF_CLIPCNT.COUNT x) = s.get (RXF_CLIPCNT.COUNT x) := State.get_set_apart s _ hnc
  split_ifs with h0
  · refine ⟨?_, fun _ => ⟨?_, State.bit_raise _ hfit hw1⟩, fun h => absurd h0 h, rfl⟩
    · rw [← hclip, State.bit_eq, State.raise, State.get_incBy_apart _ 1 hce, State.inc, State.get_incBy_apart _ 1 hcc,
        State.bit_eq]
    · rw [State.raise, State.get_incBy_apart _ 1 hne, State.inc, State.get_incBy_same _ 1 rfl, hcnt]
      rfl
  · exact ⟨hclip, fun h => absurd h h0, fun _ => hcnt, rfl⟩

end Sys2Proof.Machine

open Sys2Proof Sys2Proof.Machine

/-- Settles O14: a window is shown and counted, and then the AGC answers it; a write of RXF_CTRL stores its fields, and then
the manual index is put in force (R62 to R65, R82). -/
theorem receiveGainCompletes : Obligations.ReceiveGainCompletes := by
  refine ⟨fun x below s hon hm hd => ?_, fun e x v s hr => ?_⟩
  · obtain ⟨-, -, -, -, -, -, hap, haddr⟩ := clipFields_apart x
    obtain ⟨hclip, hsat, hnsat, hmem⟩ := s.windowShown_leaves x below
    have hj := (s.windowShown x below).agcJudge_steps x below
    rw [s.agcAnswer_windowShown x below] at hj
    have hget {l : Loc} (hl : l ∈ clipFields x) : ((s.windowShown x below).agcJudge x below).get l =
        (s.windowShown x below).get l := hj.writes l (hap l hl)
    refine ⟨_, congrArg Host.Outcome.next (State.agcWindow_eq hon hm hd), ?_, fun h0 => ?_, fun h0 => ?_, hj.gain,
      State.Writes.keepsRegs (.trans ((s.writes_windowShown x below).mono fun k hk => ?_) (hj.writes.mono fun k hk => ?_)),
      keepsMemory_of_memories (hj.mem.trans hmem)⟩
    · rw [State.bit_eq, hget (by simp [clipFields])]
      exact hclip
    · rw [State.bit_eq, hget (by simp [clipFields]), hget (by simp [clipFields])]
      exact hsat h0
    · rw [hget (by simp [clipFields])]
      exact hnsat h0
    · exact haddr k (List.mem_append_left _ hk)
    · exact haddr k (List.mem_append_right _ hk)
  · obtain ⟨r, -, hwr⟩ := State.writeBy_simple hr (simpleAddr_rxf x).1
    obtain ⟨hgain, hauto, hman, hmode⟩ := s.ctrlStored_leaves x v
    obtain ⟨-, -, -, -, -, -, hap, hstep, hne⟩ := ctrlFields_apart x
    have hstored := s.writes_ctrlStored x v
    have hstat {l : Loc} (hl : l.addr = RXF_STAT.addr x) : (s.ctrlStored x v).get l = s.get l :=
      hstored l fun k hk => Loc.apart_of_addr (by rwa [hl, List.mem_singleton.1 hk])
    have hw := (s.ctrlStored x v).writes_manualGain x
    refine ⟨_, congrArg Host.Outcome.next ((hwr v).trans (s.writeEffect_rxfCtrl e x r v)), ?_⟩
    rw [State.rxfCtrlWrite_eq]
    refine ⟨?_, ?_, ?_, ?_, ?_, fun h1 ht hdf => ⟨?_, State.Writes.keepsRegs
      ((hstored.mono fun k hk => ?_).trans (hw.mono fun k hk => hstep k hk))⟩, fun h0 => ?_,
      keepsMemory_of_memories ((State.memories_manualGain _ x).trans rfl)⟩
    · rw [hw _ (hap _ (by simp)), hgain]
    · rw [hw _ (hap _ (by simp)), hauto]
    · rw [hw _ (hap _ (by simp)), hman]
    · rw [hw _ (hap _ (by simp)), hmode]
    · rw [hw _ (hap _ (by simp)), hstat rfl]
    · rw [State.manualGain_hears (by rw [State.bit_eq, hman, h1]; rfl) (by rwa [hstat rfl])
        (by rwa [State.bit_eq, hstat rfl]), hgain]
      exact State.get_gainStep _ x (fieldOf_lt v 8 4)
    · exact List.mem_cons.2 (.inl (List.mem_singleton.1 hk))
    · rw [State.manualGain_auto (by rw [State.bit_eq, hman, h0]; rfl)]
      exact hstored.keepsRegs
end

section
namespace Sys2Proof.Machine

/-! ### What shows the slices, and a tune applied (R69, R71, R72, R74, R76) -/

theorem unsign_lt (w : Nat) (i : Int) : unsign w i < 2 ^ w := by
  have hp : (0 : Int) < 2 ^ w := by positivity
  have := Int.emod_lt_of_pos i hp
  have := Int.emod_nonneg i hp.ne'
  unfold unsign
  zify
  omega

/-- The fields that show slice `n`. -/
def slcShown (n : Nat) : List Loc := [SLC_STAT.NOSIG n, ⟨SLC_DEAF.addr, n, 1⟩, ⟨SLC_ACTIVE.addr, n, 1⟩, SLC_RSSI.RSSI n]

/-- The fields that show the slices. -/
def shownSlices : List Loc := (List.range 16).flatMap slcShown ++ [SLC_ACTIVE.COUNT]

theorem State.writes_showSlices (s : State) : s.Writes (· ∈ shownSlices) s.showSlices := by
  unfold State.showSlices
  refine ((State.Writes.refl s).each fun s n hn h => ?_).set (by simp [shownSlices])
  have hm {k : Loc} (hk : k ∈ slcShown n) : k ∈ shownSlices := List.mem_append_left _ (List.mem_flatMap.2 ⟨n, hn, hk⟩)
  have hstat : SLC_STAT.NOSIG n ∈ shownSlices := hm (by simp [slcShown])
  have hdeaf : (⟨SLC_DEAF.addr, n, 1⟩ : Loc) ∈ shownSlices := hm (by simp [slcShown])
  have hact : (⟨SLC_ACTIVE.addr, n, 1⟩ : Loc) ∈ shownSlices := hm (by simp [slcShown])
  have hrssi : SLC_RSSI.RSSI n ∈ shownSlices := hm (by simp [slcShown])
  exact .ite ((((h.set hstat).set hdeaf).set hact).set hrssi) (((h.set hstat).set hdeaf).set hact)

theorem shownSlices_block : ∀ k ∈ shownSlices, blockOfAddr k.addr = 4 := by decide

/-- The fields of SLC_STAT other than NOSIG lie apart from all that shows the slices. -/
theorem slcStat_apart_shown {l : Loc} {n : Nat} (ha : l.addr = SLC_STAT.addr n) (hlo : l.lo + l.w ≤ 14 ∨ 15 ≤ l.lo) :
    ∀ k ∈ shownSlices, l.apart k = true := by
  intro k hk
  simp only [shownSlices, slcShown, List.mem_append, List.mem_flatMap, List.mem_cons, List.not_mem_nil, or_false] at hk
  simp only [Loc.apart, ha, Bool.or_eq_true, decide_eq_true_eq, ne_eq]
  unfold SLC_STAT.addr
  obtain ⟨m, -, rfl | rfl | rfl | rfl⟩ | rfl := hk
  · rcases hlo with h | h
    · exact .inl (.inr h)
    · exact .inr h
  · exact .inl (.inl (by dsimp only [SLC_DEAF.addr]; omega))
  · exact .inl (.inl (by dsimp only [SLC_ACTIVE.addr]; omega))
  · exact .inl (.inl (by dsimp only [SLC_RSSI.RSSI, SLC_RSSI.addr]; omega))
  · exact .inl (.inl (by dsimp only [SLC_ACTIVE.COUNT, SLC_ACTIVE.addr]; omega))

theorem State.get_showSlices (s : State) {l : Loc} {n : Nat} (ha : l.addr = SLC_STAT.addr n)
    (hlo : l.lo + l.w ≤ 14 ∨ 15 ≤ l.lo) : s.showSlices.get l = s.get l :=
  s.writes_showSlices l (slcStat_apart_shown ha hlo)

/-- The fields that a tune applied writes. -/
def tuneFields (n : Nat) : List Loc := [SLC_NCO.WORD n, SLC_STAT.TPEND n, SLC_RSSI.RSSI n]

theorem State.writes_applyTune (s : State) (n f w : Nat) : s.Writes (· ∈ tuneFields n) (s.applyTune n f w) := by
  unfold State.applyTune
  exact (((State.Writes.refl s).congr.set (by simp [tuneFields])).set (by simp [tuneFields])).set (by simp [tuneFields])

/-- Slice `n` is tuned to `f` with waveform `w`, and settles (R72). -/
structure State.Tuned (s : State) (n f w : Nat) : Prop where
  freq : (vget s.slc n).freq = f
  wave : (vget s.slc n).wave = w
  settling : (vget s.slc n).settling = true
  nco : s.get (SLC_NCO.WORD n) = ncoWord (s.slcChain n) f
  tpend : s.bit (SLC_STAT.TPEND n) = false
  rssi : s.get (SLC_RSSI.RSSI n) = 0x8000

theorem tuneFields_apart : ∀ n : Fin 16, (SLC_NCO.WORD n).apart (SLC_STAT.TPEND n) = true ∧
    (SLC_NCO.WORD n).apart (SLC_RSSI.RSSI n) = true ∧ (SLC_STAT.TPEND n).apart (SLC_RSSI.RSSI n) = true ∧
    ∀ k ∈ tuneFields n, (SLC_STAT.CHAIN n).apart k = true ∧ k.addr ∈ [SLC_STAT.addr n, SLC_NCO.addr n, SLC_RSSI.addr n] := by
  decide

theorem State.tuned_applyTune (s : State) (n : Fin 16) (f w : Nat) : (s.applyTune n f w).Tuned n f w := by
  obtain ⟨hnt, hnr, htr, hc⟩ := tuneFields_apart n
  have hslc : vget (s.applyTune n f w).slc n = { vget s.slc n with freq := f, wave := w, held := none, settling := true } :=
    vget_vmod_same s.slc _ n.isLt
  have hchain : (s.applyTune n f w).slcChain n = s.slcChain n := s.writes_applyTune n f w _ fun k hk => (hc k hk).1
  refine ⟨by rw [hslc], by rw [hslc], by rw [hslc], ?_, ?_, State.get_set_same _ _ rfl⟩
  · rw [hchain]
    unfold State.applyTune
    rw [State.get_set_apart _ _ hnr, State.get_set_apart _ _ hnt, State.get_set_same _ _ rfl]
    exact Nat.mod_eq_of_lt (unsign_lt 32 _)
  · unfold State.applyTune
    rw [State.bit_set_apart _ _ htr]
    exact State.bit_set_zero _ rfl

/-! ### A change of a STATIC slice (R72) -/

section
variable {s : State} {n : Fin 16} {f w : Nat} {wr : State → State}

/-- R71: a change out of the band is refused. -/
theorem State.changeTune_refused (h : tuneOk (s.slcChain n) w (s.reg (PHY_FSK.addr n)) f = false) :
    s.changeTune n f w wr = s.raise SLC_EVT.RANGE := by
  unfold State.changeTune
  rw [h]
  rfl

/-- R72: during a frame the change is held. -/
theorem State.changeTune_held (h : tuneOk (s.slcChain n) w (s.reg (PHY_FSK.addr n)) f = true)
    (hs : s.bit (SLC_STAT.SYNC n) = true) : s.changeTune n f w wr =
      ((wr s).set (SLC_STAT.TPEND n) 1).modSlc n (fun c => { c with held := some (f, w) }) := by
  unfold State.changeTune
  rw [h, hs]
  rfl

theorem State.changeTune_applied (h : tuneOk (s.slcChain n) w (s.reg (PHY_FSK.addr n)) f = true)
    (hs : s.bit (SLC_STAT.SYNC n) = false) : s.changeTune n f w wr = (wr s).applyTune n f w := by
  unfold State.changeTune
  rw [h, hs]
  rfl

theorem State.memories_changeTune (hw : (wr s).memories = s.memories) :
    (s.changeTune n f w wr).memories = s.memories := by
  unfold State.changeTune
  split_ifs
  · rfl
  · exact hw
  · exact hw

end

/-! ### The writes of SLC_TUNE and SLC_CFG (R72, R73) -/

theorem simpleAddr_slc : ∀ n : Fin 16, simpleAddr (SLC_CFG.addr n) = true ∧ simpleAddr (SLC_TUNE.addr n) = true := by decide

theorem State.writeEffect_slcCfg (s : State) (e : Nat) (n : Fin 16) (r : RegRow) (w : Word) :
    s.writeEffect e (SLC_CFG.addr n) r w = s.cfgWrite n w := by
  fin_cases n <;> rfl

theorem State.writeEffect_slcTune (s : State) (e : Nat) (n : Fin 16) (r : RegRow) (w : Word) :
    s.writeEffect e (SLC_TUNE.addr n) r w = s.tuneWrite n w := by
  fin_cases n <;> rfl

theorem State.reg_of_get {s : State} {a : Nat} {v : Word} (h : s.get ⟨a, 0, 32⟩ = v.toNat) : s.reg a = v := by
  rw [State.reg_eq_ofNat_get, h, BitVec.ofNat_toNat, BitVec.setWidth_eq]

/-- Fields of one register: those of SLC_TUNE and SLC_CFG apart from what a tune writes and from each other. -/
theorem slcCfg_apart : ∀ n : Fin 16, (SLC_CFG.MODE n).apart (SLC_CFG.CHAIN n) = true ∧
    (SLC_CFG.MODE n).apart (SLC_CFG.WAVE n) = true ∧ (SLC_CFG.CHAIN n).apart (SLC_CFG.WAVE n) = true ∧
    (SLC_CFG.WAVE n).apart (SLC_CFG.MODE n) = true ∧ (SLC_CFG.WAVE n).apart (SLC_CFG.CHAIN n) = true ∧
    (∀ l ∈ [SLC_CFG.CHAIN n, SLC_CFG.WAVE n, SLC_TUNE.FREQ n], ∀ k ∈ SLC_EVT.RANGE :: tuneFields n, l.apart k = true) ∧
    (∀ l ∈ [SLC_STAT.CHAIN n, SLC_STAT.SYNC n, SLC_TUNE.FREQ n], ∀ k ∈ [SLC_CFG.MODE n, SLC_CFG.CHAIN n, SLC_CFG.WAVE n],
      l.apart k = true) ∧
    (SLC_STAT.CHAIN n).apart (SLC_TUNE.FREQ n) = true ∧ PHY_FSK.addr n ≠ SLC_CFG.addr n := by decide

section
variable {s : State} {n : Fin 16} {f w v : Nat} {l : Loc}

/-- The field that a change of the tune stores first: it lies apart from what a tune writes. -/
theorem State.get_changed (hl : l ∈ [SLC_CFG.WAVE n, SLC_TUNE.FREQ n]) : (s.set l v).get l = v % 2 ^ l.w ∧
    l.apart (SLC_STAT.TPEND n) = true ∧ (∀ k ∈ tuneFields n, l.apart k = true) ∧
    (s.set l v).slcChain n = s.slcChain n := by
  obtain ⟨-, -, -, -, -, hap, hread, htune, -⟩ := slcCfg_apart n
  have hfree : ∀ k ∈ tuneFields n, l.apart k = true := fun k hk =>
    hap l (by simp only [List.mem_cons] at hl ⊢; tauto) k (List.mem_cons_of_mem _ hk)
  have hfit : l.fits = true ∧ (SLC_STAT.CHAIN n).apart l = true := by
    simp only [List.mem_cons, List.not_mem_nil, or_false] at hl
    obtain rfl | rfl := hl
    · exact ⟨rfl, hread _ (by simp) _ (by simp)⟩
    · exact ⟨rfl, htune⟩
  exact ⟨State.get_set_same s v hfit.1, hfree _ (by simp [tuneFields]), hfree, State.get_set_apart s v hfit.2⟩

/-- What a change may write: the event where it is refused, or its field and what a tune writes. -/
theorem State.writes_changeTune : s.Writes (· ∈ SLC_EVT.RANGE :: l :: tuneFields n) (s.changeTune n f w (·.set l v)) := by
  have h0 : s.Writes (· ∈ SLC_EVT.RANGE :: l :: tuneFields n) (s.set l v) := (State.Writes.refl s).set (by simp)
  have h1 : s.Writes (· ∈ SLC_EVT.RANGE :: l :: tuneFields n) ((s.set l v).set (SLC_STAT.TPEND n) 1) :=
    h0.set (by simp [tuneFields])
  unfold State.changeTune
  exact .ite ((State.Writes.refl s).raise (by simp)) (.ite h1.congr
    (h0.trans ((State.writes_applyTune _ n f w).mono fun k hk => List.mem_cons_of_mem _ (List.mem_cons_of_mem _ hk))))

theorem State.changeTune_held_leaves (h : tuneOk (s.slcChain n) w (s.reg (PHY_FSK.addr n)) f = true)
    (hs : s.bit (SLC_STAT.SYNC n) = true) (hl : l ∈ [SLC_CFG.WAVE n, SLC_TUNE.FREQ n]) :
    (s.changeTune n f w (·.set l v)).get l = v % 2 ^ l.w ∧
      (s.changeTune n f w (·.set l v)).bit (SLC_STAT.TPEND n) = true ∧
      vget (s.changeTune n f w (·.set l v)).slc n = { vget s.slc n with held := some (f, w) } ∧
      s.Writes (· ∈ [l, SLC_STAT.TPEND n]) (s.changeTune n f w (·.set l v)) := by
  obtain ⟨hget, hap, -, -⟩ := State.get_changed (s := s) (v := v) hl
  have hw : s.Writes (· ∈ [l, SLC_STAT.TPEND n]) ((s.set l v).set (SLC_STAT.TPEND n) 1) :=
    ((State.Writes.refl s).set (by simp)).set (by simp)
  rw [State.changeTune_held h hs]
  exact ⟨(State.get_set_apart (s.set l v) 1 hap).trans hget, State.bit_set_one (s.set l v) rfl rfl,
    vget_vmod_same s.slc _ n.isLt, hw.congr⟩

theorem State.changeTune_applied_leaves (h : tuneOk (s.slcChain n) w (s.reg (PHY_FSK.addr n)) f = true)
    (hs : s.bit (SLC_STAT.SYNC n) = false) (hl : l ∈ [SLC_CFG.WAVE n, SLC_TUNE.FREQ n]) :
    (s.changeTune n f w (·.set l v)).get l = v % 2 ^ l.w ∧ (s.changeTune n f w (·.set l v)).Tuned n f w ∧
      (s.changeTune n f w (·.set l v)).slcChain n = s.slcChain n ∧
      s.Writes (· ∈ l :: tuneFields n) (s.changeTune n f w (·.set l v)) := by
  obtain ⟨hget, -, hap, hchain⟩ := State.get_changed (s := s) (v := v) hl
  obtain ⟨-, -, -, hc⟩ := tuneFields_apart n
  rw [State.changeTune_applied h hs]
  have hw := (s.set l v).writes_applyTune n f w
  exact ⟨(hw l hap).trans hget, State.tuned_applyTune _ n f w, (hw _ fun k hk => (hc k hk).1).trans hchain,
    ((State.Writes.refl s).set List.mem_cons_self).trans (hw.mono fun k hk => List.mem_cons_of_mem _ hk)⟩

end

section
variable {s : State} {n : Nat} {w : Word}

theorem State.tuneWrite_sched (h : s.slcMode n = 1) : s.tuneWrite n w = s.raise SLC_EVT.WIGN := if_pos h

theorem State.tuneWrite_static (h : s.slcMode n = 2) : s.tuneWrite n w =
    s.changeTune n w.toNat (s.get (SLC_CFG.WAVE n)) (·.set (SLC_TUNE.FREQ n) w.toNat) :=
  (if_neg (by omega)).trans (if_pos h)

/-- A slice that is neither SCHED nor STATIC takes the frequency as it comes. -/
theorem State.tuneWrite_plain (h1 : s.slcMode n ≠ 1) (h2 : s.slcMode n ≠ 2) :
    s.tuneWrite n w = s.set (SLC_TUNE.FREQ n) w.toNat :=
  (if_neg h1).trans (if_neg h2)

theorem State.memories_tuneWrite (s : State) (n : Fin 16) (w : Word) : (s.tuneWrite n w).memories = s.memories := by
  by_cases h1 : s.slcMode n = 1
  · rw [State.tuneWrite_sched h1, State.memories_raise]
  by_cases h2 : s.slcMode n = 2
  · rw [State.tuneWrite_static h2]
    exact State.memories_changeTune (s.memories_set _ _)
  · rw [State.tuneWrite_plain h1 h2, State.memories_set]

end

/-- R73: MODE of the next assignment as a written word gives it. -/
def State.cfgMode (s : State) (n : Nat) (w : Word) : Nat := if fieldOf w 8 2 = 3 then s.get (SLC_CFG.MODE n) else fieldOf w 8 2

/-- R84: the waveform as a written word gives it. -/
def State.cfgWave (s : State) (n : Nat) (w : Word) : Nat := if 9 ≤ fieldOf w 12 4 then s.get (SLC_CFG.WAVE n) else fieldOf w 12 4

theorem State.cfgMode_lt (s : State) (n : Nat) (w : Word) : s.cfgMode n w < 4 := by
  unfold State.cfgMode
  split_ifs
  · exact fieldOf_lt _ 8 2
  · exact fieldOf_lt w 8 2

theorem State.cfgWave_lt (s : State) (n : Nat) (w : Word) : s.cfgWave n w < 16 := by
  unfold State.cfgWave
  split_ifs
  · exact fieldOf_lt _ 12 4
  · exact fieldOf_lt w 12 4

/-- R73: a write that asks for one slice more than the level has room for. -/
abbrev State.pastLimit (s : State) (n mode : Nat) : Prop :=
  mode ≠ 0 ∧ s.slcPending n = false ∧ s.slicesAsked ≤ (List.range 16).countP s.slcPending

/-- MODE and CHAIN of SLC_CFG stored. -/
def State.cfgAssigned (s : State) (n : Nat) (w : Word) : State :=
  (s.set (SLC_CFG.MODE n) (s.cfgMode n w)).set (SLC_CFG.CHAIN n) (fieldOf w 4 1)

/-- What MODE and CHAIN stored leave for a change of the tune to read. -/
theorem State.cfgAssigned_leaves (s : State) (n : Fin 16) (w : Word) : (s.cfgAssigned n w).get (SLC_CFG.CHAIN n) = fieldOf w 4 1 ∧
    (s.cfgAssigned n w).get (SLC_TUNE.FREQ n) = s.get (SLC_TUNE.FREQ n) ∧
    (s.cfgAssigned n w).get (SLC_CFG.WAVE n) = s.get (SLC_CFG.WAVE n) ∧
    (s.cfgAssigned n w).slcChain n = s.slcChain n ∧
    (s.cfgAssigned n w).bit (SLC_STAT.SYNC n) = s.bit (SLC_STAT.SYNC n) ∧
    (s.cfgAssigned n w).reg (PHY_FSK.addr n) = s.reg (PHY_FSK.addr n) ∧
    s.Writes (inRegs [SLC_CFG.addr n]) (s.cfgAssigned n w) := by
  obtain ⟨-, -, -, hwm, hwc, -, hread, -, hfsk⟩ := slcCfg_apart n
  have hget {l : Loc} (hl : l ∈ [SLC_STAT.CHAIN n, SLC_STAT.SYNC n, SLC_TUNE.FREQ n]) :
      (s.cfgAssigned n w).get l = s.get l := by
    rw [State.cfgAssigned, State.get_set_apart _ _ (hread l hl _ (by simp)), State.get_set_apart _ _ (hread l hl _ (by simp))]
  refine ⟨(State.get_set_same _ _ rfl).trans (Nat.mod_eq_of_lt (fieldOf_lt w 4 1)), hget (by simp), ?_, hget (by simp), ?_, ?_, ?_⟩
  · rw [State.cfgAssigned, State.get_set_apart _ _ hwc, State.get_set_apart _ _ hwm]
  · rw [State.bit_eq, hget (by simp), State.bit_eq]
  · rw [State.cfgAssigned, State.reg_set_ne _ _ hfsk, State.reg_set_ne _ _ hfsk]
  · have hin {l : Loc} (hl : l.addr = SLC_CFG.addr n) : inRegs [SLC_CFG.addr n] l := List.mem_singleton.2 hl
    exact ((State.Writes.refl s).set (hin rfl)).set (hin rfl)

theorem State.cfgWrite_limit {s : State} {n : Nat} {w : Word} (h : s.pastLimit n (s.cfgMode n w)) :
    s.cfgWrite n w = s.raise SLC_EVT.LIMIT := by
  obtain ⟨hm, hp, ha⟩ := h
  exact if_pos ⟨hm, by rw [hp]; rfl, ha⟩

/-- R72, R73: within the limit an OFF slice takes the fields as they come. -/
theorem State.cfgWrite_off {s : State} {n : Nat} {w : Word} (h : ¬ s.pastLimit n (s.cfgMode n w)) (hm : s.slcMode n = 0) :
    s.cfgWrite n w = (s.cfgAssigned n w).set (SLC_CFG.WAVE n) (s.cfgWave n w) := by
  have hn : ¬ (s.cfgMode n w ≠ 0 ∧ !s.slcPending n ∧ s.slicesAsked ≤ (List.range 16).countP s.slcPending) := fun hc =>
    h ⟨hc.1, by simpa using hc.2.1, hc.2.2⟩
  refine (if_neg hn).trans ?_
  rw [hm]
  rfl

/-- R72: a new waveform of a STATIC slice is a change of its tune. -/
theorem State.cfgWrite_static {s : State} {n : Fin 16} {w : Word} (h : ¬ s.pastLimit n (s.cfgMode n w))
    (hm : s.slcMode n = 2) (hw : s.cfgWave n w ≠ s.get (SLC_CFG.WAVE n)) :
    s.cfgWrite n w = (s.cfgAssigned n w).changeTune n ((s.cfgAssigned n w).get (SLC_TUNE.FREQ n)) (s.cfgWave n w)
      (·.set (SLC_CFG.WAVE n) (s.cfgWave n w)) := by
  have hn : ¬ (s.cfgMode n w ≠ 0 ∧ !s.slcPending n ∧ s.slicesAsked ≤ (List.range 16).countP s.slcPending) := fun hc =>
    h ⟨hc.1, by simpa using hc.2.1, hc.2.2⟩
  obtain ⟨-, -, hwave, -⟩ := s.cfgAssigned_leaves n w
  refine (if_neg hn).trans ?_
  rw [hm]
  exact if_neg (by rw [← hwave] at hw; exact hw)

/-! ### The end of deafening (R68) -/

/-- R68: a slice that hears again, and what shows it. -/
def State.heardAgain (s : State) (n : Nat) : State :=
  ((s.set (SLC_STAT.DEAF n) 0).modSlc n (fun c => { c with settling := false })).showSlices

theorem State.heardAgain_leaves (s : State) (n : Fin 16) : (s.heardAgain n).bit (SLC_STAT.DEAF n) = false ∧
    (vget (s.heardAgain n).slc n).settling = false ∧ s.Writes (inBlocks [4]) (s.heardAgain n) ∧
    (s.heardAgain n).memories = s.memories := by
  have hblk : ∀ n : Fin 16, inBlocks [4] (SLC_STAT.DEAF n) := by decide
  refine ⟨?_, ?_, ?_, State.showSlices_keeps State.memories (fun _ _ _ => rfl) _⟩
  · rw [State.bit_eq, State.heardAgain, State.get_showSlices _ rfl (.inl (le_refl 14))]
    exact State.bit_set_zero s rfl
  · rw [State.heardAgain, State.showSlices_keeps State.slc fun _ _ _ => rfl]
    exact congrArg SliceState.settling (vget_vmod_same s.slc _ n.isLt)
  · exact (((State.Writes.refl s).set (hblk n)).congr).trans
      ((State.writes_showSlices _).intoBlocks fun k hk => List.mem_singleton.2 (shownSlices_block k hk))

/-! ### RSSI (R75, R76) -/

/-- R75: the digital gain follows while the slice searches and FREEZE does not hold it. -/
def State.gainFollowed (s : State) (n gain : Nat) : State :=
  if s.slcLive n = true ∧ s.bit (SLC_STAT.SYNC n) = false ∧ s.bit (SLC_AGC.FREEZE n) = false then
    s.set (SLC_AGC.DGAIN n) (min gain 96)
  else s

/-- R76: what RSSI shows of a power. -/
def State.rssiShown (s : State) (n : Nat) (power : Int) : Nat :=
  if s.bit (SLC_STAT.NOSIG n) = true ∨ s.bit (SLC_STAT.DEAF n) = true ∨ (vget s.slc n).settling = true then 0x8000
  else unsign 16 (s.rssiOf (s.slcChain n) power)

theorem State.rssiWindow_eq {s : State} (n : Nat) (power : Int) (gain : Nat) (h : s.dOn 18 = true) :
    s.rssiWindow n power gain =
      (s.gainFollowed n gain).set (SLC_RSSI.RSSI n) ((s.gainFollowed n gain).rssiShown n power) := by
  have hfollow : (if s.bit (SLC_STAT.SYNC n) || s.bit (SLC_AGC.FREEZE n) || !s.slcLive n then s
      else s.set (SLC_AGC.DGAIN n) (min gain 96)) = s.gainFollowed n gain := by
    unfold State.gainFollowed
    cases s.slcLive n <;> cases s.bit (SLC_STAT.SYNC n) <;> cases s.bit (SLC_AGC.FREEZE n) <;> rfl
  unfold State.rssiWindow
  rw [if_neg (by simp [h])]
  dsimp only
  rw [hfollow]
  unfold State.rssiShown
  simp only [Bool.or_eq_true, or_assoc]
  split_ifs <;> rfl

/-- What RSSI is made of lies apart from the digital gain. -/
theorem rssiReads_apart : ∀ n : Fin 16, (SLC_AGC.DGAIN n).apart (SLC_RSSI.RSSI n) = true ∧
    (∀ l ∈ [SLC_STAT.NOSIG n, SLC_STAT.DEAF n, SLC_STAT.CHAIN n], l.apart (SLC_AGC.DGAIN n) = true) ∧
    ∀ x : Fin 2, ∀ l ∈ [RXF_CAL.EXTGAIN x, RXF_CAL.RSSIOFS x], l.apart (SLC_AGC.DGAIN n) = true := by decide

theorem State.slcChain_lt (s : State) (n : Nat) : s.slcChain n < 2 := fieldOf_lt _ 7 1

theorem State.rssiShown_gainFollowed (s : State) (n : Fin 16) (power : Int) (gain : Nat) :
    (s.gainFollowed n gain).rssiShown n power = s.rssiShown n power := by
  obtain ⟨-, hap, hcal⟩ := rssiReads_apart n
  have hget {l : Loc} (hl : l.apart (SLC_AGC.DGAIN n) = true) : (s.gainFollowed n gain).get l = s.get l := by
    unfold State.gainFollowed
    split_ifs
    · exact State.get_set_apart s _ hl
    · rfl
  have hslc : (s.gainFollowed n gain).slc = s.slc := by
    unfold State.gainFollowed
    split_ifs <;> rfl
  have hext := hget (hcal ⟨s.slcChain n, s.slcChain_lt n⟩ (RXF_CAL.EXTGAIN (s.slcChain n)) (by simp))
  have hofs := hget (hcal ⟨s.slcChain n, s.slcChain_lt n⟩ (RXF_CAL.RSSIOFS (s.slcChain n)) (by simp))
  have hchain : (s.gainFollowed n gain).slcChain n = s.slcChain n := hget (hap _ (by simp))
  have hbit {l : Loc} (hl : l ∈ [SLC_STAT.NOSIG n, SLC_STAT.DEAF n, SLC_STAT.CHAIN n]) :
      (s.gainFollowed n gain).bit l = s.bit l := by
    rw [State.bit_eq, hget (hap l hl), State.bit_eq]
  unfold State.rssiShown State.rssiOf State.getS
  rw [hslc, hchain, hext, hofs, hbit (by simp), hbit (by simp)]

theorem State.get_dgain_gainFollowed (s : State) (n gain : Nat) : (s.gainFollowed n gain).get (SLC_AGC.DGAIN n) =
    if s.slcLive n = true ∧ s.bit (SLC_STAT.SYNC n) = false ∧ s.bit (SLC_AGC.FREEZE n) = false then min gain 96
    else s.get (SLC_AGC.DGAIN n) := by
  unfold State.gainFollowed
  split_ifs
  · rw [State.get_set_same s _ rfl]
    exact Nat.mod_eq_of_lt (lt_of_le_of_lt (min_le_right _ _) (show 96 < 2 ^ 8 by decide))
  · rfl

theorem State.rssiShown_lt (s : State) (n : Nat) (power : Int) : s.rssiShown n power < 2 ^ 16 := by
  unfold State.rssiShown
  split_ifs
  · decide
  · exact unsign_lt 16 _

theorem State.writes_gainFollowed (s : State) (n gain : Nat) :
    s.Writes (inRegs [SLC_RSSI.addr n, SLC_AGC.addr n]) (s.gainFollowed n gain) :=
  .ite ((State.Writes.refl s).set (by simp [inRegs, SLC_AGC.DGAIN])) (.refl s)

@[simp] theorem State.memories_gainFollowed (s : State) (n gain : Nat) : (s.gainFollowed n gain).memories = s.memories := by
  unfold State.gainFollowed
  split_ifs <;> rfl

end Sys2Proof.Machine

open Sys2Proof Sys2Proof.Machine

/-- Settles O15: a change of tune is refused, held or applied; a write of SLC_CFG is refused past the limit, and else stores
MODE and CHAIN first (R68, R69, R71 to R73, R75, R76). -/
theorem slicesComplete : Obligations.SlicesComplete := by
  refine ⟨fun e n v s hr => ?_, fun e n v s hr hm hp hw9 hne => ?_, fun e n v s hr hm => ?_, fun n s hon => ⟨?_, fun hd => ?_⟩,
    fun n power gain s hon => ?_⟩
  · obtain ⟨r, -, hwr⟩ := State.writeBy_simple hr (simpleAddr_slc n).2
    refine ⟨s.tuneWrite n v, congrArg Host.Outcome.next ((hwr v).trans (s.writeEffect_slcTune e n r v)), fun h1 => ?_,
      fun h0 => ?_, fun h2 => ?_, keepsMemory_of_memories ?_⟩
    · rw [State.tuneWrite_sched h1]
      exact ⟨s.bit_raise rfl rfl, State.Writes.keepsRegs ((State.Writes.refl s).raise (List.mem_singleton.2 rfl)), rfl⟩
    · rw [State.tuneWrite_plain (by omega) (by omega)]
      exact ⟨State.reg_of_get ((s.get_set_same _ rfl).trans (Nat.mod_eq_of_lt v.isLt)),
        State.Writes.keepsRegs ((State.Writes.refl s).set (List.mem_singleton.2 rfl)), rfl⟩
    · have hf : SLC_TUNE.FREQ n ∈ [SLC_CFG.WAVE n, SLC_TUNE.FREQ n] := by simp
      rw [State.tuneWrite_static h2]
      split_ifs with hok hs
      · rw [State.changeTune_refused hok]
        exact ⟨s.bit_raise rfl rfl, State.Writes.keepsRegs ((State.Writes.refl s).raise (List.mem_singleton.2 rfl)), rfl⟩
      · obtain ⟨hget, hpend, hslc, hwr⟩ := State.changeTune_held_leaves (v := v.toNat) (Bool.eq_true_of_not_eq_false hok) hs hf
        refine ⟨State.reg_of_get (hget.trans (Nat.mod_eq_of_lt v.isLt)), hpend, by rw [hslc], by rw [hslc],
          State.Writes.keepsRegs (hwr.mono ?_)⟩
        simp [inRegs, SLC_TUNE.FREQ, SLC_STAT.TPEND]
      · obtain ⟨hget, ht, hchain, hwr⟩ := State.changeTune_applied_leaves (v := v.toNat) (Bool.eq_true_of_not_eq_false hok)
          (Bool.eq_false_of_not_eq_true hs) hf
        refine ⟨State.reg_of_get (hget.trans (Nat.mod_eq_of_lt v.isLt)), ht.freq, ht.wave, ht.settling, hchain ▸ ht.nco,
          ht.tpend, ht.rssi, State.Writes.keepsRegs (hwr.mono ?_)⟩
        simp [inRegs, tuneFields, SLC_TUNE.FREQ, SLC_STAT.TPEND, SLC_NCO.WORD, SLC_RSSI.RSSI]
    · exact s.memories_tuneWrite n v
  · obtain ⟨r, -, hwr⟩ := State.writeBy_simple hr (simpleAddr_slc n).1
    have hwave : s.cfgWave n v = fieldOf v 12 4 := if_neg (by omega)
    have hroom : ¬ s.pastLimit n (s.cfgMode n v) := fun hc => absurd hc.2.1 (by simp [State.slcPending, hp])
    obtain ⟨hchain, hfreq, hold, hin, hsync, hfsk, hassigned⟩ := s.cfgAssigned_leaves n v
    obtain ⟨-, -, hcw, -, -, hap, -⟩ := slcCfg_apart n
    have hcfg := State.cfgWrite_static hroom hm (hwave.symm ▸ hne)
    rw [hwave, hfreq] at hcfg
    have hf : SLC_CFG.WAVE n ∈ [SLC_CFG.WAVE n, SLC_TUNE.FREQ n] := by simp
    refine ⟨s.cfgWrite n v, congrArg Host.Outcome.next ((hwr v).trans (s.writeEffect_slcCfg e n r v)), ?_⟩
    rw [hcfg, ← hin, ← hfsk, ← hsync, ← hold]
    have hw := State.writes_changeTune (s := s.cfgAssigned n v) (n := n) (f := s.get (SLC_TUNE.FREQ n)) (w := fieldOf v 12 4)
      (v := fieldOf v 12 4) (l := SLC_CFG.WAVE n)
    have hwave16 : fieldOf v 12 4 % 2 ^ (SLC_CFG.WAVE n).w = fieldOf v 12 4 := Nat.mod_eq_of_lt (fieldOf_lt v 12 4)
    refine ⟨(hw _ ?_).trans hchain, ?_, State.Writes.keepsRegs ((hassigned.mono ?_).trans (hw.mono ?_)),
      keepsMemory_of_memories ((State.memories_changeTune (State.memories_set _ _ _)).trans rfl)⟩
    · have hch := hap (SLC_CFG.CHAIN n) (by simp)
      exact List.forall_mem_cons.2 ⟨hch _ List.mem_cons_self, List.forall_mem_cons.2 ⟨hcw,
        fun k hk => hch k (List.mem_cons_of_mem _ hk)⟩⟩
    · split_ifs with hok hs
      · rw [State.changeTune_refused hok]
        exact ⟨State.bit_raise _ rfl rfl, State.get_incBy_apart _ 1 (hap _ (by simp) _ (by simp)), rfl⟩
      · obtain ⟨hget, -, hslc, -⟩ := State.changeTune_held_leaves (v := fieldOf v 12 4) (Bool.eq_true_of_not_eq_false hok) hs hf
        exact ⟨hget.trans hwave16, by rw [hslc]⟩
      · obtain ⟨hget, ht, -, -⟩ := State.changeTune_applied_leaves (v := fieldOf v 12 4) (Bool.eq_true_of_not_eq_false hok)
          (Bool.eq_false_of_not_eq_true hs) hf
        exact ⟨hget.trans hwave16, ht.wave, ht.settling⟩
    · exact fun k hk => List.mem_cons.2 (.inl (List.mem_singleton.1 hk))
    · simp [inRegs, tuneFields, SLC_EVT.RANGE, SLC_CFG.WAVE, SLC_STAT.TPEND, SLC_NCO.WORD, SLC_RSSI.RSSI]
  · obtain ⟨r, -, hwr⟩ := State.writeBy_simple hr (simpleAddr_slc n).1
    obtain ⟨hmc, hmw, hcw, -⟩ := slcCfg_apart n
    obtain ⟨hchain, -, -, -, -, -, hassigned⟩ := s.cfgAssigned_leaves n v
    refine ⟨s.cfgWrite n v, congrArg Host.Outcome.next ((hwr v).trans (s.writeEffect_slcCfg e n r v)), ?_⟩
    change (if s.pastLimit n (s.cfgMode n v) then _ else _) ∧ _ ∧ _
    by_cases hlim : s.pastLimit n (s.cfgMode n v)
    · rw [State.cfgWrite_limit hlim]
      refine ⟨?_, rfl, keepsMemory_of_memories rfl⟩
      rw [if_pos hlim]
      exact ⟨s.bit_raise rfl rfl, State.Writes.keepsRegs ((State.Writes.refl s).raise (List.mem_singleton.2 rfl))⟩
    · rw [State.cfgWrite_off hlim hm]
      refine ⟨?_, rfl, keepsMemory_of_memories rfl⟩
      rw [if_neg hlim]
      refine ⟨?_, ?_, ?_, State.Writes.keepsRegs (hassigned.set (k := SLC_CFG.WAVE n) (List.mem_singleton.2 rfl))⟩
      · rw [State.get_set_apart _ _ hmw, State.cfgAssigned, State.get_set_apart _ _ hmc, State.get_set_same _ _ rfl]
        exact Nat.mod_eq_of_lt (s.cfgMode_lt n v)
      · rw [State.get_set_apart _ _ hcw, hchain]
      · rw [State.get_set_same _ _ rfl]
        exact Nat.mod_eq_of_lt (s.cfgWave_lt n v)
  · exact ⟨_, congrArg Host.Outcome.next (if_pos hon), congrArg SliceState.settling (vget_vmod_same s.slc _ n.isLt),
      fun _ _ => rfl, keepsMemory_of_memories rfl⟩
  · obtain ⟨hdeaf, hset, hw, hmem⟩ := s.heardAgain_leaves n
    exact ⟨s.heardAgain n, congrArg Host.Outcome.next (if_pos (by simp [hon, hd])), hdeaf, hset, hw.keepsBlocks,
      keepsMemory_of_memories hmem⟩
  · obtain ⟨hap, -⟩ := rssiReads_apart n
    refine ⟨_, congrArg Host.Outcome.next (State.rssiWindow_eq n power gain hon), ?_, ?_, State.Writes.keepsRegs ?_,
      keepsMemory_of_memories ?_⟩
    · rw [State.get_set_same _ _ rfl, s.rssiShown_gainFollowed n power]
      exact Nat.mod_eq_of_lt (s.rssiShown_lt n power)
    · rw [State.get_set_apart _ _ hap]
      exact s.get_dgain_gainFollowed n gain
    · exact (s.writes_gainFollowed n gain).set (by simp [inRegs, SLC_RSSI.RSSI])
    · rw [State.memories_set, State.memories_gainFollowed]
end

section
namespace Sys2Proof.Machine

/-! ### Updates one after another -/

/-- What holds at first and is kept by each of the updates holds after all of them. -/
theorem State.each_induct {α : Type} {I : State → Prop} {s : State} {as : List α} {f : State → α → State} (h : I s)
    (hf : ∀ s, ∀ a ∈ as, I s → I (f s a)) : I (s.each as f) := by
  induction as generalizing s with
  | nil => exact h
  | cons a as ih => exact ih (hf s a List.mem_cons_self h) fun s b hb => hf s b (List.mem_cons_of_mem a hb)

/-- A field that one of the updates writes, and none of the others. -/
theorem State.get_each_of_mem {α : Type} {I : State → Prop} {l : Loc} {v : Nat} {s : State} {a : α} {as : List α}
    {f : State → α → State} (ha : a ∈ as) (hI : I s) (hstep : ∀ s b, I s → I (f s b))
    (hself : ∀ s, I s → (f s a).get l = v) (hother : ∀ s, ∀ b ∈ as, b ≠ a → (f s b).get l = s.get l) :
    (s.each as f).get l = v := by
  induction as generalizing s with
  | nil => cases ha
  | cons b as ih =>
    by_cases hmem : a ∈ as
    · exact ih hmem (hstep s b hI) fun s c hc => hother s c (List.mem_cons_of_mem b hc)
    · obtain rfl : a = b := (List.mem_cons.1 ha).resolve_right hmem
      rw [State.each_cons]
      refine State.each_induct (I := fun t => t.get l = v) (s := f s a) (as := as) (hself s hI) fun t c hc ht => ?_
      exact (hother t c (List.mem_cons_of_mem a hc) (by rintro rfl; exact hmem hc)).trans ht

/-! ### What shows a carrier (R133, R146) -/

theorem mem_carriersOf {c x : Nat} : c ∈ carriersOf x ↔ c / 4 = x := by
  simp only [carriersOf, List.mem_cons, List.not_mem_nil, or_false]
  omega

/-- The fields of carrier `c` that `showTx` writes. -/
def carShown (c x : Nat) : List Loc := [TXF_CARSTAT.SEND c, TXF_CARSTAT.RES c, TXF_CARSTAT.ACK c,
  ⟨(TXF_STAT.RES x).addr, 8 + c % 4, 1⟩, ⟨(TXF_STAT.ACT x).addr, 4 + c % 4, 1⟩]

theorem send_apart : ∀ c : Fin 8,
    (∀ k ∈ (carShown c (c / 4)).tail ++ [TXF_STAT.PAON (c / 4), TXF_STAT.RETPEND (c / 4)],
      (TXF_CARSTAT.SEND c).apart k = true) ∧
    (∀ d ∈ carriersOf (c / 4), d ≠ c → ∀ k ∈ carShown d (c / 4), (TXF_CARSTAT.SEND c).apart k = true) := by decide

/-- SEND shows a carrier from its ramp-up start to its ramp-down end. -/
theorem State.bit_send_showTx (s : State) (c : Fin 8) :
    (s.showTx (c / 4)).bit (TXF_CARSTAT.SEND c) = (s.cr c).any Carrier.on := by
  obtain ⟨hrest, hother⟩ := send_apart c
  have hval : (s.showTx (c / 4)).get (TXF_CARSTAT.SEND c) = b2n ((s.cr c).any Carrier.on) := by
    unfold State.showTx
    rw [State.get_set_apart _ _ (hrest _ (by simp)), State.get_set_apart _ _ (hrest _ (by simp))]
    refine State.get_each_of_mem (I := fun t => t.car = s.car) (a := c.val) (mem_carriersOf.2 rfl) rfl (fun _ _ h => h)
      (fun t ht => ?_) (fun t d hd hne => ?_)
    · rw [State.get_set_apart _ _ (hrest _ (by simp [carShown])), State.get_set_apart _ _ (hrest _ (by simp [carShown])),
        State.get_set_apart _ _ (hrest _ (by simp [carShown])), State.get_set_apart _ _ (hrest _ (by simp [carShown])),
        State.get_set_same _ _ rfl, State.cr, ht, State.cr]
      cases (vget s.car c).any Carrier.on <;> rfl
    · have h := hother d hd hne
      rw [State.get_set_apart _ _ (h _ (by simp [carShown])), State.get_set_apart _ _ (h _ (by simp [carShown])),
        State.get_set_apart _ _ (h _ (by simp [carShown])), State.get_set_apart _ _ (h _ (by simp [carShown])),
        State.get_set_apart _ _ (h _ (by simp [carShown]))]
  rw [State.bit_eq, hval]
  cases (s.cr c).any Carrier.on <;> rfl

/-! ### Frames in reception, and a slice tuned for an action (R70, R159) -/

theorem vget_vmod_ne {α : Type} {n : Nat} [Inhabited α] (v : Vector α n) {i j : Nat} (f : α → α) (h : j ≠ i) :
    vget (vmod v i f) j = vget v j := vget_vset_ne v _ h

/-- What a change of any element keeps of every element. -/
theorem vget_vmod_keeps {α β : Type} {n : Nat} [Inhabited α] (g : α → β) (v : Vector α n) (i j : Nat) {f : α → α}
    (h : ∀ x, g (f x) = g x) : g (vget (vmod v i f) j) = g (vget v j) := by
  by_cases hj : j = i
  · subst hj
    by_cases hlt : j < n
    · rw [vget_vmod_same v f hlt, h]
    · simp [vget, vmod, vset, hlt]
  · rw [vget_vmod_ne v f hj]

/-- No slice has a frame in reception. -/
def State.NoFrames (s : State) : Prop := ∀ n, (vget s.slc n).frame = none

theorem State.NoFrames.congr {s t : State} (h : s.NoFrames) (ht : t.slc = s.slc) : t.NoFrames := fun n => by
  rw [ht]
  exact h n

theorem State.NoFrames.modSlc {s : State} (h : s.NoFrames) {n : Nat} {f : SliceState → SliceState}
    (hf : ∀ c, (f c).frame = c.frame) : (s.modSlc n f).NoFrames := fun m =>
  (vget_vmod_keeps SliceState.frame s.slc n m hf).trans (h m)

/-- R70: the configuration of a slice for an action. -/
def State.schedSet (s : State) (n x wave f : Nat) : State :=
  ((s.set (SLC_CFG.CHAIN n) x).set (SLC_CFG.WAVE n) wave).set (SLC_TUNE.FREQ n) f

/-- R70: a slice set to the chain of an action, not yet tuned. -/
def State.schedSlice (s : State) (n x wave f : Nat) : State :=
  ((s.schedSet n x wave f).set (SLC_STAT.CHAIN n) x).set (SLC_STAT.DEAF n)
    ((s.schedSet n x wave f).get (RXF_STAT.DEAF x))

/-- R70: a slice tuned for an action, what shows the slices put aside. -/
def State.schedTuned (s : State) (n x wave f : Nat) : State :=
  ((s.schedSlice n x wave f).applyTune n f wave).modSlc n (fun c => { c with settling := false })

theorem State.schedTune_eq (s : State) (n x wave f : Nat) : s.schedTune n x wave f = (s.schedTuned n x wave f).showSlices := rfl

/-- The registers and the slice are all that it changes. -/
theorem State.schedTune_keeps {β : Type} (f : State → β) (hset : ∀ s l v, f (State.set s l v) = f s)
    (hslc : ∀ s n g, f (State.modSlc s n g) = f s) (s : State) (n x wave q : Nat) :
    f (s.schedTune n x wave q) = f s := by
  rw [State.schedTune_eq, State.showSlices_keeps f hset, State.schedTuned, hslc, State.applyTune, State.schedSlice,
    State.schedSet]
  simp only [hset, hslc]

theorem State.NoFrames.schedTune {s : State} (h : s.NoFrames) {n x wave f : Nat} : (s.schedTune n x wave f).NoFrames := by
  rw [State.schedTune_eq]
  refine State.NoFrames.congr ?_ (State.showSlices_keeps State.slc (fun _ _ _ => rfl) _)
  have htune (t : State) (ht : t.NoFrames) : (t.applyTune n f wave).NoFrames :=
    State.NoFrames.congr (s := t.modSlc n (fun c => { c with freq := f, wave := wave, held := none, settling := true }))
      (ht.modSlc fun _ => rfl) rfl
  have hslice : (s.schedSlice n x wave f).NoFrames := State.NoFrames.congr (s := s) h rfl
  exact State.NoFrames.modSlc (htune _ hslice) fun _ => rfl

theorem State.Writes.showSlices {u s : State} {l : List Nat} (h : u.Writes (inBlocks l) s) (hl : 4 ∈ l) :
    u.Writes (inBlocks l) s.showSlices :=
  h.trans (s.writes_showSlices.intoBlocks fun k hk => by rwa [shownSlices_block k hk])

theorem State.Writes.modSlc {u s : State} {P : Loc → Prop} (h : u.Writes P s) {n : Nat} {f : SliceState → SliceState} :
    u.Writes P (s.modSlc n f) := h.congr

theorem slcFields_block : ∀ n : Fin 16, ∀ k ∈ [SLC_CFG.CHAIN n, SLC_CFG.WAVE n, SLC_CFG.MODE n, SLC_TUNE.FREQ n,
    SLC_STAT.CHAIN n, SLC_STAT.DEAF n, SLC_STAT.MODE n, SLC_STAT.TASTE n, SLC_DEAFCNT.COUNT n] ++ tuneFields n,
    inBlocks [4] k := by decide

theorem State.writes_schedTune (s : State) {n : Nat} (hn : n < 16) (x wave f : Nat) :
    s.Writes (inBlocks [4]) (s.schedTune n x wave f) := by
  have hblk := slcFields_block ⟨n, hn⟩
  have hchain := hblk (SLC_CFG.CHAIN n) (by simp)
  have hwave := hblk (SLC_CFG.WAVE n) (by simp)
  have hfreq := hblk (SLC_TUNE.FREQ n) (by simp)
  have hshown := hblk (SLC_STAT.CHAIN n) (by simp)
  have hdeaf := hblk (SLC_STAT.DEAF n) (by simp)
  have htune (t : State) : t.Writes (inBlocks [4]) (t.applyTune n f wave) :=
    (t.writes_applyTune n f wave).mono fun k hk => hblk k (List.mem_append_right _ hk)
  rw [State.schedTune_eq]
  refine State.Writes.showSlices ?_ (by decide)
  have hset : s.Writes (inBlocks [4]) (s.schedSet n x wave f) := (((State.Writes.refl s).set hchain).set hwave).set hfreq
  have hslice : s.Writes (inBlocks [4]) (s.schedSlice n x wave f) := (hset.set hshown).set hdeaf
  exact State.Writes.modSlc (hslice.trans (htune _))

end Sys2Proof.Machine
end

section
namespace Sys2Proof.Machine

/-! ### A chain deafened (R68) -/

theorem rxfFields_block : ∀ x : Fin 2, ∀ k ∈ RXF_STAT.DEAF x :: gainFields x, inBlocks [3, 4] k := by decide

theorem deaf_apart_gain : ∀ x : Fin 2, (RXF_STAT.DEAF x).fits = true ∧
    ∀ k ∈ gainFields x, (RXF_STAT.DEAF x).apart k = true := by decide

/-- R68: the chain deafened, its slices not yet. -/
def State.chainDeafened (s : State) (x : Nat) : State :=
  ((s.modRxc x (fun c => { c with gainBefore := s.get (RXF_STAT.GAINIDX x) })).set (RXF_STAT.DEAF x) 1).setGain x 15

theorem State.writes_chainDeafened (s : State) (x : Fin 2) : s.Writes (inBlocks [3, 4]) (s.chainDeafened x) := by
  have hblk := rxfFields_block x
  have hrxc : s.Writes (inBlocks [3, 4]) (s.modRxc x (fun c => { c with gainBefore := s.get (RXF_STAT.GAINIDX x) })) :=
    (State.Writes.refl s).congr
  exact (hrxc.set (hblk _ List.mem_cons_self)).trans
    ((State.writes_setGain _ x 15).mono fun k hk => hblk k (List.mem_cons_of_mem _ hk))

/-- R68: a slice deafened; an action that senses on it finds the channel busy. -/
def State.sliceDeafened (s : State) (n : Nat) : State :=
  let s := ((s.set (SLC_STAT.DEAF n) 1).inc (SLC_DEAFCNT.COUNT n)).abandon n 6
  { s with lnk := { s.lnk with tx := s.lnk.tx.map (fun a =>
      if a.slice = some n ∧ a.sensing then { a with busy := true } else a) } }

theorem State.abandon_none {s : State} {n : Nat} (code : Nat) (h : (vget s.slc n).frame = none) : s.abandon n code = s := by
  unfold State.abandon
  rw [h]

theorem State.deafen_self {s : State} {x : Nat} (h : s.bit (RXF_STAT.DEAF x) = true) : s.deafen x = s := if_pos h

theorem State.deafen_eq {s : State} {x : Nat} (h : s.bit (RXF_STAT.DEAF x) = false) (hw : (vget s.rxc x).window = none) :
    s.deafen x = ((s.chainDeafened x).each ((s.chainDeafened x).slicesOf x) State.sliceDeafened).showSlices := by
  unfold State.deafen
  rw [State.loseWindow, hw, h]
  rfl

/-- What the end of the chain's slices leaves of it: SLC alone is written. -/
structure State.KeepsChain (u s : State) : Prop where
  slc : s.slc = u.slc
  car : s.car = u.car
  rxc : s.rxc = u.rxc
  mem : s.memories = u.memories
  writes : u.Writes (inBlocks [4]) s

theorem State.KeepsChain.refl (s : State) : s.KeepsChain s := ⟨rfl, rfl, rfl, rfl, .refl s⟩

/-- A slice without a frame: it is marked and counted. -/
theorem State.KeepsChain.sliceDeafened {u s : State} (h : u.KeepsChain s) (hf : u.NoFrames) {n : Nat} (hn : n < 16) :
    u.KeepsChain (s.sliceDeafened n) := by
  have hblk := slcFields_block ⟨n, hn⟩
  have hdeaf := hblk (SLC_STAT.DEAF n) (by simp)
  have hcnt := hblk (SLC_DEAFCNT.COUNT n) (by simp)
  have hframe : (vget ((s.set (SLC_STAT.DEAF n) 1).inc (SLC_DEAFCNT.COUNT n)).slc n).frame = none := by
    change (vget s.slc n).frame = none
    rw [h.slc]
    exact hf n
  unfold State.sliceDeafened
  rw [State.abandon_none 6 hframe]
  exact ⟨h.slc, h.car, h.rxc, h.mem, ((h.writes.set hdeaf).inc hcnt).congr⟩

theorem State.KeepsChain.slicesDeafened {s : State} (hf : s.NoFrames) (x : Nat) :
    s.KeepsChain (s.each (s.slicesOf x) State.sliceDeafened) :=
  State.each_induct (I := s.KeepsChain) (.refl s) fun _ _ hn h => h.sliceDeafened hf (State.lt_of_mem_slicesOf hn)

/-- R68: what deafening a chain comes to where no window runs on it and no frame is in reception: the gain index is put aside
and 15 stands. -/
theorem State.deafen_leaves {s : State} (x : Fin 2) (hf : s.NoFrames) (hw : (vget s.rxc x).window = none) :
    s.Writes (inBlocks [3, 4]) (s.deafen x) ∧ (s.deafen x).car = s.car ∧ (s.deafen x).memories = s.memories ∧
      (s.deafen x).bit (RXF_STAT.DEAF x) = true ∧ (s.bit (RXF_STAT.DEAF x) = false →
        (s.deafen x).get (RXF_STAT.GAINIDX x) = 15 ∧
        (vget (s.deafen x).rxc x).gainBefore = s.get (RXF_STAT.GAINIDX x)) := by
  cases hd : s.bit (RXF_STAT.DEAF x) with
  | true =>
    rw [State.deafen_self hd]
    exact ⟨.refl s, rfl, rfl, hd, nofun⟩
  | false =>
    obtain ⟨hfit, hap⟩ := deaf_apart_gain x
    have hrxf : ∀ x : Fin 2, ∀ k ∈ [RXF_STAT.DEAF x, RXF_STAT.GAINIDX x], blockOfAddr k.addr ∉ [4] := by decide
    have h := State.KeepsChain.slicesDeafened (s := s.chainDeafened x) (hf.congr rfl) x
    have hwr := h.writes.showSlices (by decide)
    rw [State.deafen_eq hd hw]
    refine ⟨?_, ?_, ?_, ?_, fun _ => ⟨?_, ?_⟩⟩
    · exact (s.writes_chainDeafened x).trans (hwr.mono fun k hk => List.mem_cons_of_mem _ hk)
    · rw [State.showSlices_keeps State.car (fun _ _ _ => rfl), h.car]
      rfl
    · rw [State.showSlices_keeps State.memories (fun _ _ _ => rfl), h.mem]
      rfl
    · rw [State.bit_eq, hwr.get_of_block (hrxf x _ (by simp)), State.chainDeafened, State.writes_setGain _ x 15 _ hap,
        State.get_set_same _ _ hfit]
      rfl
    · rw [hwr.get_of_block (hrxf x _ (by simp)), State.chainDeafened, State.get_setGain]
    · rw [State.showSlices_keeps State.rxc (fun _ _ _ => rfl), h.rxc]
      exact congrArg RxChain.gainBefore (vget_vmod_same s.rxc _ x.isLt)

/-! ### The ramp-up of a carrier (R126, R127, R129, R135) -/

/-- A slice that serves the carrier's action tuned for what follows, where it does. -/
def State.actTuned (s : State) (c : Nat) (k : Carrier) : State :=
  match s.actOf c with
  | some a => (match a.slice with
    | some n => if a.cca || k.ack then s else s.schedTune n a.chain a.wave a.freq
    | none => s)
  | none => s

/-- The carrier `k` at its ramp-up start, with level `l`. -/
def State.ramping (s : State) (k : Carrier) (l : Int) : Carrier :=
  { k with phase := .rampUp, level := l, rampClk := s.clk, taps := s.shapeOf k.wave }


/-- The carrier and its level, not yet shown. -/
def State.rampSet (s : State) (c : Nat) (k : Carrier) (l : Int) : State :=
  ((if k.want ≠ l then s.raise TXF_EVT.CLAMP else s).setCar c (some (s.ramping k l))).set (TXF_CARLVL.LEVEL c) (unsign 8 l)

/-- The carrier ramps up with level `l`; its chain still hears. -/
def State.rampShown (s : State) (c : Nat) (k : Carrier) (l : Int) : State := (s.rampSet c k l).showTx (c / 4)

/-- What the slot engine's tuning before a ramp-up keeps: SLC alone is written. -/
structure State.OnlyTuned (u s : State) : Prop where
  car : s.car = u.car
  rxc : s.rxc = u.rxc
  clk : s.clk = u.clk
  mem : s.memories = u.memories
  frames : u.NoFrames → s.NoFrames
  writes : u.Writes (inBlocks [4]) s

theorem State.OnlyTuned.refl (s : State) : s.OnlyTuned s := ⟨rfl, rfl, rfl, rfl, id, .refl s⟩

theorem State.onlyTuned_schedTune (s : State) {n : Nat} (hn : n < 16) (x wave f : Nat) :
    s.OnlyTuned (s.schedTune n x wave f) where
  car := State.schedTune_keeps State.car (fun _ _ _ => rfl) (fun _ _ _ => rfl) ..
  rxc := State.schedTune_keeps State.rxc (fun _ _ _ => rfl) (fun _ _ _ => rfl) ..
  clk := State.schedTune_keeps State.clk (fun _ _ _ => rfl) (fun _ _ _ => rfl) ..
  mem := State.schedTune_keeps State.memories (fun _ _ _ => rfl) (fun _ _ _ => rfl) ..
  frames h := h.schedTune
  writes := s.writes_schedTune hn x wave f

theorem State.onlyTuned_actTuned {s : State} {c : Nat} (k : Carrier)
    (ha : ∀ a n, s.actOf c = some a → a.slice = some n → n < 16) : s.OnlyTuned (s.actTuned c k) := by
  unfold State.actTuned
  split
  next a hact =>
    split
    next n hn =>
      split_ifs
      · exact .refl s
      · exact s.onlyTuned_schedTune (ha a n hact hn) ..
    next => exact .refl s
  next => exact .refl s

/-- The coefficients and the choice of a filter lie outside SLC and TXF_EVT. -/
theorem shape_apart : (∀ n : Fin 16, ∀ i : Fin 17,
    blockOfAddr (TXF_COEF.EVEN (9 * n + i / 2)).addr ≠ 4 ∧ blockOfAddr (TXF_COEF.ODD (9 * n + i / 2)).addr ≠ 4 ∧
      (TXF_COEF.EVEN (9 * n + i / 2)).addr ≠ TXF_EVT.addr ∧ (TXF_COEF.ODD (9 * n + i / 2)).addr ≠ TXF_EVT.addr) ∧
    blockOfAddr TXF_SHAPE.SET.addr ≠ 4 ∧ TXF_SHAPE.SET.addr ≠ TXF_EVT.addr := by decide

theorem State.Writes.shapeOf {u s : State} {P : Loc → Prop} (h : u.Writes P s)
    (hp : ∀ k, P k → blockOfAddr k.addr = 4 ∨ k.addr = TXF_EVT.addr) (wave : Nat) : s.shapeOf wave = u.shapeOf wave := by
  obtain ⟨hcoef, hblk, hevt⟩ := shape_apart
  have hget (l : Loc) (h4 : blockOfAddr l.addr ≠ 4) (he : l.addr ≠ TXF_EVT.addr) : s.get l = u.get l :=
    h l fun k hk => Loc.apart_of_addr fun ha => (hp k hk).elim (ha ▸ h4) (ha ▸ he)
  have hset (n : Nat) (hn : n < 16) : s.shapeSet n = u.shapeSet n := by
    unfold State.shapeSet
    split_ifs
    · rfl
    refine List.map_congr_left fun i hi => ?_
    obtain ⟨heven, hodd, heven', hodd'⟩ := hcoef ⟨n, hn⟩ ⟨i, List.mem_range.1 hi⟩
    dsimp only [State.getS]
    split_ifs
    · rw [hget _ heven heven']
    · rw [hget _ hodd hodd']
  unfold State.shapeOf
  rw [hget _ hblk hevt]
  exact hset _ (Nat.mod_lt _ (by decide))

/-- What RAMP_UP_START makes of a carrier that may start. -/
theorem State.rampUp_eq {s : State} {c : Nat} {k : Carrier} {l : Int} (h : s.cr c = some k) (hp : k.phase = .gated)
    (hl : s.levelFor c k = some l) (ha : ∀ a n, s.actOf c = some a → a.slice = some n → n < 16) :
    s.rampUp c = ((s.actTuned c k).rampShown c k l).deafen (c / 4) := by
  have hcr : (s.actTuned c k).cr c = some k := by
    rw [State.cr, (State.onlyTuned_actTuned k ha).car]
    exact h
  have hstart (t : State) (ht : t.cr c = some k) :
      (if k.want ≠ l then t.raise TXF_EVT.CLAMP else t).modCar c (fun o => { o with
        phase := .rampUp, level := l, rampClk := (if k.want ≠ l then t.raise TXF_EVT.CLAMP else t).clk,
        taps := (if k.want ≠ l then t.raise TXF_EVT.CLAMP else t).shapeOf k.wave }) =
      (if k.want ≠ l then t.raise TXF_EVT.CLAMP else t).setCar c (some (t.ramping k l)) := by
    split_ifs
    · have hsh : (t.raise TXF_EVT.CLAMP).shapeOf k.wave = t.shapeOf k.wave :=
        ((State.Writes.refl t).raise (P := (· = TXF_EVT.CLAMP)) rfl).shapeOf (by rintro _ rfl; exact .inr rfl) _
      rw [State.modCar_eq _ (s := t.raise TXF_EVT.CLAMP) ht, hsh]
      rfl
    · rw [State.modCar_eq _ ht]
      rfl
  unfold State.rampUp
  rw [h]
  simp only [hp, ne_eq, not_true_eq_false, if_false, hl]
  unfold State.rampShown State.rampSet
  rw [← hstart _ hcr]
  rfl

theorem rampFields : ∀ c : Fin 8, (TXF_CARLVL.LEVEL c).fits = true ∧ blockOfAddr (TXF_CARLVL.LEVEL c).addr = 6 ∧
    (∀ k ∈ shownTx (c / 4), blockOfAddr k.addr = 6 ∧ (TXF_CARLVL.LEVEL c).apart k = true ∧
      TXF_EVT.CLAMP.apart k = true) ∧
    TXF_EVT.CLAMP.apart (TXF_CARLVL.LEVEL c) = true := by decide

/-- What shows the carriers changes registers alone. -/
theorem State.showTx_keeps {β : Type} (f : State → β) (h : ∀ s l v, f (State.set s l v) = f s) (s : State) (x : Nat) :
    f (s.showTx x) = f s := by
  unfold State.showTx
  rw [h, h]
  exact State.each_keeps f fun s c => by dsimp only; rw [h, h, h, h, h]

theorem State.rampSet_keeps {β : Type} (f : State → β) (hset : ∀ s l v, f (State.set s l v) = f s)
    (hraise : ∀ s l, f (State.raise s l) = f s) (hcar : ∀ s c k, f (State.setCar s c k) = f s) (s : State) (c : Nat) (k : Carrier)
    (l : Int) :
    f (s.rampSet c k l) = f s := by
  refine (hset _ _ _).trans ((hcar _ _ _).trans ?_)
  split_ifs
  · exact hraise _ _
  · rfl

theorem State.cr_rampSet (s : State) (c : Fin 8) (k : Carrier) (l : Int) :
    (s.rampSet c k l).cr c = some (s.ramping k l) := State.cr_setCar_same _ _ c.isLt

theorem State.writes_rampSet (s : State) (c : Nat) (k : Carrier) (l : Int) :
    s.Writes (· ∈ [TXF_EVT.CLAMP, TXF_CARLVL.LEVEL c]) (s.rampSet c k l) := by
  have h : s.Writes (· ∈ [TXF_EVT.CLAMP, TXF_CARLVL.LEVEL c]) (if k.want ≠ l then s.raise TXF_EVT.CLAMP else s) :=
    .ite ((State.Writes.refl s).raise List.mem_cons_self) (.refl s)
  exact (h.congr (t := State.setCar _ c (some (s.ramping k l)))).set (by simp)

/-- R126, R127: a carrier that begins its ramp-up shows its level, CLAMP where it is not the one asked for, and SEND. -/
theorem State.rampShown_leaves (s : State) (c : Fin 8) (k : Carrier) (l : Int) :
    (s.rampShown c k l).cr c = some (s.ramping k l) ∧
      (s.rampShown c k l).get (TXF_CARLVL.LEVEL c) = unsign 8 l ∧
      (k.want ≠ l → (s.rampShown c k l).bit TXF_EVT.CLAMP = true) ∧
      (s.rampShown c k l).bit (TXF_CARSTAT.SEND c) = true ∧
      s.Writes (inBlocks [6]) (s.rampShown c k l) ∧ (s.rampShown c k l).memories = s.memories ∧
      (s.rampShown c k l).slc = s.slc ∧ (s.rampShown c k l).rxc = s.rxc := by
  obtain ⟨hfit, hblk, hshown, hap⟩ := rampFields c
  have hshow := (s.rampSet c k l).writes_showTx (c / 4)
  have hcr := s.cr_rampSet c k l
  rw [State.rampShown]
  refine ⟨?_, ?_, fun hw => ?_, ?_, ?_, ?_, ?_, ?_⟩
  · rw [State.showTx_keeps (State.cr · c) fun _ _ _ => rfl]
    exact hcr
  · rw [hshow _ fun f hf => (hshown f hf).2.1, State.rampSet, State.get_set_same _ _ hfit]
    exact Nat.mod_eq_of_lt (unsign_lt 8 l)
  · rw [State.bit_eq, hshow _ fun f hf => (hshown f hf).2.2, State.rampSet, State.get_set_apart _ _ hap, if_pos hw,
      ← State.bit_eq]
    exact State.bit_raise s rfl rfl
  · rw [State.bit_send_showTx, hcr]
    rfl
  · refine State.Writes.trans ((s.writes_rampSet c k l).intoBlocks ?_) (hshow.intoBlocks fun f hf => ?_)
    · simp [hblk]
      rfl
    · rw [(hshown f hf).1]
      decide
  · rw [State.showTx_keeps State.memories fun _ _ _ => rfl,
      State.rampSet_keeps State.memories (fun _ _ _ => rfl) (fun _ _ => rfl) fun _ _ _ => rfl]
  · rw [State.showTx_keeps State.slc fun _ _ _ => rfl,
      State.rampSet_keeps State.slc (fun _ _ _ => rfl) (fun _ _ => rfl) fun _ _ _ => rfl]
  · rw [State.showTx_keeps State.rxc fun _ _ _ => rfl,
      State.rampSet_keeps State.rxc (fun _ _ _ => rfl) (fun _ _ => rfl) fun _ _ _ => rfl]

/-- A carrier that the level rules do not let start is returned (R126, R127). -/
theorem State.rampUp_refused {s : State} {c : Nat} {k : Carrier} (h : s.cr c = some k) (hp : k.phase = .gated)
    (hl : s.levelFor c k = none) : s.rampUp c = s.returnFrame c 2 := by
  unfold State.rampUp
  rw [h]
  simp only [hp, ne_eq, not_true_eq_false, if_false, hl]

/-- RAMP_UP_START of a carrier that may start (R68, R126, R127, R129, R135). -/
theorem State.rampUp_leaves {s : State} {c : Fin 8} {k : Carrier} {l : Int} (h : s.cr c = some k) (hp : k.phase = .gated)
    (hl : s.levelFor c k = some l) (hf : s.NoFrames) (hw : (vget s.rxc (c / 4)).window = none)
    (ha : ∀ a n, s.actOf c = some a → a.slice = some n → n < 16) :
    (s.rampUp c).cr c = some (s.ramping k l) ∧ (s.rampUp c).get (TXF_CARLVL.LEVEL c) = unsign 8 l ∧
      (k.want ≠ l → (s.rampUp c).bit TXF_EVT.CLAMP = true) ∧ (s.rampUp c).bit (RXF_STAT.DEAF (c / 4)) = true ∧
      (s.rampUp c).bit (TXF_CARSTAT.SEND c) = true ∧
      (s.bit (RXF_STAT.DEAF (c / 4)) = false → (s.rampUp c).get (RXF_STAT.GAINIDX (c / 4)) = 15 ∧
        (vget (s.rampUp c).rxc (c / 4)).gainBefore = s.get (RXF_STAT.GAINIDX (c / 4))) ∧
      s.Writes (inBlocks [3, 4, 6]) (s.rampUp c) ∧ (s.rampUp c).memories = s.memories := by
  have htune := State.onlyTuned_actTuned k ha
  obtain ⟨hcr, hlvl, hclamp, hsend, hwr, hmem, hslc, hrxc⟩ := (s.actTuned c k).rampShown_leaves c k l
  have hlt : c.val / 4 < 2 := by omega
  obtain ⟨hdw, hdcar, hdmem, hdeaf, hgain⟩ := State.deafen_leaves (s := (s.actTuned c k).rampShown c k l) ⟨c / 4, hlt⟩
    ((htune.frames hf).congr hslc) (by rw [hrxc, htune.rxc]; exact hw)
  have hrxf : ∀ x : Fin 2, blockOfAddr (RXF_STAT.addr x) ∉ [4, 6] := by decide
  have htx : ∀ c : Fin 8, blockOfAddr (TXF_CARLVL.addr c) ∉ [3, 4] ∧ blockOfAddr (TXF_CARSTAT.addr c) ∉ [3, 4] ∧
      blockOfAddr TXF_EVT.addr ∉ [3, 4] := by decide
  obtain ⟨hblvl, hbst, hbevt⟩ := htx c
  have hbefore : s.Writes (inBlocks [4, 6]) ((s.actTuned c k).rampShown c k l) :=
    (htune.writes.mono fun _ hk => List.mem_cons.2 (.inl (List.mem_singleton.1 hk))).trans
      (hwr.mono fun _ hk => List.mem_cons_of_mem _ hk)
  have hramp : (s.actTuned c k).ramping k l = s.ramping k l := by
    rw [State.ramping, htune.clk, htune.writes.shapeOf fun _ hk => .inl (List.mem_singleton.1 hk)]
    rfl
  rw [State.rampUp_eq h hp hl ha]
  refine ⟨?_, ?_, fun hne => ?_, hdeaf, ?_, fun hd => ?_, ?_, ?_⟩
  · rw [State.cr, hdcar, ← hramp]
    exact hcr
  · rw [hdw.get_of_block hblvl, hlvl]
  · rw [State.bit_eq, hdw.get_of_block hbevt]
    exact hclamp hne
  · rw [State.bit_eq, hdw.get_of_block hbst]
    exact hsend
  · obtain ⟨h15, hput⟩ := hgain (by rw [State.bit_eq, hbefore.get_of_block (hrxf ⟨c / 4, hlt⟩)]; exact hd)
    exact ⟨h15, hput.trans (hbefore.get_of_block (hrxf ⟨c / 4, hlt⟩))⟩
  · refine (hbefore.mono fun _ hk => List.mem_cons_of_mem _ hk).trans (hdw.mono fun a hk => ?_)
    simp only [inBlocks, List.mem_cons, List.not_mem_nil, or_false] at hk ⊢
    omega
  · rw [hdmem, hmem, htune.mem]

end Sys2Proof.Machine
end

section
namespace Sys2Proof.Machine

/-! ### The launch of a frame and its stamp (R119, R129, R265, R269) -/

theorem txStamp_addr : ∀ c : Fin 8, TSU_TXST0.addr c + 4 = TSU_TXST1.addr c ∧ TSU_TXST0.addr c ≠ TSU_TXST1.addr c ∧
    TXF_EVT.addr ≠ TSU_TXST0.addr c ∧ TXF_EVT.addr ≠ TSU_TXST1.addr c := by decide

/-- R269: what a stamp record of a carrier reads. -/
theorem State.stampAt_leaves (s : State) (c : Fin 8) (v : Nat) :
    (s.stampAt (TSU_TXST0.addr c) v).get (TSU_TXST0.NS c) = tbNs v ∧
      (s.stampAt (TSU_TXST0.addr c) v).get (TSU_TXST1.SEC c) = tbSec v % 65536 ∧
      (s.stampAt (TSU_TXST0.addr c) v).get (TSU_TXST1.FRAC c) = tbFrac v ∧
      s.Writes (inRegs [TSU_TXST0.addr c, TSU_TXST1.addr c]) (s.stampAt (TSU_TXST0.addr c) v) := by
  obtain ⟨hnext, hne, -⟩ := txStamp_addr c
  have hns : tbNs v < 2 ^ 32 := (Nat.mod_lt _ (by decide)).trans (by decide)
  have hfrac : tbFrac v < 2 ^ 16 := Nat.mod_lt _ (by decide)
  unfold State.stampAt
  rw [hnext]
  refine ⟨?_, ?_, ?_, ?_⟩
  · rw [State.get_setReg_ne _ _ (l := TSU_TXST0.NS c) hne,
      State.get_setReg_same _ _ (l := TSU_TXST0.NS c) (a := TSU_TXST0.addr c) rfl]
    change fieldOf _ 0 32 = _
    rw [fieldOf_ofNat (by decide), Nat.pow_zero, Nat.div_one, Nat.mod_eq_of_lt hns]
  · rw [State.get_setReg_same _ _ (l := TSU_TXST1.SEC c) (a := TSU_TXST1.addr c) rfl]
    change fieldOf _ 16 16 = _
    rw [fieldOf_ofNat (by decide)]
    omega
  · rw [State.get_setReg_same _ _ (l := TSU_TXST1.FRAC c) (a := TSU_TXST1.addr c) rfl]
    change fieldOf _ 0 16 = _
    rw [fieldOf_ofNat (by decide)]
    omega
  · exact ((State.Writes.refl s).setReg fun k hk => by simp [inRegs, hk]).setReg fun k hk => by simp [inRegs, hk]

/-- The carrier launched, and its stamp. -/
def State.stampedLaunch (s : State) (c : Nat) (k : Carrier) : State :=
  (s.setCar c (some (s.launched (c / 4) k))).stampAt (TSU_TXST0.addr c) k.launch

/-- FRAME_LAUNCH of a ramping carrier: its stamp stands, and a mask that does not ascend is reported. -/
theorem State.frameLaunch_cases {s : State} {c : Nat} {k : Carrier} (h : s.cr c = some k) (hp : k.phase = .rampUp) :
    s.frameLaunch c = s.stampedLaunch c k ∨ s.frameLaunch c = (s.stampedLaunch c k).raise TXF_EVT.MASKBAD := by
  unfold State.frameLaunch
  rw [h]
  simp only [hp, ne_eq, not_true_eq_false, if_false]
  split
  · split_ifs
    · exact .inl rfl
    · exact .inr rfl
  · exact .inl rfl

/-! ### The end of a ramp-down (R122, R129) -/

theorem State.undeafen_keeps {β : Type} (f : State → β) (h : ∀ s l v, f (State.set s l v) = f s) (s : State) (x : Nat) :
    f (s.undeafen x) = f s := by
  unfold State.undeafen State.setGain
  split_ifs
  · rw [h, h, h]
  · rfl

theorem State.paCheck_keeps {β : Type} (f : State → β) (h : ∀ s l v, f (State.set s l v) = f s) (s : State) (x : Nat) :
    f (s.paCheck x) = f s := by
  unfold State.paCheck
  split_ifs
  · rfl
  · exact s.undeafen_keeps f h x

theorem State.writes_paCheck (s : State) (x : Fin 2) : s.Writes (inBlocks [3, 4]) (s.paCheck x) := by
  have hblk := rxfFields_block x
  refine .ite (.refl s) (.ite ?_ (.refl s))
  exact ((State.Writes.refl s).set (hblk _ List.mem_cons_self)).trans
    ((State.writes_setGain _ x _).mono fun k hk => hblk k (List.mem_cons_of_mem _ hk))

/-- R68: the chain hears again. -/
theorem State.bit_deaf_undeafen (s : State) (x : Fin 2) : (s.undeafen x).bit (RXF_STAT.DEAF x) = false := by
  obtain ⟨hfit, hap⟩ := deaf_apart_gain x
  unfold State.undeafen
  split_ifs with hd
  · rw [State.bit_eq, State.writes_setGain _ x _ _ hap, ← State.bit_eq]
    exact s.bit_set_zero hfit
  · exact Bool.eq_false_iff.2 hd

/-- R129: the PA is off once the last carrier of its chain is released. -/
theorem State.paOn_freeCar {s : State} {c : Fin 8} {k : Carrier} {status : Nat} (h : s.cr c = some k)
    (hother : ∀ d o, s.cr d = some o → d ≠ c.val → d / 4 = c.val / 4 → o.on = false) :
    (s.freeCar c status).paOn (c / 4) = false := by
  have hcr (d : Nat) : (s.freeCar c status).cr d = (s.setCar c none).cr d := by
    rw [State.cr, (State.keepsCarriers_freeCar status h).car]
    rfl
  refine List.any_eq_false.2 fun d hd => ?_
  rw [hcr]
  by_cases hdc : d = c
  · rw [hdc, s.cr_setCar_same none c.isLt]
    exact Bool.false_ne_true
  · rw [State.cr, State.setCar, vget_vset_ne s.car _ hdc, ← State.cr]
    cases ho : s.cr d with
    | none => exact Bool.false_ne_true
    | some o => simpa using hother d o ho hdc (mem_carriersOf.1 hd)

/-- The carrier released with its result, and its chain left to hear. -/
def State.rampedDown (s : State) (c : Nat) (k : Carrier) : State := (s.freeCar c k.result).paCheck (c / 4)

/-- RAMP_DOWN_END of a frame that owes no acknowledgement and has no copy to come. -/
theorem State.rampDownEnd_eq {s : State} {c : Nat} {k : Carrier} (h : s.cr c = some k) (hp : k.phase = .rampDown)
    (hack : k.ack = false) (hcop : k.copies = 0) : s.rampDownEnd c =
      if k.result ≠ 0 then s.rampedDown c k else
        match s.actOf c with
        | some a => (s.rampedDown c k).txSent a
        | none => s.rampedDown c k := by
  unfold State.rampDownEnd
  rw [h]
  simp only [hp, hack, hcop, ne_eq, not_true_eq_false, if_false, Nat.lt_irrefl, and_false, Bool.false_eq_true]
  rfl

theorem State.rampedDown_leaves {s : State} {c : Fin 8} {k : Carrier} (h : s.cr c = some k) :
    (s.rampedDown c k).cr c = none ∧ (s.rampedDown c k).get (TXF_CARSTAT.STATUS c) = k.result % 16 ∧
      ((∀ d o, s.cr d = some o → d ≠ c.val → d / 4 = c.val / 4 → o.on = false) →
        (s.rampedDown c k).bit (RXF_STAT.DEAF (c / 4)) = false) ∧
      (s.rampedDown c k).lnk = s.lnk ∧ (s.rampedDown c k).memories = s.memories := by
  obtain ⟨hcr, hst, -, hlnk, hmem⟩ := State.freeCar_leaves k.result h
  have hlt : c.val / 4 < 2 := by omega
  have hblk : ∀ c : Fin 8, blockOfAddr (TXF_CARSTAT.addr c) ∉ [3, 4] := by decide
  unfold State.rampedDown
  refine ⟨?_, ?_, fun hother => ?_, ?_, ?_⟩
  · exact (State.paCheck_keeps (State.cr · c) (fun _ _ _ => rfl) _ _).trans hcr
  · exact ((State.writes_paCheck _ ⟨c / 4, hlt⟩).get_of_block (hblk c)).trans hst
  · rw [State.paCheck, State.paOn_freeCar h hother]
    exact State.bit_deaf_undeafen _ ⟨c / 4, hlt⟩
  · rw [State.paCheck_keeps State.lnk fun _ _ _ => rfl, hlnk]
  · rw [State.paCheck_keeps State.memories fun _ _ _ => rfl, hmem]

theorem nocar_apart : TXF_EVT.NOCAR.fits = true ∧
    ∀ c : Fin 8, ∀ f ∈ TXF_CARSTAT.STATUS c :: releaseFields (c / 4), TXF_EVT.NOCAR.apart f = true := by decide

/-- R126: the refusal of a frame that no action holds shows NOCAR. -/
theorem State.bit_nocar_returnFrame {s : State} {c : Fin 8} {k : Carrier} (h : s.cr c = some k) (ha : s.actOf c = none) :
    (s.returnFrame c 2).bit TXF_EVT.NOCAR = true := by
  rw [State.returnFrame_eq h ha, State.bit_eq, if_pos rfl,
    State.get_freeCar (s := s.raise TXF_EVT.NOCAR) h (nocar_apart.2 c), ← State.bit_eq]
  exact s.bit_raise nocar_apart.1 rfl

end Sys2Proof.Machine

open Sys2Proof Sys2Proof.Machine

/-- Settles O20: a clause for each of RAMP_UP_START's two answers, and one for each of the three instants that follow. -/
theorem carrierLifeCompletes : Obligations.CarrierLifeCompletes := by
  unfold Obligations.CarrierLifeCompletes
  refine ⟨fun c k s hcr hp hl ha => ?_, fun c k l s hcr hp hl hf hw ha => ?_, fun c k s hcr hp => ?_, fun c k s hcr hp => ?_,
    fun c k s hcr hp hack hcop hact => ?_⟩
  · obtain ⟨hnone, hst, -⟩ := State.returnFrame_leaves (status := 2) hcr ha
    refine ⟨s.rampUp c, rfl, ?_⟩
    rw [State.rampUp_refused hcr hp hl]
    exact ⟨hnone, hst, State.bit_nocar_returnFrame hcr ha, keepsMemory_of_memories (s.memories_returnFrame c 2)⟩
  · obtain ⟨hramp, hlvl, hclamp, hdeaf, hsend, hgain, hwr, hmem⟩ := State.rampUp_leaves hcr hp hl hf hw ha
    exact ⟨s.rampUp c, rfl, hramp, hlvl, hclamp, hdeaf, hsend, hgain, hwr.keepsBlocks, keepsMemory_of_memories hmem⟩
  · obtain ⟨hns, hsec, hfrac, hwr⟩ := (s.setCar c (some (s.launched (c / 4) k))).stampAt_leaves c k.launch
    obtain ⟨-, -, he0, he1⟩ := txStamp_addr c
    have hcar : (s.stampedLaunch c k).cr c = some (s.launched (c / 4) k) := s.cr_setCar_same _ c.isLt
    have hframe : s.Writes (inRegs [TSU_TXST0.addr c, TSU_TXST1.addr c, TXF_EVT.addr]) (s.stampedLaunch c k) :=
      hwr.mono fun _ hk => List.mem_append_left [TXF_EVT.addr] hk
    refine ⟨s.frameLaunch c, rfl, ?_⟩
    rcases State.frameLaunch_cases hcr hp with he | he
    · rw [he]
      exact ⟨hcar, hns, hsec, hfrac, hframe.keepsRegs, keepsMemory_of_memories rfl⟩
    · rw [he]
      have hkeep (l : Loc) (hl : l.addr = TSU_TXST0.addr c ∨ l.addr = TSU_TXST1.addr c) :
          ((s.stampedLaunch c k).raise TXF_EVT.MASKBAD).get l = (s.stampedLaunch c k).get l :=
        State.get_incBy_apart _ 1 (Loc.apart_of_addr fun ha =>
          hl.elim (fun h => he0 (ha.symm.trans h)) fun h => he1 (ha.symm.trans h))
      exact ⟨hcar, (hkeep _ (.inl rfl)).trans hns, (hkeep _ (.inr rfl)).trans hsec, (hkeep _ (.inr rfl)).trans hfrac,
        (hframe.raise (by simp [inRegs, TXF_EVT.MASKBAD])).keepsRegs, keepsMemory_of_memories (State.memories_raise ..)⟩
  · refine ⟨_, rfl, ?_⟩
    rw [State.modCar_eq _ hcr, if_pos hp]
    exact ⟨s.cr_setCar_same _ c.isLt, fun _ _ => rfl, keepsMemory_of_memories rfl⟩
  · obtain ⟨hnone, hst, hhear, hlnk, hmem⟩ := State.rampedDown_leaves hcr
    refine ⟨s.rampDownEnd c, rfl, ?_⟩
    rw [State.rampDownEnd_eq hcr hp hack hcop]
    rcases hact with hact | ⟨hres, a, hact, hwant⟩
    · have hsame : (if k.result ≠ 0 then s.rampedDown c k else s.rampedDown c k) = s.rampedDown c k := ite_self _
      rw [hact, hsame]
      exact ⟨hnone, hst, hhear, fun a ha => (Option.some_ne_none a ha.symm).elim, keepsMemory_of_memories hmem⟩
    · rw [hact, if_neg (not_not.2 hres)]
      dsimp only
      rw [State.txSent, if_pos hwant]
      refine ⟨hnone, hst, hhear, fun b hb => ?_, keepsMemory_of_memories hmem⟩
      obtain rfl := Option.some.inj hb
      rw [← hlnk]
      rfl
end

section
namespace Sys2Proof.Machine

/-! ### What the end of a frame leaves of the receive chains (R113)

A frame in reception may end with the action, the packet, the carrier and the scan it served. None of them reaches a register
of RXF or what the chains keep: the addresses of RXF lie below those of every register with an index that is written. -/

/-- A field outside RXF. -/
abbrev offRxf (k : Loc) : Prop := k.addr < 0x20030000 ∨ 0x20040000 ≤ k.addr

theorem offRxf_add {k : Loc} {a b : Nat} (hk : k.addr = a + b) (ha : 0x20040000 ≤ a) : offRxf k :=
  .inr (hk ▸ Nat.le_add_right_of_le ha)

theorem offRxf_nb (n k lo w : Nat) : offRxf (nb n k lo w) :=
  offRxf_add rfl (Nat.le_add_right_of_le (by decide))

theorem offRxf_backoff (n : Nat) : offRxf (boBE n) ∧ offRxf (boCNT n) := by
  unfold boBE boCNT
  split_ifs
  · decide
  · exact ⟨offRxf_nb .., offRxf_nb ..⟩

theorem offRxf_calFields (x : Nat) : ∀ k ∈ calFields x, offRxf k := by
  simp only [calFields, syLock, List.forall_mem_cons, List.not_mem_nil, false_imp_iff, implies_true, and_true]
  refine ⟨?_, offRxf_add rfl (by decide), offRxf_add rfl (by decide), ?_⟩
  · split_ifs <;> decide
  · split_ifs <;> decide

theorem offRxf_shownTx (x : Nat) : ∀ k ∈ shownTx x, offRxf k := by
  simp only [shownTx, List.mem_append, List.mem_flatMap, List.mem_cons, List.not_mem_nil, or_false]
  rintro k (⟨c, -, rfl | rfl | rfl | rfl | rfl⟩ | rfl | rfl) <;> exact offRxf_add rfl (by decide)

theorem offRxf_tuneFields (n : Nat) : ∀ k ∈ tuneFields n, offRxf k := by
  simp only [tuneFields, List.mem_cons, List.not_mem_nil, or_false]
  rintro k (rfl | rfl | rfl) <;> exact offRxf_add rfl (by decide)

/-- The receive chains, the registers of RXF and the memories of `s` are those of `u`. -/
structure State.KeepsRxf (u s : State) : Prop where
  rxc : s.rxc = u.rxc
  mem : s.memories = u.memories
  writes : u.Writes offRxf s

namespace State.KeepsRxf

variable {u s t : State}

theorem refl (s : State) : s.KeepsRxf s := ⟨rfl, rfl, .refl s⟩

theorem edit (h : u.KeepsRxf s) (hr : t.regs = s.regs := by rfl) (hx : t.rxc = s.rxc := by rfl)
    (hm : t.memories = s.memories := by rfl) : u.KeepsRxf t :=
  ⟨hx.trans h.rxc, hm.trans h.mem, h.writes.congr hr⟩

theorem set (h : u.KeepsRxf s) {k v} (hk : offRxf k := by decide) : u.KeepsRxf (s.set k v) :=
  ⟨h.rxc, h.mem, h.writes.set hk⟩

theorem inc (h : u.KeepsRxf s) {k} (hk : offRxf k := by decide) : u.KeepsRxf (s.inc k) := ⟨h.rxc, h.mem, h.writes.inc hk⟩

theorem raise (h : u.KeepsRxf s) {k} (hk : offRxf k := by decide) : u.KeepsRxf (s.raise k) :=
  ⟨h.rxc, h.mem, h.writes.raise hk⟩

theorem ite {c : Prop} [Decidable c] (hs : u.KeepsRxf s) (ht : u.KeepsRxf t) : u.KeepsRxf (if c then s else t) := by
  split
  · exact hs
  · exact ht

theorem each {α : Type} {as : List α} {f : State → α → State} (h : u.KeepsRxf s)
    (hf : ∀ s a, u.KeepsRxf s → u.KeepsRxf (f s a)) : u.KeepsRxf (s.each as f) :=
  State.each_induct h fun s a _ h => hf s a h

theorem pulse (h : u.KeepsRxf s) {p} : u.KeepsRxf (s.pulse p) :=
  h.edit (State.pulse_keeps State.regs (fun _ _ => rfl) s p) (State.pulse_keeps State.rxc (fun _ _ => rfl) s p)
    (s.memories_pulse p)

/-! #### Packets (R216, R217, R247, R252 to R254) -/

theorem modPkt (h : u.KeepsRxf s) {q pid f} : u.KeepsRxf (s.modPkt q pid f) := h.edit

theorem allocCells (h : u.KeepsRxf s) {cs} : u.KeepsRxf (s.allocCells cs) := .each h.edit fun _ _ h => h.edit

theorem jjCredit (h : u.KeepsRxf s) {p ctl n} : u.KeepsRxf (s.jjCredit p ctl n) := .ite h h.edit

theorem jjHold (h : u.KeepsRxf s) {p ctl cs} : u.KeepsRxf (s.jjHold p ctl cs) :=
  have hmod (f : JjPort → JjPort) : u.KeepsRxf (s.modJj p f) := h.edit
  (hmod _).jjCredit

theorem jjTake (h : u.KeepsRxf s) {p ctl} : u.KeepsRxf (s.jjTake p ctl) :=
  have hmod {t : State} (h : u.KeepsRxf t) (f : JjPort → JjPort) : u.KeepsRxf (t.modJj p f) := h.edit
  (hmod h.allocCells _).jjHold

theorem jjReplenish (h : u.KeepsRxf s) : u.KeepsRxf s.jjReplenish := .each h fun _ _ h => .ite h.jjTake h

theorem freeCells (h : u.KeepsRxf s) {cs} : u.KeepsRxf (s.freeCells cs) := by
  unfold State.freeCells
  exact jjReplenish h.edit

theorem releaseBuf (h : u.KeepsRxf s) {p} : u.KeepsRxf (s.releaseBuf p) := by
  unfold State.releaseBuf
  split
  · exact h.edit
  · exact freeCells h.edit

theorem removePkt (h : u.KeepsRxf s) {q p} : u.KeepsRxf (s.removePkt q p) := by
  unfold State.removePkt
  exact releaseBuf h.edit

theorem dropped (h : u.KeepsRxf s) {q p} : u.KeepsRxf ((s.removePkt q p).inc (QSC_DROP.COUNT q)) :=
  h.removePkt.inc (offRxf_add rfl (by decide))

theorem dropGroup (h : u.KeepsRxf s) {q g} : u.KeepsRxf (s.dropGroup q g) := by
  unfold State.dropGroup
  exact ((h.each fun _ _ h => .ite h.modPkt h.dropped).inc).raise

theorem dropPkt (h : u.KeepsRxf s) {q p} : u.KeepsRxf (s.dropPkt q p) := by
  unfold State.dropPkt
  split
  · exact h
  · split
    · exact .ite h.dropped h.dropped.dropGroup
    · exact h.dropped

theorem dropExpired (h : u.KeepsRxf s) {q p} : u.KeepsRxf (s.dropExpired q p) := .ite h.dropPkt.inc h

theorem pktReleased (h : u.KeepsRxf s) {q p} : u.KeepsRxf (s.pktReleased q p) :=
  h.removePkt.inc (offRxf_add rfl (by decide))

theorem pktKept (h : u.KeepsRxf s) {q p} : u.KeepsRxf (s.pktKept q p) :=
  .ite (.ite h.dropped.inc h.dropped) (.ite h.dropExpired h.modPkt)

/-! #### The outcome of an action of LNK (R157, R176 to R178, R198, R201, R212) -/

theorem retryReset (h : u.KeepsRxf s) {n} : u.KeepsRxf (s.retryReset n) := h.edit

theorem retryDrop (h : u.KeepsRxf s) {n} : u.KeepsRxf (s.retryDrop n) := by
  unfold State.retryDrop
  exact .ite ((raise h.edit (offRxf_add rfl (by decide))).raise) h.edit

theorem rngRequest (h : u.KeepsRxf s) : u.KeepsRxf s.rngRequest.2 := by
  refine edit (s := if s.sec.rng.reqs < 1024 then s else s.rngSeed s.sec.rng.core) ?_
  exact .ite h h.edit

theorem rngDraw (h : u.KeepsRxf s) {be} : u.KeepsRxf (s.rngDraw be).2 := by
  unfold State.rngDraw
  split_ifs
  · exact h.rngRequest
  · exact h
  · exact h.edit

theorem boReset (h : u.KeepsRxf s) {n} : u.KeepsRxf (s.boReset n) := (h.set (offRxf_backoff n).1).set (offRxf_backoff n).2

theorem boRaise (h : u.KeepsRxf s) {n} : u.KeepsRxf (s.boRaise n) :=
  (h.rngDraw.set (offRxf_backoff n).1).set (offRxf_backoff n).2

theorem txReport (h : u.KeepsRxf s) {status nbr fails cell} : u.KeepsRxf (s.txReport status nbr fails cell) :=
  h.set.set.set.set

theorem rxReport (h : u.KeepsRxf s) {status nbr slice cell} : u.KeepsRxf (s.rxReport status nbr slice cell) :=
  h.set.set.set.set.set

theorem releaseSlice (h : u.KeepsRxf s) {n} : u.KeepsRxf (s.releaseSlice n) := by
  unfold State.releaseSlice
  split
  · exact h.set (offRxf_add rfl (by decide))
  · exact h

theorem endTx (h : u.KeepsRxf s) {a} : u.KeepsRxf (s.endTx a) := by
  unfold State.endTx
  exact releaseSlice h.edit

theorem endRx (h : u.KeepsRxf s) {a} : u.KeepsRxf (s.endRx a) := by
  have hlist : u.KeepsRxf { s with lnk := { s.lnk with
      rx := s.lnk.rx.filter (fun b => b.id ≠ a.id), rxReq := s.lnk.rxReq.filter (· ≠ a.id) } } := h.edit
  exact hlist.releaseSlice.set.set.set

theorem failPkt (h : u.KeepsRxf s) {a n q p status} : u.KeepsRxf (s.failPkt a n q p status) := by
  unfold State.failPkt
  extract_lets counted nbr cause backoff _ dropped down kept
  have hnbr : u.KeepsRxf nbr := .ite (h.inc.inc (offRxf_nb ..)) h.inc
  have hcause : u.KeepsRxf cause := .ite hnbr.inc (.ite hnbr.inc hnbr)
  have hback : u.KeepsRxf backoff := .ite hcause.boRaise hcause
  have hdrop : u.KeepsRxf dropped := hback.inc.raise.dropPkt
  have hdown : u.KeepsRxf down := .ite hdrop.retryDrop hdrop
  have hkept : u.KeepsRxf kept := hback.modPkt
  exact .ite hdown.txReport hkept.pktKept.txReport

theorem txOutcome (h : u.KeepsRxf s) {a status} : u.KeepsRxf (s.txOutcome a status) := by
  unfold State.txOutcome
  extract_lets ended
  have hend : u.KeepsRxf ended := h.endTx
  split
  · exact hend.txReport
  split
  · exact hend.txReport
  next q _ _ p _ =>
    extract_lets out acked told
    have hout : u.KeepsRxf out := hend.pktReleased.inc
    have hacked : u.KeepsRxf acked := .ite (hout.inc (offRxf_nb ..)).retryReset hout
    have htold : u.KeepsRxf told := .ite hacked.pulse hacked
    have hlong : u.KeepsRxf ((ended.inc LNK_DROPCNT.LONG).raise LNK_EVT.LONG) := hend.inc.raise
    exact .ite htold.boReset.txReport (.ite hend.failPkt (.ite hlong.dropPkt.txReport hend.pktKept.txReport))

theorem scanStop (h : u.KeepsRxf s) : u.KeepsRxf s.scanStop := by
  have hrun : u.KeepsRxf (s.set LNK_SCAN.RUN 0) := h.set
  unfold State.scanStop
  dsimp only
  split
  · exact set hrun.edit (offRxf_add rfl (by decide))
  · exact hrun

theorem modLnk (h : u.KeepsRxf s) {l} : u.KeepsRxf { s with lnk := l } := h.edit

theorem brxEnd (h : u.KeepsRxf s) {n held r} : u.KeepsRxf (s.brxEnd n held r) := by
  unfold State.brxEnd
  extract_lets freed _ found _ recovered _ missed marked _ lost
  have hfreed : u.KeepsRxf freed := .ite (h.set (offRxf_nb ..)) h
  have hfound : u.KeepsRxf found := .ite hfreed (hfreed.set (offRxf_nb ..))
  have hrec : u.KeepsRxf recovered := hfound.modLnk.raise
  have hmissed : u.KeepsRxf missed := hfreed.set (offRxf_nb ..)
  have hmarked : u.KeepsRxf marked := hmissed.set (offRxf_nb ..)
  have hlost : u.KeepsRxf lost := .ite hmarked.modLnk.raise hmissed
  split
  · exact h
  · exact .ite (.ite (.ite hrec.scanStop hrec) hfound) (.ite hfreed (.ite hmissed (.ite hlost.set hlost)))

/-! #### A frame given up (R113, R114, R133) -/

theorem showTx (h : u.KeepsRxf s) {x} : u.KeepsRxf (s.showTx x) :=
  ⟨(State.showTx_keeps State.rxc (fun _ _ _ => rfl) s x).trans h.rxc,
    (State.keepsRadio_showTx s x).mem.trans h.mem, h.writes.trans ((s.writes_showTx x).mono (offRxf_shownTx x))⟩

theorem calRun (h : u.KeepsRxf s) {x} : u.KeepsRxf (s.calRun x) :=
  ⟨h.rxc, h.mem, h.writes.trans ((s.writes_calRun x).mono (offRxf_calFields x))⟩

theorem startHeld (h : u.KeepsRxf s) {x} : u.KeepsRxf (s.startHeld x) := by
  unfold State.startHeld
  split
  · have htuned (lo : Nat) : u.KeepsRxf (s.tuned x lo) := set h.edit (offRxf_add rfl (by decide))
    exact .ite (htuned _).calRun.showTx h
  · exact h

theorem freeCar (h : u.KeepsRxf s) {c status} : u.KeepsRxf (s.freeCar c status) := by
  have hfreed : u.KeepsRxf (s.released c status) := set h.edit (offRxf_add rfl (by decide))
  unfold State.freeCar
  split
  · exact h
  · exact hfreed.showTx.set.set.set.startHeld

theorem unreserve (h : u.KeepsRxf s) {c} : u.KeepsRxf (s.unreserve c) := by
  unfold State.unreserve
  split
  · exact h.freeCar
  · exact h

theorem phyRecord (h : u.KeepsRxf s) {n code f lq evm} : u.KeepsRxf (s.phyRecord n code f lq evm) := by
  have hstat {t : State} (h : u.KeepsRxf t) {lo w v} : u.KeepsRxf (t.set ⟨PHY_STAT.addr n, lo, w⟩ v) :=
    h.set (offRxf_add rfl (by decide))
  have hqual {t : State} (h : u.KeepsRxf t) {lo w v} : u.KeepsRxf (t.set ⟨PHY_QUAL.addr n, lo, w⟩ v) :=
    h.set (offRxf_add rfl (by decide))
  exact hqual (hqual (hqual (hstat (hstat (hstat (hstat (hstat h)))))))

theorem applyTune (h : u.KeepsRxf s) {n f w} : u.KeepsRxf (s.applyTune n f w) :=
  ⟨h.rxc, h.mem, h.writes.trans ((s.writes_applyTune n f w).mono (offRxf_tuneFields n))⟩

theorem endSync (h : u.KeepsRxf s) {n} : u.KeepsRxf (s.endSync n) := by
  have hidle : u.KeepsRxf ((s.set (SLC_STAT.SYNC n) 0).modSlc n (fun c => { c with frame := none })) :=
    edit (h.set (k := SLC_STAT.SYNC n) (v := 0) (offRxf_add rfl (by decide)))
  unfold State.endSync State.applyHeld
  split
  · exact hidle.applyTune
  · exact hidle

theorem lnkFailed (h : u.KeepsRxf s) {n code} : u.KeepsRxf (s.lnkFailed n code) := by
  unfold State.lnkFailed
  split
  · exact .ite h.txOutcome h
  · split
    · exact .ite h.endRx.rxReport.brxEnd h.endRx.rxReport
    · exact h.rxReport

theorem draw (h : u.KeepsRxf s) : u.KeepsRxf s.draw := h.edit

theorem abandon (h : u.KeepsRxf s) {n code} : u.KeepsRxf (s.abandon n code) := by
  unfold State.abandon
  split
  · exact h
  · exact (h.draw.phyRecord.inc (offRxf_add rfl (by decide))).endSync.unreserve.lnkFailed

end State.KeepsRxf

end Sys2Proof.Machine
end

section
namespace Sys2Proof.Machine

/-! ### START of a taste window (R77) -/

/-- The fields of RXF that a START may write. -/
def tasteFields (x : Nat) : List Loc :=
  [RXF_STAT.TBUSY x, RXF_TCNT.SKIP x, byChain x RXF_EVT.TSKIPA RXF_EVT.TSKIPB]

/-- What a START may write: those, and SLC. -/
abbrev tasteWritten (x : Nat) (k : Loc) : Prop := k ∈ tasteFields x ∨ inBlocks [4] k

/-- R77: no window can run on the chain. -/
abbrev State.tasteIdle (s : State) (x : Nat) : Prop :=
  s.get (RXF_STAT.MODE x) = 0 ∨ s.bit (RXF_STAT.DEAF x) = true ∨ s.get (RXF_TASTE.WAVE x) = 0 ∨ (!s.chainClock x) = true

/-- The detector's window. -/
def State.detectorStarted (s : State) (x : Nat) : State :=
  (s.modRxc x (fun c => { c with window := some none })).set (RXF_STAT.TBUSY x) 1

/-- The window of slice `n`, which is tuned for it. -/
def State.windowTuned (s : State) (x n : Nat) : State :=
  let t := (s.modRxc x (fun c => { c with window := some (some n) })).set (RXF_STAT.TBUSY x) 1
  let t := ((t.set (SLC_STAT.TASTE n) 1).set (SLC_STAT.MODE n) 2).set (SLC_STAT.CHAIN n) x
  t.applyTune n (s.get (RXF_TFREQ.FREQ x)) (s.get (RXF_TASTE.WAVE x))

/-- That slice, and what shows it. -/
def State.windowOpened (s : State) (x n : Nat) : State := (s.windowTuned x n).showSlices

section
variable {s : State} {x : Nat}

theorem State.tasteStart_running (h : (vget s.rxc x).window.isSome = true) : s.tasteStart x = s := if_pos h

theorem State.tasteStart_idle (hw : (vget s.rxc x).window = none) (h : s.tasteIdle x) :
    s.tasteStart x = s.skipTaste x :=
  (if_neg (by rw [hw]; exact Bool.false_ne_true)).trans (if_pos h)

theorem State.tasteStart_detector (hw : (vget s.rxc x).window = none) (h : ¬ s.tasteIdle x)
    (hm : s.get (RXF_STAT.MODE x) = 2) : s.tasteStart x = s.detectorStarted x :=
  (if_neg (by rw [hw]; exact Bool.false_ne_true)).trans ((if_neg h).trans (if_pos hm))

theorem State.tasteStart_full (hw : (vget s.rxc x).window = none) (h : ¬ s.tasteIdle x)
    (hm : s.get (RXF_STAT.MODE x) ≠ 2) : s.tasteStart x = match s.freeSlice with
      | none => s.skipTaste x
      | some n => s.windowOpened x n :=
  (if_neg (by rw [hw]; exact Bool.false_ne_true)).trans ((if_neg h).trans (if_neg hm))

/-- R77: the four answers to a START. -/
theorem State.tasteStart_cases (s : State) (x : Nat) : s.tasteStart x = s ∨ s.tasteStart x = s.skipTaste x ∨
    s.tasteStart x = s.detectorStarted x ∨
    ∃ n, s.freeSlice = some n ∧ s.tasteStart x = s.windowOpened x n := by
  cases hw : (vget s.rxc x).window with
  | some w => exact .inl (State.tasteStart_running (by rw [hw]; rfl))
  | none =>
    by_cases hi : s.tasteIdle x
    · exact .inr (.inl (State.tasteStart_idle hw hi))
    by_cases hm : s.get (RXF_STAT.MODE x) = 2
    · exact .inr (.inr (.inl (State.tasteStart_detector hw hi hm)))
    have hfull := State.tasteStart_full hw hi hm
    cases hf : s.freeSlice with
    | none =>
      rw [hf] at hfull
      exact .inr (.inl hfull)
    | some n =>
      rw [hf] at hfull
      exact .inr (.inr (.inr ⟨n, rfl, hfull⟩))

theorem State.lt_of_freeSlice {n : Nat} (h : s.freeSlice = some n) : n < 16 := by
  unfold State.freeSlice at h
  split_ifs at h
  exact List.mem_range.1 (List.mem_of_find?_eq_some h)

end

theorem State.writes_skipTaste (s : State) (x : Nat) : s.Writes (tasteWritten x) (s.skipTaste x) :=
  ((State.Writes.refl s).inc (k := RXF_TCNT.SKIP x) (.inl (by simp [tasteFields]))).raise (.inl (by simp [tasteFields]))

theorem State.writes_detectorStarted (s : State) (x : Nat) : s.Writes (tasteWritten x) (s.detectorStarted x) := by
  have hrxc : s.Writes (tasteWritten x) (s.modRxc x (fun c => { c with window := some none })) := (State.Writes.refl s).congr
  exact hrxc.set (.inl (by simp [tasteFields]))

theorem slcWindow_block : ∀ n : Fin 16, ∀ k ∈ [SLC_STAT.TASTE n, SLC_STAT.MODE n, SLC_STAT.CHAIN n] ++ tuneFields n,
    inBlocks [4] k := by decide

theorem State.writes_windowTuned (s : State) (x : Nat) (n : Fin 16) : s.Writes (tasteWritten x) (s.windowTuned x n) := by
  have hblk {k : Loc} (hk : k ∈ [SLC_STAT.TASTE n, SLC_STAT.MODE n, SLC_STAT.CHAIN n] ++ tuneFields n) : tasteWritten x k :=
    .inr (slcWindow_block n k hk)
  have htaste : tasteWritten x (SLC_STAT.TASTE n) := hblk (by simp)
  have hmode : tasteWritten x (SLC_STAT.MODE n) := hblk (by simp)
  have hchain : tasteWritten x (SLC_STAT.CHAIN n) := hblk (by simp)
  have hbusy : tasteWritten x (RXF_STAT.TBUSY x) := .inl (by simp [tasteFields])
  have hrxc : s.Writes (tasteWritten x) (s.modRxc x (fun c => { c with window := some (some n.val) })) :=
    (State.Writes.refl s).congr
  exact ((((hrxc.set hbusy).set htaste).set hmode).set hchain).trans
    ((State.writes_applyTune _ n _ _).mono fun k hk => hblk (List.mem_append_right _ hk))

theorem State.writes_tasteStart (s : State) (x : Nat) : s.Writes (tasteWritten x) (s.tasteStart x) := by
  obtain h | h | h | ⟨n, hf, h⟩ := s.tasteStart_cases x
  · rw [h]
    exact .refl s
  · rw [h]
    exact s.writes_skipTaste x
  · rw [h]
    exact s.writes_detectorStarted x
  · rw [h]
    exact (s.writes_windowTuned x ⟨n, State.lt_of_freeSlice hf⟩).trans
      ((State.writes_showSlices _).mono fun k hk => .inr (List.mem_singleton.2 (shownSlices_block k hk)))

theorem State.windowTuned_keeps {β : Type} (f : State → β) (hset : ∀ s l v, f (State.set s l v) = f s)
    (hslc : ∀ s n g, f (State.modSlc s n g) = f s) (hrxc : ∀ s x g, f (State.modRxc s x g) = f s) (s : State) (x n : Nat) :
    f (s.windowTuned x n) = f s := by
  rw [State.windowTuned, State.applyTune]
  simp only [hset, hslc, hrxc]

@[simp] theorem State.memories_tasteStart (s : State) (x : Nat) : (s.tasteStart x).memories = s.memories := by
  obtain h | h | h | ⟨n, -, h⟩ := s.tasteStart_cases x
  · rw [h]
  · rw [h]
    rfl
  · rw [h]
    rfl
  · rw [h, State.windowOpened, State.showSlices_keeps State.memories fun _ _ _ => rfl]
    exact s.windowTuned_keeps State.memories (fun _ _ _ => rfl) (fun _ _ _ => rfl) (fun _ _ _ => rfl) x n

theorem skip_apart : ∀ x : Fin 2, (RXF_TCNT.SKIP x).fits = true ∧ (byChain x RXF_EVT.TSKIPA RXF_EVT.TSKIPB).fits = true ∧
    (byChain x RXF_EVT.TSKIPA RXF_EVT.TSKIPB).w = 1 ∧
    (RXF_TCNT.SKIP x).apart (byChain x RXF_EVT.TSKIPA RXF_EVT.TSKIPB) = true := by decide

/-- R77: a window skipped is counted and latched. -/
theorem State.skipTaste_leaves (s : State) (x : Fin 2) : (s.skipTaste x).rxc = s.rxc ∧
    (s.skipTaste x).get (RXF_TCNT.SKIP x) = min 65535 (s.get (RXF_TCNT.SKIP x) + 1) ∧
    (s.skipTaste x).bit (byChain x RXF_EVT.TSKIPA RXF_EVT.TSKIPB) = true := by
  obtain ⟨hskip, hevt, hw, hap⟩ := skip_apart x
  refine ⟨rfl, ?_, State.bit_raise _ hevt hw⟩
  exact (State.get_incBy_apart _ 1 hap).trans (State.get_incBy_same s 1 hskip)

/-- R77: the detector runs. -/
theorem State.detectorStarted_leaves (s : State) (x : Fin 2) :
    (vget (s.detectorStarted x).rxc x).window = some none ∧ (s.detectorStarted x).bit (RXF_STAT.TBUSY x) = true :=
  ⟨congrArg RxChain.window (vget_vmod_same s.rxc _ x.isLt), State.bit_set_one _ rfl rfl⟩

theorem windowFields_apart : ∀ n : Fin 16, (∀ k ∈ tuneFields n, (SLC_STAT.TASTE n).apart k = true ∧
      (SLC_STAT.MODE n).apart k = true ∧ (SLC_STAT.CHAIN n).apart k = true) ∧
    (SLC_STAT.TASTE n).apart (SLC_STAT.MODE n) = true ∧ (SLC_STAT.TASTE n).apart (SLC_STAT.CHAIN n) = true ∧
    (SLC_STAT.MODE n).apart (SLC_STAT.CHAIN n) = true := by decide

theorem busy_apart : ∀ x : Fin 2, blockOfAddr (RXF_STAT.addr x) ≠ 4 := by decide

/-- R77: the slice of a window is STATIC on the taste channel and waveform. -/
theorem State.windowTuned_leaves (s : State) (x : Fin 2) (n : Fin 16) :
    (vget (s.windowTuned x n).rxc x).window = some (some n.val) ∧ (s.windowTuned x n).bit (RXF_STAT.TBUSY x) = true ∧
      (s.windowTuned x n).bit (SLC_STAT.TASTE n) = true ∧ (s.windowTuned x n).get (SLC_STAT.MODE n) = 2 ∧
      (s.windowTuned x n).get (SLC_STAT.CHAIN n) = x ∧
      (s.windowTuned x n).Tuned n (s.get (RXF_TFREQ.FREQ x)) (s.get (RXF_TASTE.WAVE x)) := by
  obtain ⟨htune, htm, htc, hmc⟩ := windowFields_apart n
  have hbusy (k : Loc) (hk : k ∈ [SLC_STAT.TASTE n, SLC_STAT.MODE n, SLC_STAT.CHAIN n] ++ tuneFields n) :
      (RXF_STAT.TBUSY x).apart k = true :=
    Loc.apart_of_addr fun h => busy_apart x ((congrArg blockOfAddr h).trans
      (List.mem_singleton.1 (slcWindow_block n k hk)))
  refine ⟨?_, ?_, ?_, ?_, ?_, State.tuned_applyTune _ n _ _⟩
  · exact congrArg RxChain.window (vget_vmod_same s.rxc _ x.isLt)
  · rw [State.bit_eq, State.windowTuned, State.writes_applyTune _ n _ _ _ fun k hk => hbusy k (List.mem_append_right _ hk),
      State.get_set_apart _ _ (hbusy _ (by simp)), State.get_set_apart _ _ (hbusy _ (by simp)),
      State.get_set_apart _ _ (hbusy _ (by simp)), ← State.bit_eq]
    exact State.bit_set_one _ rfl rfl
  · rw [State.bit_eq, State.windowTuned, State.writes_applyTune _ n _ _ _ fun k hk => (htune k hk).1,
      State.get_set_apart _ _ htc, State.get_set_apart _ _ htm, ← State.bit_eq]
    exact State.bit_set_one _ rfl rfl
  · rw [State.windowTuned, State.writes_applyTune _ n _ _ _ fun k hk => (htune k hk).2.1, State.get_set_apart _ _ hmc]
    exact State.get_set_same _ 2 rfl
  · rw [State.windowTuned, State.writes_applyTune _ n _ _ _ fun k hk => (htune k hk).2.2]
    exact (State.get_set_same _ x.val rfl).trans (Nat.mod_eq_of_lt x.isLt)

/-- What shows the slices keeps all that a window on a slice comes to. -/
theorem State.windowOpened_leaves (s : State) (x : Fin 2) (n : Fin 16) :
    (vget (s.windowOpened x n).rxc x).window = some (some n.val) ∧ (s.windowOpened x n).bit (RXF_STAT.TBUSY x) = true ∧
      (s.windowOpened x n).bit (SLC_STAT.TASTE n) = true ∧ (s.windowOpened x n).get (SLC_STAT.MODE n) = 2 ∧
      (s.windowOpened x n).get (SLC_STAT.CHAIN n) = x ∧
      (vget (s.windowOpened x n).slc n).freq = s.get (RXF_TFREQ.FREQ x) ∧
      (vget (s.windowOpened x n).slc n).wave = s.get (RXF_TASTE.WAVE x) := by
  obtain ⟨hwin, hbusy, htaste, hmode, hchain, htuned⟩ := s.windowTuned_leaves x n
  have hrxc : (s.windowOpened x n).rxc = (s.windowTuned x n).rxc := State.showSlices_keeps State.rxc (fun _ _ _ => rfl) _
  have hslc : (s.windowOpened x n).slc = (s.windowTuned x n).slc := State.showSlices_keeps State.slc (fun _ _ _ => rfl) _
  have hstat : (s.windowOpened x n).get (RXF_STAT.TBUSY x) = (s.windowTuned x n).get (RXF_STAT.TBUSY x) :=
    State.writes_showSlices _ _ fun k hk =>
      Loc.apart_of_addr fun h => busy_apart x ((congrArg blockOfAddr h).trans (shownSlices_block k hk))
  unfold State.windowOpened at *
  refine ⟨by rw [hrxc, hwin], ?_, ?_, ?_, ?_, by rw [hslc, htuned.freq], by rw [hslc, htuned.wave]⟩
  · rw [State.bit_eq, hstat, ← State.bit_eq, hbusy]
  · rw [State.bit_eq, State.get_showSlices _ (l := SLC_STAT.TASTE n) rfl (.inl (Nat.le_of_ble_eq_true rfl)),
      ← State.bit_eq, htaste]
  · rw [State.get_showSlices _ (l := SLC_STAT.MODE n) rfl (.inl (Nat.le_of_ble_eq_true rfl)), hmode]
  · rw [State.get_showSlices _ (l := SLC_STAT.CHAIN n) rfl (.inl (Nat.le_of_ble_eq_true rfl)), hchain]

/-! ### What a START reads (R15, R70, R73) -/

/-- What a START reads outside RXF and SLC. -/
theorem startReads_block : ∀ l ∈ [SYS_CLKSTAT.HOLDOVER, SYS_CLKSTAT.CPLLA_LOCK, SYS_CLKSTAT.CPLLB_LOCK,
    PWR_DSTAT.STATE 18, PWR_DSTAT.LOGRDY 18], blockOfAddr l.addr ∉ [3] := by decide

section
variable {u s : State}

theorem State.Writes.chainClock (h : u.Writes (inBlocks [3]) s) (x : Nat) : s.chainClock x = u.chainClock x := by
  have hget (l : Loc) (hl : l ∈ [SYS_CLKSTAT.HOLDOVER, SYS_CLKSTAT.CPLLA_LOCK, SYS_CLKSTAT.CPLLB_LOCK]) : s.bit l = u.bit l := by
    rw [State.bit_eq, h.get_of_block (startReads_block l (List.mem_append_left _ hl)), State.bit_eq]
  unfold State.chainClock State.holdover byChain
  rw [hget _ (by simp)]
  split_ifs
  · rw [hget _ (by simp)]
  · rw [hget _ (by simp)]

/-- Fields of RXF, and fields that show the slices. -/
abbrev rxfShown (k : Loc) : Prop := blockOfAddr k.addr = 3 ∨ k ∈ shownSlices

/-- R73: whether a slice is active is not part of what shows it. -/
theorem State.Writes.slcActive (h : u.Writes rxfShown s) {n : Nat} (hn : n < 16) : s.slcActive n = u.slcActive n := by
  have hap {l : Loc} (hl : l.addr = SLC_STAT.addr n) (hlo : l.lo + l.w ≤ 14 ∨ 15 ≤ l.lo) : s.get l = u.get l := by
    refine h l fun k hk => hk.elim (fun h3 => Loc.apart_of_addr fun he => ?_) (slcStat_apart_shown hl hlo k)
    rw [← he, hl, blockOfAddr_slc hn (.inl rfl)] at h3
    cases h3
  unfold State.slcActive
  rw [State.bit_eq, hap (l := SLC_STAT.MODE n) rfl (.inl (Nat.le_of_ble_eq_true rfl)),
    hap (l := SLC_STAT.TASTE n) rfl (.inl (Nat.le_of_ble_eq_true rfl)), State.bit_eq]

theorem State.Writes.slicesNow (h : u.Writes rxfShown s) : s.slicesNow = u.slicesNow := by
  have hlvl : blockOfAddr BEAT_PLCUR.CHNPL.addr ≠ 3 ∧ blockOfAddr BEAT_PLCUR.CHNPL.addr ≠ 4 := by decide
  obtain ⟨h3, h4⟩ := hlvl
  unfold State.slicesNow
  rw [h _ fun k hk => Loc.apart_of_addr fun he => hk.elim (fun hk => h3 (he ▸ hk)) fun hk => h4 (he ▸ shownSlices_block k hk)]

theorem State.Writes.countActive (h : u.Writes rxfShown s) :
    (List.range 16).countP s.slcActive = (List.range 16).countP u.slcActive :=
  List.countP_congr fun n hn => by rw [h.slcActive (List.mem_range.1 hn)]

theorem State.Writes.freeSlice (h : u.Writes (inBlocks [3]) s) : s.freeSlice = u.freeSlice := by
  have hshown : u.Writes rxfShown s := h.mono fun _ hk => .inl (List.mem_singleton.1 hk)
  have hpend (n : Nat) (hn : n ∈ List.range 16) : s.slcPending n = u.slcPending n := by
    unfold State.slcPending
    rw [State.bit_eq, h.get_slc (by decide) (List.mem_range.1 hn) (.inr rfl),
      h.get_slc (by decide) (List.mem_range.1 hn) (.inl rfl), State.bit_eq]
  have hon : s.dOn 18 = u.dOn 18 := by
    unfold State.dOn
    rw [State.bit_eq, h.get_of_block (startReads_block _ (by simp)), h.get_of_block (startReads_block _ (by simp)),
      State.bit_eq]
  unfold State.freeSlice
  rw [hon, hshown.slicesNow, hshown.countActive,
    List.find?_congr fun n hn => by rw [hshown.slcActive (List.mem_range.1 hn), hpend n hn]]

end

end Sys2Proof.Machine
end

section
namespace Sys2Proof.Machine

/-! ### A write of RXF_TASTE (R77, R84) -/

theorem State.writeEffect_rxfTaste (s : State) (e : Nat) (x : Fin 2) (r : RegRow) (w : Word) :
    s.writeEffect e (RXF_TASTE.addr x) r w = s.tasteWrite x w := by
  match x with
  | 0 => rfl
  | 1 => rfl

/-- The waveform as a written word gives it: a code above 8 is ignored. -/
def State.tasteWave (s : State) (x : Nat) (w : Word) : Nat :=
  if 9 ≤ fieldOf w 8 4 then s.get (RXF_TASTE.WAVE x) else fieldOf w 8 4

/-- The fields of RXF_TASTE that a write stores whatever the waveform. -/
def tasteSetFields (x : Nat) : List Loc :=
  [RXF_TASTE.ETHR x, RXF_TASTE.SLICE x, RXF_TASTE.GAINIDX x, RXF_TASTE.PTHR x, RXF_TASTE.DETMODE x]

/-- Those fields stored. -/
def State.tasteSet (s : State) (x : Nat) (w : Word) : State :=
  ((((s.set (RXF_TASTE.ETHR x) (fieldOf w 24 8)).set (RXF_TASTE.SLICE x) (fieldOf w 20 4)).set
    (RXF_TASTE.GAINIDX x) (fieldOf w 16 4)).set (RXF_TASTE.PTHR x) (max 1 (fieldOf w 12 4))).set
      (RXF_TASTE.DETMODE x) (fieldOf w 4 2)

/-- The fields of RXF_TASTE stored. -/
def State.tasteStored (s : State) (x : Nat) (w : Word) : State :=
  if 9 ≤ fieldOf w 8 4 then s.tasteSet x w else (s.tasteSet x w).set (RXF_TASTE.WAVE x) (fieldOf w 8 4)

/-- R65: the taste index in force where the chain is in taste mode. -/
def State.tasteAimed (s : State) (x : Nat) (w : Word) : State :=
  if s.get (RXF_STAT.MODE x) = 2 then s.aimGain x (fieldOf w 16 4) else s

theorem State.tasteWrite_start (s : State) (x : Nat) {w : Word} (h : fieldOf w 0 1 = 1) :
    s.tasteWrite x w = ((s.tasteStored x w).tasteAimed x w).tasteStart x := if_pos h

theorem tasteFields_apart : ∀ x : Fin 2,
    (∀ l ∈ [RXF_TASTE.WAVE x], ∀ k ∈ tasteSetFields x, l.apart k = true ∧ k.apart l = true) ∧
    (RXF_TASTE.ETHR x).apart (RXF_TASTE.SLICE x) = true ∧ (RXF_TASTE.ETHR x).apart (RXF_TASTE.GAINIDX x) = true ∧
    (RXF_TASTE.ETHR x).apart (RXF_TASTE.PTHR x) = true ∧ (RXF_TASTE.ETHR x).apart (RXF_TASTE.DETMODE x) = true ∧
    (RXF_TASTE.PTHR x).apart (RXF_TASTE.DETMODE x) = true := by decide

theorem State.writes_tasteStored (s : State) (x : Nat) (w : Word) :
    s.Writes (inRegs [RXF_TASTE.addr x]) (s.tasteStored x w) := by
  have hin {l : Loc} (hl : l.addr = RXF_TASTE.addr x) : inRegs [RXF_TASTE.addr x] l := List.mem_singleton.2 hl
  have hset : s.Writes (inRegs [RXF_TASTE.addr x]) (s.tasteSet x w) :=
    (((((State.Writes.refl s).set (k := RXF_TASTE.ETHR x) (hin rfl)).set (k := RXF_TASTE.SLICE x) (hin rfl)).set
      (k := RXF_TASTE.GAINIDX x) (hin rfl)).set (k := RXF_TASTE.PTHR x) (hin rfl)).set (k := RXF_TASTE.DETMODE x) (hin rfl)
  exact .ite hset (hset.set (k := RXF_TASTE.WAVE x) (hin rfl))

/-- R84: what the fields of RXF_TASTE read after a write. -/
theorem State.tasteStored_leaves (s : State) (x : Fin 2) (w : Word) :
    (s.tasteStored x w).get (RXF_TASTE.WAVE x) = s.tasteWave x w ∧
      (s.tasteStored x w).get (RXF_TASTE.DETMODE x) = fieldOf w 4 2 ∧
      (s.tasteStored x w).get (RXF_TASTE.ETHR x) = fieldOf w 24 8 ∧
      (s.tasteStored x w).get (RXF_TASTE.PTHR x) = max 1 (fieldOf w 12 4) := by
  obtain ⟨hwave, hes, heg, hep, hed, hpd⟩ := tasteFields_apart x
  have hkeep {l : Loc} (hl : l ∈ tasteSetFields x) : (s.tasteStored x w).get l = (s.tasteSet x w).get l := by
    unfold State.tasteStored
    split_ifs
    · rfl
    · exact State.get_set_apart _ _ (hwave _ List.mem_cons_self l hl).2
  have hold : (s.tasteSet x w).get (RXF_TASTE.WAVE x) = s.get (RXF_TASTE.WAVE x) := by
    have hap {k : Loc} (hk : k ∈ tasteSetFields x) : (RXF_TASTE.WAVE x).apart k = true := (hwave _ List.mem_cons_self k hk).1
    rw [State.tasteSet, State.get_set_apart _ _ (hap (by simp [tasteSetFields])), State.get_set_apart _ _ (hap (by simp [tasteSetFields])),
      State.get_set_apart _ _ (hap (by simp [tasteSetFields])), State.get_set_apart _ _ (hap (by simp [tasteSetFields])),
      State.get_set_apart _ _ (hap (by simp [tasteSetFields]))]
  have hp : max 1 (fieldOf w 12 4) < 2 ^ 4 := max_lt (by decide) (fieldOf_lt w 12 4)
  refine ⟨?_, ?_, ?_, ?_⟩
  · unfold State.tasteStored State.tasteWave
    split_ifs
    · exact hold
    · exact (State.get_set_same _ _ rfl).trans (Nat.mod_eq_of_lt (fieldOf_lt w 8 4))
  · rw [hkeep (by simp [tasteSetFields])]
    exact (State.get_set_same _ _ rfl).trans (Nat.mod_eq_of_lt (fieldOf_lt w 4 2))
  · rw [hkeep (by simp [tasteSetFields]), State.tasteSet, State.get_set_apart _ _ hed, State.get_set_apart _ _ hep,
      State.get_set_apart _ _ heg, State.get_set_apart _ _ hes]
    exact (State.get_set_same _ _ rfl).trans (Nat.mod_eq_of_lt (fieldOf_lt w 24 8))
  · rw [hkeep (by simp [tasteSetFields]), State.tasteSet, State.get_set_apart _ _ hpd]
    exact (State.get_set_same _ _ rfl).trans (Nat.mod_eq_of_lt hp)

theorem State.tasteStored_keeps {β : Type} (f : State → β) (h : ∀ s l v, f (State.set s l v) = f s) (s : State) (x : Nat)
    (w : Word) : f (s.tasteStored x w) = f s := by
  unfold State.tasteStored State.tasteSet
  split_ifs
  · simp only [h]
  · simp only [h]

theorem State.writes_tasteAimed (s : State) (x : Nat) (w : Word) : s.Writes (· ∈ gainFields x) (s.tasteAimed x w) :=
  .ite (.ite (State.Writes.refl s).congr (s.writes_setGain x _)) (.refl s)

theorem State.tasteAimed_keeps {β : Type} (f : State → β) (hset : ∀ s l v, f (State.set s l v) = f s)
    (hmod : ∀ s x g, f (State.modRxc s x fun c => { c with gainBefore := g }) = f s) (s : State) (x : Nat) (w : Word) :
    f (s.tasteAimed x w) = f s := by
  unfold State.tasteAimed State.aimGain State.setGain
  split_ifs
  · exact hmod _ _ _
  · simp only [hset]
  · rfl

/-- R65: in taste mode, not deafened, the index of the write is in force. -/
theorem State.get_gain_tasteAimed {s : State} {x : Fin 2} {w : Word} (hm : s.get (RXF_STAT.MODE x) = 2)
    (hd : s.bit (RXF_STAT.DEAF x) = false) : (s.tasteAimed x w).get (RXF_STAT.GAINIDX x) = fieldOf w 16 4 := by
  rw [State.tasteAimed, if_pos hm, State.aimGain, if_neg (by simp [hd]), State.get_setGain]
  exact Nat.mod_eq_of_lt (fieldOf_lt w 16 4)

/-- The state that a START of a taste write meets. -/
def State.tasteMet (s : State) (x : Nat) (w : Word) : State := (s.tasteStored x w).tasteAimed x w

/-- What a START reads and counts of RXF beside RXF_TASTE. -/
def startReads (x : Nat) : List Loc := [RXF_STAT.MODE x, RXF_STAT.DEAF x, RXF_TCNT.SKIP x, RXF_TFREQ.FREQ x]

/-- Where what is stored lies, and what a START reads of RXF beside it. -/
theorem tasteMet_apart : ∀ x : Fin 2,
    (∀ k ∈ gainFields x, blockOfAddr k.addr = 3 ∧ ∀ l ∈ [RXF_TASTE.WAVE x, RXF_TASTE.DETMODE x, RXF_TASTE.ETHR x,
      RXF_TASTE.PTHR x] ++ startReads x, l.apart k = true) ∧
    (∀ l ∈ startReads x, l.addr ≠ RXF_TASTE.addr x) ∧
    blockOfAddr (RXF_TASTE.addr x) = 3 ∧
    (∀ l ∈ [RXF_TASTE.WAVE x, RXF_TASTE.DETMODE x, RXF_TASTE.ETHR x, RXF_TASTE.PTHR x, RXF_STAT.GAINIDX x],
      (∀ k ∈ tasteFields x, l.apart k = true) ∧ blockOfAddr l.addr ≠ 4) ∧
    (∀ k ∈ tasteFields x, blockOfAddr k.addr = 3) := by decide

theorem State.writes_tasteMet (s : State) (x : Fin 2) (w : Word) : s.Writes (inBlocks [3]) (s.tasteMet x w) := by
  obtain ⟨hgain, -, hblk, -⟩ := tasteMet_apart x
  refine ((s.writes_tasteStored x w).mono fun k hk => ?_).trans ((State.writes_tasteAimed _ x w).mono fun k hk => ?_)
  · exact List.mem_singleton.2 ((congrArg blockOfAddr (List.mem_singleton.1 hk)).trans hblk)
  · exact List.mem_singleton.2 (hgain k hk).1

theorem State.tasteMet_leaves (s : State) (x : Fin 2) (w : Word) :
    (s.tasteMet x w).get (RXF_TASTE.WAVE x) = s.tasteWave x w ∧
      (s.tasteMet x w).get (RXF_TASTE.DETMODE x) = fieldOf w 4 2 ∧
      (s.tasteMet x w).get (RXF_TASTE.ETHR x) = fieldOf w 24 8 ∧
      (s.tasteMet x w).get (RXF_TASTE.PTHR x) = max 1 (fieldOf w 12 4) ∧
      (∀ l ∈ startReads x, (s.tasteMet x w).get l = s.get l) ∧
      (vget (s.tasteMet x w).rxc x).window = (vget s.rxc x).window ∧
      (s.get (RXF_STAT.MODE x) = 2 → s.bit (RXF_STAT.DEAF x) = false →
        (s.tasteMet x w).get (RXF_STAT.GAINIDX x) = fieldOf w 16 4) := by
  obtain ⟨hgain, hne, -⟩ := tasteMet_apart x
  obtain ⟨hwave, hdet, heth, hpth⟩ := s.tasteStored_leaves x w
  have haim := (s.tasteStored x w).writes_tasteAimed x w
  have hstat (l : Loc) (hl : l ∈ startReads x) :
      (s.tasteStored x w).get l = s.get l :=
    s.writes_tasteStored x w l fun k hk => Loc.apart_of_addr (by rw [List.mem_singleton.1 hk]; exact hne l hl)
  unfold State.tasteMet
  refine ⟨?_, ?_, ?_, ?_, fun l hl => ?_, ?_, fun hm hd => ?_⟩
  · rw [haim _ fun k hk => (hgain k hk).2 _ (by simp), hwave]
  · rw [haim _ fun k hk => (hgain k hk).2 _ (by simp), hdet]
  · rw [haim _ fun k hk => (hgain k hk).2 _ (by simp), heth]
  · rw [haim _ fun k hk => (hgain k hk).2 _ (by simp), hpth]
  · rw [haim l fun k hk => (hgain k hk).2 l (List.mem_append_right _ hl), hstat l hl]
  · rw [State.tasteAimed_keeps (fun s => (vget s.rxc x).window) (fun _ _ _ => rfl)
        (fun s y g => vget_vmod_keeps RxChain.window s.rxc y x fun _ => rfl),
      State.tasteStored_keeps State.rxc fun _ _ _ => rfl]
  · exact State.get_gain_tasteAimed (by rw [hstat _ (by simp [startReads]), hm]) (by rw [State.bit_eq, hstat _ (by simp [startReads]), ← State.bit_eq, hd])

/-- R77: no window can run for a START whose write gives the waveform `w`. -/
abbrev State.idleFor (s : State) (x w : Nat) : Prop :=
  s.get (RXF_STAT.MODE x) = 0 ∨ s.bit (RXF_STAT.DEAF x) = true ∨ w = 0 ∨ s.chainClock x = false

theorem State.tasteIdle_tasteMet (s : State) (x : Fin 2) (w : Word) :
    (s.tasteMet x w).tasteIdle x ↔ s.idleFor x (s.tasteWave x w) := by
  obtain ⟨hwave, -, -, -, hkeep, -⟩ := s.tasteMet_leaves x w
  unfold State.tasteIdle State.idleFor
  rw [State.bit_eq, hkeep _ (by simp [startReads]), hkeep (RXF_STAT.DEAF x) (by simp [startReads]), hwave, (s.writes_tasteMet x w).chainClock,
    ← State.bit_eq, Bool.not_eq_true']

end Sys2Proof.Machine
end

section
namespace Sys2Proof.Machine

/-- A START by a write of RXF_TASTE, where no window runs (R77, R84). -/
theorem State.tasteWrite_leaves {s : State} {x : Fin 2} {v : Word} (hw : (vget s.rxc x).window = none) {t : State}
    (ht : t = (s.tasteMet x v).tasteStart x) :
    t.get (RXF_TASTE.WAVE x) = s.tasteWave x v ∧ t.get (RXF_TASTE.DETMODE x) = fieldOf v 4 2 ∧
      t.get (RXF_TASTE.ETHR x) = fieldOf v 24 8 ∧ t.get (RXF_TASTE.PTHR x) = max 1 (fieldOf v 12 4) ∧
      ((s.idleFor x (s.tasteWave x v) ∨ (s.get (RXF_STAT.MODE x) = 1 ∧ s.freeSlice = none)) →
        (vget t.rxc x).window = none ∧ t.get (RXF_TCNT.SKIP x) = min 65535 (s.get (RXF_TCNT.SKIP x) + 1) ∧
        t.bit (byChain x RXF_EVT.TSKIPA RXF_EVT.TSKIPB) = true) ∧
      (¬ s.idleFor x (s.tasteWave x v) → s.get (RXF_STAT.MODE x) = 2 → (vget t.rxc x).window = some none ∧
        t.bit (RXF_STAT.TBUSY x) = true ∧ t.get (RXF_STAT.GAINIDX x) = fieldOf v 16 4) ∧
      (∀ n, ¬ s.idleFor x (s.tasteWave x v) → s.get (RXF_STAT.MODE x) = 1 → s.freeSlice = some n →
        (vget t.rxc x).window = some (some n) ∧ t.bit (RXF_STAT.TBUSY x) = true ∧ t.bit (SLC_STAT.TASTE n) = true ∧
        t.get (SLC_STAT.MODE n) = 2 ∧ t.get (SLC_STAT.CHAIN n) = x ∧
        (vget t.slc n).freq = s.get (RXF_TFREQ.FREQ x) ∧ (vget t.slc n).wave = s.tasteWave x v) := by
  obtain ⟨hwave, hdet, heth, hpth, hkeep, hwin, hgain⟩ := s.tasteMet_leaves x v
  obtain ⟨-, -, -, hap, -⟩ := tasteMet_apart x
  have hidle := s.tasteIdle_tasteMet x v
  have hfree := (s.writes_tasteMet x v).freeSlice
  have hmode := hkeep (RXF_STAT.MODE x) (by simp [startReads])
  rw [hw] at hwin
  have hst := (s.tasteMet x v).writes_tasteStart x
  have hget {l : Loc} (hl : l ∈ [RXF_TASTE.WAVE x, RXF_TASTE.DETMODE x, RXF_TASTE.ETHR x, RXF_TASTE.PTHR x,
      RXF_STAT.GAINIDX x]) : t.get l = (s.tasteMet x v).get l := by
    rw [ht]
    refine hst l fun k hk => ?_
    obtain hk | hk := hk
    · exact (hap l hl).1 k hk
    · exact Loc.apart_of_addr fun h => (hap l hl).2 ((congrArg blockOfAddr h).trans (List.mem_singleton.1 hk))
  refine ⟨(hget (by simp)).trans hwave, (hget (by simp)).trans hdet, (hget (by simp)).trans heth, (hget (by simp)).trans hpth,
    fun h => ?_, fun hi hm => ?_, fun n hi hm hf => ?_⟩
  · have hskip : t = (s.tasteMet x v).skipTaste x := by
      by_cases hi : s.idleFor x (s.tasteWave x v)
      · rw [ht, State.tasteStart_idle hwin (hidle.2 hi)]
      · obtain ⟨hm, hf⟩ := h.resolve_left hi
        rw [ht, State.tasteStart_full hwin (mt hidle.1 hi) (by rw [hmode, hm]; decide), hfree, hf]
    obtain ⟨hrxc, hcnt, hevt⟩ := (s.tasteMet x v).skipTaste_leaves x
    rw [hskip, hrxc, hwin, hcnt, hkeep _ (by simp [startReads])]
    exact ⟨rfl, rfl, hevt⟩
  · have hdt : t = (s.tasteMet x v).detectorStarted x := by
      rw [ht, State.tasteStart_detector hwin (mt hidle.1 hi) (hmode.trans hm)]
    have hd : s.bit (RXF_STAT.DEAF x) = false := Bool.eq_false_iff.2 fun h => hi (.inr (.inl h))
    obtain ⟨hrun, hbusy⟩ := (s.tasteMet x v).detectorStarted_leaves x
    exact ⟨hdt ▸ hrun, hdt ▸ hbusy, (hget (by simp)).trans (hgain hm hd)⟩
  · have hopen : t = (s.tasteMet x v).windowOpened x n := by
      rw [ht, State.tasteStart_full hwin (mt hidle.1 hi) (by rw [hmode, hm]; decide), hfree, hf]
    have hleaves := (s.tasteMet x v).windowOpened_leaves x ⟨n, State.lt_of_freeSlice hf⟩
    rw [hkeep (RXF_TFREQ.FREQ x) (by simp [startReads]), hwave, ← hopen] at hleaves
    exact hleaves

/-- A START writes RXF and SLC alone. -/
theorem State.writes_tasteStart_blocks (s : State) (x : Fin 2) : s.Writes (inBlocks [3, 4]) (s.tasteStart x) := by
  obtain ⟨-, -, -, -, hblk⟩ := tasteMet_apart x
  refine (s.writes_tasteStart x).mono fun k hk => ?_
  obtain hk | hk := hk
  · exact List.mem_cons.2 (.inl (hblk k hk))
  · exact List.mem_cons_of_mem _ hk

/-! ### The end of a window (R77) -/

/-- The window gone, its slice not yet free. -/
def State.windowOver (s : State) (x : Nat) : State :=
  (s.modRxc x (fun c => { c with window := none })).set (RXF_STAT.TBUSY x) 0

/-- The slice of a window that ended. -/
def State.tasterFreed (s : State) (n : Nat) : State := ((s.abandon n 7).stopTasting n).showSlices

theorem State.endWindow_detector {s : State} {x : Nat} (h : (vget s.rxc x).window = some none) :
    s.endWindow x = s.windowOver x := by
  unfold State.endWindow
  rw [h]
  rfl

theorem State.endWindow_slice {s : State} {x n : Nat} (h : (vget s.rxc x).window = some (some n)) :
    s.endWindow x = (s.windowOver x).tasterFreed n := by
  unfold State.endWindow
  rw [h]
  rfl

theorem stopFields_block : ∀ n : Fin 16, ∀ k ∈ [SLC_STAT.TASTE n, SLC_STAT.MODE n, SLC_STAT.DEAF n], inBlocks [4] k := by
  decide

theorem State.writes_stopTasting (s : State) (n : Fin 16) : s.Writes (inBlocks [4]) (s.stopTasting n).showSlices := by
  have hblk := stopFields_block n
  have hset := (((State.Writes.refl s).set (v := 0) (hblk (SLC_STAT.TASTE n) (by simp))).set (v := 0)
    (hblk (SLC_STAT.MODE n) (by simp))).set (v := 0) (hblk (SLC_STAT.DEAF n) (by simp))
  exact State.Writes.showSlices hset.modSlc (by decide)

/-- A field in block 4 lies outside RXF. -/
theorem offRxf_of_block {k : Loc} (h : inBlocks [4] k) : offRxf k := by
  have h := List.mem_singleton.1 h
  unfold blockOfAddr at h
  omega

theorem State.keepsRxf_tasterFreed (s : State) (n : Fin 16) : s.KeepsRxf (s.tasterFreed n) := by
  have hab : s.KeepsRxf (s.abandon n 7) := (State.KeepsRxf.refl s).abandon
  refine ⟨?_, ?_, hab.writes.trans ((State.writes_stopTasting _ n).mono fun _ => offRxf_of_block)⟩
  · rw [State.tasterFreed, State.showSlices_keeps State.rxc fun _ _ _ => rfl]
    exact hab.rxc
  · rw [State.tasterFreed, State.showSlices_keeps State.memories fun _ _ _ => rfl]
    exact hab.mem

/-- The end of a window with all it may end beside it: of RXF and the receive chains, the window and TBUSY change alone. -/
theorem State.endWindow_leaves {s : State} {x : Fin 2} (hw : (vget s.rxc x).window.isSome = true)
    (hn : ∀ n, (vget s.rxc x).window = some (some n) → n < 16) :
    (s.windowOver x).KeepsRxf (s.endWindow x) ∧
      ((∀ n, (vget s.rxc x).window = some (some n) → (vget s.slc n).frame = none) →
        (s.windowOver x).Writes (inBlocks [4]) (s.endWindow x)) := by
  cases h : (vget s.rxc x).window with
  | none => rw [h] at hw; cases hw
  | some w =>
    cases w with
    | none =>
      rw [State.endWindow_detector h]
      exact ⟨.refl _, fun _ => .refl _⟩
    | some n =>
      rw [State.endWindow_slice h]
      refine ⟨State.keepsRxf_tasterFreed _ ⟨n, hn n h⟩, fun hf => ?_⟩
      rw [State.tasterFreed, State.abandon_none (s := s.windowOver x) 7 (hf n rfl)]
      exact State.writes_stopTasting _ ⟨n, hn n h⟩

/-- What a decision and what follows it read of RXF. -/
def decisionReads (x : Nat) : List Loc := [RXF_STAT.MODE x, RXF_TCNT.DET x, RXF_TASTE.ETHR x, RXF_TASTE.PTHR x,
  RXF_TASTE.DETMODE x, RXF_TASTE.SLICE x, RXF_TASTE.WAVE x, RXF_CTRL.AUTOFULL x, RXF_TFREQ.FREQ x]

/-- They lie in RXF, apart from TBUSY. -/
theorem windowOver_apart : ∀ x : Fin 2, (RXF_STAT.TBUSY x).fits = true ∧
    (∀ l ∈ RXF_STAT.TBUSY x :: decisionReads x, ¬ offRxf l) ∧
    (∀ l ∈ decisionReads x, l.apart (RXF_STAT.TBUSY x) = true) := by decide

theorem State.KeepsRxf.get {u s : State} (h : u.KeepsRxf s) {l : Loc} (hl : ¬ offRxf l) : s.get l = u.get l :=
  h.writes l fun _ hk => Loc.apart_of_addr fun he => hl (by unfold offRxf at hk ⊢; rwa [he])

/-- The window has ended: TBUSY is clear, the chain has no window, and the rest of RXF stands. -/
theorem State.endWindow_rxf {s : State} {x : Fin 2} (hw : (vget s.rxc x).window.isSome = true)
    (hn : ∀ n, (vget s.rxc x).window = some (some n) → n < 16) :
    (vget (s.endWindow x).rxc x).window = none ∧ (s.endWindow x).bit (RXF_STAT.TBUSY x) = false ∧
      (∀ l ∈ decisionReads x, (s.endWindow x).get l = s.get l) ∧
      (s.endWindow x).memories = s.memories := by
  obtain ⟨hfit, hrxf, hap⟩ := windowOver_apart x
  obtain ⟨hkeep, -⟩ := State.endWindow_leaves hw hn
  refine ⟨?_, ?_, fun l hl => ?_, hkeep.mem⟩
  · rw [hkeep.rxc]
    exact congrArg RxChain.window (vget_vmod_same s.rxc _ x.isLt)
  · rw [State.bit_eq, hkeep.get (hrxf _ List.mem_cons_self), ← State.bit_eq]
    exact State.bit_set_zero _ hfit
  · rw [hkeep.get (hrxf l (List.mem_cons_of_mem _ hl))]
    exact State.get_set_apart _ 0 (hap l hl)

theorem State.tasteDetects_endWindow {s : State} {x : Fin 2} (hw : (vget s.rxc x).window.isSome = true)
    (hn : ∀ n, (vget s.rxc x).window = some (some n) → n < 16) (power : Int) (corr : Nat) :
    (s.endWindow x).tasteDetects x power corr = s.tasteDetects x power corr := by
  obtain ⟨-, -, hget, -⟩ := State.endWindow_rxf hw hn
  unfold State.tasteDetects
  rw [hget _ (by simp [decisionReads]), hget (RXF_TASTE.PTHR x) (by simp [decisionReads]), hget (RXF_TASTE.DETMODE x) (by simp [decisionReads])]

end Sys2Proof.Machine
end

section
namespace Sys2Proof.Machine

/-! ### A detection (R78, R186, R422) -/

/-- The fields of RXF that a change to FULL writes. -/
def fullFields (x : Nat) : List Loc := [RXF_CTRL.MODE x, RXF_STAT.MODE x, RXF_STAT.CLIP x] ++ stepFields x

/-- The fields of RXF that what follows a detection writes. -/
def awakeFields (x : Nat) : List Loc := byChain x RXF_EVT.TNOSLA RXF_EVT.TNOSLB :: fullFields x

/-- What follows a detection writes those and other blocks, keeps the windows' state of the chain, and reaches no memory. -/
structure State.AfterDet (u s : State) (x : Nat) : Prop where
  window : (vget s.rxc x).window = (vget u.rxc x).window
  mem : s.memories = u.memories
  writes : u.Writes (fun k => k ∈ awakeFields x ∨ blockOfAddr k.addr ≠ 3) s

theorem State.AfterDet.refl (s : State) (x : Nat) : s.AfterDet s x := ⟨rfl, rfl, .refl s⟩

theorem State.AfterDet.trans {u s t : State} {x : Nat} (h : u.AfterDet s x) (k : s.AfterDet t x) : u.AfterDet t x :=
  ⟨k.window.trans h.window, k.mem.trans h.mem, h.writes.trans k.writes⟩

theorem State.rxc_gainStep (s : State) (x g : Nat) : (s.gainStep x g).rxc = s.rxc := by
  have hmark (hit : List Nat) (f : SliceState → SliceState) : (s.gainMarked x g hit f).rxc = s.rxc :=
    State.gainMarked_keeps State.rxc fun _ _ _ => rfl
  obtain ⟨-, h⟩ | ⟨hit, f, h | h⟩ := s.gainStep_cases x g
  · rw [h]
  · rw [h, hmark]
  · rw [h]
    exact hmark hit f

theorem State.window_manualGain (s : State) (x y : Nat) :
    (vget (s.manualGain x).rxc y).window = (vget s.rxc y).window := by
  unfold State.manualGain
  dsimp only
  split_ifs
  · rfl
  · exact vget_vmod_keeps RxChain.window s.rxc x y fun _ => rfl
  · rw [State.rxc_gainStep]

/-- MODE in force is FULL, with the manual index where AGCMAN holds. -/
def State.fullSet (s : State) (x : Nat) : State := ((s.set (RXF_STAT.MODE x) 1).set (RXF_STAT.CLIP x) 0).manualGain x

theorem State.setChainMode_full {s : State} {x : Nat} (h : s.get (RXF_STAT.MODE x) ≠ 1) : s.setChainMode x 1 =
    ((s.fullSet x).modRxc x (fun c => { c with lowRun := 0, agcWait := 0 })).showSlices := if_neg h

theorem State.writes_fullSet (s : State) (x : Nat) : s.Writes (· ∈ fullFields x) (s.fullSet x) := by
  have hmode : RXF_STAT.MODE x ∈ fullFields x := by simp [fullFields]
  have hclip : RXF_STAT.CLIP x ∈ fullFields x := by simp [fullFields]
  exact (((State.Writes.refl s).set hmode).set hclip).trans
    ((State.writes_manualGain _ x).mono fun k hk => List.mem_append_right _ hk)

theorem State.writes_setChainMode_full (s : State) (x : Nat) :
    s.Writes (fun k => k ∈ fullFields x ∨ k ∈ shownSlices) (s.setChainMode x 1) := by
  by_cases h : s.get (RXF_STAT.MODE x) = 1
  · rw [State.setChainMode, if_pos h]
    exact .refl s
  · rw [State.setChainMode_full h]
    have hfull := (s.writes_fullSet x).mono (Q := fun k => k ∈ fullFields x ∨ k ∈ shownSlices) fun _ hk => .inl hk
    exact (hfull.congr (t := (s.fullSet x).modRxc x (fun c => { c with lowRun := 0, agcWait := 0 }))).trans
      ((State.writes_showSlices _).mono fun _ hk => .inr hk)

theorem State.afterDet_setChainMode_full (s : State) (x : Nat) : s.AfterDet (s.setChainMode x 1) x := by
  refine ⟨?_, ?_, (s.writes_setChainMode_full x).mono fun k hk => ?_⟩
  · by_cases h : s.get (RXF_STAT.MODE x) = 1
    · rw [State.setChainMode, if_pos h]
    · rw [State.setChainMode_full h, State.showSlices_keeps State.rxc fun _ _ _ => rfl]
      exact (vget_vmod_keeps RxChain.window (s.fullSet x).rxc x x (f := fun c => { c with lowRun := 0, agcWait := 0 })
        fun _ => rfl).trans (State.window_manualGain _ x x)
  · by_cases h : s.get (RXF_STAT.MODE x) = 1
    · rw [State.setChainMode, if_pos h]
    · rw [State.setChainMode_full h, State.showSlices_keeps State.memories fun _ _ _ => rfl]
      exact (State.memories_manualGain _ x).trans rfl
  · obtain hk | hk := hk
    · exact .inl (List.mem_cons_of_mem _ hk)
    · exact .inr (by rw [shownSlices_block k hk]; decide)

/-- What the taking of an awake slice writes of SLC and LNK. -/
theorem takeFields_block : ∀ n : Fin 16, ∀ x : Fin 2, ∀ k ∈ [SLC_CFG.MODE n, SLC_CFG.CHAIN n, SLC_CFG.WAVE n, SLC_TUNE.FREQ n,
    SLC_STAT.MODE n, SLC_STAT.CHAIN n, SLC_STAT.DEAF n, byChain x LNK_TAWAKE.A LNK_TAWAKE.B] ++ tuneFields n,
    blockOfAddr k.addr ∈ [4, 8] := by decide

/-- The awake slice with its registers, tuned. -/
def State.awakeTuned (s : State) (x n : Nat) : State :=
  let f := s.get (RXF_TFREQ.FREQ x)
  let w := s.get (RXF_TASTE.WAVE x)
  let t := ((s.set (SLC_CFG.MODE n) 2).set (SLC_CFG.CHAIN n) x).set (SLC_CFG.WAVE n) w
  let t := ((t.set (SLC_TUNE.FREQ n) f).set (SLC_STAT.MODE n) 2).set (SLC_STAT.CHAIN n) x
  (t.set (SLC_STAT.DEAF n) (t.get (RXF_STAT.DEAF x))).applyTune n f w

/-- The chain awake with that slice, in its registers. -/
def State.awakeHeld (s : State) (x n : Nat) : State :=
  ((s.awakeTuned x n).modRxc x (fun c => { c with awake := some n, releasing := false })).set
    (byChain x LNK_TAWAKE.A LNK_TAWAKE.B) 1

theorem State.awakeTuned_keeps {β : Type} (f : State → β) (hset : ∀ s l v, f (State.set s l v) = f s)
    (hslc : ∀ s n g, f (State.modSlc s n g) = f s) (s : State) (x n : Nat) : f (s.awakeTuned x n) = f s := by
  rw [State.awakeTuned, State.applyTune]
  simp only [hset, hslc]

theorem State.awakeHeld_keeps {β : Type} (f : State → β) (hset : ∀ s l v, f (State.set s l v) = f s)
    (hrxc : ∀ s x g, f (State.modRxc s x g) = f s) (s : State) (x n : Nat) : f (s.awakeHeld x n) = f (s.awakeTuned x n) := by
  rw [State.awakeHeld, hset, hrxc]

theorem State.takeAwake_eq (s : State) (x n : Nat) : s.takeAwake x n = (s.awakeHeld x n).showSlices := rfl

theorem State.writes_takeAwake (s : State) (x : Fin 2) (n : Fin 16) : s.Writes (inBlocks [4, 8]) (s.takeAwake x n) := by
  have hblk := takeFields_block n x
  have hcm : inBlocks [4, 8] (SLC_CFG.MODE n) := hblk _ (by simp)
  have hcc : inBlocks [4, 8] (SLC_CFG.CHAIN n) := hblk _ (by simp)
  have hcw : inBlocks [4, 8] (SLC_CFG.WAVE n) := hblk _ (by simp)
  have hfr : inBlocks [4, 8] (SLC_TUNE.FREQ n) := hblk _ (by simp)
  have hsm : inBlocks [4, 8] (SLC_STAT.MODE n) := hblk _ (by simp)
  have hsc : inBlocks [4, 8] (SLC_STAT.CHAIN n) := hblk _ (by simp)
  have hsd : inBlocks [4, 8] (SLC_STAT.DEAF n) := hblk _ (by simp)
  have haw : inBlocks [4, 8] (byChain x LNK_TAWAKE.A LNK_TAWAKE.B) := hblk _ (by simp)
  have htune : s.Writes (inBlocks [4, 8]) (s.awakeTuned x n) :=
    ((((((((State.Writes.refl s).set hcm).set hcc).set hcw).set hfr).set hsm).set hsc).set hsd).trans
      ((State.writes_applyTune _ n _ _).mono fun k hk => hblk k (List.mem_append_right _ hk))
  have hrxc : s.Writes (inBlocks [4, 8]) ((s.awakeTuned x n).modRxc x
      (fun c => { c with awake := some n.val, releasing := false })) := htune.congr
  rw [State.takeAwake_eq]
  exact State.Writes.showSlices (hrxc.set haw) (by decide)

theorem awakeMode_apart : ∀ n : Fin 16, ∀ x : Fin 2, ∀ k ∈ [SLC_STAT.CHAIN n, SLC_STAT.DEAF n,
    byChain x LNK_TAWAKE.A LNK_TAWAKE.B] ++ tuneFields n, (SLC_STAT.MODE n).apart k = true := by decide

theorem State.rxc_takeAwake (s : State) (x : Fin 2) (n : Nat) :
    vget (s.takeAwake x n).rxc x = { vget s.rxc x with awake := some n, releasing := false } := by
  have htune : (s.awakeTuned x n).rxc = s.rxc :=
    State.awakeTuned_keeps State.rxc (fun _ _ _ => rfl) (fun _ _ _ => rfl) s x n
  rw [State.takeAwake_eq, State.showSlices_keeps State.rxc (fun _ _ _ => rfl), ← htune]
  exact vget_vmod_same (s.awakeTuned x n).rxc _ x.isLt

theorem State.memories_takeAwake (s : State) (x n : Nat) : (s.takeAwake x n).memories = s.memories := by
  rw [State.takeAwake_eq, State.showSlices_keeps State.memories (fun _ _ _ => rfl),
    State.awakeHeld_keeps State.memories (fun _ _ _ => rfl) (fun _ _ _ => rfl),
    State.awakeTuned_keeps State.memories (fun _ _ _ => rfl) (fun _ _ _ => rfl)]

theorem State.slc_takeAwake (s : State) (x : Nat) (n : Fin 16) :
    (vget (s.takeAwake x n).slc n).freq = s.get (RXF_TFREQ.FREQ x) := by
  rw [State.takeAwake_eq, State.showSlices_keeps State.slc (fun _ _ _ => rfl),
    State.awakeHeld_keeps State.slc (fun _ _ _ => rfl) (fun _ _ _ => rfl)]
  exact (State.tuned_applyTune _ n _ _).freq

theorem State.get_modRxc (s : State) (x : Nat) (f : RxChain → RxChain) (l : Loc) : (s.modRxc x f).get l = s.get l := rfl

/-- R78, R186: the awake slice is STATIC. -/
theorem State.get_mode_takeAwake (s : State) (x : Fin 2) (n : Fin 16) : (s.takeAwake x n).get (SLC_STAT.MODE n) = 2 := by
  have hap := awakeMode_apart n x
  rw [State.takeAwake_eq, State.get_showSlices _ (l := SLC_STAT.MODE n) rfl (.inl (Nat.le_of_ble_eq_true rfl)),
    State.awakeHeld, State.get_set_apart _ _ (hap _ (by simp)), State.get_modRxc, State.awakeTuned,
    State.writes_applyTune _ n _ _ _ fun k hk => hap k (List.mem_append_right _ hk),
    State.get_set_apart _ _ (hap _ (by simp)), State.get_set_apart _ _ (hap _ (by simp))]
  exact State.get_set_same _ 2 rfl

theorem State.afterDet_takeAwake (s : State) (x : Fin 2) (n : Fin 16) : s.AfterDet (s.takeAwake x n) x := by
  refine ⟨by rw [State.rxc_takeAwake], s.memories_takeAwake x n, (s.writes_takeAwake x n).mono fun k hk => .inr fun h => ?_⟩
  rw [inBlocks, h] at hk
  revert hk
  decide

/-- The receive chains and the slices, beside their registers. -/
def State.receivers (s : State) : Vector RxChain 2 × Vector SliceState 16 := (s.rxc, s.slc)

/-- R422: a wake changes neither the receive chains nor the slices. -/
theorem State.receivers_wake (s : State) (ds : List Nat) (cause detail : Nat) (recorded : Bool) :
    (s.wake ds cause detail recorded).receivers = s.receivers := by
  have hon : (s.each ds State.turnOn).receivers = s.receivers := State.each_keeps _ fun s d => by
    unfold State.turnOn
    dsimp only
    split_ifs <;> rfl
  have hready (s : State) : s.wakeReady.receivers = s.receivers := by
    unfold State.wakeReady
    dsimp only
    split_ifs <;> rfl
  have hcause (s : State) (same : Option Nat) : (s.wakeCause same cause detail).receivers = s.receivers := by
    unfold State.wakeCause
    split
    · split_ifs <;> rfl
    · rfl
  obtain h | h | ⟨p, q, same, h⟩ := s.wake_cases ds cause detail recorded
  · rw [h]
  · rw [h, hon]
  · rw [h, hready]
    exact (hcause _ same).trans hon

theorem State.rxc_wake (s : State) (ds : List Nat) (cause detail : Nat) (recorded : Bool) :
    (s.wake ds cause detail recorded).rxc = s.rxc := congrArg Prod.fst (s.receivers_wake ds cause detail recorded)

theorem State.slc_wake (s : State) (ds : List Nat) (cause detail : Nat) (recorded : Bool) :
    (s.wake ds cause detail recorded).slc = s.slc := congrArg Prod.snd (s.receivers_wake ds cause detail recorded)

theorem State.afterDet_wake (s : State) (x : Nat) (ds : List Nat) (cause detail : Nat) (recorded : Bool) :
    s.AfterDet (s.wake ds cause detail recorded) x := by
  refine ⟨by rw [State.rxc_wake], s.memories_wake .., (s.writes_wake ds cause detail recorded).mono fun k hk => .inr ?_⟩
  rw [List.mem_singleton.1 hk]
  decide

/-- A detection latched, counted and told to its consumers. -/
def State.detLatched (s : State) (x : Nat) : State :=
  ((s.raise (byChain x RXF_EVT.TDETA RXF_EVT.TDETB)).inc (RXF_TCNT.DET x)).pulse (0x80 + x)

/-- AUTOFULL takes the chain to FULL. -/
def State.wentFull (s : State) (x : Nat) : State := (s.set (RXF_CTRL.MODE x) 1).setChainMode x 1

/-- R73, R78: the slice that AUTOFULL takes is active, or the level allows no more. -/
abbrev State.noAwake (s : State) (n : Nat) : Prop :=
  (s.slcActive n || decide (s.slicesNow ≤ (List.range 16).countP s.slcActive)) = true

/-- What AUTOFULL makes of the chain. -/
def State.autoFull (s : State) (x : Nat) : State :=
  if (s.wentFull x).noAwake (s.get (RXF_TASTE.SLICE x)) then
    (s.wentFull x).raise (byChain x RXF_EVT.TNOSLA RXF_EVT.TNOSLB)
  else (s.wentFull x).takeAwake x (s.get (RXF_TASTE.SLICE x))

/-- The chain as a detection leaves it, before the wake. -/
def State.detAnswered (s : State) (x : Nat) : State :=
  if s.bit (RXF_CTRL.AUTOFULL x) then s.autoFull x else s

theorem State.tasteDetected_eq (s : State) (x : Nat) : s.tasteDetected x =
    ((s.detLatched x).detAnswered x).wake ([18, 19] ++ (if ((s.detLatched x).detAnswered x).bit PWR_CTRL.TDETSET then
      ((s.detLatched x).detAnswered x).wakeSet else [])) 6 x true := rfl

theorem State.writes_wentFull (s : State) (x : Nat) :
    s.Writes (fun k => k ∈ fullFields x ∨ k ∈ shownSlices) (s.wentFull x) :=
  ((State.Writes.refl s).set (.inl (by simp [fullFields]))).trans (State.writes_setChainMode_full _ x)

theorem State.afterDet_wentFull (s : State) (x : Nat) : s.AfterDet (s.wentFull x) x :=
  (⟨rfl, rfl, (State.Writes.refl s).set (.inl (by simp [awakeFields, fullFields]))⟩ :
    s.AfterDet (s.set (RXF_CTRL.MODE x) 1) x).trans (State.afterDet_setChainMode_full _ x)

theorem State.afterDet_answered (s : State) (x : Fin 2) : s.AfterDet (s.detAnswered x) x := by
  have hn : s.get (RXF_TASTE.SLICE x) < 16 := fieldOf_lt _ 20 4
  unfold State.detAnswered State.autoFull
  split_ifs
  · exact (s.afterDet_wentFull x).trans ⟨rfl, rfl, (State.Writes.refl _).raise (.inl (by simp [awakeFields]))⟩
  · exact (s.afterDet_wentFull x).trans (State.afterDet_takeAwake _ x ⟨_, hn⟩)
  · exact .refl s x

theorem State.afterDet_detected (s : State) (x : Fin 2) : (s.detLatched x).AfterDet (s.tasteDetected x) x := by
  rw [State.tasteDetected_eq]
  exact (State.afterDet_answered _ x).trans (State.afterDet_wake ..)

end Sys2Proof.Machine
end

section
namespace Sys2Proof.Machine

/-- What a detection writes at once, and where. -/
theorem detFields : ∀ x : Fin 2, (RXF_TCNT.DET x).fits = true ∧ (byChain x RXF_EVT.TDETA RXF_EVT.TDETB).fits = true ∧
    (byChain x RXF_EVT.TDETA RXF_EVT.TDETB).w = 1 ∧
    (byChain x RXF_EVT.TDETA RXF_EVT.TDETB).apart (RXF_TCNT.DET x) = true ∧
    (RXF_TCNT.DET x).apart (byChain x RXF_EVT.TDETA RXF_EVT.TDETB) = true ∧
    (∀ k ∈ [byChain x RXF_EVT.TDETA RXF_EVT.TDETB, RXF_TCNT.DET x], blockOfAddr k.addr = 3) ∧
    (∀ l ∈ [RXF_STAT.TBUSY x, RXF_STAT.MODE x, RXF_CTRL.AUTOFULL x, RXF_TASTE.SLICE x, RXF_TFREQ.FREQ x],
      ∀ k ∈ [byChain x RXF_EVT.TDETA RXF_EVT.TDETB, RXF_TCNT.DET x], l.apart k = true) ∧
    (∀ l ∈ [RXF_STAT.TBUSY x, RXF_TCNT.DET x, byChain x RXF_EVT.TDETA RXF_EVT.TDETB],
      blockOfAddr l.addr = 3 ∧ ∀ k ∈ awakeFields x, l.apart k = true) ∧
    (∀ k ∈ fullFields x, blockOfAddr k.addr = 3 ∧ (RXF_TFREQ.FREQ x).apart k = true) ∧
    (∀ k ∈ RXF_STAT.CLIP x :: stepFields x, (RXF_STAT.MODE x).apart k = true) ∧
    blockOfAddr (RXF_TFREQ.addr x) ≠ 4 ∧ blockOfAddr (RXF_STAT.addr x) ∉ [1] ∧
    blockOfAddr (RXF_STAT.addr x) ∉ [4, 8] := by decide

theorem State.get_pulse (s : State) (p : Nat) (l : Loc) : (s.pulse p).get l = s.get l :=
  State.get_congr (State.pulse_keeps State.regs (fun _ _ => rfl) s p) l

theorem State.writes_detLatched (s : State) (x : Nat) :
    s.Writes (· ∈ [byChain x RXF_EVT.TDETA RXF_EVT.TDETB, RXF_TCNT.DET x]) (s.detLatched x) :=
  (((State.Writes.refl s).raise List.mem_cons_self).inc (k := RXF_TCNT.DET x) (by simp)).congr
    (State.pulse_keeps State.regs (fun _ _ => rfl) _ _)

/-- R78: a detection is counted and latched. -/
theorem State.detLatched_leaves (s : State) (x : Fin 2) :
    (s.detLatched x).get (RXF_TCNT.DET x) = min 65535 (s.get (RXF_TCNT.DET x) + 1) ∧
      (s.detLatched x).bit (byChain x RXF_EVT.TDETA RXF_EVT.TDETB) = true ∧
      (s.detLatched x).rxc = s.rxc ∧ (s.detLatched x).memories = s.memories := by
  obtain ⟨hdet, hevt, hw, hed, hde, -⟩ := detFields x
  refine ⟨?_, ?_, State.pulse_keeps State.rxc (fun _ _ => rfl) _ _, State.memories_pulse _ _⟩
  · rw [State.detLatched, State.get_pulse]
    refine (State.get_incBy_same _ 1 hdet).trans ?_
    rw [State.raise, State.get_incBy_apart _ _ hde]
    rfl
  · rw [State.bit_eq, State.detLatched, State.get_pulse, State.inc, State.get_incBy_apart _ _ hed, ← State.bit_eq]
    exact State.bit_raise s hevt hw

/-- What follows a detection leaves its count, its event and the window as they are. -/
theorem State.AfterDet.get {u s : State} {x : Fin 2} (h : u.AfterDet s x) {l : Loc}
    (hl : l ∈ [RXF_STAT.TBUSY x, RXF_TCNT.DET x, byChain x RXF_EVT.TDETA RXF_EVT.TDETB]) : s.get l = u.get l := by
  obtain ⟨-, -, -, -, -, -, -, hap, -⟩ := detFields x
  obtain ⟨h3, hfree⟩ := hap l hl
  exact h.writes l fun k hk => hk.elim (hfree k) fun hk => Loc.apart_of_addr fun he => hk (he ▸ h3)

/-- FULL is in force. -/
theorem State.get_mode_setChainMode (s : State) (x : Fin 2) (h : s.get (RXF_STAT.MODE x) ≠ 1) :
    (s.setChainMode x 1).get (RXF_STAT.MODE x) = 1 := by
  obtain ⟨-, -, -, -, -, -, -, -, -, hap, -, -, hblk⟩ := detFields x
  have hshow (t : State) : t.showSlices.get (RXF_STAT.MODE x) = t.get (RXF_STAT.MODE x) :=
    t.writes_showSlices _ fun k hk => Loc.apart_of_addr fun he =>
      hblk (List.mem_cons.2 (.inl ((congrArg blockOfAddr he).trans (shownSlices_block k hk))))
  rw [State.setChainMode_full h, hshow, State.get_modRxc, State.fullSet,
    State.writes_manualGain _ x _ fun k hk => hap k (List.mem_cons_of_mem _ hk), State.get_set_apart _ _ (hap _ List.mem_cons_self)]
  exact State.get_set_same s 1 rfl

theorem State.Writes.noAwake {u s : State} (h : u.Writes rxfShown s) {n : Nat} (hn : n < 16) :
    s.noAwake n ↔ u.noAwake n := by
  rw [State.noAwake, h.slcActive hn, h.slicesNow, h.countActive]

/-- R78, R186: a detection in taste mode with AUTOFULL, a slice that is free and a level that allows it. -/
theorem State.tasteDetected_awake {s : State} {x : Fin 2} {n : Nat} (hauto : s.bit (RXF_CTRL.AUTOFULL x) = true)
    (hm : s.get (RXF_STAT.MODE x) = 2) (hn : s.get (RXF_TASTE.SLICE x) = n) (hfree : ¬ s.noAwake n) :
    (s.tasteDetected x).get (RXF_STAT.MODE x) = 1 ∧ (vget (s.tasteDetected x).rxc x).awake = some n ∧
      (s.tasteDetected x).get (SLC_STAT.MODE n) = 2 ∧
      (vget (s.tasteDetected x).slc n).freq = s.get (RXF_TFREQ.FREQ x) := by
  obtain ⟨-, -, -, -, -, hdet3, hap, -, hfull, -, hfreq, hpwr, hslc⟩ := detFields x
  have hlt : n < 16 := hn ▸ fieldOf_lt _ 20 4
  have hlatch := s.writes_detLatched x
  have hget {l : Loc} (hl : l ∈ [RXF_STAT.TBUSY x, RXF_STAT.MODE x, RXF_CTRL.AUTOFULL x, RXF_TASTE.SLICE x,
      RXF_TFREQ.FREQ x]) : (s.detLatched x).get l = s.get l := hlatch l (hap l hl)
  have hwent := (s.detLatched x).writes_wentFull x
  have hno : ¬ ((s.detLatched x).wentFull x).noAwake n := by
    have hshown : s.Writes rxfShown ((s.detLatched x).wentFull x) :=
      (hlatch.mono fun k hk => .inl (hdet3 k hk)).trans
        (hwent.mono fun k hk => hk.imp (fun hk => (hfull k hk).1) id)
    exact mt (hshown.noAwake hlt).1 hfree
  have hmode : ((s.detLatched x).wentFull x).get (RXF_STAT.MODE x) = 1 := by
    have hcm : (RXF_STAT.MODE x).apart (RXF_CTRL.MODE x) = true := Loc.apart_of_addr (by
      have : ∀ x : Fin 2, RXF_STAT.addr x ≠ RXF_CTRL.addr x := by decide
      exact this x)
    refine State.get_mode_setChainMode _ x ?_
    rw [State.get_set_apart _ _ hcm, hget (by simp), hm]
    decide
  have hchan : ((s.detLatched x).wentFull x).get (RXF_TFREQ.FREQ x) = s.get (RXF_TFREQ.FREQ x) := by
    rw [hwent _ fun k hk => hk.elim (fun hk => (hfull k hk).2) fun hk => Loc.apart_of_addr fun he =>
      hfreq ((congrArg blockOfAddr he).trans (shownSlices_block k hk)), hget (by simp)]
  have hans : (s.detLatched x).detAnswered x = ((s.detLatched x).wentFull x).takeAwake x n := by
    rw [State.detAnswered, if_pos (by rw [State.bit_eq, hget (by simp), ← State.bit_eq, hauto]), State.autoFull,
      hget (by simp), hn, if_neg hno]
  rw [State.tasteDetected_eq, hans]
  refine ⟨?_, ?_, ?_, ?_⟩
  · rw [(State.writes_wake _ _ _ _ _).get_of_block (k := RXF_STAT.MODE x) hpwr]
    exact ((State.writes_takeAwake _ x ⟨n, hlt⟩).get_of_block hslc).trans hmode
  · rw [State.rxc_wake, State.rxc_takeAwake]
  · rw [(State.writes_wake _ _ _ _ _).get_slc (by decide) hlt (.inl rfl)]
    exact State.get_mode_takeAwake _ x ⟨n, hlt⟩
  · rw [State.slc_wake]
    exact (State.slc_takeAwake _ x ⟨n, hlt⟩).trans hchan

/-! ### The interval, the end of the awake period, and the continuation test (R185, R187, R192) -/

section
variable {s : State} {x : Nat}

theorem State.intervalTick_off (h : s.bit (LNK_TINT.EN x) = false) :
    s.intervalTick x = s.modRxc x (fun c => { c with ticks := 0 }) := if_pos (by rw [h]; rfl)

theorem State.intervalTick_counts (h : s.bit (LNK_TINT.EN x) = true)
    (ht : (vget s.rxc x).ticks + 1 < intervalTicks (s.get (LNK_TINT.INTERVAL x))) :
    s.intervalTick x = s.modRxc x (fun c => { c with ticks := (vget s.rxc x).ticks + 1 }) :=
  (if_neg (by rw [h]; exact Bool.false_ne_true)).trans (if_pos ht)

theorem State.intervalTick_ends (h : s.bit (LNK_TINT.EN x) = true)
    (ht : intervalTicks (s.get (LNK_TINT.INTERVAL x)) ≤ (vget s.rxc x).ticks + 1) :
    s.intervalTick x = (s.modRxc x (fun c => { c with ticks := 0 })).intervalStart x :=
  (if_neg (by rw [h]; exact Bool.false_ne_true)).trans (if_neg (Nat.not_lt.2 ht))

end

/-- A START leaves what the chain keeps beside its window. -/
theorem State.ticks_tasteStart (s : State) (x : Nat) :
    (vget (s.tasteStart x).rxc x).ticks = (vget s.rxc x).ticks := by
  have hwin (w : Option (Option Nat)) :
      (vget (s.modRxc x (fun c => { c with window := w })).rxc x).ticks = (vget s.rxc x).ticks :=
    vget_vmod_keeps RxChain.ticks s.rxc x x fun _ => rfl
  obtain h | h | h | ⟨n, -, h⟩ := s.tasteStart_cases x
  · rw [h]
  · rw [h]
    rfl
  · rw [h]
    exact hwin (some none)
  · rw [h, State.windowOpened, State.showSlices_keeps State.rxc fun _ _ _ => rfl]
    exact hwin (some (some n))

/-- AWAKE_RELEASE of an awake slice with nothing outstanding. -/
def State.releaseAsked (s : State) (x n : Nat) : State :=
  (((s.modRxc x (fun c => { c with releasing := true })).set (SLC_CFG.MODE n) 0).set (RXF_CTRL.MODE x) 2).raise
    LNK_TEVT.TRELEASE

theorem State.awakeRelease_eq {s : State} {x n : Nat} (ha : (vget s.rxc x).awake = some n)
    (hr : (vget s.rxc x).releasing = false) (hs : s.bit (SLC_STAT.SYNC n) = false) (hd : ∀ d ∈ s.lnk.done, d.slice ≠ n)
    (hc : ∀ c, s.cr c = none) : s.awakeRelease x = s.releaseAsked x n := by
  have hdone : s.lnk.done.any (fun d => decide (d.slice = n)) = false :=
    List.any_eq_false.2 fun d hm => by simpa using hd d hm
  have hcar : (carriersOf x).any (fun c => (s.cr c).any (fun k => k.ack && decide (k.slice = n))) = false :=
    List.any_eq_false.2 fun c _ => by rw [hc c]; exact Bool.false_ne_true
  unfold State.awakeRelease
  rw [ha]
  dsimp only
  rw [hs, hdone, hcar, hr]
  rfl

theorem awakeRelease_apart : ∀ n : Fin 16, ∀ x : Fin 2, (SLC_CFG.MODE n).apart (RXF_CTRL.MODE x) = true ∧
    (SLC_CFG.MODE n).apart LNK_TEVT.TRELEASE = true ∧ (RXF_CTRL.MODE x).apart LNK_TEVT.TRELEASE = true := by decide

theorem State.releaseAsked_leaves (s : State) (x : Fin 2) (n : Fin 16) :
    (vget (s.releaseAsked x n).rxc x).releasing = true ∧ (s.releaseAsked x n).get (SLC_CFG.MODE n) = 0 ∧
      (s.releaseAsked x n).get (RXF_CTRL.MODE x) = 2 ∧ (s.releaseAsked x n).bit LNK_TEVT.TRELEASE = true ∧
      s.Writes (inRegs [SLC_CFG.addr n, RXF_CTRL.addr x, LNK_TEVT.addr]) (s.releaseAsked x n) := by
  obtain ⟨hmr, hmt, hrt⟩ := awakeRelease_apart n x
  have hrxc : s.Writes (inRegs [SLC_CFG.addr n, RXF_CTRL.addr x, LNK_TEVT.addr])
      (s.modRxc x (fun c => { c with releasing := true })) := (State.Writes.refl s).congr
  refine ⟨?_, ?_, ?_, State.bit_raise _ rfl rfl, ?_⟩
  · exact congrArg RxChain.releasing (vget_vmod_same s.rxc _ x.isLt)
  · rw [State.releaseAsked, State.raise, State.get_incBy_apart _ 1 hmt, State.get_set_apart _ _ hmr]
    exact State.get_set_same _ 0 rfl
  · rw [State.releaseAsked, State.raise, State.get_incBy_apart _ 1 hrt]
    exact State.get_set_same _ 2 rfl
  · exact ((hrxc.set (k := SLC_CFG.MODE n) (by simp [inRegs, SLC_CFG.MODE])).set (k := RXF_CTRL.MODE x)
      (by simp [inRegs, RXF_CTRL.MODE])).raise (by simp [inRegs, LNK_TEVT.TRELEASE])

/-- R192: power follows a train frame that asks for an acknowledgement. -/
def State.ackDeferred (s : State) (d : RxDone) : State :=
  { s.raise LNK_TEVT.TDEFER with
    lnk := { s.lnk with done := s.lnk.done.map (fun e => if e.fid = d.fid then { e with more := true } else e) } }

theorem State.continuation_eq {s : State} {n : Nat} {power : Int} {d : RxDone}
    (hd : (s.lnk.done.filter (fun d => decide (d.slice = n) && d.awake)).getLast? = some d)
    (hasks : (headOf d.wave d.mpdu).any (·.ackreq) = true) (htrain : isMf d.wave = false ∨ bitOf d.flags 1 = true)
    (hmore : d.more = false) (howed : d.owed = none) (hp : 2 * s.getS LNK_TRX.CTHR ≤ s.rssiOf d.chain power) :
    s.continuation n power = s.ackDeferred d := by
  have htrain : (!isMf d.wave || bitOf d.flags 1) = true := by
    rw [Bool.or_eq_true, Bool.not_eq_true']
    exact htrain
  unfold State.continuation
  rw [hd]
  dsimp only
  rw [hasks, htrain, hmore, decide_eq_true hp, howed]
  rfl

end Sys2Proof.Machine
end

section
namespace Sys2Proof.Machine

/-! ### The five instants of the taster (R77, R78, R185 to R187, R192) -/

theorem State.tasteDecision_eq {s : State} {x : Nat} {power : Int} {corr : Nat} (hw : (vget s.rxc x).window.isSome = true)
    (hon : s.dOn (16 + x) = true) : s.tasteDecision x power corr =
      if (s.endWindow x).tasteDetects x power corr then (s.endWindow x).tasteDetected x else s.endWindow x := by
  have hnone : (vget s.rxc x).window.isNone = false := by rw [Option.isNone_eq_false_iff, hw]
  exact if_neg (by rw [hnone, hon]; exact Bool.false_ne_true)

/-- The chain after a decision: no window, and nothing but the taster's business done. -/
theorem State.tasteDecision_ends {s : State} {x : Fin 2} {power : Int} {corr : Nat}
    (hw : (vget s.rxc x).window.isSome = true) (hn : ∀ n, (vget s.rxc x).window = some (some n) → n < 16)
    (hon : s.dOn (16 + x) = true) :
    (vget (s.tasteDecision x power corr).rxc x).window = none ∧
      (s.tasteDecision x power corr).bit (RXF_STAT.TBUSY x) = false ∧
      (s.tasteDecision x power corr).memories = s.memories := by
  obtain ⟨hwin, hbusy, -, hmem⟩ := State.endWindow_rxf hw hn
  obtain ⟨-, -, -, -, -, -, hap, -⟩ := detFields x
  rw [State.tasteDecision_eq hw hon]
  split_ifs
  · have hafter := (s.endWindow x).afterDet_detected x
    obtain ⟨-, -, hrxc, hdmem⟩ := (s.endWindow x).detLatched_leaves x
    refine ⟨?_, ?_, ?_⟩
    · rw [hafter.window, hrxc, hwin]
    · rw [State.bit_eq, hafter.get (by simp), State.writes_detLatched _ x _ (hap _ (by simp)), ← State.bit_eq, hbusy]
    · rw [hafter.mem, hdmem, hmem]
  · exact ⟨hwin, hbusy, hmem⟩

theorem State.writes_tasteMet_blocks (s : State) (x : Fin 2) (w : Word) :
    s.Writes (inBlocks [3, 4]) (s.tasteMet x w) :=
  (s.writes_tasteMet x w).mono fun _ hk => List.mem_cons.2 (.inl (List.mem_singleton.1 hk))

theorem State.memories_tasteMet (s : State) (x : Nat) (w : Word) : (s.tasteMet x w).memories = s.memories :=
  (State.tasteAimed_keeps State.memories (fun _ _ _ => rfl) (fun _ _ _ => rfl) _ x w).trans
    (State.tasteStored_keeps State.memories (fun _ _ _ => rfl) s x w)

theorem overFields_block : ∀ x : Fin 2, inBlocks [3, 4] (RXF_STAT.TBUSY x) := by decide

theorem State.writes_windowOver (s : State) (x : Fin 2) : s.Writes (inBlocks [3, 4]) (s.windowOver x) := by
  have hrxc : s.Writes (inBlocks [3, 4]) (s.modRxc x (fun c => { c with window := none })) := (State.Writes.refl s).congr
  exact hrxc.set (overFields_block x)

/-- Nothing was detected: where no frame was in reception on the window's slice, RXF and SLC alone are written. -/
theorem State.tasteDecision_missed {s : State} {x : Fin 2} {power : Int} {corr : Nat}
    (hw : (vget s.rxc x).window.isSome = true) (hn : ∀ n, (vget s.rxc x).window = some (some n) → n < 16)
    (hon : s.dOn (16 + x) = true) (hno : s.tasteDetects x power corr = false) :
    (s.tasteDecision x power corr).get (RXF_TCNT.DET x) = s.get (RXF_TCNT.DET x) ∧
      ((∀ n, (vget s.rxc x).window = some (some n) → (vget s.slc n).frame = none) →
        KeepsBlocks s (s.tasteDecision x power corr) [3, 4]) := by
  obtain ⟨-, -, hget, -⟩ := State.endWindow_rxf hw hn
  obtain ⟨-, hblk⟩ := State.endWindow_leaves hw hn
  rw [State.tasteDecision_eq hw hon, State.tasteDetects_endWindow hw hn, hno]
  refine ⟨hget _ (by simp [decisionReads]), fun hf => State.Writes.keepsBlocks ((s.writes_windowOver x).trans ((hblk hf).mono fun k hk => ?_))⟩
  exact List.mem_cons_of_mem _ hk

/-- R78: a detection is counted and latched; in taste mode AUTOFULL takes its slice where it may. -/
theorem State.tasteDecision_hit {s : State} {x : Fin 2} {power : Int} {corr : Nat}
    (hw : (vget s.rxc x).window.isSome = true) (hn : ∀ n, (vget s.rxc x).window = some (some n) → n < 16)
    (hon : s.dOn (16 + x) = true) (hdet : s.tasteDetects x power corr = true) :
    (s.tasteDecision x power corr).get (RXF_TCNT.DET x) = min 65535 (s.get (RXF_TCNT.DET x) + 1) ∧
      (s.tasteDecision x power corr).bit (byChain x RXF_EVT.TDETA RXF_EVT.TDETB) = true ∧
      (s.bit (RXF_CTRL.AUTOFULL x) = true → (vget s.rxc x).window = some none → s.get (RXF_STAT.MODE x) = 2 →
        s.slcActive (s.get (RXF_TASTE.SLICE x)) = false → (List.range 16).countP s.slcActive < s.slicesNow →
        (s.tasteDecision x power corr).get (RXF_STAT.MODE x) = 1 ∧
          (vget (s.tasteDecision x power corr).rxc x).awake = some (s.get (RXF_TASTE.SLICE x)) ∧
          (s.tasteDecision x power corr).get (SLC_STAT.MODE (s.get (RXF_TASTE.SLICE x))) = 2 ∧
          (vget (s.tasteDecision x power corr).slc (s.get (RXF_TASTE.SLICE x))).freq = s.get (RXF_TFREQ.FREQ x)) := by
  obtain ⟨-, -, hget, -⟩ := State.endWindow_rxf hw hn
  have hafter := (s.endWindow x).afterDet_detected x
  obtain ⟨hcnt, hevt, -⟩ := (s.endWindow x).detLatched_leaves x
  rw [State.tasteDecision_eq hw hon, State.tasteDetects_endWindow hw hn, hdet, if_pos rfl]
  refine ⟨?_, ?_, fun hauto hwin hm hfree hroom => ?_⟩
  · rw [hafter.get (by simp), hcnt, hget _ (by simp [decisionReads])]
  · rw [State.bit_eq, hafter.get (by simp), ← State.bit_eq, hevt]
  · have hover : s.Writes rxfShown (s.endWindow x) := by
      have hbusy : ∀ x : Fin 2, blockOfAddr (RXF_STAT.TBUSY x).addr = 3 := by decide
      have hrxc : s.Writes rxfShown (s.modRxc x (fun c => { c with window := none })) := (State.Writes.refl s).congr
      rw [State.endWindow_detector hwin]
      exact hrxc.set (.inl (hbusy x))
    have hno : ¬ (s.endWindow x).noAwake (s.get (RXF_TASTE.SLICE x)) := by
      have hlt : s.get (RXF_TASTE.SLICE x) < 16 := fieldOf_lt _ 20 4
      rw [hover.noAwake hlt, State.noAwake, hfree, decide_eq_false (Nat.not_le.2 hroom)]
      exact Bool.false_ne_true
    rw [← hget (RXF_TFREQ.FREQ x) (by simp [decisionReads])]
    exact State.tasteDetected_awake (by rw [State.bit_eq, hget _ (by simp [decisionReads]), ← State.bit_eq, hauto])
      ((hget _ (by simp [decisionReads])).trans hm) (hget _ (by simp [decisionReads])) hno

/-- R185, R422: the START at the end of an interval, or the wake that precedes it. -/
theorem State.intervalStart_leaves (s : State) (x : Fin 2) :
    (vget (s.intervalStart x).rxc x).ticks = (vget s.rxc x).ticks ∧
      (s.dOn (16 + x) = false → (vget (s.intervalStart x).rxc x).due = true) ∧
      (s.dOn (16 + x) = true → s.intervalStart x = s.tasteStart x) ∧
      s.Writes (inBlocks [1, 3, 4]) (s.intervalStart x) ∧ (s.intervalStart x).memories = s.memories := by
  cases hon : s.dOn (16 + x) with
  | true =>
    have he : s.intervalStart x = s.tasteStart x := if_pos hon
    rw [he]
    exact ⟨s.ticks_tasteStart x, nofun, fun _ => rfl, (s.writes_tasteStart_blocks x).mono fun k hk =>
      List.mem_cons_of_mem _ hk, s.memories_tasteStart x⟩
  | false =>
    have he : s.intervalStart x = (s.modRxc x (fun c => { c with due := true })).wake [16 + x.val] 0 0 false :=
      if_neg (by rw [hon]; exact Bool.false_ne_true)
    have hrxc : vget (s.modRxc x (fun c => { c with due := true })).rxc x = { vget s.rxc x with due := true } :=
      vget_vmod_same s.rxc _ x.isLt
    have hdue : s.Writes (inBlocks [1, 3, 4]) (s.modRxc x (fun c => { c with due := true })) := (State.Writes.refl s).congr
    rw [he, State.rxc_wake, hrxc]
    refine ⟨rfl, fun _ => rfl, nofun, hdue.trans ((State.writes_wake _ _ _ _ _).mono fun k hk => ?_), ?_⟩
    · exact List.mem_cons.2 (.inl (List.mem_singleton.1 hk))
    · rw [State.memories_wake]
      rfl

end Sys2Proof.Machine

open Sys2Proof Sys2Proof.Machine

/-- Settles O16: START by its three answers, the decision by what the detector found, the interval by where its count stands,
and the two instants of the awake period. -/
theorem tastingCompletes : Obligations.TastingCompletes := by
  unfold Obligations.TastingCompletes
  refine ⟨fun e x v s hr hw => ?_, fun x power corr s hw hn hon => ?_, fun x s => ⟨fun hen => ?_, fun hen ht => ?_,
    fun hen ht => ?_⟩, fun x n s ha hrel hsync hdone hcar => ?_, fun n power d s hd hasks htrain hmore howed hp => ?_⟩
  · obtain ⟨r, -, hwr⟩ := State.writeBy_simple hr (simpleAddr_rxf x).2
    have hbit (lo w : Nat) (hlo : 1 ≤ lo) : fieldOf (putField v 0 1 1) lo w = fieldOf v lo w :=
      fieldOf_putField_ne v 1 (.inr hlo)
    have hleaves := State.tasteWrite_leaves (v := putField v 0 1 1) hw rfl
    have hw9 : s.tasteWave x (putField v 0 1 1) =
        if 9 ≤ fieldOf v 8 4 then s.get (RXF_TASTE.WAVE x) else fieldOf v 8 4 := by
      rw [State.tasteWave, hbit 8 4 (by decide)]
    rw [hw9, hbit 4 2 (by decide), hbit 24 8 (by decide), hbit 12 4 (by decide), hbit 16 4 (by decide)] at hleaves
    exact ⟨_, congrArg Host.Outcome.next (((hwr _).trans (s.writeEffect_rxfTaste e x r _)).trans
      (s.tasteWrite_start x (fieldOf_putField_same v 1 (by decide)))), hleaves,
      ((s.writes_tasteMet_blocks x _).trans (State.writes_tasteStart_blocks _ x)).keepsBlocks,
      keepsMemory_of_memories ((State.memories_tasteStart _ x).trans (s.memories_tasteMet x _))⟩
  · obtain ⟨hwin, hbusy, hmem⟩ := State.tasteDecision_ends hw hn hon
    exact ⟨s.tasteDecision x power corr, rfl, hwin, hbusy, State.tasteDecision_missed hw hn hon,
      State.tasteDecision_hit hw hn hon, keepsMemory_of_memories hmem⟩
  · refine ⟨_, congrArg Host.Outcome.next (State.intervalTick_off hen), ?_, fun _ _ => rfl, keepsMemory_of_memories rfl⟩
    exact congrArg RxChain.ticks (vget_vmod_same s.rxc _ x.isLt)
  · refine ⟨_, congrArg Host.Outcome.next (State.intervalTick_counts hen ht), ?_, fun _ _ => rfl, keepsMemory_of_memories rfl⟩
    exact congrArg RxChain.ticks (vget_vmod_same s.rxc _ x.isLt)
  · obtain ⟨hticks, hdue, hon, hwr, hmem⟩ := (s.modRxc x (fun c => { c with ticks := 0 })).intervalStart_leaves x
    have hrxc : vget (s.modRxc x (fun c => { c with ticks := 0 })).rxc x = { vget s.rxc x with ticks := 0 } :=
      vget_vmod_same s.rxc _ x.isLt
    refine ⟨_, congrArg Host.Outcome.next (State.intervalTick_ends hen ht), ?_, hdue, fun hd hw hm hdeaf hwave hclk => ?_,
      hwr.keepsBlocks, keepsMemory_of_memories hmem⟩
    · rw [hticks, hrxc]
    · have hwin : (vget (s.modRxc x (fun c => { c with ticks := 0 })).rxc x).window = none := by rw [hrxc]; exact hw
      have hidle : ¬ (s.modRxc x (fun c => { c with ticks := 0 })).tasteIdle x := by
        rintro (h | h | h | h)
        · exact absurd (hm.symm.trans h) (by decide)
        · exact absurd (hdeaf.symm.trans h) Bool.false_ne_true
        · exact hwave h
        · exact absurd (hclk.symm.trans ((Bool.not_eq_true' _).mp h)) (by decide)
      rw [hon hd, State.tasteStart_detector hwin hidle hm]
      exact State.detectorStarted_leaves _ x
  · obtain ⟨hreleasing, hmode, hctrl, hevt, hwr⟩ := s.releaseAsked_leaves x n
    exact ⟨_, congrArg Host.Outcome.next (State.awakeRelease_eq ha hrel hsync hdone hcar), hreleasing, hmode, hctrl, hevt,
      hwr.keepsRegs, keepsMemory_of_memories rfl⟩
  · have hwr : s.Writes (inRegs [LNK_TEVT.addr]) (s.raise LNK_TEVT.TDEFER) :=
      (State.Writes.refl s).raise (by simp [inRegs, LNK_TEVT.TDEFER])
    have hraised : (s.raise LNK_TEVT.TDEFER).bit LNK_TEVT.TDEFER = true := State.bit_raise s rfl rfl
    exact ⟨_, congrArg Host.Outcome.next (State.continuation_eq hd hasks htrain hmore howed hp), hraised, rfl,
      hwr.keepsRegs, keepsMemory_of_memories rfl⟩
end

section
namespace Sys2Proof.Machine

/-! ### The frame in reception on a slice -/

/-- A frame is in reception only on a slice that exists. -/
theorem State.lt_of_frame {s : State} {n : Nat} {f : RxFrame} (h : (vget s.slc n).frame = some f) : n < 16 := by
  by_contra hn
  have hout : vget s.slc n = default := by simp [vget, hn]
  rw [hout] at h
  exact nomatch h

theorem State.vget_modSlc_same (s : State) {n : Nat} (hn : n < 16) (g : SliceState → SliceState) :
    vget (s.modSlc n g).slc n = g (vget s.slc n) := vget_vmod_same s.slc g hn

namespace State.Writes

/-- A field of another register. -/
theorem get_of_reg {u s : State} {l : List Nat} (h : u.Writes (inRegs l) s) {k : Loc} (hk : k.addr ∉ l) :
    s.get k = u.get k := h k fun _ hm => Loc.apart_of_addr fun he => hk (he ▸ hm)

theorem moreRegs {u s : State} {l m : List Nat} (h : u.Writes (inRegs l) s) (hl : l ⊆ m) : u.Writes (inRegs m) s :=
  h.mono fun _ hk => hl hk

end State.Writes

/-- A counter that rises and a flag that latches with it. -/
theorem State.counted_flagged (s : State) {c e : Loc} (hc : c.fits = true) (he : e.fits = true) (hw : e.w = 1)
    (ha : c.apart e = true) : ((s.inc c).raise e).get c = min (2 ^ c.w - 1) (s.get c + 1) ∧
      ((s.inc c).raise e).bit e = true ∧ s.Writes (inRegs [c.addr, e.addr]) ((s.inc c).raise e) :=
  ⟨(State.get_incBy_apart _ _ ha).trans (s.get_incBy_same 1 hc), State.bit_raise _ he hw,
    ((State.Writes.refl s).inc (by simp [inRegs])).raise (by simp [inRegs])⟩

/-! ### The codewords in the pool (R111) -/

/-- How many codewords wait or are decoded. -/
def PhyState.held (p : PhyState) : Nat := p.queue.length + p.dec.toList.countP Option.isSome

theorem PhyState.held_eq (p : PhyState) :
    p.held = p.queue.length + (List.range 4).countP (fun d => (vget p.dec d).isSome) := by
  obtain ⟨q, ⟨⟨l⟩, hl⟩, i⟩ := p
  match l, hl with
  | [a, b, c, d], _ => rfl

theorem PhyState.queue_le_held (p : PhyState) : p.queue.length ≤ p.held := Nat.le_add_right _ _

theorem PhyState.held_le (p : PhyState) : p.held ≤ p.queue.length + 4 :=
  Nat.add_le_add_left (List.countP_le_length.trans_eq p.dec.length_toList) _

/-- Of optional values, those taken out for `p` and those left are all. -/
theorem length_filterMap_add_countP {α : Type} (p : α → Bool) (l : List (Option α)) :
    (l.filterMap (fun d => d.filter p)).length + (l.map (fun d => d.filter (fun v => !p v))).countP Option.isSome =
      l.countP Option.isSome := by
  induction l with
  | nil => rfl
  | cons d l ih =>
    rw [List.filterMap_cons, List.map_cons, List.countP_cons, List.countP_cons, ← ih]
    cases d with
    | none => rfl
    | some v =>
      cases hp : p v
      · simp only [Option.filter_some, hp, Bool.not_false, Bool.false_eq_true, if_false, if_true, Option.isSome_some,
          Nat.add_assoc]
      · simp only [Option.filter_some, hp, Bool.not_true, Bool.false_eq_true, if_false, if_true, Option.isSome_some,
          Option.isSome_none, List.length_cons, Nat.add_right_comm, Nat.add_zero]

/-- A list cut by `p`, and its `p` part by `q`, with one element put between. -/
theorem length_cut_insert {α : Type} (p q r : α → Bool) (hr : ∀ v, r v = !q v) (l : List α) (x : α) :
    (l.filter (fun v => !p v) ++ (l.filter p).filter q ++ x :: (l.filter p).filter r).length = l.length + 1 := by
  have hp := List.length_eq_length_filter_add (l := l) p
  have hq := List.length_eq_length_filter_add (l := l.filter p) q
  obtain rfl : r = fun v => !q v := funext hr
  simp only [List.length_append, List.length_cons]
  omega

/-- A codeword that joins the pool is one more, whatever is ordered again with it. -/
theorem State.held_joinPool (s : State) (w : Codeword) : (s.joinPool w).phy.held = s.phy.held + 1 := by
  have hback := length_filterMap_add_countP (fun v : Codeword => decide (v.clk = s.clk)) s.phy.dec.toList
  have hqueue := length_cut_insert (fun v : Codeword => decide (v.clk = s.clk)) (fun v => decide (v.slice ≤ w.slice))
    (fun v => decide (w.slice < v.slice)) (fun v => by rw [← decide_not, decide_eq_decide, Nat.not_le])
    (s.phy.dec.toList.filterMap (fun d => d.filter fun v => decide (v.clk = s.clk)) ++ s.phy.queue) w
  simp only [PhyState.held, State.joinPool, Vector.toList_map, hqueue, ← hback, List.length_append]
  omega

/-! ### Idle decoders take codewords (R111) -/

/-- Decoder `d`, where it is idle, takes the codeword that came first. -/
def State.feedOne (s : State) (d : Nat) : State :=
  match vget s.phy.dec d, s.phy.queue with
  | none, w :: t => { s with phy := { s.phy with queue := t, dec := vset s.phy.dec d (some w) } }
  | _, _ => s

theorem State.feedDecoders_eq (s : State) : s.feedDecoders = (s.each (List.range 4) State.feedOne).showPool := rfl

theorem State.feedOne_keeps {β : Type} (f : State → β) (h : ∀ (s : State) p, f { s with phy := p } = f s) (s : State)
    (d : Nat) : f (s.feedOne d) = f s := by
  unfold State.feedOne
  split
  · exact h s _
  · rfl

/-- The pool and the register that shows it are all that changes. -/
theorem State.feedDecoders_keeps {β : Type} (f : State → β) (hset : ∀ s l v, f (State.set s l v) = f s)
    (hphy : ∀ (s : State) p, f { s with phy := p } = f s) (s : State) : f s.feedDecoders = f s := by
  rw [State.feedDecoders_eq, State.showPool, hset, hset]
  exact State.each_keeps f (State.feedOne_keeps f hphy)

/-- A decoder that takes a codeword takes it out of the queue. -/
theorem State.held_feedOne (s : State) {d : Nat} (hd : d < 4) : (s.feedOne d).phy.held = s.phy.held := by
  unfold State.feedOne
  split
  next w t hidle hqueue =>
    have hget : s.phy.dec.toList[d]'(by simpa using hd) = none := by
      rw [← hidle]
      simp [vget, hd]
    have hcount := List.countP_set (p := Option.isSome) (l := s.phy.dec.toList) (i := d) (a := some w) (by simpa using hd)
    simp only [PhyState.held, vset, Vector.toList_setIfInBounds, hqueue, List.length_cons, hcount, hget]
    simp
    omega
  next => rfl

theorem State.held_feedDecoders (s : State) : s.feedDecoders.phy.held = s.phy.held :=
  State.each_induct (I := fun t => t.phy.held = s.phy.held) (s := s) (as := List.range 4) rfl
    fun t _ hd h => (t.held_feedOne (List.mem_range.1 hd)).trans h

theorem State.writes_feedDecoders (s : State) : s.Writes (· ∈ [PHY_POOL.DEPTH, PHY_POOL.BUSY]) s.feedDecoders := by
  have hfed : s.Writes (· ∈ [PHY_POOL.DEPTH, PHY_POOL.BUSY]) (s.each (List.range 4) State.feedOne) :=
    (State.Writes.refl s).congr (State.each_keeps State.regs (State.feedOne_keeps State.regs fun _ _ => rfl))
  exact (hfed.set (by simp)).set (by simp)

theorem State.writes_feedDecoders_pool (s : State) : s.Writes (inRegs [PHY_POOL.addr]) s.feedDecoders :=
  s.writes_feedDecoders.mono (by decide)

/-- What a feed leaves of the slices and the memories. -/
theorem State.slc_feedDecoders (s : State) : s.feedDecoders.slc = s.slc :=
  State.feedDecoders_keeps State.slc (fun _ _ _ => rfl) (fun _ _ => rfl) s

@[simp] theorem State.memories_feedDecoders (s : State) : s.feedDecoders.memories = s.memories :=
  State.feedDecoders_keeps State.memories (fun _ _ _ => rfl) (fun _ _ => rfl) s

/-! ### The next codeword of a frame (R97, R111, R112) -/

/-- The codeword that the frame of slice `n` offers next. -/
def State.nextCodeword (s : State) (n : Nat) (f : RxFrame) : Codeword :=
  { slice := n, fid := f.fid, index := f.codewords, k := mfK f.mcs, soft := codewordSoft f f.codewords, clk := s.clk }

/-- The frame has offered it. -/
def State.frameOffers (s : State) (n : Nat) (f : RxFrame) : State :=
  s.modSlc n (fun c => { c with frame := some { f with codewords := f.codewords + 1 } })

/-- It joins the pool, and the peak follows. -/
def State.poolTakes (s : State) (w : Codeword) : State :=
  ((s.joinPool w).set PHY_POOL.PEAK (max (s.get PHY_POOL.PEAK) (s.joinPool w).phy.queue.length)).feedDecoders

/-- It is dropped: counted and latched. -/
def State.poolDrops (s : State) : State := (s.inc PHY_CWDROP.COUNT).raise PHY_EVT.POOLFULL

theorem State.offerCodeword_eq (s : State) (n : Nat) (f : RxFrame) : s.offerCodeword n f =
    if f.cwStatus = some 8 then s.frameOffers n f
    else if 32 ≤ s.phy.queue.length then (s.frameOffers n f).poolDrops.cwStatus n f.fid 8
    else (s.frameOffers n f).poolTakes (s.nextCodeword n f) := rfl

/-- R97: the frame takes the symbols, and offers a codeword where they complete the next one. -/
theorem State.codewordReady_eq {s : State} {n : Nat} {f g : RxFrame} {symbols : List (List Cx)}
    (hf : (vget s.slc n).frame = some f) (hh : f.hdr = true) (hw : isMf f.wave = true) (hon : s.dOn 19 = true)
    (hg : symbols.foldl takeSymbol f = g) : s.codewordReady n symbols =
      if mfCodewords g.mcs g.len ≤ g.codewords ∨ g.soft.length < codewordEnd g g.codewords then
        s.modSlc n (fun c => { c with frame := some g })
      else s.offerCodeword n g := by
  subst hg
  unfold State.codewordReady
  rw [hf]
  exact if_neg (by simp [hh, hw, hon])

theorem State.frame_frameOffers (s : State) {n : Nat} (hn : n < 16) (f : RxFrame) :
    (vget (s.frameOffers n f).slc n).frame = some { f with codewords := f.codewords + 1 } :=
  congrArg SliceState.frame (s.vget_modSlc_same hn _)

/-- R111: with room in the queue the pool holds one codeword more, and the peak does not fall. -/
theorem State.poolTakes_leaves {s : State} (w : Codeword) (hroom : s.phy.queue.length < 32) :
    (s.poolTakes w).slc = s.slc ∧ (s.poolTakes w).phy.held = s.phy.held + 1 ∧
      s.get PHY_POOL.PEAK ≤ (s.poolTakes w).get PHY_POOL.PEAK ∧
      s.Writes (inRegs [PHY_POOL.addr]) (s.poolTakes w) ∧ (s.poolTakes w).memories = s.memories := by
  have hheld := s.held_joinPool w
  have hqueue := (s.joinPool w).phy.queue_le_held
  have hdec := s.phy.held_le
  have hpeak : s.get PHY_POOL.PEAK < 2 ^ 8 := fieldOf_lt ..
  have hshown := fun v => ((s.joinPool w).set PHY_POOL.PEAK v).writes_feedDecoders
  unfold State.poolTakes
  refine ⟨State.slc_feedDecoders _, (State.held_feedDecoders _).trans hheld, ?_, ?_, State.memories_feedDecoders _⟩
  · rw [hshown _ _ (by decide), State.get_set_same _ _ rfl,
      Nat.mod_eq_of_lt (show _ < 2 ^ PHY_POOL.PEAK.w from max_lt hpeak (show _ < 2 ^ 8 by omega))]
    exact le_max_left ..
  · exact (((State.Writes.refl s).congr).set (by simp [inRegs, PHY_POOL.PEAK])).trans
      (State.writes_feedDecoders_pool _)

/-- R112: the frame named takes the status; DEC_BUSY in any case, another where it has none. -/
theorem State.frame_cwStatus {s : State} {n fid code : Nat} {f : RxFrame} (hf : (vget s.slc n).frame = some f)
    (hid : f.fid = fid) : (vget (s.cwStatus n fid code).slc n).frame =
      some { f with cwStatus := if code = 8 then some 8 else some (f.cwStatus.getD code) } := by
  have hgiven : (vget (s.cwStatus n fid code).slc n).frame = some (if f.fid = fid ∧ (code = 8 ∨ f.cwStatus.isNone) then
      { f with cwStatus := some code } else f) := by
    rw [State.cwStatus, s.vget_modSlc_same (State.lt_of_frame hf), hf]
    rfl
  rw [hgiven]
  by_cases h8 : code = 8
  · simp [hid, h8]
  · cases hst : f.cwStatus with
    | none => simp [hid, h8]
    | some c =>
      rw [if_neg (by simp [h8]), if_neg h8, Option.getD_some, ← hst]

/-! ### A codeword decoded (R111, R112) -/

/-- Decoder `d` is idle again, and counts what it decoded. -/
def State.decoderFreed (s : State) (d : Nat) : State :=
  { s with phy := { s.phy with dec := vset s.phy.dec d none } }.inc PHY_CWCNT.COUNT

/-- The frame of codeword `w` takes its bits. -/
def State.bitsTaken (s : State) (w : Codeword) (bits : List Bool) : State :=
  s.modSlc w.slice (fun c => { c with frame := c.frame.map (fun f =>
    if f.fid = w.fid then { f with decoded := f.decoded ++ [(w.index, bits)] } else f) })

/-- A codeword that did not converge: counted, latched, and its frame fails. -/
def State.decodeFails (s : State) (w : Codeword) : State :=
  ((s.inc PHY_CWFAIL.COUNT).raise PHY_EVT.CWFAIL).cwStatus w.slice w.fid 3

/-- R112: the frame takes what the decoder made of its codeword, and idle decoders are fed. -/
theorem State.codewordDecoded_eq {s : State} {d : Nat} {w : Codeword} {r : List Bool × Bool}
    (h : vget s.phy.dec d = some w)
    (hr : ldpcDecode w.k (s.bit PHY_CTRL.EARLY) (s.get PHY_CTRL.MAXIT + 1) w.soft = r) :
    s.codewordDecoded d = (if r.2 then (s.decoderFreed d).bitsTaken w r.1
      else ((s.decoderFreed d).bitsTaken w r.1).decodeFails w).feedDecoders := by
  subst hr
  unfold State.codewordDecoded
  rw [h]
  rfl

theorem State.frame_bitsTaken {s : State} {w : Codeword} {f : RxFrame} (bits : List Bool)
    (hf : (vget s.slc w.slice).frame = some f) (hid : f.fid = w.fid) :
    (vget (s.bitsTaken w bits).slc w.slice).frame = some { f with decoded := f.decoded ++ [(w.index, bits)] } := by
  rw [State.bitsTaken, s.vget_modSlc_same (State.lt_of_frame hf), hf]
  simp [hid]

/-- What a codeword that did not converge leaves. -/
theorem State.decodeFails_leaves (s : State) (w : Codeword) :
    (s.decodeFails w).get PHY_CWFAIL.COUNT = min 65535 (s.get PHY_CWFAIL.COUNT + 1) ∧
      (s.decodeFails w).bit PHY_EVT.CWFAIL = true ∧
      s.Writes (inRegs [PHY_CWFAIL.addr, PHY_EVT.addr]) (s.decodeFails w) := by
  obtain ⟨hfail, hflag, hwr⟩ := s.counted_flagged (c := PHY_CWFAIL.COUNT) (e := PHY_EVT.CWFAIL) rfl rfl rfl (by decide)
  have hregs : (s.decodeFails w).regs = ((s.inc PHY_CWFAIL.COUNT).raise PHY_EVT.CWFAIL).regs := rfl
  refine ⟨(State.get_congr hregs _).trans hfail, ?_, hwr.congr hregs⟩
  rw [State.bit_eq, State.get_congr hregs]
  exact hflag

/-- What a decoder that ends leaves, its codeword's frame served. -/
theorem State.decoderFreed_leaves (s : State) (d : Nat) (w : Codeword) (bits : List Bool) :
    ((s.decoderFreed d).bitsTaken w bits).get PHY_CWCNT.COUNT = min (2 ^ 32 - 1) (s.get PHY_CWCNT.COUNT + 1) ∧
      s.Writes (inRegs [PHY_CWCNT.addr]) ((s.decoderFreed d).bitsTaken w bits) := by
  let v : State := { s with phy := { s.phy with dec := vset s.phy.dec d none } }
  have hregs : ((s.decoderFreed d).bitsTaken w bits).regs = (v.inc PHY_CWCNT.COUNT).regs := rfl
  have hv : s.Writes (inRegs [PHY_CWCNT.addr]) v := (State.Writes.refl s).congr
  exact ⟨(State.get_congr hregs _).trans (v.get_incBy_same 1 rfl), (hv.inc (by decide)).congr hregs⟩

end Sys2Proof.Machine

open Sys2Proof Sys2Proof.Machine

/-- Settles O18: a codeword that joins the pool is one more whatever is ordered again, and feeding the decoders moves
codewords without loss; a decoder that ends frees its place and is fed (R97, R109 to R112). -/
theorem decoderPoolCompletes : Obligations.DecoderPoolCompletes := by
  refine ⟨fun n symbols f s hf hh hw hon => ?_, fun d w s hd => ?_⟩
  · have hn := State.lt_of_frame hf
    generalize hg : symbols.foldl takeSymbol f = g
    have hready := (State.codewordReady_eq hf hh hw hon hg).trans (by rw [State.offerCodeword_eq])
    have hoffers := s.frame_frameOffers hn g
    have hnone : KeepsRegs s (s.frameOffers n g) [] := (State.Writes.refl s).congr.keepsRegs
    refine ⟨s.codewordReady n symbols, rfl, ?_⟩
    by_cases hmore : mfCodewords g.mcs g.len ≤ g.codewords ∨ g.soft.length < codewordEnd g g.codewords
    · rw [hready, if_pos hmore, if_pos hmore]
      exact ⟨keepsMemory_of_memories rfl, congrArg SliceState.frame (s.vget_modSlc_same hn _), rfl,
        (State.Writes.refl s).congr.keepsRegs⟩
    rw [if_neg hmore] at hready ⊢
    by_cases hbusy : g.cwStatus = some 8
    · rw [hready, if_pos hbusy, if_pos hbusy]
      exact ⟨keepsMemory_of_memories rfl, hoffers, rfl, hnone⟩
    rw [if_neg hbusy] at hready ⊢
    by_cases hroom : s.phy.queue.length < 32
    · rw [hready, if_neg (Nat.not_le.2 hroom), if_pos hroom, ← PhyState.held_eq, ← PhyState.held_eq]
      obtain ⟨hslc, hheld, hpeak, hwr, hmem⟩ :=
        State.poolTakes_leaves (s := s.frameOffers n g) (s.nextCodeword n g) hroom
      exact ⟨keepsMemory_of_memories hmem, by rw [hslc, hoffers], hheld, hpeak,
        State.Writes.keepsRegs (u := s) ((State.Writes.refl s).congr.trans hwr)⟩
    · rw [hready, if_pos (Nat.not_lt.1 hroom), if_neg hroom]
      obtain ⟨hdrop, hfull, hwr⟩ := (s.frameOffers n g).counted_flagged (c := PHY_CWDROP.COUNT) (e := PHY_EVT.POOLFULL)
        rfl rfl rfl (by decide)
      exact ⟨keepsMemory_of_memories rfl, State.frame_cwStatus (s := (s.frameOffers n g).poolDrops) hoffers rfl, hdrop,
        hfull, rfl, State.Writes.keepsRegs (u := s) (((State.Writes.refl s).congr.trans hwr).congr)⟩
  · generalize hr : ldpcDecode w.k (s.bit PHY_CTRL.EARLY) (s.get PHY_CTRL.MAXIT + 1) w.soft = r
    have hdone := State.codewordDecoded_eq hd hr
    obtain ⟨bits, converged⟩ := r
    obtain ⟨hcount, hwr⟩ := s.decoderFreed_leaves d w bits
    have hbits {f : RxFrame} (hf : (vget s.slc w.slice).frame = some f) (hid : f.fid = w.fid) :=
      State.frame_bitsTaken (s := s.decoderFreed d) bits hf hid
    have hfed (v : State) := v.writes_feedDecoders_pool
    refine ⟨s.codewordDecoded d, rfl, ?_⟩
    rw [hdone]
    generalize hu : (s.decoderFreed d).bitsTaken w bits = u at hcount hwr hbits ⊢
    have hmem : u.memories = s.memories := hu ▸ rfl
    cases converged
    · obtain ⟨hfail, hflag, hwrf⟩ := u.decodeFails_leaves w
      refine ⟨?_, fun f hf hid => ?_, ⟨?_, ?_, State.Writes.keepsRegs ?_⟩,
        keepsMemory_of_memories ((State.memories_feedDecoders _).trans hmem)⟩
      · exact ((hfed _).get_of_reg (by decide)).trans ((hwrf.get_of_reg (by decide)).trans hcount)
      · rw [State.slc_feedDecoders]
        exact State.frame_cwStatus (s := (u.inc PHY_CWFAIL.COUNT).raise PHY_EVT.CWFAIL) (hbits hf hid) hid
      · exact ((hfed _).get_of_reg (by decide)).trans (hfail.trans (by rw [hwr.get_of_reg (by decide)]))
      · rw [State.bit_eq]
        exact (congrArg (fun x => decide (x = 1)) ((hfed _).get_of_reg (by decide))).trans hflag
      · exact ((hwr.moreRegs (by decide)).trans (hwrf.moreRegs (by decide))).trans ((hfed _).moreRegs (by decide))
    · refine ⟨?_, fun f hf hid => ?_, State.Writes.keepsRegs ?_,
        keepsMemory_of_memories ((State.memories_feedDecoders _).trans hmem)⟩
      · exact ((hfed _).get_of_reg (by decide)).trans hcount
      · rw [State.slc_feedDecoders]
        exact hbits hf hid
      · exact (hwr.moreRegs (by decide)).trans ((hfed _).moreRegs (by decide))
end

section
namespace Sys2Proof.Machine

/-! ### A frame begins (R107, R266, R267) -/

/-- The frame that a SYNC on slice `n` begins. -/
def State.syncFrame (s : State) (n : Nat) (marker : Int) : RxFrame :=
  { fid := s.phy.nextFid, wave := (vget s.slc n).wave, chain := s.slcChain n, freq := (vget s.slc n).freq,
    rxcfg := s.reg (PHY_RXCFG.addr n), fsk := s.reg (PHY_FSK.addr n), sync := s.reg (PHY_SYNC.addr n),
    stamp := shiftSixteenths (tbPlus (s.tb 0) (marker - markerLag (vget s.slc n).wave (s.reg (PHY_FSK.addr n))))
      (-(s.getS (TSU_RFDLY.RX (s.slcChain n)))),
    steps := s.tsu.steps }

/-- The slice receives frame `f`: SYNC is shown, and the length is not known yet. -/
def State.syncShown (s : State) (n : Nat) (f : RxFrame) : State :=
  ((State.modSlc { s with phy := { s.phy with nextFid := s.phy.nextFid + 1 } } n (fun c => { c with frame := some f })).set
    (SLC_STAT.SYNC n) 1).set (PHY_STAT.LENGTH n) 0

/-- Actions that sense the channel on the slice find it busy where a SYNC counts. -/
def State.syncSensed (s : State) (n : Nat) : State :=
  { s with lnk := { s.lnk with tx := s.lnk.tx.map (fun a =>
    if a.slice = some n ∧ a.sensing ∧ s.bit LNK_CCA.MODE then { a with busy := true } else a) } }

/-- R187: a release that waits is withdrawn. -/
def State.releaseWithdrawn (s : State) (n x : Nat) : State :=
  ((s.modRxc x (fun c => { c with releasing := false })).set (SLC_CFG.MODE n) 2).set (RXF_CTRL.MODE x) 1

/-- The state after a SYNC, but for the release. -/
def State.synced (s : State) (n : Nat) (marker : Int) : State :=
  ((s.syncShown n (s.syncFrame n marker)).stampAt (TSU_RXST0.addr n) (s.syncFrame n marker).stamp).syncSensed n

theorem State.frameSync_unseen {s : State} {n : Nat} (marker : Int) {seen : RxSync}
    (h : syncDetects (vget s.slc n).wave (s.reg (PHY_SYNC.addr n)) seen = false) : s.frameSync n marker seen = s :=
  if_pos (by simp [h])

theorem State.frameSync_cases {s : State} {n : Nat} (marker : Int) {seen : RxSync} (hl : s.slcLive n = true)
    (hf : (vget s.slc n).frame = none)
    (h : syncDetects (vget s.slc n).wave (s.reg (PHY_SYNC.addr n)) seen = true) :
    s.frameSync n marker seen = s.synced n marker ∨
      s.frameSync n marker seen = (s.synced n marker).releaseWithdrawn n (s.slcChain n) := by
  have heq : s.frameSync n marker seen =
      if (vget (s.synced n marker).rxc (s.slcChain n)).awake = some n ∧
          (vget (s.synced n marker).rxc (s.slcChain n)).releasing then
        (s.synced n marker).releaseWithdrawn n (s.slcChain n)
      else s.synced n marker := if_neg (by simp [hl, hf, h])
  rw [heq]
  split_ifs
  · exact .inr rfl
  · exact .inl rfl

/-- Where the fields lie that a frame in reception writes. -/
theorem syncFields : ∀ n : Fin 16, TSU_RXST0.addr n + 4 = TSU_RXST1.addr n ∧ blockOfAddr (TSU_RXST0.addr n) = 11 ∧
    blockOfAddr (TSU_RXST1.addr n) = 11 ∧ blockOfAddr (PHY_STAT.addr n) = 5 ∧ blockOfAddr (SLC_STAT.addr n) = 4 ∧
    blockOfAddr (SLC_CFG.addr n) = 4 ∧ SLC_STAT.addr n ≠ SLC_CFG.addr n := by decide

/-- Addresses of different blocks differ. -/
theorem ne_of_blocks {a b i j : Nat} (ha : blockOfAddr a = i) (hb : blockOfAddr b = j) (h : i ≠ j) : a ≠ b := fun he =>
  h (ha.symm.trans ((congrArg blockOfAddr he).trans hb))

theorem State.Writes.moreBlocks {u s : State} {l m : List Nat} (h : u.Writes (inBlocks l) s) (hl : l ⊆ m) :
    u.Writes (inBlocks m) s := h.mono fun _ hk => hl hk

theorem rxfCtrl_block : ∀ x : Fin 2, blockOfAddr (RXF_CTRL.addr x) = 3 := by decide

/-- R269: a stamp record writes its two words. -/
theorem State.writes_stampAt (s : State) (a v : Nat) : s.Writes (inRegs [a, a + 4]) (s.stampAt a v) :=
  ((State.Writes.refl s).setReg fun k hk => by simp [inRegs, hk]).setReg fun k hk => by simp [inRegs, hk]

theorem State.writes_rxStamp (s : State) (n : Fin 16) (v : Nat) :
    s.Writes (inBlocks [11]) (s.stampAt (TSU_RXST0.addr n) v) := by
  obtain ⟨hnext, hst0, hst1, -⟩ := syncFields n
  refine (s.writes_stampAt _ v).mono fun k hk => ?_
  rw [hnext] at hk
  obtain hk | hk := List.mem_pair.1 hk
  · exact List.mem_singleton.2 (hk ▸ hst0)
  · exact List.mem_singleton.2 (hk ▸ hst1)

/-- The slice shows its frame, the stamp put aside. -/
theorem State.syncShown_leaves (s : State) (n : Fin 16) (f : RxFrame) :
    (s.syncShown n f).bit (SLC_STAT.SYNC n) = true ∧ (s.syncShown n f).get (PHY_STAT.LENGTH n) = 0 ∧
      (vget (s.syncShown n f).slc n).frame = some f ∧ s.Writes (inBlocks [4, 5]) (s.syncShown n f) ∧
      (s.syncShown n f).memories = s.memories := by
  obtain ⟨-, -, -, hphy, hslc, -⟩ := syncFields n
  let u := State.modSlc { s with phy := { s.phy with nextFid := s.phy.nextFid + 1 } } n (fun c => { c with frame := some f })
  have hu : s.Writes (inBlocks [4, 5]) u := (State.Writes.refl s).congr
  have hne : (SLC_STAT.SYNC n).addr ≠ (PHY_STAT.LENGTH n).addr :=
    ne_of_blocks hslc hphy (by decide)
  refine ⟨?_, State.get_set_same _ 0 rfl, congrArg SliceState.frame (vget_vmod_same s.slc _ n.isLt), ?_, rfl⟩
  · exact (State.bit_set_apart _ 0 (Loc.apart_of_addr hne)).trans (u.bit_set_one rfl rfl)
  · exact (hu.set (by simp [inBlocks, SLC_STAT.SYNC, hslc])).set (by simp [inBlocks, PHY_STAT.LENGTH, hphy])

/-- A stamp and what senses the channel reach neither the slices nor the memories. -/
theorem State.stamped_sensed_keeps (s : State) (n a v : Nat) : ((s.stampAt a v).syncSensed n).regs = (s.stampAt a v).regs ∧
    ((s.stampAt a v).syncSensed n).slc = s.slc ∧ ((s.stampAt a v).syncSensed n).memories = s.memories := ⟨rfl, rfl, rfl⟩

theorem State.synced_leaves (s : State) (n : Fin 16) (marker : Int) :
    (s.synced n marker).bit (SLC_STAT.SYNC n) = true ∧ (s.synced n marker).get (PHY_STAT.LENGTH n) = 0 ∧
      (vget (s.synced n marker).slc n).frame = some (s.syncFrame n marker) ∧
      s.Writes (inBlocks [3, 4, 5, 11]) (s.synced n marker) ∧ (s.synced n marker).memories = s.memories := by
  obtain ⟨-, -, -, hphy, hslc, -⟩ := syncFields n
  obtain ⟨hsync, hlen, hframe, hwr, hmem⟩ := s.syncShown_leaves n (s.syncFrame n marker)
  have hst := (s.syncShown n (s.syncFrame n marker)).writes_rxStamp n (s.syncFrame n marker).stamp
  obtain ⟨hregs, hs, hm⟩ := (s.syncShown n (s.syncFrame n marker)).stamped_sensed_keeps n (TSU_RXST0.addr n)
    (s.syncFrame n marker).stamp
  have hall : (s.syncShown n (s.syncFrame n marker)).Writes (inBlocks [11]) (s.synced n marker) := hst.congr hregs
  refine ⟨?_, ?_, ?_, (hwr.moreBlocks (by decide)).trans (hall.moreBlocks (by decide)), hm.trans hmem⟩
  · rw [State.bit_eq, hall.get_of_block (by simp [SLC_STAT.SYNC, hslc])]
    exact hsync
  · rw [hall.get_of_block (by simp [PHY_STAT.LENGTH, hphy])]
    exact hlen
  · rw [State.synced, hs]
    exact hframe

/-- A release withdrawn changes the modes asked for alone. -/
theorem State.releaseWithdrawn_leaves (s : State) (n x : Nat) :
    s.Writes (inRegs [SLC_CFG.addr n, RXF_CTRL.addr x]) (s.releaseWithdrawn n x) ∧ (s.releaseWithdrawn n x).slc = s.slc ∧
      (s.releaseWithdrawn n x).memories = s.memories :=
  ⟨((State.Writes.refl s).congr.set (by simp [inRegs, SLC_CFG.MODE])).set (by simp [inRegs, RXF_CTRL.MODE]), rfl, rfl⟩

/-- What a SYNC leaves, a release that waits withdrawn or not. -/
theorem State.frameSync_leaves {s : State} {n : Fin 16} {marker : Int} {seen : RxSync} (hl : s.slcLive n = true)
    (hf : (vget s.slc n).frame = none)
    (h : syncDetects (vget s.slc n).wave (s.reg (PHY_SYNC.addr n)) seen = true) :
    (s.frameSync n marker seen).bit (SLC_STAT.SYNC n) = true ∧ (s.frameSync n marker seen).get (PHY_STAT.LENGTH n) = 0 ∧
      (vget (s.frameSync n marker seen).slc n).frame = some (s.syncFrame n marker) ∧
      s.Writes (inBlocks [3, 4, 5, 11]) (s.frameSync n marker seen) ∧
      (s.frameSync n marker seen).memories = s.memories := by
  obtain ⟨hsync, hlen, hframe, hwr, hmem⟩ := s.synced_leaves n marker
  obtain heq | heq := State.frameSync_cases marker hl hf h
  · rw [heq]
    exact ⟨hsync, hlen, hframe, hwr, hmem⟩
  · obtain ⟨-, -, -, hphy, hslc, hcfg, hne⟩ := syncFields n
    have hctrl := rxfCtrl_block ⟨s.slcChain n, s.slcChain_lt n⟩
    obtain ⟨hw, hs, hm⟩ := (s.synced n marker).releaseWithdrawn_leaves n (s.slcChain n)
    rw [heq]
    refine ⟨?_, ?_, ?_, hwr.trans (hw.mono ?_), hm.trans hmem⟩
    · rw [State.bit_eq, hw.get_of_reg]
      · exact hsync
      · simpa [SLC_STAT.SYNC, hne] using ne_of_blocks hslc hctrl (by decide)
    · rw [hw.get_of_reg]
      · exact hlen
      · simpa [PHY_STAT.LENGTH] using And.intro (ne_of_blocks hphy hcfg (by decide)) (ne_of_blocks hphy hctrl (by decide))
    · rw [hs]
      exact hframe
    · intro k hk
      obtain hk | hk := List.mem_pair.1 hk
      · simp [inBlocks, hk, hcfg]
      · simp [inBlocks, hk, hctrl]

/-! ### The end of a frame (R113, R114) -/

/-- The fields that record how a frame ended. -/
def recordFields (n : Nat) : List Loc := [PHY_STAT.CODE n, PHY_STAT.MCS n, PHY_STAT.FLAGS n, PHY_STAT.GSTEP n,
  PHY_STAT.LENGTH n, PHY_QUAL.RSSI n, PHY_QUAL.LQ n, PHY_QUAL.EVM n]

/-- The fields that the end of a frame writes of its slice. -/
def searchFields (n : Nat) : List Loc := SLC_STAT.SYNC n :: tuneFields n

/-- The counters of the frames of slice `n`, by how they ended. -/
def endCounters (n : Nat) : List Loc := [PHY_ERRCNT.HDR n, PHY_ERRCNT.BODY n, PHY_OKCNT.COUNT n]

/-- The code stands apart from what is recorded with it and from the counters; the counters from all; and where all lie. -/
theorem endFields : ∀ n : Fin 16, (∀ k ∈ (recordFields n).tail, (PHY_STAT.CODE n).apart k = true) ∧
    (∀ k ∈ tuneFields n, (SLC_STAT.SYNC n).apart k = true) ∧
    (∀ c ∈ endCounters n, c.fits = true ∧ inBlocks [5] c ∧
      (PHY_STAT.CODE n).apart c = true ∧ ∀ k ∈ recordFields n, c.apart k = true) ∧
    (∀ k ∈ recordFields n, inBlocks [5] k) ∧ (∀ k ∈ searchFields n, inBlocks [4] k) := by decide

/-- The record is made in registers alone. -/
theorem State.phyRecord_keeps {β : Type} (g : State → β) (hset : ∀ s l v, g (State.set s l v) = g s) (s : State)
    (n code : Nat) (f : RxFrame) (lq evm : Nat) : g (s.phyRecord n code f lq evm) = g s := by
  unfold State.phyRecord
  simp only [hset]

theorem State.phyRecord_leaves (s : State) (n : Fin 16) (code : Nat) (f : RxFrame) (lq evm : Nat) :
    (s.phyRecord n code f lq evm).get (PHY_STAT.CODE n) = code % 16 ∧
      s.Writes (· ∈ recordFields n) (s.phyRecord n code f lq evm) ∧ (s.phyRecord n code f lq evm).lnk = s.lnk ∧
      (s.phyRecord n code f lq evm).memories = s.memories := by
  obtain ⟨hcode, -⟩ := endFields n
  have hset : s.Writes (· ∈ recordFields n) (s.set (PHY_STAT.CODE n) code) :=
    (State.Writes.refl s).set (by simp [recordFields])
  have hrest : (s.set (PHY_STAT.CODE n) code).Writes (· ∈ (recordFields n).tail) (s.phyRecord n code f lq evm) :=
    (((((((State.Writes.refl _).set (by simp [recordFields])).set (by simp [recordFields])).set
      (by simp [recordFields])).set (by simp [recordFields])).set (by simp [recordFields])).set
      (by simp [recordFields])).set (by simp [recordFields])
  exact ⟨(hrest _ hcode).trans (State.get_set_same _ _ rfl), hset.trans (hrest.mono fun k hk => List.mem_of_mem_tail hk),
    State.phyRecord_keeps State.lnk (fun _ _ _ => rfl) s .., State.phyRecord_keeps State.memories State.memories_set s ..⟩

/-- The slice searches again: without a frame and without SYNC, a held change applied. -/
theorem State.endSync_leaves (s : State) (n : Fin 16) : (vget (s.endSync n).slc n).frame = none ∧
    (s.endSync n).bit (SLC_STAT.SYNC n) = false ∧ s.Writes (· ∈ searchFields n) (s.endSync n) ∧
    (s.endSync n).lnk = s.lnk ∧ (s.endSync n).memories = s.memories := by
  obtain ⟨-, hsync, -⟩ := endFields n
  let u := (s.set (SLC_STAT.SYNC n) 0).modSlc n (fun c => { c with frame := none })
  have hframe : (vget u.slc n).frame = none := congrArg SliceState.frame (vget_vmod_same s.slc _ n.isLt)
  have hbit : u.bit (SLC_STAT.SYNC n) = false := s.bit_set_zero rfl
  have hset : s.Writes (· ∈ searchFields n) (s.set (SLC_STAT.SYNC n) 0) := (State.Writes.refl s).set (by simp [searchFields])
  have hwr : s.Writes (· ∈ searchFields n) u := hset.congr
  have hend : s.endSync n = u.applyHeld n := rfl
  rw [hend, State.applyHeld]
  split
  next f w _ =>
    have htune := u.writes_applyTune n f w
    refine ⟨?_, ?_, hwr.trans (htune.mono fun k hk => List.mem_cons_of_mem _ hk), rfl, rfl⟩
    · exact (congrArg SliceState.frame (vget_vmod_same u.slc _ n.isLt)).trans hframe
    · rw [State.bit_eq, htune _ hsync]
      exact hbit
  next => exact ⟨hframe, hbit, hwr, rfl, rfl⟩

/-- What every end of a frame that is counted in `c` leaves: its code shown, one more counted, the slice without frame and
SYNC, and the registers outside the blocks `l` and the memories as they were. -/
structure State.FrameEnded (s : State) (n : Fin 16) (code : Nat) (c : Loc) (l : List Nat) (t : State) : Prop where
  code : t.get (PHY_STAT.CODE n) = code % 16
  count : t.get c = min (2 ^ c.w - 1) (s.get c + 1)
  frame : (vget t.slc n).frame = none
  sync : t.bit (SLC_STAT.SYNC n) = false
  writes : s.Writes (inBlocks l) t
  mem : t.memories = s.memories

/-- A counter or the code of the slice, as its return to the search leaves it. -/
theorem State.get_endSync {s : State} {n : Fin 16} {l : Loc} (h : inBlocks [5] l) : (s.endSync n).get l = s.get l := by
  obtain ⟨-, -, -, -, hsearch⟩ := endFields n
  obtain ⟨-, -, hwr, -⟩ := s.endSync_leaves n
  exact (hwr.mono hsearch).get_of_block fun h4 =>
    ne_of_blocks (List.mem_singleton.1 h) (List.mem_singleton.1 h4) (by decide) rfl

/-- A frame may be counted before the slice searches again, as a failed header is, or after it, as a verdict is. -/
theorem State.frameEnded_counted (s : State) (n : Fin 16) (code : Nat) (f : RxFrame) (lq evm : Nat) {c : Loc}
    (hc : c ∈ endCounters n) : s.FrameEnded n code c [4, 5] (((s.phyRecord n code f lq evm).inc c).endSync n) ∧
      s.FrameEnded n code c [4, 5] (((s.phyRecord n code f lq evm).endSync n).inc c) := by
  obtain ⟨-, -, hcount, hrecord, hsearch⟩ := endFields n
  obtain ⟨hfit, hblock, hapart, hoff⟩ := hcount c hc
  obtain ⟨hcode, hwr, -, hmem⟩ := s.phyRecord_leaves n code f lq evm
  generalize s.phyRecord n code f lq evm = u at hcode hwr hmem ⊢
  have hcode5 : inBlocks [5] (PHY_STAT.CODE n) := hrecord _ (by simp [recordFields])
  have hsync4 : inBlocks [4] (SLC_STAT.SYNC n) := hsearch _ (by simp [searchFields])
  have hne := ne_of_blocks (List.mem_singleton.1 hsync4) (List.mem_singleton.1 hblock) (by decide)
  have hu : s.Writes (inBlocks [4, 5]) u := (hwr.mono hrecord).moreBlocks (by decide)
  have hc45 : inBlocks [4, 5] c := List.mem_cons_of_mem _ hblock
  constructor
  · obtain ⟨hframe, hsync, hend, -, hmem'⟩ := (u.inc c).endSync_leaves n
    refine ⟨?_, ?_, hframe, hsync, (hu.inc hc45).trans ((hend.mono hsearch).moreBlocks (by decide)),
      hmem'.trans ((u.memories_inc c).trans hmem)⟩
    · exact (State.get_endSync hcode5).trans ((State.get_incBy_apart _ 1 hapart).trans hcode)
    · rw [State.get_endSync hblock, State.inc, State.get_incBy_same _ 1 hfit, hwr c hoff]
  · obtain ⟨hframe, hsync, hend, -, hmem'⟩ := u.endSync_leaves n
    refine ⟨?_, ?_, hframe, ?_, (hu.trans ((hend.mono hsearch).moreBlocks (by decide))).inc hc45,
      (State.memories_inc _ c).trans (hmem'.trans hmem)⟩
    · exact (State.get_incBy_apart _ 1 hapart).trans ((State.get_endSync hcode5).trans hcode)
    · rw [State.inc, State.get_incBy_same _ 1 hfit, State.get_endSync hblock, hwr c hoff]
    · rw [State.bit_eq, State.inc, State.get_incBy_apart _ 1 (Loc.apart_of_addr hne)]
      exact hsync

/-- What LNK makes of the frame then changes neither the slices nor the memories, and registers of LNK alone. -/
theorem State.FrameEnded.taken {s v t : State} {n : Fin 16} {code : Nat} {c : Loc} (h : s.FrameEnded n code c [4, 5] v)
    (hc : c ∈ endCounters n) (hw : v.Writes (inBlocks [8]) t) (hslc : t.slc = v.slc) (hmem : t.memories = v.memories) :
    s.FrameEnded n code c [4, 5, 8] t := by
  obtain ⟨-, -, hcount, hrecord, hsearch⟩ := endFields n
  have hsame {l : Loc} {b : Nat} (hl : inBlocks [b] l) (hb : b ≠ 8) : t.get l = v.get l :=
    hw.get_of_block fun h8 => ne_of_blocks (List.mem_singleton.1 hl) (List.mem_singleton.1 h8) hb rfl
  refine ⟨?_, ?_, ?_, ?_, ?_, hmem.trans h.mem⟩
  · exact (hsame (hrecord _ (by simp [recordFields])) (by decide)).trans h.code
  · exact (hsame (hcount c hc).2.1 (by decide)).trans h.count
  · rw [hslc]
    exact h.frame
  · rw [State.bit_eq, hsame (hsearch _ (by simp [searchFields])) (by decide)]
    exact h.sync
  · exact (h.writes.moreBlocks (by decide)).trans (hw.moreBlocks (by decide))

theorem State.lnk_inc (s : State) (l : Loc) : (s.inc l).lnk = s.lnk := rfl

/-- The slice serves no action of LNK. -/
def State.NoAction (s : State) (n : Nat) : Prop := (∀ a ∈ s.lnk.rx, a.slice ≠ some n) ∧ ∀ a ∈ s.lnk.tx, a.slice ≠ some n

section
variable {s : State} {n : Nat}

theorem State.NoAction.congr {t : State} (h : s.NoAction n) (ht : t.lnk = s.lnk) : t.NoAction n := by
  unfold State.NoAction
  rwa [ht]

theorem State.NoAction.rx (h : s.NoAction n) : s.lnk.rx.find? (fun a => decide (a.slice = some n)) = none :=
  List.find?_eq_none.2 fun a ha => by simpa using h.1 a ha

theorem State.NoAction.tx (h : s.NoAction n) : s.lnk.tx.find? (fun a => decide (a.slice = some n)) = none :=
  List.find?_eq_none.2 fun a ha => by simpa using h.2 a ha

theorem State.NoAction.txLate (h : s.NoAction n) :
    s.lnk.tx.find? (fun a => decide (a.slice = some n) && a.late) = none :=
  List.find?_eq_none.2 fun a ha => by simp [h.2 a ha]

/-- R108: a header that fails on a slice that serves no action ends the frame and nothing else. -/
theorem State.headerFailed_eq {n : Fin 16} (h : s.NoAction n) (code : Nat) (f : RxFrame) :
    s.headerFailed n code f = ((s.phyRecord n code f 0 0).inc (PHY_ERRCNT.HDR n)).endSync n := by
  obtain ⟨-, -, hrec, -⟩ := s.phyRecord_leaves n code f 0 0
  obtain ⟨-, -, -, hend, -⟩ := ((s.phyRecord n code f 0 0).inc (PHY_ERRCNT.HDR n)).endSync_leaves n
  have ht := h.congr (hend.trans ((State.lnk_inc _ _).trans hrec))
  unfold State.headerFailed
  dsimp only
  rw [ht.rx, ht.txLate]

/-- An unscheduled report is all that LNK shows of a frame that fails. -/
theorem State.lnkFailed_leaves (h : s.NoAction n) (code : Nat) : s.Writes (inBlocks [8]) (s.lnkFailed n code) ∧
    (s.lnkFailed n code).slc = s.slc ∧ (s.lnkFailed n code).lnk = s.lnk ∧
    (s.lnkFailed n code).memories = s.memories := by
  have hrep : s.lnkFailed n code = s.rxReport code 255 n none := by
    unfold State.lnkFailed
    rw [h.tx, h.rx]
  rw [hrep]
  exact ⟨(((((State.Writes.refl s).set (by decide)).set (by decide)).set (by decide)).set (by decide)).set (by decide),
    rfl, rfl, rfl⟩

/-- A frame that is OK is kept for its decision. -/
theorem State.lnkOk_leaves (h : s.NoAction n) (f : RxFrame) (m : List Byte) (lq : Nat) :
    (∃ d, (s.lnkOk n f m lq).lnk.done = s.lnk.done ++ [d] ∧ d.slice = n ∧ d.stamp = f.stamp ∧ d.mpdu = m ∧ d.lq = lq) ∧
      s.Writes (inBlocks [8]) (s.lnkOk n f m lq) ∧ (s.lnkOk n f m lq).slc = s.slc ∧
      (s.lnkOk n f m lq).memories = s.memories := by
  unfold State.lnkOk
  rw [h.tx, h.rx]
  exact ⟨⟨_, rfl, rfl, rfl, rfl, rfl⟩, (State.Writes.refl s).congr, rfl, rfl⟩

end

/-! ### Headers (R108, R115 to R117) -/

/-- The frame with what its header says. -/
def State.headerRead (s : State) (f : RxFrame) (h : RxHeader) (rssi : Int) : RxFrame :=
  let r := headerFields f.wave f.rxcfg h
  { f with rssi := some (s.rssiOf f.chain rssi), mcs := r.2.1, flags := r.2.2.1, len := r.2.2.2.1, fcs := r.2.2.2.2 }

theorem headerFields_status {wave code : Nat} {rxcfg : Word} {h : RxHeader}
    (hc : (headerFields wave rxcfg h).1 = some code) : code = 4 ∨ code = 5 := by
  have hbad {c : Prop} [Decidable c] (he : (if c then some 5 else none) = some code) : code = 5 := by
    split at he
    · exact (Option.some.inj he).symm
    · exact nomatch he
  cases h with
  | mf y1 y2 w =>
    unfold headerFields at hc
    dsimp only at hc
    split at hc
    · exact .inl (Option.some.inj hc).symm
    · exact .inr (hbad hc)
  | oqpsk p => exact .inr (hbad hc)
  | fsk coded ms f4 white l => exact .inr (hbad hc)
  | ofdm ok mcs l =>
    unfold headerFields at hc
    dsimp only at hc
    split at hc
    · exact .inl (Option.some.inj hc).symm
    · exact .inr (hbad hc)

theorem headerFields_len (wave : Nat) (rxcfg : Word) (h : RxHeader) : (headerFields wave rxcfg h).2.2.2.1 < 2 ^ 11 := by
  cases h with
  | mf y1 y2 w =>
    unfold headerFields
    dsimp only
    split
    · exact Nat.two_pow_pos 11
    · exact Nat.mod_lt _ (by decide)
  | oqpsk p => exact (Nat.mod_lt _ (by decide)).trans (show 128 < 2 ^ 11 by decide)
  | fsk coded ms f4 white l => exact l.isLt
  | ofdm ok mcs l =>
    unfold headerFields
    dsimp only
    split
    · exact Nat.two_pow_pos 11
    · exact l.isLt

/-- The frame once its header has passed. -/
def State.headerPassed (s : State) (f : RxFrame) (h : RxHeader) (rssi : Int) : RxFrame :=
  let g := s.headerRead f h rssi
  let set := if g.wave = 4 then headerFsk g.fsk h else g.rxcfg
  let air := airNs g.wave set g.mcs (normalCount g.wave) g.len (bitOf g.flags 0)
  { g with hdr := true, est := headerEstimate h, endAt := tbPlus g.stamp ((air * 65536 : Nat) : Int) }

section
variable {s : State} {n : Nat} {f : RxFrame} {h : RxHeader} (head : List Byte) (rssi : Int)

theorem State.headerReceived_failed {code : Nat} (hf : (vget s.slc n).frame = some f) (hh : f.hdr = false)
    (hfit : headerFits f.wave h = true) (hc : (headerFields f.wave f.rxcfg h).1 = some code) :
    s.headerReceived n h head rssi = s.headerFailed n code (s.headerRead f h rssi) := by
  unfold State.headerReceived
  rw [hf]
  dsimp only
  rw [if_neg (by simp [hh, hfit]), hc]
  rfl

/-- A frame whose header passed stays on the slice; only one that asks for an acknowledgement may have a carrier reserved. -/
theorem State.headerReceived_passed (hf : (vget s.slc n).frame = some f) (hh : f.hdr = false)
    (hfit : headerFits f.wave h = true) (hc : (headerFields f.wave f.rxcfg h).1 = none) :
    ∃ u c, s.headerReceived n h head rssi =
        u.modSlc n (fun k => { k with frame := some { s.headerPassed f h rssi with carrier := c } }) ∧
      ((headOf f.wave head).any (·.ackreq) = false →
        c = f.carrier ∧ u = s.set (PHY_STAT.LENGTH n) (s.headerPassed f h rssi).len) := by
  unfold State.headerReceived
  rw [hf]
  dsimp only
  rw [if_neg (by simp [hh, hfit]), hc]
  dsimp only
  split
  next hwants =>
    refine ⟨_, _, rfl, fun hask => ?_⟩
    cases hd : headOf f.wave head with
    | none => simp [hd] at hwants
    | some d =>
      rw [hd, Option.any_some] at hask
      simp [hd, hask] at hwants
  next => exact ⟨_, _, rfl, fun _ => ⟨rfl, rfl⟩⟩

end

/-! ### Verdicts (R113, R114) -/

section
variable {s : State} {n : Nat} {body : RxBody} {f : RxFrame}

theorem State.frameVerdict_early (hf : (vget s.slc n).frame = some f) (ho : s.frameOver f body = false) :
    s.frameVerdict n body = s := by
  unfold State.frameVerdict
  rw [hf]
  exact if_pos (by simp [ho])

/-- The state once the end of the frame is recorded and the slice searches. -/
def State.verdictShown (s : State) (n : Nat) (body : RxBody) (f : RxFrame) : State :=
  (s.phyRecord n (verdictOf f (bodyPsdu f body)) f (bodyQuality f body).1 (bodyQuality f body).2).endSync n

theorem State.lnk_verdictShown (s : State) (n : Fin 16) (body : RxBody) (f : RxFrame) (c : Loc) :
    ((s.verdictShown n body f).inc c).lnk = s.lnk := by
  let q := bodyQuality f body
  obtain ⟨-, -, hrec, -⟩ := s.phyRecord_leaves n (verdictOf f (bodyPsdu f body)) f q.1 q.2
  obtain ⟨-, -, -, hend, -⟩ := (s.phyRecord n (verdictOf f (bodyPsdu f body)) f q.1 q.2).endSync_leaves n
  exact (State.lnk_inc _ c).trans (hend.trans hrec)

theorem State.frameVerdict_over (hf : (vget s.slc n).frame = some f) (ho : s.frameOver f body = true)
    (hk : f.carrier = none) : s.frameVerdict n body =
      if verdictOf f (bodyPsdu f body) = 1 then ((s.verdictShown n body f).inc (PHY_OKCNT.COUNT n)).lnkOk n f
        ((bodyPsdu f body).take (f.len - f.fcs)) (bodyQuality f body).1
      else ((s.verdictShown n body f).inc (PHY_ERRCNT.BODY n)).lnkFailed n (verdictOf f (bodyPsdu f body)) := by
  have hun (u : State) : u.unreserve f.carrier = u := by rw [hk]; rfl
  unfold State.frameVerdict
  rw [hf]
  dsimp only
  rw [if_neg (by simp [ho]), hun]
  rfl

end

end Sys2Proof.Machine

open Sys2Proof Sys2Proof.Machine

/-- Settles O17: a SYNC by whether the slice detects one, a header by whether it fails, and a verdict by whether the frame is
over and OK; each end of a frame shows its code, counts it and clears SYNC (R107, R108, R113, R114, R266, R267). -/
theorem receptionCompletes : Obligations.ReceptionCompletes := by
  refine ⟨fun n marker seen s hl hf => ⟨fun hd => ?_, fun hd => ?_⟩,
    fun n h head rssi f code s hf hh hfit hc hrx htx => ?_, fun n h head rssi f s hf hh hfit hc => ?_,
    fun n body f s hf ho => ?_, fun n body f s hf ho hrx htx hk => ?_⟩
  · exact congrArg Host.Outcome.next (State.frameSync_unseen marker hd)
  · obtain ⟨hsync, hlen, hframe, hwr, hmem⟩ := State.frameSync_leaves (marker := marker) hl hf hd
    exact ⟨s.frameSync n marker seen, s.syncFrame n marker, rfl, hsync, hframe, rfl, rfl, rfl, rfl, rfl, hlen,
      hwr.keepsBlocks, keepsMemory_of_memories hmem⟩
  · obtain ⟨hend, -⟩ := s.frameEnded_counted n code (s.headerRead f h rssi) 0 0 (c := PHY_ERRCNT.HDR n)
      (by simp [endCounters])
    have hlt : code < 16 := by
      obtain rfl | rfl := headerFields_status hc <;> decide
    refine ⟨_, congrArg Host.Outcome.next ((State.headerReceived_failed head rssi hf hh hfit hc).trans
      (State.headerFailed_eq ⟨hrx, htx⟩ _ _)), hend.code.trans (Nat.mod_eq_of_lt hlt), hend.count, hend.frame,
      hend.sync, hend.writes.keepsBlocks, keepsMemory_of_memories hend.mem⟩
  · obtain ⟨u, c, ht, hplain⟩ := State.headerReceived_passed head rssi hf hh hfit hc
    have hframe := congrArg SliceState.frame (u.vget_modSlc_same n.isLt
      (fun k => { k with frame := some { s.headerPassed f h rssi with carrier := c } }))
    refine ⟨_, _, congrArg Host.Outcome.next ht, hframe, rfl, rfl, rfl, rfl, rfl, rfl, fun hask => ?_⟩
    obtain ⟨hcar, rfl⟩ := hplain hask
    have hset : s.Writes (inRegs [PHY_STAT.addr n]) (s.set (PHY_STAT.LENGTH n) (s.headerPassed f h rssi).len) :=
      (State.Writes.refl s).set (List.mem_singleton.2 rfl)
    exact ⟨hcar, (State.get_set_same s _ rfl).trans (Nat.mod_eq_of_lt (headerFields_len ..)),
      State.Writes.keepsRegs hset.modSlc, keepsMemory_of_memories rfl⟩
  · exact congrArg Host.Outcome.next (State.frameVerdict_early hf ho)
  · have hover := State.frameVerdict_over hf ho hk
    have hend {c : Loc} (hc : c ∈ endCounters n) :
        s.FrameEnded n (verdictOf f (bodyPsdu f body)) c [4, 5] ((s.verdictShown n body f).inc c) :=
      (s.frameEnded_counted n _ f _ _ hc).2
    have hfree (c : Loc) : ((s.verdictShown n body f).inc c).NoAction n :=
      State.NoAction.congr ⟨hrx, htx⟩ (s.lnk_verdictShown n body f c)
    refine ⟨s.frameVerdict n body, rfl, ?_⟩
    rw [hover]
    by_cases hok : verdictOf f (bodyPsdu f body) = 1
    · have hc : PHY_OKCNT.COUNT n ∈ endCounters n := by simp [endCounters]
      obtain ⟨⟨d, hd, hdone⟩, hwr, hslc, hmem⟩ := State.lnkOk_leaves (hfree (PHY_OKCNT.COUNT n)) f
        ((bodyPsdu f body).take (f.len - f.fcs)) (bodyQuality f body).1
      have hall := (hend hc).taken hc hwr hslc hmem
      rw [s.lnk_verdictShown n body f] at hd
      rw [if_pos hok]
      exact ⟨hall.code, hall.frame, hall.sync, fun _ => ⟨hall.count, d, hd, hdone⟩, fun hne => absurd hok hne,
        hall.writes.keepsBlocks, keepsMemory_of_memories hall.mem⟩
    · have hc : PHY_ERRCNT.BODY n ∈ endCounters n := by simp [endCounters]
      obtain ⟨hwr, hslc, hlnk, hmem⟩ := State.lnkFailed_leaves (hfree (PHY_ERRCNT.BODY n)) (verdictOf f (bodyPsdu f body))
      have hall := (hend hc).taken hc hwr hslc hmem
      rw [if_neg hok]
      exact ⟨hall.code, hall.frame, hall.sync, fun h1 => absurd h1 hok,
        fun _ => ⟨hall.count, congrArg LnkState.done (hlnk.trans (s.lnk_verdictShown n body f _))⟩,
        hall.writes.keepsBlocks, keepsMemory_of_memories hall.mem⟩
end

section
namespace Sys2Proof.Machine

/-! ### What the outcome of a transmit attempt writes (R176 to R178, R212, R216, R217, R252 to R254)

Its registers are those of LNK and of the blocks above it, the count of expired packets, and the ACT bit of the slice that
served the attempt. -/

/-- The fields that the outcome of a transmit attempt may write. -/
abbrev outcomeField (k : Loc) : Prop := k = BEAT_RESDROP.COUNT ∨ (∃ n, k = SLC_STAT.ACT n) ∨ 0x20080000 ≤ k.addr

theorem outcomeField_above {k : Loc} {a b : Nat} (hk : k.addr = a + b) (ha : 0x20080000 ≤ a) : outcomeField k :=
  .inr (.inr (hk ▸ Nat.le_add_right_of_le ha))

theorem outcomeField_of_le {k : Loc} (h : 0x20080000 ≤ k.addr := by decide) : outcomeField k := .inr (.inr h)

theorem outcomeField_nb (n k lo w : Nat) : outcomeField (nb n k lo w) :=
  outcomeField_above rfl (Nat.le_add_right_of_le (by decide))

theorem outcomeField_backoff (n : Nat) : outcomeField (boBE n) ∧ outcomeField (boCNT n) := by
  unfold boBE boCNT
  split_ifs
  · exact ⟨outcomeField_of_le, outcomeField_of_le⟩
  · exact ⟨outcomeField_nb .., outcomeField_nb ..⟩

/-! #### Packets, random bits and pulses write no register -/

theorem State.regs_allocCells (s : State) (cs : List Nat) : (s.allocCells cs).regs = s.regs :=
  State.each_keeps (g := fun s c => s.wrote (4, 0, c)) State.regs fun _ _ => rfl

theorem State.regs_jjCredit (s : State) (p : Nat) (ctl : Bool) (n : Nat) : (s.jjCredit p ctl n).regs = s.regs := by
  unfold State.jjCredit
  split_ifs <;> rfl

theorem State.regs_jjTake (s : State) (p : Nat) (ctl : Bool) : (s.jjTake p ctl).regs = s.regs :=
  (State.regs_jjCredit _ p ctl _).trans (s.regs_allocCells _)

theorem State.regs_freeCells (s : State) (cs : List Nat) : (s.freeCells cs).regs = s.regs := by
  unfold State.freeCells State.jjReplenish
  refine State.each_keeps State.regs fun s p => ?_
  split_ifs
  · exact s.regs_jjTake p.1 p.2
  · rfl

theorem State.regs_removePkt (s : State) (q : Nat) (p : Packet) : (s.removePkt q p).regs = s.regs := by
  unfold State.removePkt State.releaseBuf
  split
  · rfl
  · exact State.regs_freeCells _ _

theorem State.regs_rngDraw (s : State) (be : Nat) : (s.rngDraw be).2.regs = s.regs := by
  have hreq : s.rngRequest.2.regs = s.regs := by
    unfold State.rngRequest
    split_ifs <;> rfl
  unfold State.rngDraw
  split_ifs
  · exact hreq
  · rfl
  · rfl

theorem State.regs_pulse (s : State) (p : Nat) : (s.pulse p).regs = s.regs :=
  State.pulse_keeps State.regs (fun _ _ => rfl) s p

/-! #### What the parts of an outcome write -/

namespace State.Writes

variable {u s : State}

theorem dropped (h : u.Writes outcomeField s) {q p} :
    u.Writes outcomeField ((s.removePkt q p).inc (QSC_DROP.COUNT q)) :=
  (h.congr (s.regs_removePkt q p)).inc (outcomeField_above rfl (by decide))

theorem dropPkt (h : u.Writes outcomeField s) {q p} : u.Writes outcomeField (s.dropPkt q p) := by
  have hgroup {t : State} {g : Nat} (h : u.Writes outcomeField t) : u.Writes outcomeField (t.dropGroup q g) :=
    ((h.each fun _ _ _ h => .ite h.congr h.dropped).inc outcomeField_of_le).raise outcomeField_of_le
  unfold State.dropPkt
  split
  · exact h
  · split
    · exact .ite h.dropped (hgroup h.dropped)
    · exact h.dropped

theorem pktReleased (h : u.Writes outcomeField s) {q p} : u.Writes outcomeField (s.pktReleased q p) := by
  unfold State.pktReleased
  exact (h.congr (s.regs_removePkt q p)).inc (outcomeField_above rfl (by decide))

theorem pktKept (h : u.Writes outcomeField s) {q p} : u.Writes outcomeField (s.pktKept q p) :=
  .ite (.ite (h.dropped.inc outcomeField_of_le) h.dropped) (.ite (.ite (h.dropPkt.inc (.inl rfl)) h) h.congr)

theorem retryDrop (h : u.Writes outcomeField s) {n} : u.Writes outcomeField (s.retryDrop n) := by
  unfold State.retryDrop
  exact .ite ((raise h.congr (outcomeField_above rfl (by decide))).raise outcomeField_of_le) h.congr

theorem boReset (h : u.Writes outcomeField s) {n} : u.Writes outcomeField (s.boReset n) :=
  (h.set (outcomeField_backoff n).1).set (outcomeField_backoff n).2

theorem boRaise (h : u.Writes outcomeField s) {n} : u.Writes outcomeField (s.boRaise n) :=
  ((h.congr (s.regs_rngDraw _)).set (outcomeField_backoff n).1).set (outcomeField_backoff n).2

theorem txReport (h : u.Writes outcomeField s) {status nbr fails cell} :
    u.Writes outcomeField (s.txReport status nbr fails cell) :=
  (((h.set outcomeField_of_le).set outcomeField_of_le).set outcomeField_of_le).set outcomeField_of_le

theorem endTx (h : u.Writes outcomeField s) {a} : u.Writes outcomeField (s.endTx a) := by
  unfold State.endTx State.releaseSlice
  split
  next n _ => exact set h.congr (.inr (.inl ⟨n, rfl⟩))
  next => exact h.congr

theorem failPkt (h : u.Writes outcomeField s) {a n q p status} : u.Writes outcomeField (s.failPkt a n q p status) := by
  unfold State.failPkt
  extract_lets counted nbr cause backoff _ dropped down kept
  have hcounted : u.Writes outcomeField counted := h.inc outcomeField_of_le
  have hnbr : u.Writes outcomeField nbr := .ite (hcounted.inc (outcomeField_nb ..)) hcounted
  have hcause : u.Writes outcomeField cause := .ite (hnbr.inc outcomeField_of_le) (.ite (hnbr.inc outcomeField_of_le) hnbr)
  have hback : u.Writes outcomeField backoff := .ite hcause.boRaise hcause
  have hdrop : u.Writes outcomeField dropped := ((hback.inc outcomeField_of_le).raise outcomeField_of_le).dropPkt
  have hdown : u.Writes outcomeField down := .ite hdrop.retryDrop hdrop
  have hkept : u.Writes outcomeField kept := hback.congr
  exact .ite hdown.txReport hkept.pktKept.txReport

theorem txOutcome (h : u.Writes outcomeField s) {a status} : u.Writes outcomeField (s.txOutcome a status) := by
  unfold State.txOutcome
  extract_lets ended
  have hend : u.Writes outcomeField ended := h.endTx
  split
  · exact hend.txReport
  split
  · exact hend.txReport
  next q _ _ p _ =>
    extract_lets out acked told
    have hout : u.Writes outcomeField out := hend.pktReleased.inc outcomeField_of_le
    have hacked : u.Writes outcomeField acked := .ite (congr (hout.inc (outcomeField_nb ..))) hout
    have htold : u.Writes outcomeField told := .ite (hacked.congr (acked.regs_pulse _)) hacked
    have hlong : u.Writes outcomeField ((ended.inc LNK_DROPCNT.LONG).raise LNK_EVT.LONG) :=
      (hend.inc outcomeField_of_le).raise outcomeField_of_le
    exact .ite htold.boReset.txReport (.ite hend.failPkt (.ite hlong.dropPkt.txReport hend.pktKept.txReport))

end State.Writes

end Sys2Proof.Machine
end

section
namespace Sys2Proof.Machine

/-! ### A carrier cut while it sends (R137, R143) -/

/-- The carrier ramps down with its status, which is reported at once. -/
def State.cutShown (s : State) (c : Nat) (k : Carrier) (status : Nat) : State :=
  (s.setCar c (some { k with phase := .rampDown, result := status, copies := 0, rampClk := s.clk })).set
    (TXF_CARSTAT.STATUS c) status

theorem State.cutCar_sending {s : State} {c : Nat} {k : Carrier} (status : Nat) (h : s.cr c = some k)
    (hp : k.phase = .sending) : s.cutCar c status =
      if k.ack then s.cutShown c k status else
        match s.actOf c with
        | some a => (s.cutShown c k status).txOutcome a status
        | none => s.cutShown c k status := by
  unfold State.cutCar
  rw [h]
  simp only [hp, State.modCar_eq _ h, reduceCtorEq, if_false, false_or, true_or, if_true]
  rfl

/-- Where no action holds the carrier, that is all. -/
theorem State.cutCar_alone {s : State} {c : Nat} {k : Carrier} (status : Nat) (h : s.cr c = some k) (hp : k.phase = .sending)
    (ha : s.actOf c = none) : s.cutCar c status = s.cutShown c k status := by
  rw [State.cutCar_sending status h hp, ha]
  exact ite_self _

theorem State.cr_cutShown (s : State) (c : Fin 8) (k : Carrier) (status : Nat) : (s.cutShown c k status).cr c =
    some { k with phase := .rampDown, result := status, copies := 0, rampClk := s.clk } := State.cr_setCar_same _ _ c.isLt

theorem State.get_status_cutShown (s : State) (c : Nat) (k : Carrier) (status : Nat) :
    (s.cutShown c k status).get (TXF_CARSTAT.STATUS c) = status % 16 := State.get_set_same _ status rfl

theorem State.writes_cutShown (s : State) (c : Nat) (k : Carrier) (status : Nat) :
    s.Writes (· = TXF_CARSTAT.STATUS c) (s.cutShown c k status) := State.Writes.set (State.Writes.refl s).congr rfl

/-- The fields that a cut may write, whoever holds the carrier. -/
abbrev cutField (c : Nat) (k : Loc) : Prop := k = TXF_CARSTAT.STATUS c ∨ outcomeField k

theorem State.cutCar_leaves {s : State} {c : Nat} {k : Carrier} (status : Nat) (h : s.cr c = some k)
    (hp : k.phase = .sending) : s.Writes (cutField c) (s.cutCar c status) ∧ (s.cutCar c status).memories = s.memories := by
  have hcut := (s.writes_cutShown c k status).mono (Q := cutField c) fun _ => .inl
  rw [State.cutCar_sending status h hp]
  split_ifs
  · exact ⟨hcut, rfl⟩
  split
  · exact ⟨hcut.trans ((State.Writes.refl _).txOutcome.mono fun _ hk => .inr hk), State.memories_txOutcome _ _ _⟩
  · exact ⟨hcut, rfl⟩

/-! ### The emission monitor (R136, R137) -/

/-- R137: a bin inside the LO's window breaks the mask. -/
def State.maskBroken (s : State) (c : Nat) (bins : List (Int × Int)) (k : Carrier) (m : Nat) : Bool :=
  bins.any (fun b => decide (((k.freq : Int) + b.1 * 100000 - (s.get (TXF_LO.FREQ (c / 4)) : Int)).natAbs ≤ 20000000) &&
    maskBreaks b.1.natAbs b.2 (s.maskPoints m))

/-- R137: a break counted and latched. -/
def State.maskCounted (s : State) (x : Nat) : State :=
  (s.inc (byChain x TXF_MASKCNT.A TXF_MASKCNT.B)).raise (byChain x TXF_EVT.MASKA TXF_EVT.MASKB)

/-- MASK_CHECK_END of a sending carrier. -/
theorem State.maskCheck_sending {s : State} {c m : Nat} {k : Carrier} (bins : List (Int × Int)) (h : s.cr c = some k)
    (hp : k.phase = .sending) (hm : s.maskOf k.wave = some m) : s.maskCheck c bins =
      if !maskAscends (s.maskPoints m) then s.raise TXF_EVT.MASKBAD
      else if s.maskBroken c bins k m then
        if (s.maskCounted (c / 4)).bit (TXF_CTRL.MASKCUT (c / 4)) then (s.maskCounted (c / 4)).cutCar c 6
        else s.maskCounted (c / 4)
      else s := by
  unfold State.maskCheck
  rw [h]
  simp only [hp, ne_eq, not_true_eq_false, false_and, if_false, hm]
  rfl

/-- Where the count and the latch of a chain lie, and what stands apart from them. -/
theorem maskFields : ∀ c : Fin 8,
    let n := byChain (c / 4) TXF_MASKCNT.A TXF_MASKCNT.B
    let e := byChain (c / 4) TXF_EVT.MASKA TXF_EVT.MASKB
    n.fits = true ∧ n.w = 16 ∧ n.addr = TXF_MASKCNT.addr ∧ e.fits = true ∧ e.w = 1 ∧ e.addr = TXF_EVT.addr ∧ n.apart e = true ∧
      e.lo + e.w ≤ 10 ∧ (TXF_CTRL.MASKCUT (c / 4)).addr ∉ [TXF_MASKCNT.addr, TXF_EVT.addr] ∧
      TXF_CARSTAT.addr c ∉ [TXF_MASKCNT.addr, TXF_EVT.addr] := by decide

/-- The events and the counts of TXF stand apart from all that a cut may write: where the register of an ACT bit is TXF_EVT,
that bit lies above the mask events. -/
theorem mask_apart_cutField {c : Fin 8} {l k : Loc} (hl : l.addr = TXF_MASKCNT.addr ∨ l.addr = TXF_EVT.addr ∧ l.lo + l.w ≤ 10)
    (hk : cutField c k) : l.apart k = true := by
  obtain ⟨-, -, -, -, -, -, -, -, -, hst⟩ := maskFields c
  obtain rfl | rfl | ⟨n, rfl⟩ | hk := hk
  · refine Loc.apart_of_addr fun he => hst ?_
    rw [← show l.addr = TXF_CARSTAT.addr c from he]
    rcases hl with hl | ⟨hl, -⟩ <;> simp [hl]
  · refine Loc.apart_of_addr ?_
    rcases hl with hl | ⟨hl, -⟩ <;> rw [hl] <;> decide
  · rcases hl with hl | ⟨-, hlo⟩
    · refine Loc.apart_of_addr ?_
      rw [hl]
      unfold TXF_MASKCNT.addr
      change 0x20060038 ≠ 0x20040108 + 0x20 * n
      omega
    · simp [Loc.apart, SLC_STAT.ACT, hlo]
  · refine Loc.apart_of_addr ?_
    have hlt : l.addr < 0x20080000 := by
      rcases hl with hl | ⟨hl, -⟩ <;> rw [hl] <;> decide
    omega

/-- R137: what a break leaves: one more counted, and the chain's event latched. -/
theorem State.maskCounted_leaves (s : State) (c : Fin 8) :
    (s.maskCounted (c / 4)).get (byChain (c / 4) TXF_MASKCNT.A TXF_MASKCNT.B) =
        min 65535 (s.get (byChain (c / 4) TXF_MASKCNT.A TXF_MASKCNT.B) + 1) ∧
      (s.maskCounted (c / 4)).bit (byChain (c / 4) TXF_EVT.MASKA TXF_EVT.MASKB) = true ∧
      s.Writes (inRegs [TXF_MASKCNT.addr, TXF_EVT.addr]) (s.maskCounted (c / 4)) := by
  obtain ⟨hnf, hnw, hna, hef, hew, hea, hne, -⟩ := maskFields c
  refine ⟨?_, State.bit_raise _ hef hew, ((State.Writes.refl s).inc (by simp [inRegs, hna])).raise (by simp [inRegs, hea])⟩
  refine (State.get_incBy_apart _ 1 hne).trans ((s.get_incBy_same 1 hnf).trans ?_)
  rw [hnw]
  rfl

/-! ### The glaze's cut and the duty buckets (R142, R143) -/

theorem State.glazeCut_below {s : State} {c : Nat} {k : Carrier} {level : Int} (h : s.cr c = some k)
    (hle : ¬ 50 * k.level + 200 < level) : s.glazeCut c level = s := by
  unfold State.glazeCut
  rw [h]
  exact if_neg fun hc => hle hc.2

/-- R143: the cut counted in its class and latched (log entry 16). -/
def State.glazeCounted (s : State) : State := (s.inc (GLZ_REFCNT.COUNT 6)).raise GLZ_EVT.CUT

theorem State.glazeCut_above {s : State} {c : Nat} {k : Carrier} {level : Int} (h : s.cr c = some k) (hp : k.phase = .sending)
    (hlt : 50 * k.level + 200 < level) : s.glazeCut c level = s.glazeCounted.cutCar c 14 := by
  unfold State.glazeCut
  rw [h]
  exact if_pos ⟨hp, hlt⟩

theorem State.glazeCut_leaves {s : State} {c : Fin 8} {k : Carrier} {level : Int} (h : s.cr c = some k) (hp : k.phase = .sending)
    (hlt : 50 * k.level + 200 < level) (ha : s.actOf c = none) :
    (s.glazeCut c level).cr c = some { k with phase := .rampDown, result := 14, copies := 0, rampClk := s.clk } ∧
      (s.glazeCut c level).get (GLZ_REFCNT.COUNT 6) = min (2 ^ 32 - 1) (s.get (GLZ_REFCNT.COUNT 6) + 1) ∧
      (s.glazeCut c level).bit GLZ_EVT.CUT = true ∧ (s.glazeCut c level).get (TXF_CARSTAT.STATUS c) = 14 ∧
      s.Writes (inRegs [GLZ_REFCNT.addr 6, GLZ_EVT.addr, TXF_CARSTAT.addr c]) (s.glazeCut c level) ∧
      (s.glazeCut c level).memories = s.memories := by
  have hap : ∀ c : Fin 8, (GLZ_REFCNT.COUNT 6).apart (TXF_CARSTAT.STATUS c) = true ∧
      GLZ_EVT.CUT.apart (TXF_CARSTAT.STATUS c) = true := by decide
  obtain ⟨hcnt, hevt⟩ := hap c
  have hwr : s.Writes (inRegs [GLZ_REFCNT.addr 6, GLZ_EVT.addr, TXF_CARSTAT.addr c]) s.glazeCounted :=
    ((State.Writes.refl s).inc (by simp [inRegs, GLZ_REFCNT.COUNT])).raise (by simp [inRegs, GLZ_EVT.CUT])
  rw [State.glazeCut_above h hp hlt, State.cutCar_alone (s := s.glazeCounted) 14 h hp ha]
  have hcut := s.glazeCounted.writes_cutShown c k 14
  have hclk : s.glazeCounted.clk = s.clk := by simp [State.glazeCounted]
  refine ⟨by rw [State.cr_cutShown, hclk], ?_, ?_, State.get_status_cutShown _ c k 14, hwr.trans (hcut.mono ?_), rfl⟩
  · rw [hcut _ (by rintro _ rfl; exact hcnt), State.glazeCounted, State.raise, State.get_incBy_apart _ 1 (by decide), State.inc,
      State.get_incBy_same s 1 rfl, show (GLZ_REFCNT.COUNT 6).w = 32 from rfl]
  · rw [State.bit_eq, hcut _ (by rintro _ rfl; exact hevt)]
    exact State.bit_raise _ rfl rfl
  · rintro _ rfl
    simp [inRegs, TXF_CARSTAT.STATUS]

theorem vget_map {α β : Type} {n : Nat} [Inhabited α] [Inhabited β] (f : α → β) (v : Vector α n) {i : Nat} (h : i < n) :
    vget (v.map f) i = f (vget v i) := by
  simp [vget, h]

end Sys2Proof.Machine

open Sys2Proof Sys2Proof.Machine

/-- Settles O21: a cut reports its status and ramps the carrier down; the outcome it may bring reaches neither the mask's count
nor its event (R136, R137, R142, R143). -/
theorem emissionChecksComplete : Obligations.EmissionChecksComplete := by
  refine ⟨fun c bins k m s hc hp hm => ?_, fun c level k s hc hp => ⟨fun hle => ?_, fun hlt ha => ?_⟩, fun s => ?_⟩
  · obtain ⟨-, -, hna, -, -, hea, -, hlo, hctl, -⟩ := maskFields c
    obtain ⟨hcnt, hevt, hwr⟩ := s.maskCounted_leaves c
    have hcut : (s.maskCounted (c / 4)).bit (TXF_CTRL.MASKCUT (c / 4)) = s.bit (TXF_CTRL.MASKCUT (c / 4)) := by
      rw [State.bit_eq, hwr.get_of_reg hctl, State.bit_eq]
    obtain ⟨hcw, hcm⟩ := State.cutCar_leaves (s := s.maskCounted (c / 4)) 6 hc hp
    have ht := State.maskCheck_sending bins hc hp hm
    refine ⟨s.maskCheck c bins, rfl, ⟨fun hasc => ?_, fun hasc (hb : s.maskBroken c bins k m = false) => ?_,
      fun hasc (hb : s.maskBroken c bins k m = true) => ?_⟩, keepsMemory_of_memories ?_⟩
    · rw [ht, if_pos (by rw [hasc]; rfl)]
      exact ⟨s.bit_raise rfl rfl, State.Writes.keepsRegs ((State.Writes.refl s).raise (List.mem_singleton.2 rfl)), rfl⟩
    · rw [ht, if_neg (by simp [hasc]), if_neg (by simp [hb])]
    · rw [ht, if_neg (by simp [hasc]), if_pos hb, hcut]
      refine ⟨?_, ?_, fun hoff => ?_, fun hon ha => ?_⟩
      · split_ifs
        · rw [hcw _ fun f hf => mask_apart_cutField (.inl hna) hf, hcnt]
        · exact hcnt
      · split_ifs
        · rw [State.bit_eq, hcw _ fun f hf => mask_apart_cutField (.inr ⟨hea, hlo⟩) hf]
          exact hevt
        · exact hevt
      · rw [if_neg (by simp [hoff])]
        exact ⟨hwr.keepsRegs, rfl⟩
      · rw [if_pos hon, State.cutCar_alone (s := s.maskCounted (c / 4)) 6 hc hp ha, State.cr_cutShown,
          show (s.maskCounted (c / 4)).clk = s.clk by simp [State.maskCounted]]
    · rw [ht]
      split_ifs
      · rfl
      · exact hcm
      · rfl
      · rfl
  · exact congrArg Host.Outcome.next (State.glazeCut_below hc (by omega))
  · obtain ⟨hcr, hcnt, hevt, hst, hwr, hmem⟩ := State.glazeCut_leaves hc hp hlt ha
    exact ⟨s.glazeCut c level, rfl, hcr, hcnt, hevt, hst, hwr.keepsRegs, keepsMemory_of_memories hmem⟩
  · refine ⟨_, rfl, fun n hn => ?_, fun _ _ => rfl, keepsMemory_of_memories rfl⟩
    change (vget (s.glz.duty.map Duty.roll) n).secs = _ ∧ (vget (s.glz.duty.map Duty.roll) n).charges = _
    rw [vget_map _ _ hn]
    exact ⟨rfl, rfl⟩
end

section
namespace Sys2Proof.Machine

/-! ### The end of a transmit action (R157) -/

theorem State.lnk_endTx (s : State) (a : TxAct) :
    (s.endTx a).lnk = { s.lnk with tx := s.lnk.tx.filter (fun b => b.id ≠ a.id) } := by
  unfold State.endTx State.releaseSlice
  split <;> rfl

/-- An action that has ended is forgotten. -/
theorem State.forgotten_endTx (s : State) (a : TxAct) : ∀ x ∈ (s.endTx a).lnk.tx, x.id ≠ a.id := by
  rw [State.lnk_endTx]
  exact fun x hx => of_decide_eq_true (List.mem_filter.1 hx).2

/-- The ACT bit of a slice, whatever its number, lies in a register at 8 modulo 32. -/
theorem State.get_endTx (s : State) (a : TxAct) {l : Loc} (h : l.addr % 32 ≠ 8) : (s.endTx a).get l = s.get l := by
  unfold State.endTx State.releaseSlice
  split
  next n _ =>
    refine State.get_set_apart (k := SLC_STAT.ACT n) _ 0 (Loc.apart_of_addr fun he => h ?_)
    rw [he]
    change (0x20040108 + 0x20 * n) % 32 = 8
    omega
  next => rfl

theorem State.writes_txReport (s : State) (status nbr fails cell : Nat) :
    s.Writes (inRegs [LNK_TXSTAT.addr]) (s.txReport status nbr fails cell) :=
  ((((State.Writes.refl s).set (by decide)).set (by decide)).set (by decide)).set (by decide)

theorem State.get_status_txReport (s : State) (status nbr fails cell : Nat) :
    (s.txReport status nbr fails cell).get LNK_TXSTAT.STATUS = status % 64 := by
  unfold State.txReport
  rw [State.get_set_apart _ _ (by decide), State.get_set_apart _ _ (by decide), State.get_set_apart _ _ (by decide)]
  exact State.get_set_same _ status rfl

/-- An action without a packet ends with a report alone. -/
theorem State.txOutcome_noPacket {a : TxAct} (s : State) (status : Nat) (h : a.pkt = none) :
    s.txOutcome a status = (s.endTx a).txReport status a.nbr 0 a.cell := by
  unfold State.txOutcome
  rw [h]

/-- R157: a skipped action without a packet is counted, reported and forgotten. -/
theorem State.skipTx_leaves (s : State) {a : TxAct} (h : a.pkt = none) : (∀ x ∈ (s.skipTx a).lnk.tx, x.id ≠ a.id) ∧
    (s.skipTx a).get LNK_TXSTAT.STATUS = 0x27 ∧
    (s.skipTx a).get LNK_SKIPCNT.TX = min 65535 (s.get LNK_SKIPCNT.TX + 1) ∧ (s.skipTx a).bit LNK_EVT.SKIP = true := by
  have hskip : s.skipTx a = ((s.countSkip true).endTx a).txReport 0x27 a.nbr 0 a.cell := State.txOutcome_noPacket _ _ h
  have hget {l : Loc} (hl : l.addr % 32 ≠ 8) (hne : l.addr ∉ [LNK_TXSTAT.addr]) :
      (s.skipTx a).get l = (s.countSkip true).get l := by
    rw [hskip, (State.writes_txReport _ _ _ _ _).get_of_reg hne, State.get_endTx _ _ hl]
  refine ⟨?_, ?_, ?_, ?_⟩
  · rw [hskip]
    exact State.forgotten_endTx _ a
  · rw [hskip, State.get_status_txReport]
  · rw [hget (by decide) (by decide)]
    refine (State.get_incBy_same (l := LNK_SKIPCNT.TX) _ 1 rfl).trans ?_
    rw [State.raise, State.get_incBy_apart _ 1 (by decide), show LNK_SKIPCNT.TX.w = 16 from rfl]
    rfl
  · rw [State.bit_eq, hget (by decide) (by decide)]
    refine Eq.trans ?_ (s.bit_raise (l := LNK_EVT.SKIP) rfl rfl)
    exact congrArg (fun n => decide (n = 1)) (State.get_incBy_apart _ 1 (by decide))

/-! ### The cell start of a transmit action (R153, R158) -/

/-- The action with its cell start past. -/
def TxAct.begun (a : TxAct) : TxAct := { a with started := true }

/-- The action marked begun. -/
def State.txBegun (s : State) (a : TxAct) : State := s.modTx a.id (fun _ => a.begun)

/-- What follows the selection: without a packet the action ends, and with one it takes it or is skipped. -/
def TxAct.proceed (a : TxAct) : State × Option (Nat × Packet) → State
  | (s, none) => s.endTx a
  | (s, some (q, p)) => if s.txDomains a then (s.dropRx a).txPacket a q p else (s.dropRx a).skipTx a

section
variable {s : State} {cell : Nat} {a : TxAct} (h : s.lnk.tx.find? (fun a => decide (a.cell = cell) && !a.started) = some a)
include h

/-- R157: a domain is off, and the cell does not receive either. -/
theorem State.txCellStart_skips (hk : a.kind ≠ 3) (hd : s.txDomains a = false) :
    s.txCellStart cell = (s.txBegun a).skipTx a.begun := by
  unfold State.txCellStart
  rw [h]
  refine if_pos ⟨hk, ?_⟩
  change (!s.txDomains a) = true
  rw [hd]
  rfl

/-- What an action that may select comes to. -/
theorem State.txCellStart_selects (hd : a.kind = 3 ∨ s.txDomains a = true) :
    s.txCellStart cell =
      if !s.dOn 23 then (s.txBegun a).endTx a.begun else a.begun.proceed ((s.txBegun a).txSelect a.begun) := by
  unfold State.txCellStart
  rw [h]
  refine if_neg ?_
  rintro ⟨hk, hoff⟩
  have hoff : (!s.txDomains a) = true := hoff
  rw [hd.resolve_left hk] at hoff
  exact Bool.noConfusion hoff

/-- Nothing is selected: the action ends. -/
theorem State.txCellStart_ends (hd : a.kind = 3 ∨ s.txDomains a = true)
    (hn : ((s.txBegun a).txSelect a.begun).2 = none) : s.txCellStart cell = (s.txBegun a).endTx a.begun ∨
      s.txCellStart cell = ((s.txBegun a).txSelect a.begun).1.endTx a.begun := by
  rw [State.txCellStart_selects h hd]
  generalize (s.txBegun a).txSelect a.begun = r at hn ⊢
  obtain ⟨w, o⟩ := r
  obtain rfl : o = none := hn
  split_ifs
  · exact .inl rfl
  · exact .inr rfl

/-- A packet is selected, and what it needs is on. -/
theorem State.txCellStart_sends {w : State} {q : Nat} {p : Packet} (hd : s.txDomains a = true)
    (hw : w.txDomains a.begun = true) (hsel : (s.txBegun a).txSelect a.begun = (w, some (q, p))) :
    s.txCellStart cell = (w.dropRx a.begun).txPacket a.begun q p := by
  have hmsh : s.dOn 23 = true := by
    unfold State.txDomains at hd
    simp only [Bool.and_eq_true] at hd
    exact hd.1.2
  rw [State.txCellStart_selects h (.inr hd), if_neg (by simp [hmsh]), hsel]
  exact if_pos hw

end

/-! ### A carrier for a frame (R121, R122) -/

theorem State.placeCar_lt {s : State} {x f wave t c : Nat} {air lo : Option Nat} {ign : List Nat} (hx : x < 2)
    (h : s.placeCar x f wave t air ign = some (c, lo)) : c < 8 := by
  unfold State.placeCar at h
  dsimp only at h
  split_ifs at h
  all_goals
    obtain ⟨d, hfind, hd⟩ := Option.map_eq_some_iff.1 h
    obtain rfl : d = c := congrArg Prod.fst hd
    have := mem_carriersOf.1 (List.mem_of_find?_eq_some hfind)
    omega

/-- A carrier that needs no retune is held as it is placed. -/
theorem State.cr_hold (s : State) {c : Nat} (k : Carrier) (h : c < 8) : (s.hold c none k).cr c = some k := by
  unfold State.hold
  rw [State.showTx_keeps (State.cr · c) fun _ _ _ => rfl]
  exact s.cr_setCar_same (some k) h

theorem State.cr_modTx (s : State) (id : Nat) (f : TxAct → TxAct) (c : Nat) : (s.modTx id f).cr c = s.cr c := rfl

/-- The carrier of a frame as an action requests it. -/
def State.frameCarrier (s : State) (a : TxAct) (p : Packet) (t : TxPlan) (m : List Byte) : Carrier :=
  { cell := a.cell, wave := a.wave, freq := a.freq, want := t.level, launch := a.launch, ru := s.rampUs a.chain, air := t.air,
    copies := t.copies, mpdu := m, mcs := t.mcs, count := t.count, mid := t.mid, train := decide (0 < t.copies), tc := p.tc }

theorem State.cr_requestCar {s : State} {a : TxAct} {t : TxPlan} {c : Nat} (p : Packet) (m : List Byte) (hx : a.chain < 2)
    (h : s.placeCar a.chain a.freq a.wave a.launch (some ((t.copies + 1) * (t.air + 4000) - 4000)) [] = some (c, none)) :
    (s.requestCar a p t m).cr c = some (s.frameCarrier a p t m) := by
  unfold State.requestCar
  dsimp only
  rw [h]
  dsimp only
  rw [State.cr_modTx]
  exact s.cr_hold _ (State.placeCar_lt hx h)

/-- The action with its packet. -/
def TxAct.carrying (a : TxAct) (q : Nat) (p : Packet) : TxAct := { a with pkt := some (q, p.pid) }

/-- The action takes the packet, whose single-bit errors are corrected (R30). -/
def State.packetTaken (s : State) (a : TxAct) (q : Nat) (p : Packet) : State :=
  (s.modTx a.id (fun _ => a.carrying q p)).corrected (packetWord p)

/-- R158: an action that needs no slice requests a carrier for the frame that its packet makes. -/
theorem State.txPacket_requests {s y : State} {a : TxAct} {q : Nat} {p : Packet} {t : TxPlan} {m : List Byte}
    (he : (s.packetTaken a q p).eccInPacket p = none)
    (hp : (s.packetTaken a q p).planFrame (a.carrying q p) p.len = .inr t)
    (hb : (s.packetTaken a q p).frameBytes (a.carrying q p) q p t = some (m, y))
    (hc : a.cca = false) (ha : a.ackreq = false) :
    ∃ n, s.txPacket a q p = y.requestCar { a.carrying q p with seq := n, wantAck := a.ackreq } p t m := by
  unfold State.packetTaken TxAct.carrying at *
  unfold State.txPacket
  dsimp only at *
  rw [he]
  dsimp only
  rw [hp]
  dsimp only
  rw [hb]
  dsimp only
  unfold State.txSlice
  simp only [hc, ha]
  exact ⟨_, rfl⟩

/-! ### The launch of an acknowledgement (R133, R134, R169) -/

/-- The carrier of the acknowledgement that slice `n` owes for a frame, in place of its reservation `o`. -/
def State.ackCarrier (s : State) (n : Nat) (d : RxDone) (o : Carrier) (nack : Bool) (nbr : Nat) : Carrier :=
  let m := s.ackMpdu d nack
  let mcs := if isMf d.wave then min d.mcs (s.get LNK_CTRL.ACKMCS) else if 5 ≤ d.wave then d.mcs else 0
  { ack := true, armed := true, slice := n, wave := d.wave, freq := d.freq, want := s.ackLevel nbr,
    launch := tbPlus d.endAt ((gapUs d.wave * usTb : Nat) : Int), ru := s.rampUs d.chain,
    air := airNs d.wave (s.txSet d.chain d.wave) mcs (normalCount d.wave) (m.length + s.txFcs d.chain d.wave) false,
    mpdu := m, mcs := mcs, count := normalCount d.wave, req := o.req, pri := o.pri }

/-- The frame is done with. -/
def State.frameDone (s : State) (d : RxDone) : State :=
  { s with lnk := { s.lnk with done := s.lnk.done.filter (fun e => e.fid ≠ d.fid) } }

/-- On a carrier reserved for it, the acknowledgement takes the place of the reservation, with the request that this holds. -/
theorem State.ackLaunch_reserved {s : State} {n nbr c : Nat} {d : RxDone} {nack : Bool} {o : Carrier}
    (h : s.lnk.done.find? (fun d => decide (d.slice = n) && d.owed.isSome) = some d) (ho : d.owed = some (nack, nbr))
    (hc : d.carrier = some c) (hr : s.cr c = some o) (hack : o.ack = true) (harm : o.armed = false) :
    s.ackLaunch n = (s.frameDone d).setCar c (some ((s.frameDone d).ackCarrier n d o nack nbr)) := by
  have hcr : (s.frameDone d).cr c = some o := hr
  unfold State.ackLaunch
  rw [h]
  dsimp only
  rw [ho]
  dsimp only
  rw [hc]
  dsimp only
  unfold State.frameDone at *
  rw [hcr]
  exact if_pos (by rw [hack, harm]; rfl)

theorem State.lt_of_cr {s : State} {c : Nat} {k : Carrier} (h : s.cr c = some k) : c < 8 := by
  by_contra hc
  simp [State.cr, vget, hc] at h

end Sys2Proof.Machine

open Sys2Proof Sys2Proof.Machine

/-- Settles O25: a cell start skips, ends or carries a packet, as the domains and the selection say; a launched acknowledgement
takes its reservation (R122, R133, R134, R153, R157, R158, R169, R170). -/
theorem transmitActionsComplete : Obligations.TransmitActionsComplete := by
  refine ⟨fun cell a s h hx => ⟨s.txCellStart cell, rfl, fun hk hd hp => ?_, fun hd hn _ => ?_, fun hk hn hl => ?_,
    fun w q p v m y c hd hw hsel he hp hb hc ha hplace => ?_⟩, fun n d nack nbr c o s h ho hc hr hack harm => ?_⟩
  · rw [State.txCellStart_skips h hk hd]
    exact (s.txBegun a).skipTx_leaves (a := a.begun) hp
  · obtain ht | ht := State.txCellStart_ends h (.inr hd) hn
    · rw [ht]
      exact State.forgotten_endTx _ a.begun
    · rw [ht]
      exact State.forgotten_endTx _ a.begun
  · obtain ht | ht := State.txCellStart_ends h (.inl hk) hn
    · rw [ht]
      exact ⟨State.forgotten_endTx _ a.begun, by rw [State.lnk_endTx]; rfl⟩
    · rw [ht]
      refine ⟨State.forgotten_endTx _ a.begun, ?_⟩
      rw [State.lnk_endTx]
      exact (congrArg LnkState.rx hl :)
  · obtain ⟨seq, ht⟩ := State.txPacket_requests (s := w.dropRx a.begun) (a := a.begun) he hp hb hc ha
    rw [State.txCellStart_sends h hd hw hsel, ht]
    exact ⟨_, State.cr_requestCar p m hx hplace, rfl, rfl, rfl, rfl, rfl, rfl, rfl, rfl⟩
  · refine ⟨s.ackLaunch n, (s.frameDone d).ackCarrier n d o nack nbr, rfl, ?_⟩
    rw [State.ackLaunch_reserved h ho hc hr hack harm]
    exact ⟨State.cr_setCar_same _ _ (State.lt_of_cr hr), rfl, rfl, rfl, rfl, rfl, rfl, rfl, rfl, rfl, rfl, fun _ _ => rfl,
      keepsMemory_of_memories rfl⟩
end

section
namespace Sys2Proof.Machine

/-- The wires are enabled, and carrier 0 sends for an action whose packet fails for the last time. Its neighbour has no number:
the bit that MSH_DOWN would have for it is COEX_STAT.GNT. No run reaches this state. -/
def namelessNeighbour : State :=
  let b := (((State.reset.set COEX_CTRL.EN 1).set COEX_CTRL.BANDA 1).set COEX_CTRL.GNTCUT 1).set MSH_CTRL.DOWNLIM 1
  let a : TxAct := {
    id := 0, cell := 0, kind := 1, nbr := 8 * (COEX_STAT.addr - MSH_DOWN.addr 0) + COEX_STAT.GNT.lo, chain := 0, freq := 0,
    wave := 3, cca := false, ackreq := false, launch := 0, carrier := some 0, pkt := some (0, 0) }
  { b with
    car := vset b.car 0 (some { phase := .sending })
    lnk := { tx := [a] }
    qsc := { b.qsc with queues := vset b.qsc.queues 0 { pkts := [{ fails := 15 }] } } }

/-- The neighbour is found down once the grant has dropped, and GNT reads 1 (R212). -/
theorem gnt_grantDrop_namelessNeighbour : namelessNeighbour.grantDrop.bit COEX_STAT.GNT = true := by decide +kernel

end Sys2Proof.Machine

open Sys2Proof Sys2Proof.Machine

/-- Refutes O23: its second clause asks for GNT 0 after every drop, and in `namelessNeighbour` the frame that the drop cuts
marks its neighbour down by a write of GNT itself. -/
theorem not_coexistenceAndSealComplete : ¬ Obligations.CoexistenceAndSealComplete := by
  intro h
  obtain ⟨-, hdrop, -⟩ := h
  obtain ⟨t, ht, hgnt, -⟩ := hdrop namelessNeighbour (by decide +kernel) (by decide +kernel)
  obtain rfl := Host.Outcome.next.inj ht
  exact Bool.noConfusion (gnt_grantDrop_namelessNeighbour.symm.trans hgnt)
end

section
namespace Sys2Proof.Machine

/-- A transmit action on chain `x` that has its carrier and its slice, and waits for its CCA. -/
def ccaOn (x : Nat) : TxAct :=
  { id := 0, cell := 0, kind := 1, nbr := 0, chain := x, freq := 0, wave := 3, cca := true, ackreq := false, launch := 0,
    carrier := some 0, slice := some 0 }

/-- Two transmit actions of one name on different chains, of which the second is deafened. No run reaches this state: every
action takes a name of its own. -/
def sharedName : State := { State.reset.set (RXF_STAT.DEAF 1) 1 with lnk := { tx := [ccaOn 0, ccaOn 1] } }

/-- Each action of the name finds the channel as its own chain hears it (R161). -/
theorem busy_ccaStart_sharedName : (sharedName.ccaStart 0).lnk.tx.map TxAct.busy = [false, true] := by decide +kernel

end Sys2Proof.Machine

open Sys2Proof Sys2Proof.Machine

/-- Refutes O26: its first clause asks that every action of the name is busy as the first one's chain is deafened, and in
`sharedName` the second one's chain is deafened alone. -/
theorem not_slotWindowsComplete : ¬ Obligations.SlotWindowsComplete := by
  intro h
  obtain ⟨hstart, -⟩ := h
  obtain ⟨t, ht, htx, -⟩ := hstart 0 (ccaOn 0) 0 sharedName (by decide +kernel) rfl
  obtain rfl := Host.Outcome.next.inj ht
  have hbusy := busy_ccaStart_sharedName.symm.trans (congrArg (List.map TxAct.busy) htx)
  exact absurd hbusy (by decide +kernel)
end

section
namespace Sys2Proof.Machine

/-- A beacon of neighbour 0, whose address is 7, as slice 0 received it in a held BRX action. -/
def parentBeacon : RxDone :=
  { slice := 0, wave := 3, mpdu := [5, 0, 0, 0, 0, 0, 7, 0], act := some (0, 5, 0, 0), held := true }

/-- The beacon's header. -/
def parentHead : Head := { type := 1, seq := 0, netid := 0, src := some 7, bcast := true, len := 8 }

/-- The parent's beacon waits to be decided, and the scan that it ends runs on a slice that has no number: the address that
SLC_CFG would have for it is the address of LNK_RXOKCNT. PER is off, so that the frame's event goes to no channel (R456). No run
reaches this state. -/
def namelessScan : State :=
  let b := (((State.reset.set (PWR_DSTAT.STATE 28) 2).set MSH_CTRL.EN 1).set LNK_TRACK.PARENT 0).set LNK_RXOKCNT.COUNT 0x300
  let b := (b.set (nb 0 0 0 16) 7).set (nb 0 0 31 1) 1
  { b with lnk := {
      done := [parentBeacon]
      scan := some { slice := (LNK_RXOKCNT.addr - SLC_CFG.addr 0) / 0x20, chan := 0, dwell := 0, rounds := none } } }

/-- The frame is counted, and then the end of the scan clears bits 8 and 9 of the count (R182, R200, R201). -/
theorem rxOkCnt_frameAcceptance_namelessScan : (namelessScan.frameAcceptance 0).get LNK_RXOKCNT.COUNT = 1 := by
  decide +kernel

/-- No frame of a lower slice is decided before one of slice 0 (R168). -/
theorem State.alsoDecided_zero (s : State) : s.alsoDecided (0 : Fin 16) = [] := by simp [State.alsoDecided]

end Sys2Proof.Machine

open Sys2Proof Sys2Proof.Machine

/-- Refutes O24: its clause for RX_OK asks for the count of accepted frames to be one higher, and in `namelessScan` the scan
that the frame ends writes its slice OFF in LNK_RXOKCNT itself. -/
theorem not_frameAcceptanceCompletes : ¬ Obligations.FrameAcceptanceCompletes := by
  intro h
  obtain ⟨t, ht, -, -, -, -, -, hok, -⟩ := h 0 parentBeacon parentHead namelessScan namelessScan
    (by rw [State.alsoDecided_zero, State.each_nil]) (by decide +kernel) (by decide +kernel)
  obtain rfl := Host.Outcome.next.inj ht
  -- No twin, of this network and broadcast, unsecured where no security is required, no duplicate, and taken by the mesh.
  obtain ⟨-, -, hcount, -⟩ := hok (by decide +kernel) (by decide +kernel) rfl (by decide +kernel) (by decide +kernel)
    (by decide +kernel)
  have hbefore : namelessScan.get LNK_RXOKCNT.COUNT = 0x300 := by decide +kernel
  rw [hbefore] at hcount
  exact absurd (rxOkCnt_frameAcceptance_namelessScan.symm.trans hcount) (by decide)
end

section
namespace Sys2Proof.Machine

/-! ### Registers of LNK -/

/-- No register of LNK is a half of a two-register value (R7). -/
theorem pairLows_not_lnk : ∀ a ∈ pairLows, blockOfAddr a ≠ 8 := by decide

theorem blockOfAddr_lnk {a : Nat} (hlo : 0x20080000 ≤ a) (hhi : a < 0x20090000) : blockOfAddr a = 8 := by
  unfold blockOfAddr
  omega

theorem RegRow.lt_of_covers {r : RegRow} {o : Nat} (hs : 0 < r.stride) (h : r.covers o = true) :
    o < r.off + r.count * r.stride := by
  simp only [RegRow.covers, Bool.and_eq_true, decide_eq_true_eq] at h
  have := (Nat.div_lt_iff_lt_mul hs).1 h.2
  omega

/-- The rows of LNK that have RWL fields lie below offset 0x40, and those of another domain below 0x208. -/
theorem regRowsLNK_low : ∀ r ∈ regRowsLNK, (r.rwl = 0 ∨ r.off + r.count * r.stride ≤ 0x40) ∧
    (r.dom = 22 ∨ r.off + r.count * r.stride ≤ 0x208) ∧ 0 < r.stride := by
  decide

/-- An address that some row of LNK covers has a row there, and that row ends behind it. -/
theorem findRow_lnk {a : Nat} {r : RegRow} (hblk : blockOfAddr a = 8) (hr : r ∈ regRowsLNK)
    (hc : r.covers (a % 0x10000) = true) :
    ∃ x ∈ regRowsLNK, findRow a = some x ∧ a % 0x10000 < x.off + x.count * x.stride := by
  have hrow : findRow a = regRowsLNK.find? (·.covers (a % 0x10000)) := by
    unfold blockOfAddr at hblk
    unfold findRow
    rw [hblk, blockRows]
  obtain ⟨x, hx⟩ := Option.isSome_iff_exists.1
    (List.find?_isSome (p := fun r : RegRow => r.covers (a % 0x10000)) |>.2 ⟨r, hr, hc⟩)
  have hcov : x.covers (a % 0x10000) = true := List.find?_some (p := fun r : RegRow => r.covers (a % 0x10000)) hx
  have hmem := List.mem_of_find?_eq_some hx
  obtain ⟨-, -, hstride⟩ := regRowsLNK_low x hmem
  exact ⟨x, hmem, hrow.trans hx, RegRow.lt_of_covers hstride hcov⟩

/-- A register of LNK behind the first sixteen stands alone and is not locked. -/
theorem simpleAddr_lnk {a : Nat} {r : RegRow} (hlo : 0x20080040 ≤ a) (hhi : a < 0x20090000) (ha : a % 4 = 0)
    (hr : r ∈ regRowsLNK) (hc : r.covers (a % 0x10000) = true) : simpleAddr a = true := by
  have hblk : blockOfAddr a = 8 := blockOfAddr_lnk (by omega) hhi
  obtain ⟨x, hx, hrow, hlt⟩ := findRow_lnk hblk hr hc
  obtain ⟨hlow, -⟩ := regRowsLNK_low x hx
  have hrwl : x.rwl = 0 := hlow.resolve_right (by omega)
  have hnot {b : Nat} (hb : 0x20080000 ≤ b) (hb' : b < 0x20090000) : b ∉ pairLows := fun hm =>
    pairLows_not_lnk b hm (blockOfAddr_lnk hb hb')
  have halone : alone a = true := by
    simp only [alone, Bool.and_eq_true, decide_eq_true_eq]
    exact ⟨⟨hnot (by omega) hhi, hnot (by omega) (by omega)⟩, hnot (by omega) (by omega)⟩
  have hregion : regionOf a = .periph (a % 0x200000) := by
    unfold regionOf
    rw [if_neg (by omega), if_neg (by omega), if_neg (by omega), if_neg (by omega), if_neg (by omega), if_neg (by omega),
      if_neg (by omega), if_pos (by omega)]
  simp [simpleAddr, hregion, ha, hrow, hrwl, halone, hblk]

/-! ### Writes of the neighbour table (R180) -/

/-- The rows of words 0 and 1 of the neighbour entries. -/
def nbrRow (k : Fin 2) : RegRow := ⟨0x4000 + 4 * k, 0x40, 256, 0x0, 0xFFFFFFFF, 0x0, 0x0, 0x0, 0x0, 0xFFFFFFFF, 0x0, 22⟩

theorem nbrRow_mem : ∀ k : Fin 2, nbrRow k ∈ regRowsLNK := by decide

section
variable (n : Fin 256) (k : Fin 2)

/-- Where words 0 and 1 of a neighbour entry lie. -/
theorem nbrAddr_lnk : LNK_NBR0.addr n + 4 * k < 0x20088000 ∧ blockOfAddr (LNK_NBR0.addr n + 4 * k) = 8 ∧
    (LNK_NBR0.addr n + 4 * k) % 0x10000 = 0x4000 + 4 * k + 0x40 * n := by
  have hn := n.isLt
  have hk := k.isLt
  unfold blockOfAddr LNK_NBR0.addr
  omega

theorem nbrRow_covers : (nbrRow k).covers ((LNK_NBR0.addr n + 4 * k) % 0x10000) = true := by
  obtain ⟨-, -, hoff⟩ := nbrAddr_lnk n k
  simp [RegRow.covers, nbrRow, hoff]

theorem simpleAddr_nbr : simpleAddr (LNK_NBR0.addr n + 4 * k) = true := by
  obtain ⟨hhi, -, hoff⟩ := nbrAddr_lnk n k
  have hlo : 0x20084000 ≤ LNK_NBR0.addr n := Nat.le_add_right ..
  exact simpleAddr_lnk (by omega) (by omega) (by omega) (nbrRow_mem k) (nbrRow_covers n k)

theorem domainOfReg_nbr : domainOfReg (LNK_NBR0.addr n + 4 * k) = 22 := by
  obtain ⟨-, hblk, hoff⟩ := nbrAddr_lnk n k
  obtain ⟨x, hx, hrow, hlt⟩ := findRow_lnk hblk (nbrRow_mem k) (nbrRow_covers n k)
  obtain ⟨-, hlow, -⟩ := regRowsLNK_low x hx
  have hdom : x.dom = 22 := hlow.resolve_right (by omega)
  unfold domainOfReg
  rw [hrow]
  exact hdom

theorem State.writeEffect_nbr (s : State) (e : Nat) (r : RegRow) (w : Word) :
    s.writeEffect e (LNK_NBR0.addr n + 4 * k) r w = s.nbrWrite n k w := by
  have hn := n.isLt
  have hk := k.isLt
  obtain ⟨-, hblk, hoff⟩ := nbrAddr_lnk n k
  have hentry : (0x4000 + 4 * k.val + 0x40 * n.val - 0x4000) / 64 = n := by omega
  have hword : (0x4000 + 4 * k.val + 0x40 * n.val) % 64 / 4 = k := by omega
  unfold State.writeEffect State.wrLnk
  dsimp only
  rw [hblk, hoff, if_neg (by omega), if_neg (by omega), if_pos rfl, if_neg (by omega), if_pos (by omega), if_pos (by omega),
    hentry, hword]

end

/-- A stack engine that reaches an entry writes its words 0 and 1 by the table's rule. -/
theorem State.writeBy_nbr {s : State} {e : Nat} {n : Fin 256} (h : s.reaches e (LNK_NBR0.addr n)) (k : Fin 2) (w : Word) :
    s.writeBy e 4 (LNK_NBR0.addr n + 4 * k) w = s.nbrWrite n k w := by
  obtain ⟨hao, happ, hon⟩ := h
  have hon' : s.domOn (domainOfReg (LNK_NBR0.addr n + 4 * k)) = true := by
    rw [domainOfReg_nbr, ← domainOfReg_nbr n 0]
    exact hon
  obtain ⟨r, -, hwr⟩ := State.writeBy_simple ⟨hao, happ, hon'⟩ (simpleAddr_nbr n k)
  rw [hwr, State.writeEffect_nbr]

theorem State.nbrWrite_held {s : State} (h : s.lnk.pend.length < 32) (n k : Nat) (w : Word) :
    s.nbrWrite n k w = { s with lnk := { s.lnk with
      pend := s.lnk.pend ++ [(LNK_NBR0.addr n + 4 * k, w &&& (if k = 0 then 0xF000FFFF#32 else 0xFFF0FF00#32))] } } :=
  if_neg (by omega)

theorem State.nbrWrite_full {s : State} (h : ¬s.lnk.pend.length < 32) (n k : Nat) (w : Word) :
    s.nbrWrite n k w = s.raise LNK_EVT.WPEND :=
  if_pos (by omega)

/-- R180: what a write of word `k` of entry `n` holds or refuses. -/
theorem State.nbrWrite_leaves (s : State) (n k : Nat) (w : Word) :
    (if s.lnk.pend.length < 32 then
       (s.nbrWrite n k w).lnk.pend = s.lnk.pend ++
         [(LNK_NBR0.addr n + 4 * k, w &&& (if k = 0 then 0xF000FFFF#32 else 0xFFF0FF00#32))] ∧ KeepsRegs s (s.nbrWrite n k w) []
     else (s.nbrWrite n k w).lnk.pend = s.lnk.pend ∧ (s.nbrWrite n k w).bit LNK_EVT.WPEND = true ∧
       KeepsRegs s (s.nbrWrite n k w) [LNK_EVT.addr]) ∧ KeepsMemory s (s.nbrWrite n k w) := by
  by_cases h : s.lnk.pend.length < 32
  · rw [if_pos h, State.nbrWrite_held h]
    exact ⟨⟨rfl, fun _ _ => rfl⟩, keepsMemory_of_memories rfl⟩
  · rw [if_neg h, State.nbrWrite_full h]
    exact ⟨⟨rfl, s.bit_raise rfl rfl, State.Writes.keepsRegs ((State.Writes.refl s).raise List.mem_cons_self)⟩,
      keepsMemory_of_memories (s.memories_raise _)⟩

/-! ### Writes of the scan (R201, R204) -/

theorem simpleAddr_scan : simpleAddr LNK_SCAN.addr = true := by decide

theorem State.writeEffect_scan (s : State) (e : Nat) (r : RegRow) (w : Word) :
    s.writeEffect e LNK_SCAN.addr r w = s.scanWrite w := rfl

/-- A field that the mask leaves whole reads as before. -/
theorem fieldOf_and_mask (x m : Word) {lo w : Nat} (h : ∀ i < w, m.getLsbD (lo + i) = true) :
    fieldOf (x &&& m) lo w = fieldOf x lo w := by
  apply Nat.eq_of_testBit_eq
  intro i
  rw [testBit_fieldOf, testBit_fieldOf, BitVec.getLsbD_and]
  by_cases hi : i < w
  · rw [h i hi, Bool.and_true]
  · simp [hi]

/-- The waveform that LNK_SCAN takes for a written code (R204). -/
def scanWave (w : Word) : Nat := if waveOk (fieldOf w 16 4) then fieldOf w 16 4 else 2

/-- R204: LNK_SCAN takes its word. -/
def State.scanStored (s : State) (w : Word) : State :=
  (((s.setReg LNK_SCAN.addr (w &&& 0xC0F00000#32)).set LNK_SCAN.WAVE (scanWave w)).set LNK_SCAN.DWELL
    (max 1 (fieldOf w 8 8))).set LNK_SCAN.ROUNDS (fieldOf w 0 8)

/-- R201, R204: the word is stored first, and then the scan that runs ends where RUN is 0. -/
theorem State.scanWrite_eq (s : State) (w : Word) : s.scanWrite w =
    if fieldOf w 31 1 = 0 ∧ s.lnk.scan.isSome then (s.scanStored w).scanStop else s.scanStored w := rfl

/-- The fields of the stored word that LNK_SCAN takes as they are written. -/
theorem State.get_scanStored_masked (s : State) (w : Word) {l : Loc} (ha : l.addr = LNK_SCAN.addr) (hlo : 20 ≤ l.lo)
    (hm : ∀ i < l.w, (0xC0F00000#32).getLsbD (l.lo + i) = true) : (s.scanStored w).get l = fieldOf w l.lo l.w := by
  have hap {k : Loc} (hk : k.lo + k.w ≤ 20) : l.apart k = true := by
    simp only [Loc.apart, Bool.or_eq_true, decide_eq_true_eq]
    omega
  unfold State.scanStored
  rw [State.get_set_apart _ _ (hap (by decide)), State.get_set_apart _ _ (hap (by decide)),
    State.get_set_apart _ _ (hap (by decide)), State.get_setReg_same _ _ ha, fieldOf_and_mask _ _ hm]

theorem scanWave_lt (w : Word) : scanWave w < 16 := by
  have := fieldOf_lt w 16 4
  unfold scanWave
  split <;> omega

/-- What the fields of LNK_SCAN read once the word is stored (R204). -/
theorem State.scanStored_leaves (s : State) (w : Word) :
    (s.scanStored w).get LNK_SCAN.RUN = fieldOf w 31 1 ∧ (s.scanStored w).get LNK_SCAN.SLICE = fieldOf w 20 4 ∧
      (s.scanStored w).get LNK_SCAN.ROUNDS = fieldOf w 0 8 ∧ (s.scanStored w).get LNK_SCAN.WAVE = scanWave w ∧
      (s.scanStored w).get LNK_SCAN.DWELL = max 1 (fieldOf w 8 8) := by
  have hd := fieldOf_lt w 8 8
  refine ⟨s.get_scanStored_masked w rfl (by decide) (by decide),
    s.get_scanStored_masked w rfl (by decide) (by decide), ?_, ?_, ?_⟩
  · exact (State.get_set_same _ _ rfl).trans (Nat.mod_eq_of_lt (fieldOf_lt w 0 8))
  · unfold State.scanStored
    rw [State.get_set_apart _ _ rfl, State.get_set_apart _ _ rfl, State.get_set_same _ _ rfl]
    exact Nat.mod_eq_of_lt (scanWave_lt w)
  · unfold State.scanStored
    rw [State.get_set_apart _ _ rfl, State.get_set_same _ _ rfl]
    exact Nat.mod_eq_of_lt (max_lt (by decide) hd)

theorem State.writes_scanStored (s : State) (w : Word) : s.Writes (inRegs [LNK_SCAN.addr]) (s.scanStored w) := by
  have hm : LNK_SCAN.addr ∈ [LNK_SCAN.addr] := List.mem_cons_self
  exact (((State.Writes.refl s).setReg fun k hk => List.mem_singleton.2 hk).set hm |>.set hm).set hm

/-- The scan that runs ends: its slice is written OFF, and of LNK_SCAN RUN alone changes (R201). -/
theorem State.scanStop_leaves {s : State} {c : Scan} (h : s.lnk.scan = some c) :
    s.scanStop.lnk.scan = none ∧ s.scanStop.get (SLC_CFG.MODE c.slice) = 0 ∧ s.scanStop.get LNK_SCAN.RUN = 0 ∧
      ∀ l : Loc, l.addr = LNK_SCAN.addr → l.apart LNK_SCAN.RUN = true → s.scanStop.get l = s.get l := by
  have hne : LNK_SCAN.addr ≠ SLC_CFG.addr c.slice := by
    unfold LNK_SCAN.addr SLC_CFG.addr
    omega
  have hstop : s.scanStop =
      State.set { s.set LNK_SCAN.RUN 0 with lnk := { s.lnk with scan := none } } (SLC_CFG.MODE c.slice) 0 := by
    have hrun : (s.set LNK_SCAN.RUN 0).lnk.scan = some c := h
    unfold State.scanStop
    dsimp only
    rw [hrun]
    rfl
  rw [hstop]
  refine ⟨rfl, State.get_set_same _ 0 rfl, ?_, fun l ha hap => ?_⟩
  · rw [State.get_set_apart _ _ (Loc.apart_of_addr hne)]
    exact s.get_set_same 0 rfl
  · rw [State.get_set_apart _ _ (Loc.apart_of_addr (ha ▸ hne))]
    exact s.get_set_apart 0 hap

@[simp] theorem State.memories_scanStop (s : State) : s.scanStop.memories = s.memories := by
  unfold State.scanStop
  dsimp only
  split
  · rfl
  · rfl

@[simp] theorem State.memories_scanWrite (s : State) (w : Word) : (s.scanWrite w).memories = s.memories := by
  rw [State.scanWrite_eq]
  split_ifs
  · exact State.memories_scanStop _
  · rfl

/-- A write with RUN 0 ends the scan that runs, and any other write stores its word alone (R201). -/
theorem State.scanWrite_cases (s : State) (w : Word) :
    (∃ c, s.lnk.scan = some c ∧ fieldOf w 31 1 = 0 ∧ s.scanWrite w = (s.scanStored w).scanStop) ∨
      ((∀ c, s.lnk.scan = some c → fieldOf w 31 1 ≠ 0) ∧ s.scanWrite w = s.scanStored w) := by
  rw [State.scanWrite_eq]
  split_ifs with h
  · obtain ⟨hrun, hscan⟩ := h
    obtain ⟨c, hc⟩ := Option.isSome_iff_exists.1 hscan
    exact .inl ⟨c, hc, hrun, rfl⟩
  · exact .inr ⟨fun c hc hrun => h ⟨hrun, Option.isSome_iff_exists.2 ⟨c, hc⟩⟩, rfl⟩

/-- What the fields of LNK_SCAN read after a write, whether or not it ends a scan (R201, R204). -/
theorem State.scanWrite_leaves (s : State) (w : Word) :
    (s.scanWrite w).get LNK_SCAN.RUN = fieldOf w 31 1 ∧ (s.scanWrite w).get LNK_SCAN.SLICE = fieldOf w 20 4 ∧
      (s.scanWrite w).get LNK_SCAN.ROUNDS = fieldOf w 0 8 ∧ (s.scanWrite w).get LNK_SCAN.WAVE = scanWave w ∧
      (s.scanWrite w).get LNK_SCAN.DWELL = max 1 (fieldOf w 8 8) := by
  obtain ⟨c, hc, hrun, ht⟩ | ⟨-, ht⟩ := s.scanWrite_cases w
  · obtain ⟨-, hslice, hrounds, hwave, hdwell⟩ := s.scanStored_leaves w
    obtain ⟨-, -, hstopped, hget⟩ := State.scanStop_leaves (s := s.scanStored w) hc
    rw [ht]
    exact ⟨hstopped.trans hrun.symm, (hget _ rfl rfl).trans hslice, (hget _ rfl rfl).trans hrounds,
      (hget _ rfl rfl).trans hwave, (hget _ rfl rfl).trans hdwell⟩
  · rw [ht]
    exact s.scanStored_leaves w

end Sys2Proof.Machine

open Sys2Proof Sys2Proof.Machine

/-- Settles O27: a write of a neighbour's word is held or refused as the buffer has room, and a write of LNK_SCAN stores its
fields and then ends the scan that runs, where RUN is 0 (R180, R201, R204). -/
theorem linkWritesComplete : Obligations.LinkWritesComplete := by
  refine ⟨fun e n word v s hr => ?_, fun e v s hr => ?_⟩
  · cases word with
    | false => exact ⟨_, congrArg Host.Outcome.next (State.writeBy_nbr hr 0 v), s.nbrWrite_leaves n 0 v⟩
    | true =>
      have haddr : LNK_NBR1.addr n = LNK_NBR0.addr n + 4 * 1 := by
        unfold LNK_NBR1.addr LNK_NBR0.addr
        omega
      have ht : execNbrTableWrite e n true v s = .next (s.nbrWrite n 1 v) := by
        unfold execNbrTableWrite
        rw [if_pos rfl, haddr]
        exact congrArg Host.Outcome.next (State.writeBy_nbr hr 1 v)
      rw [if_pos rfl, haddr]
      exact ⟨_, ht, s.nbrWrite_leaves n 1 v⟩
  · obtain ⟨r, -, hwr⟩ := State.writeBy_simple hr simpleAddr_scan
    obtain ⟨hrun, hslice, hrounds, hwave, hdwell⟩ := s.scanWrite_leaves v
    refine ⟨s.scanWrite v, congrArg Host.Outcome.next ((hwr v).trans (s.writeEffect_scan e r v)), hrun, hslice, hrounds, hwave,
      hdwell, fun hnone => ?_, fun c hc h0 => ?_, keepsMemory_of_memories (s.memories_scanWrite v)⟩
    · obtain ⟨c, hc, -⟩ | ⟨-, ht⟩ := s.scanWrite_cases v
      · exact absurd (hnone.symm.trans hc) nofun
      · rw [ht]
        exact (s.writes_scanStored v).keepsRegs
    · obtain ⟨-, -, -, ht⟩ | ⟨hruns, -⟩ := s.scanWrite_cases v
      · obtain ⟨hended, hoff, -⟩ := State.scanStop_leaves (s := s.scanStored v) hc
        rw [ht]
        exact ⟨hended, hoff⟩
      · exact absurd h0 (hruns c hc)
end
